-- ==== Sys2Proof/Word.lean ====
section
/-! DEFINITION. The two machine words the rest of the model is written with, and their plainest
arithmetic. Register fields and addresses are natural numbers bounded by their field's width;
bytes of memory are 8-bit vectors, as the host's cells hold them. -/

namespace Sys2Proof

/-- A byte of memory. -/
abbrev Byte := BitVec 8

/-- Bits `lo .. lo + w - 1` of `x`. -/
def bits (x lo w : Nat) : Nat := x / 2 ^ lo % 2 ^ w

/-- Bit `i` of `x`. -/
def bit (x i : Nat) : Bool := x.testBit i

/-- A Boolean as a bit. -/
def b2n (b : Bool) : Nat := if b then 1 else 0

/-- Two's-complement reading of the low `w` bits of `x`. -/
def toSigned (w x : Nat) : Int :=
  if x % 2 ^ w < 2 ^ (w - 1) then (x % 2 ^ w : Nat) else (x % 2 ^ w : Nat) - (2 ^ w : Nat)

/-- The low `w` bits of the two's-complement form of `z`. -/
def ofSigned (w : Nat) (z : Int) : Nat := (z % (2 ^ w : Nat)).toNat

/-- `x / d` rounded up. -/
def ceilDiv (x d : Nat) : Nat := (x + d - 1) / d

end Sys2Proof
end

