-- ==== Sys2Proof/Syntax.lean ====
section
/-! DEFINITION. The block's commands: one constructor for each row of the table of operations and
events, with the operands the row's rules need. A context is a tenant number 0-511, or 512 for PF0;
a queue is a context with its queue number. An event that happens outside the block (a pin, a packet,
a completion) carries what the outside supplies. -/

namespace Sys2Proof

/-- Which address space a register access goes through: PF0 BAR0, a tenant's VF BAR0 page, or the
configuration space of a context's function. -/
inductive Space where
  | pf0
  | vf (tenant : Nat)
  | cfg (ctx : Nat)
deriving DecidableEq, Repr

/-- What the error-correcting code reports of one memory read (R73). -/
inductive EccResult where
  | clean | corrected | uncorrectable
deriving DecidableEq, Repr

/-- The status of a PCIe completion (R108). -/
inductive CplStatus where
  | success | unsupported | abort | poisoned
deriving DecidableEq, Repr

/-- What the hardware counted for one attempt (R182, R184): cycles by unit, bytes by path, and the
operations the energy model weighs. -/
structure Usage where
  array : Nat := 0
  vector : Nat := 0
  vision : Nat := 0
  ember : Nat := 0
  hbmRead : Nat := 0
  hbmWrite : Nat := 0
  pcie : Nat := 0
  mac8 : Nat := 0
  mac4 : Nat := 0
  mac16 : Nat := 0
  vecOps : Nat := 0
  shaderOps : Nat := 0
  perf : List (Nat × Nat × Nat) := []   -- Caldera, CE_PERF counter, count (R221, R233)
deriving DecidableEq, Repr

/-- What happens at a Geyser source: its unit fires it, or its input rises or falls (R464, R465). -/
inductive SrcEvent where
  | fire | rise | fall
deriving DecidableEq, Repr

/-- What wakes the device from RETAIN (R558). -/
inductive WakeCause where
  | access | doorbell | timer | calendar | linkDown
deriving DecidableEq, Repr

/-- A firmware slot as the boot ROM finds it: whether its signature chain verifies, its version and
security version, and the SHA-384 of the image (R534). -/
structure FwImage where
  ok : Bool
  version : Nat
  svn : Nat
  digest : Nat
deriving DecidableEq, Repr

/-- What every Tephra instruction carries (R305): the core it executes on (Fumarole c is c, sequencer
i of CEe is 12 + 16e + i, shader core j is 108 + j), its PN and PRED, the OR of its fields that must
be 0, and what its surroundings supply: an uncorrectable word in its fetch, what the code finds in the
local word, cache or tile memory it reads, and the outcome of the health write that a halt of the core
can lead to (R527). [DESIGN CHOICE: log 128] -/
structure TI where
  core : Nat
  ecc : Bool := false
  word : EccResult := .clean
  ok : Bool := true
  pn : Bool := false
  pred : Nat := 0
  zero : Nat := 0
deriving DecidableEq, Repr

/-- The fields of format OP3 (R305); an immediate form uses DST, S1, TYPE and IMM. -/
structure TOp where
  dst : Nat := 0
  s1 : Nat := 0
  s2 : Nat := 0
  s3 : Nat := 0
  typ : Nat := 0
  styp : Nat := 0
  imm : Int := 0
deriving DecidableEq, Repr

/-- The fields of format MEM (R305). -/
structure TMem where
  data : Nat
  base : Nat
  size : Nat
  space : Nat := 0
  off : Int := 0
deriving DecidableEq, Repr

/-- Integer instructions; the last eight take an immediate (R306). -/
inductive IntOp where
  | add | sub | and | or | xor | andn | shl | shr | sra | rol | mul | mulh | mulhu | div | divu | rem
  | remu | min | max | minu | maxu | sel | clz | popc
  | addi | andi | ori | xori | shli | shri | srai | lui
deriving DecidableEq, Repr

/-- Compares and predicate operations (R306). -/
inductive CmpOp where
  | eq | ne | lt | le | ltu | leu | feq | flt | fle | fun_ | pand | por | pxor | pnot
deriving DecidableEq, Repr

/-- Scalar float instructions (R306). -/
inductive FltOp where
  | add | sub | mul | fma | min | max | div | sqrt | cvt | toi | ofi | mv
deriving DecidableEq, Repr

/-- Vector instructions that compute (R306); VCMP* are the ten compares. -/
inductive VecOp where
  | add | sub | mul | fma | min | max | and | or | xor | shl | shr | cmp (op : CmpOp) | sel | cvt | exp2
  | rcp | rsq | bcast | lane | swz
deriving DecidableEq, Repr

/-- What a DisplayPort sink on a head's connector offers (R430): lanes, rate code of R50, a DSC decoder
and the widest slice it accepts, Adaptive-Sync, and the repeaters on the way. -/
structure Sink where
  lanes : Nat
  rate : Nat
  dsc : Bool
  slice : Nat
  async : Bool
  lttprs : Nat
deriving DecidableEq, Repr

/-- What a JTAG debugger does at a core at debug level 2 (R543): halt it, let it execute one instruction,
read or write a general register or a byte of its local memory, or read a byte of HBM. -/
inductive DbgOp where
  | halt
  | step
  | readReg (n : Nat)
  | writeReg (n v : Nat)
  | readMem (off : Nat)
  | writeMem (off : Nat) (b : Byte)
  | readHbm (pa : Nat)
deriving DecidableEq, Repr

/-- The commands, in the order of the table of operations and events. -/
inductive Instr where
  /-- R14. A write to a register field that has no behaviour of its own stores the value, or is ignored for RO fields. -/
  | registerWrite (space : Space) (req addr size val : Nat)
  /-- R592. A STRUCT_CTRL.LOAD write samples source address and length and starts fetching an image, or is rejected with STATE_WRONG in a state that accepts no load. -/
  | structLoad (val : Nat)
  /-- R60. A STRUCT_CTRL.CANCEL write ends a load in FETCHING or VALIDATING within 10 µs and returns STATE to IDLE. -/
  | structCancel (val : Nat)
  /-- R594. The fetch of LEN bytes ends, moving the load to VALIDATING, or to REJECTED with BAD_LAYOUT on a failed read. -/
  | fetchEnd (ok : Bool)
  /-- R58. Validation ends at its first failure with REJECTED, or passes and moves the image to APPLYING. -/
  | validationEnd (sig : Nat)
  /-- R57. In CONFIGURING, FC0 reads a full image from a QSPI slot and validates it. -/
  | flashImageLoad (slots : List (List Nat × Nat))
  /-- R63. The drain limit of a draining partition passes, and every killable running command of the partition is killed. -/
  | drainLimitExpiry (partition : Nat)
  /-- R63. The last command in flight of a draining partition commits or is killed, and the partition's waiting records switch. -/
  | partitionDrained (partition : Nat)
  /-- R74. Every INTERVAL TCLK periods, patrol scrub reads, corrects and writes back the next line of each in-service pseudo-channel. -/
  | scrubRead (pc : Nat) (found : EccResult)
  /-- R75. A row repair completes; REPAIR_LEFT decrements, source 67 fires, and source 68 fires when it reaches 0. -/
  | rowRepaired (pc : Nat)
  /-- R87. A write through a copy-on-write mapping is served in arrival order, either clearing S or copying the unit to a newly charged frame. -/
  | copyOnWrite (ctx va : Nat)
  /-- R89. VF_MAP_CTRL.OP MAP allocates and maps all the pages or none. -/
  | vfMap (ctx val : Nat)
  /-- R89. VF_MAP_CTRL.OP UNMAP removes entries, invalidates caches and decrements reference counts. -/
  | vfUnmap (ctx val : Nat)
  /-- R89. VF_MAP_CTRL.OP SHARE maps a source range again with S = 1 and increments reference counts. -/
  | vfShare (ctx val : Nat)
  /-- R590. A VF_MAP_CTRL request ends and STATUS leaves BUSY. -/
  | mapRequestEnd (ctx : Nat)
  /-- R90. MEM_POWN_CTRL.OP ALLOC takes partition-owned units from a partition's free frames or hot reservation. -/
  | pownAlloc (val : Nat)
  /-- R90. MEM_POWN_CTRL.OP FREE returns partition-owned units to FREE, RETIRED or their hot reservation. -/
  | pownFree (val : Nat)
  /-- R90. MEM_POWN_CTRL.OP MAP maps partition-owned units into a context. -/
  | pownMap (val : Nat)
  /-- R90. MEM_POWN_CTRL.OP UNMAP removes a partition-owned mapping from a context. -/
  | pownUnmap (val : Nat)
  /-- R590. A MEM_POWN_CTRL request ends and RESULT leaves BUSY. -/
  | pownRequestEnd
  /-- R140. A write of VF_TT_CAP replaces the tensor table and its charged frames, or is ignored. -/
  | ttCapWrite (ctx val : Nat)
  /-- R140. A write of VF_TT_READ copies one tensor-table entry into VF_TT_ENTRY0–3. -/
  | ttRead (ctx handle : Nat)
  /-- R296. FC1 finishes writing a victim sequence to the swap arena and unmaps it, and resumes the parked command or fails it. -/
  | victimSwappedOut (ctx : Nat)
  /-- R107. A PCIe port ends a training or retraining, updating HOST_PORT_STATUS and firing LINK_DEGRADED where required. -/
  | linkTrained (port rate width bus : Nat) (flit : Bool)
  /-- R108. A read request Lenane issued gets no completion in 50 ms and fails its command with TIMEOUT. -/
  | completionTimeout (id : Nat)
  /-- R108. A completion arrives for a read Lenane issued, returning data or failing the command on an error status. -/
  | readCompletion (id : Nat) (st : CplStatus)
  /-- R108. A poisoned write from the host is discarded. -/
  | poisonedWrite (port addr val : Nat)
  /-- R117. A memory request to a standby function outside its decoded ranges completes with Unsupported Request. -/
  | standbyRequest (port ctx addr size : Nat)
  /-- R115. A configuration write of VF Enable enables the VFs, or is refused and counted while the device is not ready. -/
  | vfEnable (port numVFs : Nat) (enable : Bool)
  /-- R135. A doorbell write is checked field by field against the held values and updates SQ_TAIL and CQ_HEAD, or is dropped and counted. -/
  | doorbell (ctx q half val : Nat)
  /-- R120. A Data Link Layer down event declares the port down and starts failover of eligible functions. -/
  | dlDown (port : Nat)
  /-- R120. 1 ms without a DLLP on a port in L0 or RECOVERY declares the port down and starts failover. -/
  | dllpTimeout (port : Nat)
  /-- R121. The moves after one declaration complete and source 18 fires once on the new port. -/
  | failoverDone
  /-- R125. HOST_MOVE.SCOPE 1 starts a planned move of one tenant to the target port. -/
  | moveOneTenant (tenant target : Nat)
  /-- R125. HOST_MOVE.SCOPE 2 starts a planned move of every function homed on the other port. -/
  | moveOtherPort (target : Nat)
  /-- R125. HOST_MOVE.SCOPE 3 starts a planned move of PF0 alone. -/
  | movePf0 (target : Nat)
  /-- R121. A planned move completes after the old port's outstanding requests end, flipping the home bit and re-issuing requests. -/
  | moveDone
  /-- R124. A held request has waited HOLD_MS, and the function's waiting killable commands are killed. -/
  | holdExpiry (ctx : Nat)
  /-- R124. A port returns to L0, making held functions reachable again. -/
  | linkUp (port : Nat)
  /-- R126. Assertion of PERST_A_N or PERST_B_N resets only its port, and is a link down for a home port. -/
  | perst (port : Nat)
  /-- R127. A VF Function Level Reset on its home port tears the tenant down and resets its configuration. -/
  | vfFlr (tenant : Nat)
  /-- R127. A PF0 Function Level Reset on its home port tears down every tenant, empties M0–M63 and clears VF Enable. -/
  | pf0Flr
  /-- R127. An FLR on a standby port resets only that port's configuration state for the function. -/
  | standbyFlr (port ctx : Nat)
  /-- R128. A function entering D3hot stops its BAR decoding and MSI-X messages. -/
  | d3hot (port ctx : Nat)
  /-- R133. VF_QCTRL.OP CREATE checks the arguments and makes a DISABLED queue ACTIVE. -/
  | queueCreate (ctx val : Nat)
  /-- R161. VF_QCTRL.OP DESTROY kills the queue's commands, aborts its deferred versions and enters DESTROYING. -/
  | queueDestroy (ctx : Nat)
  /-- R161. After the running in-place command completes, KILLED records are written and the queue becomes DISABLED. -/
  | destroyEnd (ctx q : Nat)
  /-- R158. VF_QCTRL.OP RESUME restarts a STALLED queue at SQ_NEXT. -/
  | queueResume (ctx : Nat)
  /-- R139. A NOP command starts and completes with no body. -/
  | nopCmd (ctx q : Nat)
  /-- R98. A COPY command runs a copy, fill, planar conversion or gather on a copy channel. -/
  | copyCmd (ctx q : Nat)
  /-- R150. TENSOR_DEFINE makes a FREE handle valid with its buffers. -/
  | tensorDefine (ctx q : Nat)
  /-- R150. TENSOR_RELEASE makes a handle FREE. -/
  | tensorRelease (ctx q : Nat)
  /-- R153. FENCE_WAIT reads its fence at start and completes when the fence reaches its value or holds ERROR. -/
  | fenceWait (ctx q : Nat)
  /-- R153. Every 16 µs, or on a signal or doorbell, a waiting fence is read again. -/
  | fencePoll (ctx q : Nat)
  /-- R153. A FENCE_WAIT still unsatisfied after TIMEOUT_US completes with TIMEOUT. -/
  | fenceTimeout (ctx q : Nat)
  /-- R152. FENCE_SIGNAL writes its value to the fence at its commit, after earlier records. -/
  | fenceSignal (ctx q : Nat)
  /-- R147. VERSION_COMMIT commits every listed deferred version in one cycle, or none. -/
  | versionCommit (ctx q : Nat)
  /-- R147. VERSION_ABORT discards every listed deferred version, or none. -/
  | versionAbort (ctx q : Nat)
  /-- R230. MATMUL starts a matrix product on the Calderas. -/
  | matmul (ctx q : Nat)
  /-- R231. VECTOR starts an elementwise or row operation on the vector unit. -/
  | vector (ctx q : Nat)
  /-- R261. CONV starts a direct, Winograd or depthwise convolution. -/
  | conv (ctx q : Nat)
  /-- R262. POOL starts max, average or global pooling. -/
  | pool (ctx q : Nat)
  /-- R263. CROP_RESIZE starts cropping and resampling a box list. -/
  | cropResize (ctx q : Nat)
  /-- R264. ARGMAX starts writing the per-pixel index of the largest channel. -/
  | argmax (ctx q : Nat)
  /-- R265. REGROUP starts space-to-depth or depth-to-space. -/
  | regroup (ctx q : Nat)
  /-- R266. CODEC starts encoding or decoding feature-map planes. -/
  | codec (ctx q : Nat)
  /-- R275. ATTENTION starts a forward or backward attention over plain tensors or sequences, appending tokens where asked. -/
  | attention (ctx q : Nat)
  /-- R268. SEQ_CREATE makes a handle a sequence with a new window. -/
  | seqCreate (ctx q : Nat)
  /-- R294. SEQ_FORK creates a child sequence sharing the parent's pages copy-on-write. -/
  | seqFork (ctx q : Nat)
  /-- R295. SEQ_FREE unmaps a sequence and frees its window once nothing binds it. -/
  | seqFree (ctx q : Nat)
  /-- R297. KV_SWAP_OUT writes a sequence's pages to the swap arena and unmaps it. -/
  | kvSwapOut (ctx q : Nat)
  /-- R298. KV_SWAP_IN maps a swapped sequence's pages again from the arena. -/
  | kvSwapIn (ctx q : Nat)
  /-- R355. VISION_RUN runs one frame through a vision lane in command mode. -/
  | visionRun (ctx q : Nat)
  /-- R362. EMBER_PASS runs a raster pass on Ember. -/
  | emberPass (ctx q : Nat)
  /-- R404. EQX_FRAME runs an up-scaling or generation network for one output frame, or is dropped past DROP_GCNT. -/
  | eqxFrame (ctx q : Nat) (fits : Bool)
  /-- R417. COMPOSE publishes a DIRECT, RE_PRESENT or BLANK frame into a stream's ring. -/
  | compose (ctx q : Nat)
  /-- R449. HEAD_START starts a head's timing, its stream and link training. -/
  | headStart (ctx q : Nat)
  /-- R450. HEAD_STOP stops a head at its next VBLANK_START and powers its link down. -/
  | headStop (ctx q : Nat)
  /-- R456. PORT_START sets frame numbers to 0 and releases a video input port from reset. -/
  | portStart (ctx q : Nat)
  /-- R456. PORT_STOP completes the frame in progress and returns the port to reset. -/
  | portStop (ctx q : Nat)
  /-- R205. An attempt ends; its saturation counts are compared with the threshold and it commits, defers or is re-run wider. -/
  | attemptEnd (ctx q slot : Nat) (use : Usage)
  /-- R144. A command's pending versions become committed in one cycle and its completion record is written. -/
  | commitCmd (ctx q : Nat)
  /-- R148. An in-place command runs past IN_PLACE_LIMIT, is stopped and completes with TIMEOUT. -/
  | inPlaceLimitExpiry (ctx q written : Nat)
  /-- R591. At each epoch boundary, SCALE is recomputed and reservation and fair-share kills are made. -/
  | schedulerEpoch
  /-- R168. The scheduler places a ready batch step on a Caldera, killing victims under the pre-emption rules where needed. -/
  | batchStepPlace
  /-- R166. BATCH_WAIT passes and the scheduler dispatches the partners found so far. -/
  | batchWaitExpiry
  /-- R163. A class 3–7 batch step ready for a further 10 ms counts one class higher. -/
  | aging
  /-- R165. A killable command that has run for RUN_LIMIT is killed and completes with TIMEOUT. -/
  | runLimitExpiry (ctx q : Nat)
  /-- R180. SCH_TENANT.OP TEARDOWN starts a tenant teardown. -/
  | teardown (tenant val : Nat)
  /-- R180. A tenant teardown ends and source 133 fires. -/
  | teardownDone (tenant : Nat)
  /-- R185. Every 600 s, and at bring-up end and throttle steps, FC11 recalibrates K. -/
  | energyCalibration (idle modelled : Nat)
  /-- R524. CE_CTRL.OP REMOVE drains a Caldera out of service. -/
  | ceRemove (ce val : Nat)
  /-- R524. A draining Caldera's in-place command ends and the Caldera becomes OUT_OF_SERVICE. -/
  | removeEnd (ce : Nat)
  /-- R524. CE_CTRL.OP TEST runs logic and memory self-test on an out-of-service Caldera. -/
  | ceTest (ce val : Nat)
  /-- R524. CE_CTRL.OP RETURN reloads a tested Caldera's firmware and zeroes its SRAM. -/
  | ceReturn (ce val : Nat)
  /-- R524. A returning Caldera's reload ends and it joins service at the next epoch. -/
  | reloadEnd (ce : Nat)
  /-- R224. A free sequencer binds to a waiting slot and starts its firmware program. -/
  | sequencerBind (ce : Nat)
  /-- R222. Zeroing of a freed slot region completes and the region can be given out. -/
  | regionZeroed (ce slot : Nat)
  /-- R233. A command has waited 1 ms for a slot region and the source fires. -/
  | regionWait (ctx q : Nat)
  /-- R233. A parity error in a weight register or accumulator kills the attempt and takes the Caldera out of service. -/
  | arrayParity (ce slot : Nat)
  /-- R233. A bound sequencer retires no instruction for 1 ms and is handled as an unhandled exception. -/
  | seqWatchdog (ce sq : Nat)
  /-- R327. An array pass, DMA, vector or operator run ends and adds 1 to its token. -/
  | unitEnd (core n : Nat) (ecc : EccResult) (mem bank off : Nat)
  /-- R306. A Tephra NOP executes. -/
  | nopInstruction (i : TI)
  /-- R307. An integer instruction computes with wrapping arithmetic. -/
  | tInteger (i : TI) (op : IntOp) (o : TOp)
  /-- R306. A compare or predicate instruction writes a predicate. -/
  | compareToPredicate (i : TI) (op : CmpOp) (o : TOp)
  /-- R308. A scalar float instruction computes in FP32 under MODE.RM and ORs FFLAGS. -/
  | scalarFloat (i : TI) (op : FltOp) (o : TOp)
  /-- R305. LD loads and sign-extends a value. -/
  | tLd (i : TI) (m : TMem)
  /-- R305. LDU loads and zero-extends a value. -/
  | tLdu (i : TI) (m : TMem)
  /-- R305. ST stores a value. -/
  | tSt (i : TI) (m : TMem)
  /-- R306. The FENCE instruction orders memory accesses. -/
  | tFence (i : TI)
  /-- R306. AMOADD performs an atomic add on a Fumarole. -/
  | amoadd (i : TI) (m : TMem)
  /-- R306. AMOSWAP performs an atomic swap on a Fumarole. -/
  | amoswap (i : TI) (m : TMem)
  /-- R306. AMOCAS performs an atomic compare-and-swap on a Fumarole. -/
  | amocas (i : TI) (m : TMem)
  /-- R306. AMOMAX performs an atomic maximum on a Fumarole. -/
  | amomax (i : TI) (m : TMem)
  /-- R310. BR branches after one delay slot and optionally writes LINK. -/
  | tBr (i : TI) (link treg cond : Nat) (off : Int)
  /-- R313. LOOP sets up a hardware loop. -/
  | loopSetup (i : TI) (lp cnt imm len : Nat)
  /-- R316. MTMODE arms a mode change that takes effect after a two-instruction shadow. -/
  | mtmode (i : TI) (s1 : Nat)
  /-- R303. MFCR reads a control register. -/
  | mfcr (i : TI) (dst code : Nat)
  /-- R303. MTCR writes a control register. -/
  | mtcr (i : TI) (s1 code : Nat)
  /-- R321. ERET restores MODE and loop state and returns to EPC. -/
  | tEret (i : TI)
  /-- R319. TRAP raises exception cause TRAP. -/
  | tTrap (i : TI) (code : Nat)
  /-- R326. BREAK halts the core when debug is unlocked, or acts as TRAP. -/
  | brk (i : TI) (code : Nat)
  /-- R306. WFI waits for an interrupt on a Fumarole. -/
  | tWfi (i : TI)
  /-- R470. A Fumarole takes an eligible interrupt at an instruction boundary, and Geyser sets the ACTIVE level. -/
  | interruptTake (fc : Nat) (ok : Bool)
  /-- R328. ARR.LOAD loads a weight tile and its tap values into the idle weight register. -/
  | arrLoad (i : TI) (o : TOp)
  /-- R328. ARR.PASS runs one array pass. -/
  | arrPass (i : TI) (o : TOp)
  /-- R328. ARR.DRAIN drains accumulator rows through the quantiser. -/
  | arrDrain (i : TI) (o : TOp)
  /-- R328. VEC.RUN runs one vector-unit operation. -/
  | vecRun (i : TI) (o : TOp)
  /-- R328. OPU.RUN runs one operator-unit step. -/
  | opuRun (i : TI) (o : TOp)
  /-- R328. DMA.IN moves data from memory into the slot region. -/
  | dmaIn (i : TI) (o : TOp)
  /-- R328. DMA.OUT moves data from the slot region to pending versions. -/
  | dmaOut (i : TI) (o : TOp)
  /-- R327. TOK.SIG adds n to a token counter. -/
  | tokSig (i : TI) (s1 n : Nat)
  /-- R327. TOK.WAIT stalls until a token reaches n and subtracts it, or raises TOKEN_OVERFLOW or DMA_FAULT. -/
  | tokWait (i : TI) (s1 n : Nat)
  /-- R327. TOK.CLR sets a token counter and its flags to 0. -/
  | tokClr (i : TI) (s1 : Nat)
  /-- R328. SEQ.END ends the slot's program and passes the command to its end. -/
  | seqEnd (i : TI) (s1 : Nat)
  /-- R308. A vector arithmetic instruction acts on the active lanes. -/
  | vectorArithmetic (i : TI) (op : VecOp) (o : TOp)
  /-- R330. VLD loads each active lane from its address. -/
  | vld (i : TI) (o : TOp) (size : Nat)
  /-- R387. VST stores each active lane directly to memory, unversioned. -/
  | vst (i : TI) (o : TOp) (size : Nat)
  /-- R331. TEX samples a texture descriptor, or reads a tile target for TILE_READ. -/
  | tex (i : TI) (o : TOp)
  /-- R331. TEXL samples a texture at an explicit level of detail. -/
  | texl (i : TI) (o : TOp)
  /-- R332. ILK.ACQ stalls each lane until earlier primitives at its pixel release it. -/
  | ilkAcq (i : TI)
  /-- R332. ILK.REL releases the lane's interlock. -/
  | ilkRel (i : TI)
  /-- R332. An ILK.ACQ waits 1 ms and raises INTERLOCK_TIMEOUT. -/
  | interlockTimeout (core : Nat)
  /-- R333. EXP.C writes a colour target through the blend stage. -/
  | expC (i : TI) (k vs : Nat)
  /-- R333. EXP.MV writes the motion vector. -/
  | expMv (i : TI) (vs : Nat)
  /-- R333. EXP.Z replaces the rasterised depth. -/
  | expZ (i : TI) (vs : Nat)
  /-- R333. DISCARD ends the active lanes with no output. -/
  | tDiscard (i : TI)
  /-- R333. EXP.END ends the active lanes and applies their exports. -/
  | expEnd (i : TI)
  /-- R350. A VIS_CTRL.ENABLE write of 1 from 0 clears k and the counters and enters route mode. -/
  | visEnable (lane : Nat)
  /-- R350. A VIS_CTRL.ENABLE write of 0 stops the units at their next run boundary. -/
  | visDisable (lane : Nat)
  /-- R349. A VIS_TRIG_ADD write adds its count to TRG_PYR. -/
  | visTrigAdd (lane val : Nat)
  /-- R351. An idle pyramid unit with a count starts a run, or finds the wrong FRAME and fires INPUT_MISSING. -/
  | pyramidRunStart (lane : Nat)
  /-- R350. A pyramid run ends, releases its input entry and adds 1 to TRG_MOT. -/
  | pyrDone (lane : Nat) (ecc : Bool)
  /-- R349. An idle motion unit with a count starts a run. -/
  | motionRunStart (lane : Nat)
  /-- R350. A motion run ends and adds 1 to TRG_REF. -/
  | motDone (lane : Nat) (ecc : Bool)
  /-- R349. An idle refine unit with a count starts a run. -/
  | refineRunStart (lane : Nat)
  /-- R350. A refine run ends, completes its output entry and adds 1 to routed streams' counters. -/
  | frameDone (lane : Nat) (ecc : Bool)
  /-- R400. At a stream's issue point, FC9 takes the trigger counts and issues UPSCALE, GENERATE or nothing. -/
  | issuePoint (stream : Nat)
  /-- R416. At event A of a stripe, the age check runs and FC10 writes a COMPOSE into M0 when no frame qualifies. -/
  | lineMatchA (head : Nat)
  /-- R410. At event B of a stripe, the warp stage selects a slot, samples GCNT and starts the warp, or waits. -/
  | lineMatchB (head : Nat)
  /-- R410. A stripe's warp and composite complete and its stripe-ring entry is marked complete. -/
  | stripeWarpDone (head : Nat)
  /-- R422. EQX_STREAM_CTRL.OP START starts a memory stream. -/
  | eqxStart (stream val : Nat)
  /-- R422. EQX_STREAM_CTRL.OP STOP stops a memory stream. -/
  | eqxStop (stream val : Nat)
  /-- R413. EQX_HOMOG_CTRL.COMMIT copies the staged homography to the active matrix. -/
  | homogCommit (stream val : Nat)
  /-- R421. A write of EQX_MEM_READ.CONSUMED reports frames consumed by the host, or is ignored. -/
  | eqxMemReadWrite (stream val : Nat)
  /-- R420. A write of EQX_LAYER_FLIP makes named layers' staging active at the next VBLANK_START. -/
  | layerFlip (head val : Nat)
  /-- R434. HPD rises after a low time of 0.25–2 ms, which is an IRQ_HPD that reads link status. -/
  | hpdRise (head : Nat) (lost : Bool)
  /-- R434. HPD low for 2 ms declares an unplug and the head enters WAIT_SINK. -/
  | unplug (head : Nat)
  /-- R434. HPD high for 2 ms declares a plug and starts training of a running head. -/
  | plug (head : Nat) (sink : Sink)
  /-- R430. A link training attempt succeeds or fails and the ladder steps on. -/
  | trainingAttemptEnd (head : Nat) (ok : Bool) (held : Nat)
  /-- R435. DSP_AUX_CTRL.OP starts a host AUX transaction. -/
  | auxStart (head val : Nat)
  /-- R435. An AUX transaction ends with a reply, NACK, defer limit or timeout. -/
  | auxDone (head res : Nat) (reply : List Byte)
  /-- R440. Line V_ACTIVE begins; staged values, flips and plan switches take effect and the next refresh's fetch begins. -/
  | vblankStart (head : Nat)
  /-- R439. A head line equals comparator C or D and its source fires. -/
  | lineMatch (head : Nat) (d : Bool)
  /-- R439. The last active pixel of a refresh leaves the pixel pipe. -/
  | headFrameDone (head : Nat)
  /-- R448. At line 0, the frame lock samples its error and sets d or TRIM. -/
  | line0 (head : Nat)
  /-- R445. The pixel pipe needs a pixel from an empty FIFO; the rest of the refresh is sent black. -/
  | underrun (head line pixel : Nat)
  /-- R444. A write of DSP_PLANE_FLIP makes named planes' staged registers active at the next VBLANK_START. -/
  | planeFlip (head val : Nat)
  /-- R453. A CSI-2 Frame Start begins a frame on a virtual channel, or drops it when no entry is free. -/
  | frameStart (port vc : Nat)
  /-- R453. A CSI-2 long packet fills a line of the frame, or damages it. -/
  | longPacket (port vc dt : Nat) (payload : List Byte) (ecc : EccResult) (crcOk : Bool)
  /-- R454. A CSI-2 Frame End publishes the frame, writes FRAME and triggers the lane. -/
  | frameEnd (port vc : Nat)
  /-- R451. A Line Start, Line End or generic short packet is ignored. -/
  | shortPacket (port vc dt : Nat) (ecc : EccResult)
  /-- R455. A write of VIN_VC_REL.RELEASED releases ring entries, or is ignored. -/
  | vinVcRelWrite (port vc half val : Nat)
  /-- R464. A unit fires a Geyser source or its input rises, setting its pending bit and counting in its group. -/
  | sourceFire (src : Nat) (ev : SrcEvent)
  /-- R465. A W1C write of GEY_PEND clears pending bits and holds level sources. -/
  | geyPendWrite (word val : Nat)
  /-- R469. A W1S write of GEY_PEND_SET sets pending bits as events. -/
  | geyPendSetWrite (word val : Nat)
  /-- R463. A write of GEY_TGT_COMPLETE clears an ACTIVE level and re-samples held sources. -/
  | geyTgtComplete (target level : Nat)
  /-- R468. A write of GEY_GRP sets a group's COUNT and TIME and opens it when already met. -/
  | geyGrpWrite (group val : Nat)
  /-- R477. A tenant's W1C write of VF_GEY_PEND clears its pending bits. -/
  | vfGeyPendWrite (tenant val : Nat)
  /-- R469. A tenant's W1S write of VF_GEY_SET sets its own pending bits. -/
  | vfGeySetWrite (tenant val : Nat)
  /-- R477. A tenant's write of VF_GEY_COMPLETE completes a level of its target. -/
  | vfGeyComplete (tenant level : Nat)
  /-- R467. A coalescing group's elapsed time reaches TIME and the group opens. -/
  | groupTimeExpiry (group : Nat)
  /-- R481. At each GCNT multiple of 102,400, a leader or repeater sends a sync frame. -/
  | syncFrameSend
  /-- R484. A received sync frame is validated and the follower steps or trims GCNT. -/
  | syncFrame (frame l : Nat)
  /-- R484. 16 frame periods without a valid frame move a follower to HOLDOVER. -/
  | holdover
  /-- R483. A write of TIM_CTRL changes sync mode or enable and ends the current state. -/
  | timCtrlWrite (val : Nat)
  /-- R489. An enabled comparator reaches its TARGET, fires, and reloads or clears ENABLE. -/
  | comparatorExpiry (c : Nat)
  /-- R490. A write of TIM_CMP_TARGET replaces the target at the next TCLK edge. -/
  | timCmpTargetWrite (c half val : Nat)
  /-- R490. A write of TIM_CMP_RELOAD takes effect at the next expiry or at once. -/
  | timCmpReloadWrite (c half val : Nat)
  /-- R480. A 32-bit read of TIM_GCNT latches or consumes the high half per requester. -/
  | timGcntRead (req half : Nat)
  /-- R491. A crystal tick advances SUBSEC and the date, loads a pending stage, or wraps. -/
  | calendarTick
  /-- R493. CAL_CTRL.LOAD validates CAL_STAGE and makes it pending, or rejects it with BADDATE. -/
  | calLoad
  /-- R494. VDD_AON returns after loss of VDD_AON and VBAT, and the calendar restarts invalid. -/
  | calInvalid
  /-- R496. A read of TIM_RNG_OUT_LO returns out[63:0], latches the high half and advances the index. -/
  | timRngOutLoRead
  /-- R496. A write of a generator input register recomputes OUT within 16 CCLK. -/
  | timRngInputWrite (which half val : Nat)
  /-- R501. The root PLL locks, GCNT starts and the device enters ROM. -/
  | pllLock
  /-- R555. The root PLL has not locked 0.5 ms after reset release, and the device reports FAILED with PLL_LOCK. -/
  | pllLockTimeout
  /-- R555. A loss of lock acts as RESET_N and sets PLL_LOST. -/
  | pllLost
  /-- R505. The ROM authenticates firmware and multicasts it; cores check their sections and start, and the device enters FW_LOADED. -/
  | firmwareMulticast (fw : List FwImage) (dead : List Nat)
  /-- R502. In FW_LOADED, FC0 checks the health record and chooses the warm or cold path. -/
  | pathChosen (certs : Bool)
  /-- R506. Every HBM stack reads DONE or FAILED and TRAINING ends. -/
  | trainingDone (hbms : List (Nat × Nat × Nat)) (spares : List Nat)
  /-- R508. A full, abbreviated or channel memory test ends. -/
  | memtestDone (rows : List Nat)
  /-- R514. Self-test of every unit ends, the floor plan is built and the health record written. -/
  | checkingDone (words : List Nat) (ok : Bool)
  /-- R512. FC11 writes a new signed health record, firing HEALTH_WRITTEN or HEALTH_WRITE_FAIL. -/
  | healthRecordWrite (ok : Bool)
  /-- R527. BRG_CTRL.OP RESTART writes the health record and resets the device. -/
  | brgRestart (val : Nat) (ok : Bool)
  /-- R512. A write of BRG_CTRL.NEXT_FULL writes FULL_REQUESTED into the health record. -/
  | nextFullWrite (val : Nat) (ok : Bool)
  /-- R520. BRG_PC_CTRL.OP RETIRE starts moving a channel's allocations out and retiring it. -/
  | pcRetire (val : Nat)
  /-- R520. A retirement move ends with the channel RETIRED, or stops with NO_ROOM. -/
  | retireEnd (pc : Nat)
  /-- R521. BRG_PC_CTRL.OP TEST runs the memory test on a retired channel. -/
  | pcTest (val : Nat)
  /-- R521. BRG_PC_CTRL.OP RETURN puts a tested channel back as a one-channel set. -/
  | pcReturn (val : Nat)
  /-- R528. BRG_PART_RESET.OP RESET tears down and resets one partition. -/
  | partitionReset (val : Nat)
  /-- R528. A partition reset completes and source 6 fires. -/
  | partResetDone
  /-- R526. A halted Fumarole is reset and reloaded and runs again. -/
  | fumaroleRestarted (fc : Nat) (ok : Bool)
  /-- R538. An SPDM GET_VERSION request is answered. -/
  | getVersion (port ctx : Nat)
  /-- R538. An SPDM GET_CAPABILITIES request is answered. -/
  | getCapabilities (port ctx : Nat)
  /-- R538. An SPDM NEGOTIATE_ALGORITHMS request is answered or refused with InvalidRequest. -/
  | negotiateAlgorithms (port ctx asym hash spec : Nat)
  /-- R538. An SPDM GET_DIGESTS request is answered. -/
  | getDigests (port ctx : Nat)
  /-- R533. An SPDM GET_CERTIFICATE request returns part of the slot 0 chain. -/
  | getCertificate (port ctx slot off len : Nat)
  /-- R538. An SPDM CHALLENGE request is queued for signing. -/
  | challenge (port ctx slot summary : Nat)
  /-- R540. An SPDM GET_MEASUREMENTS request samples the measurement blocks. -/
  | getMeasurements (port ctx slot index : Nat) (sign : Bool)
  /-- R538. An SPDM request outside the subset receives ERROR UnsupportedRequest. -/
  | unsupportedRequest (port ctx code : Nat)
  /-- R539. The signing engine completes a signed SPDM response. -/
  | signedResponse
  /-- R532. A function key reissue ends and source 642 fires. -/
  | attestReissued (ctx : Nat)
  /-- R537. SEC_ARB_CTRL.OP RAISE_FW raises FW_SVN_FLOOR. -/
  | raiseFw
  /-- R537. SEC_ARB_CTRL.OP RAISE_STRUCT programs the next STRUCT_FLOOR step. -/
  | raiseStruct
  /-- R536. SEC_OWNER_CTRL.OP PROGRAM programs the first owner root slot. -/
  | ownerProgram (val : Nat)
  /-- R536. A fuse programming operation ends and RESULT leaves BUSY. -/
  | fuseProgramDone
  /-- R545. SEC_DBG_CTRL.OP NONCE generates a new debug nonce. -/
  | dbgNonce
  /-- R545. SEC_DBG_CTRL.OP SUBMIT fetches and checks a debug token, accepting or rejecting it. -/
  | dbgSubmit (sig : Nat)
  /-- R546. SEC_DBG_CTRL.OP LOCK sets debug level 0. -/
  | dbgLock
  /-- R546. The debug level is set after any LEVEL 2 resets complete, and source 640 fires. -/
  | debugState
  /-- R552. A low pulse of RESET_N of 1 µs or more resets the device. -/
  | resetNAssert (ns : Nat)
  /-- R553. RESET_N rises, straps are sampled and bring-up begins. -/
  | resetNRelease (host smb test : Nat)
  /-- R551. A fall of PWR_OK acts as an assertion of RESET_N. -/
  | pwrOkFall
  /-- R551. A rail below 90 % of its value acts as an assertion of RESET_N. -/
  | brownOut
  /-- R558. PWR_CTRL.OP RETAIN enters RETAIN, or is refused with STATE_WRONG. -/
  | pwrRetain (val : Nat)
  /-- R558. RETAIN entry completes after engines power off and Geyser state is saved. -/
  | retainEntered
  /-- R559. An access, doorbell, enabled source or link loss in RETAIN starts a wake, or aborts an entry. -/
  | wakeEvent (cause : WakeCause) (ok : Bool)
  /-- R559. The last HBM stack leaves self-refresh and the device is ACTIVE. -/
  | wakeDone
  /-- R562. At the end of each 1 ms window, the throttle level is raised, held or lowered. -/
  | throttleWindowEnd (mw idle modelled : Nat)
  /-- R562. PWR_ALERT_N falls or rises, applying or lifting the ALERT_LEVEL floor. -/
  | pwrAlertNChange (low : Bool) (idle modelled : Nat)
  /-- R562. Every 100 µs, temperature sensors are sampled and thresholds fire TEMP_HIGH, TEMP_CRIT or HBM_HOT. -/
  | tempSample (temps : List Int) (idle modelled : Nat)
  /-- R564. A junction at 125 °C or a stack at 105 °C stops the clocks and drives THERM_TRIP_N low. -/
  | thermTrip
  /-- R549. FC11 adjusts VDD_CORE over AVSBus, firing VR_FAULT when the regulator faults or does not answer. -/
  | avsAdjust (mv : Nat) (ok : Bool)
  /-- R570. An SMBus Block Read with command 0x00 returns the 16-byte status block. -/
  | smbusStatusRead
  /-- R578. SMBus command 0x10 starts a self-test. -/
  | smbusStartTest (b0 b1 : Nat)
  /-- R578. SMBus command 0x11 returns the last SMBus test's result. -/
  | smbusTestResult
  /-- R577. TST_CTRL.OP START starts a test of one unit. -/
  | tstStart (val : Nat)
  /-- R575. An LBIST or MBIST run ends; the unit passes or fails and TEST_DONE or TEST_FAIL fires. -/
  | testEnd (cls idx misr : Nat) (bad : Option (Nat × Nat × Nat))
  /-- R579. JTAG BYPASS selects the 1-bit register. -/
  | bypass (code : Nat)
  /-- R580. JTAG IDCODE selects the 32-bit identification register. -/
  | idcode
  /-- R579. JTAG SAMPLE/PRELOAD selects the boundary register. -/
  | samplePreload (load : Nat)
  /-- R581. JTAG EXTEST selects the boundary register and holds the device in reset. -/
  | extest (load : Nat)
  /-- R581. JTAG CLAMP holds outputs and holds the device in reset. -/
  | clamp
  /-- R581. JTAG HIGHZ floats outputs and holds the device in reset. -/
  | highz
  /-- R581. JTAG EXTEST_PULSE tests AC-coupled pairs and holds the device in reset. -/
  | extestPulse (load : Nat)
  /-- R581. JTAG EXTEST_TRAIN tests AC-coupled pairs and holds the device in reset. -/
  | extestTrain (load : Nat)
  /-- R579. JTAG SELFTEST starts a self-test at Update. -/
  | selftest (data : Nat)
  /-- R579. JTAG TESTRESULT returns the last test's result. -/
  | testresult
  /-- R545. JTAG DBG_TOKEN submits a debug token at Update. -/
  | dbgToken (token : List Byte) (sig : Nat)
  /-- R579. JTAG DBG_OBSERVE reads performance counters and trace at debug level 1. -/
  | dbgObserve
  /-- R543. JTAG DBG_CORE halts, steps and accesses cores at debug level 2. -/
  | dbgCore (core : Nat) (op : DbgOp)
  /-- R581. The TAP enters Test-Logic-Reset and a device held by an EXTEST-class instruction restarts from RESET. -/
  | testLogicReset
  /-- R115. A read of RDY_STATUS returns and clears VF_REFUSALS. -/
  | rdyStatusRead (half : Nat)
  /-- R115. A read of RDY_DROPS returns and clears the dropped doorbell count. -/
  | rdyDropsRead (half : Nat)
  /-- R60. A read of STRUCT_STATUS returns and clears REFUSED. -/
  | structStatusRead (half : Nat)
  /-- R73. A read of MEM_PC_STATUS returns and clears CE_COUNT and UE_COUNT. -/
  | memPcStatusRead (pc half : Nat)
  /-- R135. A read of VF_QCTRL returns and clears BAD_DOORBELLS. -/
  | vfQctrlRead (ctx half : Nat)
  /-- R120. A read of HOST_PORT_STATUS returns and clears DOWNS. -/
  | hostPortStatusRead (port half : Nat)
  /-- R173. A read of SCH_CE_STATUS returns and clears PREEMPT_KILLS. -/
  | schCeStatusRead (ce half : Nat)
  /-- R223. A read of CE_SRAM_ERR returns and clears its error counts. -/
  | ceSramErrRead (ce half : Nat)
  /-- R105. A read of CE_CODEC_ERR returns and clears its count. -/
  | ceCodecErrRead (ce : Nat)
  /-- R363. A read of EMB_ERR returns and clears its error counts. -/
  | embErrRead (half : Nat)
  /-- R431. A read of DSP_LINK returns and clears RETRAINS. -/
  | dspLinkRead (head half : Nat)
  /-- R446. A read of DSP_UNDERRUN returns and clears COUNT. -/
  | dspUnderrunRead (head half : Nat)
  /-- R453. A read of VIN_ERR returns and clears its counts. -/
  | vinErrRead (port half : Nat)
  /-- R475. A read of GEY_RET returns and clears RESTORES. -/
  | geyRetRead (half : Nat)
  /-- R462. A read of GEY_TGT or VF_GEY_TGT returns and clears SPURIOUS. -/
  | geyTgtRead (target half : Nat)
  /-- R482. A read of TIM_SYNC_STATUS returns and clears FRAMES_BAD and STEPS. -/
  | timSyncStatusRead (half : Nat)
  /-- R489. A read of TIM_CMP_CTRL returns and clears MISSED. -/
  | timCmpCtrlRead (c : Nat)
  /-- R403. A read of EQX_STREAM_STAT returns and clears its counts. -/
  | eqxStreamStatRead (stream half : Nat)
  /-- R418. A read of EQX_STREAM_STAT2 returns and clears its counts. -/
  | eqxStreamStat2Read (stream half : Nat)
  /-- R510. A read of BRG_MEMTEST returns and clears its row and channel counts. -/
  | brgMemtestRead (half : Nat)
  /-- R545. A read of SEC_STATUS returns and clears TOKENS_REJECTED. -/
  | secStatusRead (half : Nat)
  /-- R559. A read of PWR_STATUS returns and clears WAKES. -/
  | pwrStatusRead (half : Nat)
  /-- R577. A read of TST_UNIT returns and clears RUNS. -/
  | tstUnitRead (cls idx : Nat)
  /-- R457. A D-PHY start-of-transmission, deskew or lane synchronisation error on a video input port fires PHY_ERROR. -/
  | phyError (port : Nat)
  /-- R527. A fatal fabric error is a device-wide fault that writes the health record and resets the device, or enters FAILED with RESTART_LIMIT. -/
  | fatalFabricError (ok : Bool)
  /-- R124. A configuration write that sets Bus Master Enable on a function's home port in L0 makes the function reachable, releasing held requests and re-running killed commands. -/
  | busMasterEnableWrite (port ctx : Nat) (on : Bool)
  /-- R472. A write that clears the Function Mask or a Vector Control mask in the home port's MSI-X table sends the pending message and clears its PBA bit. -/
  | msixMaskWrite (port ctx : Nat) (vec : Option Nat) (masked : Bool)
  /-- R449. A HEAD_START that waited for LOCK_GCNT starts the head's timing generator and stream and writes its completion record when line 0 will fall on LOCK_GCNT. -/
  | timingGeneratorStart (head : Nat)
  /-- R442. The fetch's last read of a stripe frees its stripe-ring entry, and a stripe selected at event B that waits for that entry then starts its warp. -/
  | stripeEntryFreed (head : Nat)
deriving DecidableEq, Repr

end Sys2Proof
end

