-- ==== Sys2Proof/Decode.lean ====
section
/-! DEFINITION. The block decodes no instruction words: the table of operations and events gives its rows no
bits. -/

namespace Sys2Proof

/-- The command a word spells by the table's bits: the table gives none of its rows any. [DEDUCED: log 4] -/
def decodeTableWord (nbits w : Nat) : Option Instr :=
  match nbits, w with
  | _, _ => none

end Sys2Proof
end

