-- ==== Sys2Proof/Machine/Numbers.lean ====
section
/-! DEFINITION. Number formats: exact values, the eleven element formats, scales, narrowing with
saturation, FP32 arithmetic rounded toward zero and the function units (R187-R195, R228). -/

namespace Sys2Proof.Machine

/-- An exact value: NaN, an infinity, or (-1)^neg * n / d * 2^e with d above 0. [DESIGN CHOICE: log 96] -/
inductive Val where
  | nan
  | inf (neg : Bool)
  | fin (neg : Bool) (n d : Nat) (e : Int)
deriving DecidableEq, Repr

def Val.zero : Val := .fin false 0 1 0
def Val.one : Val := .fin false 1 1 0
def Val.ofNat (n : Nat) : Val := .fin false n 1 0
def Val.ofInt (z : Int) : Val := .fin (decide (z < 0)) z.natAbs 1 0

def Val.neg : Val → Val
  | .nan => .nan
  | .inf s => .inf !s
  | .fin s n d e => .fin (!s) n d e

def Val.isNaN : Val → Bool | .nan => true | _ => false
def Val.isZero : Val → Bool | .fin _ 0 _ _ => true | _ => false
def Val.sign : Val → Bool | .nan => false | .inf s => s | .fin s _ _ _ => s

/-- `2^(e - f)` for `f ≤ e`. -/
def pow2 (e f : Int) : Nat := 2 ^ (e - f).toNat

/-- The exact product; 0 times an infinity is NaN (R195). -/
def Val.mul : Val → Val → Val
  | .nan, _ => .nan
  | _, .nan => .nan
  | .inf a, .inf b => .inf (a != b)
  | .inf a, .fin b n _ _ => if n = 0 then .nan else .inf (a != b)
  | .fin a n _ _, .inf b => if n = 0 then .nan else .inf (a != b)
  | .fin a n d e, .fin b m c f => .fin (a != b) (n * m) (d * c) (e + f)

/-- The exact quotient. -/
def Val.div : Val → Val → Val
  | .nan, _ => .nan
  | _, .nan => .nan
  | .inf _, .inf _ => .nan
  | .inf a, .fin b _ _ _ => .inf (a != b)
  | .fin a _ _ _, .inf b => .fin (a != b) 0 1 0
  | .fin a n d e, .fin b m c f =>
    if m = 0 then (if n = 0 then .nan else .inf (a != b)) else .fin (a != b) (n * c) (d * m) (e - f)

/-- The exact sum; an exact 0 from values of unlike sign is +0, and infinity less infinity is NaN. [DEDUCED: log 97] -/
def Val.add : Val → Val → Val
  | .nan, _ => .nan
  | _, .nan => .nan
  | .inf a, .inf b => if a = b then .inf a else .nan
  | .inf a, .fin _ _ _ _ => .inf a
  | .fin _ _ _ _, .inf b => .inf b
  | .fin a n d e, .fin b m c f =>
    let g := min e f
    let x := n * c * pow2 e g
    let y := m * d * pow2 f g
    if a = b then .fin a (x + y) (d * c) g
    else if x = y then .fin false 0 1 0
    else if y < x then .fin a (x - y) (d * c) g
    else .fin b (y - x) (d * c) g

def Val.sub (x y : Val) : Val := x.add y.neg

/-- Strict order on values that are not NaN; -0 lies below +0. -/
def Val.lt : Val → Val → Bool
  | .nan, _ => false
  | _, .nan => false
  | .inf a, .inf b => a && !b
  | .inf a, .fin _ _ _ _ => a
  | .fin _ _ _ _, .inf b => !b
  | .fin a n d e, .fin b m c f =>
    let g := min e f
    let x := n * c * pow2 e g
    let y := m * d * pow2 f g
    match a, b with
    | false, false => decide (x < y)
    | true, true => decide (y < x)
    | true, false => true
    | false, true => false

/-- Strict order as numbers: the two zeros are equal. -/
def Val.ltNum (x y : Val) : Bool := x.lt y && !(x.isZero && y.isZero)

/-- Max and min return NaN when an input is NaN (R195). -/
def Val.max (x y : Val) : Val := if x.isNaN || y.isNaN then .nan else if x.lt y then y else x
def Val.min (x y : Val) : Val := if x.isNaN || y.isNaN then .nan else if y.lt x then y else x

/-- Argmax ranks NaN above every number (R195). -/
def Val.argLt (x y : Val) : Bool := if x.isNaN then false else if y.isNaN then true else x.ltNum y

/-- The magnitude truncated to an integer, with the value's sign; `none` for NaN and infinities. -/
def Val.trunc : Val → Option Int
  | .nan => none
  | .inf _ => none
  | .fin s n d e =>
    let m := if 0 ≤ e then n * 2 ^ e.toNat / d else n / (d * 2 ^ (-e).toNat)
    some (if s then -(m : Int) else m)

/-- The greatest integer not above a value. -/
def Val.floor : Val → Option Int
  | .nan => none
  | .inf _ => none
  | .fin s n d e =>
    let nn := if 0 ≤ e then n * 2 ^ e.toNat else n
    let dd := if 0 ≤ e then d else d * 2 ^ (-e).toNat
    some (if s then -((nn + dd - 1) / dd : Nat) else (nn / dd : Nat))

/-! ## Formats (R187-R189) -/

/-- A float format: exponent bits, mantissa bits, bias, and whether the largest exponent is special
(1 as IEEE 754, 2 the one NaN pattern of E4M3, 0 not at all). -/
structure FFmt where
  eb : Nat
  mb : Nat
  bias : Nat
  special : Nat
deriving DecidableEq, Repr

def fmtFP32 : Nat := 0xA

/-- R187: the float formats by code. -/
def ffmt (code : Nat) : Option FFmt :=
  match code with
  | 3 => some ⟨2, 1, 1, 0⟩
  | 4 => some ⟨3, 2, 3, 0⟩
  | 5 => some ⟨2, 3, 1, 0⟩
  | 6 => some ⟨4, 3, 7, 2⟩
  | 7 => some ⟨5, 2, 15, 1⟩
  | 8 => some ⟨5, 10, 15, 1⟩
  | 9 => some ⟨8, 7, 127, 1⟩
  | 10 => some ⟨8, 23, 127, 1⟩
  | _ => none

/-- A code that R187 does not reserve. -/
def fmtOk (code : Nat) : Bool := decide (code ≤ 10)

def fmtInt (code : Nat) : Bool := decide (code ≤ 2)

/-- Width of an element in bits. -/
def fmtBits (code : Nat) : Nat :=
  match code with
  | 0 | 3 => 4
  | 1 | 2 | 6 | 7 => 8
  | 4 | 5 => 6
  | 8 | 9 => 16
  | _ => 32

/-- Range of an integer format. -/
def intRange (code : Nat) : Int × Int :=
  match code with | 0 => (-8, 7) | 1 => (-128, 127) | _ => (0, 255)

/-- The value of a float encoding (R188, R190). -/
def decFloat (f : FFmt) (b : Nat) : Val :=
  let m := b % 2 ^ f.mb
  let e := b / 2 ^ f.mb % 2 ^ f.eb
  let s := b / 2 ^ (f.mb + f.eb) % 2 == 1
  if f.special = 1 ∧ e = 2 ^ f.eb - 1 then (if m = 0 then .inf s else .nan)
  else if f.special = 2 ∧ e = 2 ^ f.eb - 1 ∧ m = 2 ^ f.mb - 1 then .nan
  else if e = 0 then .fin s m 1 (1 - (f.bias : Int) - f.mb)
  else .fin s (2 ^ f.mb + m) 1 ((e : Int) - f.bias - f.mb)

/-- The value of an element. -/
def decElem (code b : Nat) : Val :=
  match ffmt code with
  | some f => decFloat f b
  | none =>
    if code = 2 then .ofNat (b % 256) else .ofInt (toSigned (fmtBits code) b)

def decFP32 (b : Nat) : Val := decFloat ⟨8, 23, 127, 1⟩ b

/-- The largest finite positive encoding of a float format without its sign (R189). -/
def FFmt.maxEnc (f : FFmt) : Nat :=
  match f.special with
  | 1 => (2 ^ f.eb - 1) * 2 ^ f.mb - 1
  | 2 => 2 ^ (f.eb + f.mb) - 2
  | _ => 2 ^ (f.eb + f.mb) - 1

/-- The NaN that is written (R189). -/
def FFmt.nanEnc (f : FFmt) : Nat :=
  match f.special with
  | 1 => (2 ^ f.eb - 1) * 2 ^ f.mb + 2 ^ (f.mb - 1)
  | _ => 2 ^ (f.eb + f.mb) - 1

/-- The base-2 exponent of a positive rational: the k with 2^k ≤ n / d < 2^(k+1). -/
def ratLog (n d : Nat) : Int :=
  let l : Int := (Nat.log2 n : Int) - Nat.log2 d
  if 0 ≤ l then (if d * 2 ^ l.toNat ≤ n then l else l - 1)
  else (if d ≤ n * 2 ^ (-l).toNat then l else l - 1)

/-- `floor (n / d * 2^e)`. -/
def scaleFloor (n d : Nat) (e : Int) : Nat :=
  if 0 ≤ e then n * 2 ^ e.toNat / d else n / (d * 2 ^ (-e).toNat)

/-- The magnitude encoding of n / d * 2^e rounded toward zero, assuming it is in range. -/
def FFmt.encMag (f : FFmt) (n d : Nat) (e : Int) : Nat :=
  if n = 0 then 0
  else
    let x := max (ratLog n d + e) (1 - (f.bias : Int))
    let k := scaleFloor n d (e - x + f.mb)
    if k < 2 ^ f.mb then k else ((x + f.bias).toNat - 1) * 2 ^ f.mb + k

/-- n / d * 2^e is above the largest finite value. -/
def FFmt.over (f : FFmt) (n d : Nat) (e : Int) : Bool :=
  match decFloat f f.maxEnc with
  | .fin _ m _ x =>
    let g := min e x
    decide (m * d * pow2 x g < n * pow2 e g)
  | _ => false

/-- A float narrowing (R193): the encoding, and whether it saturated. -/
def FFmt.narrow (f : FFmt) (v : Val) : Nat × Bool :=
  let sg := fun s => b2n s * 2 ^ (f.eb + f.mb)
  match v with
  | .nan => if f.special = 0 then (0, true) else (f.nanEnc, false)
  | .inf s => (sg s + f.maxEnc, true)
  | .fin s n d e => if f.over n d e then (sg s + f.maxEnc, true) else (sg s + f.encMag n d e, false)

/-- An integer narrowing of the truncated value plus a zero point (R193, R197, R203). -/
def narrowInt (code : Nat) (v : Val) (z : Int) : Nat × Bool :=
  let r := intRange code
  let w := fmtBits code
  match v with
  | .nan => (0, true)
  | .inf s => (ofSigned w (if s then r.1 else r.2), true)
  | .fin _ _ _ _ =>
    let q := v.trunc.getD 0 + z
    if q < r.1 then (ofSigned w r.1, true) else if r.2 < q then (ofSigned w r.2, true) else (ofSigned w q, false)

/-- A narrowing into any format, with a zero point for an integer one. -/
def narrow (code : Nat) (v : Val) (z : Int) : Nat × Bool :=
  match ffmt code with
  | some f => f.narrow v
  | none => narrowInt code v z

/-! ## FP32 arithmetic (R195) -/

/-- A value rounded toward zero into FP32: its value, and whether it saturated. Infinities and NaN
stay what they are; a finite value above the range saturates. -/
def fp32 (v : Val) : Val × Bool :=
  match v with
  | .fin s n d e =>
    let f : FFmt := ⟨8, 23, 127, 1⟩
    if f.over n d e then (decFloat f (b2n s * 2 ^ 31 + f.maxEnc), true)
    else (decFloat f (b2n s * 2 ^ 31 + f.encMag n d e), false)
  | v => (v, false)

/-- The encoding of an FP32 value. -/
def encFP32 (v : Val) : Nat :=
  let f : FFmt := ⟨8, 23, 127, 1⟩
  match v with
  | .nan => f.nanEnc
  | .inf s => b2n s * 2 ^ 31 + 0x7F800000
  | .fin s n d e => b2n s * 2 ^ 31 + f.encMag n d e

/-- A value with whether anything on its path saturated. [DEDUCED: log 98] -/
structure SVal where
  v : Val
  sat : Bool := false
deriving DecidableEq, Repr

def SVal.of (v : Val) : SVal := ⟨v, false⟩

/-- Round an exact value formed from operands whose paths saturated as given. -/
def SVal.fp (v : Val) (sat : Bool) : SVal := let r := fp32 v; ⟨r.1, sat || r.2⟩

def SVal.add (x y : SVal) : SVal := .fp (x.v.add y.v) (x.sat || y.sat)
def SVal.sub (x y : SVal) : SVal := .fp (x.v.sub y.v) (x.sat || y.sat)
def SVal.mul (x y : SVal) : SVal := .fp (x.v.mul y.v) (x.sat || y.sat)
def SVal.fma (x y z : SVal) : SVal := .fp ((x.v.mul y.v).add z.v) (x.sat || y.sat || z.sat)
def SVal.max (x y : SVal) : SVal := ⟨x.v.max y.v, x.sat || y.sat⟩
def SVal.min (x y : SVal) : SVal := ⟨x.v.min y.v, x.sat || y.sat⟩

/-! ## Function units (R228) -/

/-- The largest finite FP32 value with a sign. -/
def fp32Max (s : Bool) : Val := decFP32 (b2n s * 2 ^ 31 + 0x7F7FFFFF)

/-- One Newton step sequence for the integer square root, from above. -/
def isqrtFrom (n : Nat) : Nat → Nat → Nat
  | 0, x => x
  | fuel + 1, x => let y := (x + n / x) / 2; if y < x then isqrtFrom n fuel y else x

/-- The integer square root. -/
def isqrt (n : Nat) : Nat := if n = 0 then 0 else isqrtFrom n (Nat.log2 n + 2) (2 ^ (Nat.log2 n / 2 + 1))

/-- Fixed-point digits of EXP2. -/
def exp2Prec : Nat := 256

/-- `2^f * 2^exp2Prec` for the fraction f whose bits below the point are those of `frac`, most
significant first: the product of the roots 2^(2^-i) of the bits that are set. -/
def exp2Frac (acc root : Nat) : List Bool → Nat
  | [] => acc
  | b :: bs =>
    let root := isqrt (root * 2 ^ exp2Prec)
    exp2Frac (if b then acc * root / 2 ^ exp2Prec else acc) root bs

/-- EXP2 (R228): the exact power rounded toward zero. -/
def vExp2 (x : SVal) : SVal :=
  match x.v with
  | .nan => x
  | .inf true => ⟨.zero, x.sat⟩
  | .inf false => ⟨fp32Max false, true⟩
  | .fin s n d e =>
    if n = 0 then ⟨.one, x.sat⟩
    else if !s && (Val.ofNat 127).ltNum x.v && !(x.v.ltNum (.ofNat 128)) then ⟨fp32Max false, true⟩
    else if s && x.v.ltNum (.ofInt (-200)) then ⟨.zero, x.sat⟩
    else
      let i := x.v.floor.getD 0
      -- the fraction in 160 bits below the point; every FP32 value has at most 149 of them
      let q := scaleFloor n d (e + 160)
      let fr := ((if s then -(q : Int) else q) - i * (2 ^ 160 : Nat)).toNat
      let bs := (List.range 160).map fun k => fr.testBit (159 - k)
      .fp (.fin false (exp2Frac (2 ^ exp2Prec) (2 ^ (exp2Prec + 1)) bs) 1 (i - exp2Prec)) x.sat

/-- RECIP (R228). -/
def vRecip (x : SVal) : SVal :=
  match x.v with
  | .nan => x
  | .inf s => ⟨.fin s 0 1 0, x.sat⟩
  | .fin s n _ _ => if n = 0 then ⟨fp32Max s, true⟩ else .fp (Val.one.div x.v) x.sat

/-- RSQRT (R228): the root of the reciprocal, found to 64 bits below its last place and rounded
toward zero. -/
def vRsqrt (x : SVal) : SVal :=
  match x.v with
  | .nan => x
  | .inf s => if s then ⟨.nan, x.sat⟩ else ⟨.zero, x.sat⟩
  | .fin s n d e =>
    if n = 0 then ⟨fp32Max s, true⟩
    else if s then ⟨.nan, x.sat⟩
    else
      -- 1/x = d / n * 2^-e; the scaled square is 2^(2k) times it
      let k : Int := 256
      .fp (.fin false (isqrt (scaleFloor d n (2 * k - e))) 1 (-k)) x.sat

/-- L of R229. -/
def log2e : Val := decFP32 0x3FB8AA3B

/-- SIGMOID (R229). -/
def vSigmoid (x : SVal) : SVal :=
  vRecip (SVal.add (.of .one) (vExp2 (.mul ⟨x.v.neg, x.sat⟩ (.of log2e))))

/-! ## Scales (R192) -/

/-- The value of a one-byte scale of a scale format code. -/
def decScale (code b : Nat) : Val :=
  match code with
  | 1 => if b = 255 then .nan else .fin false 1 1 ((b : Int) - 127)
  | 2 => decElem 6 b
  | _ => .one

/-- G of a group-size code. -/
def groupSize (code : Nat) : Nat := 32 * 2 ^ code

end Sys2Proof.Machine
end

