-- ==== Sys2Proof/Config.lean ====
section
/-! DEFINITION. What the spec leaves open: free values (opaque constants with no body, so that no
proof can see a value of them) and the functions whose algorithm another standard fixes. -/

namespace Sys2Proof.Config

/-- A byte the spec leaves undefined: the contents of the buffer of a killed attempt (R146), of a
partition's memory after its key is destroyed (R96). Applied to the state's free-value counter and
the byte's address. -/
opaque freeByte : Nat → Nat → Byte

/-- A number the spec leaves open, applied to the state's free-value counter and a label. [DESIGN CHOICE: log 9] -/
opaque freeNat : Nat → Nat → Nat

/-- The byte a probability that is NaN gives, and the spill code of such a score, at a key position: R290
converts only numbers. [DESIGN CHOICE: log 118] -/
opaque nanProb : Nat → Byte

/-- The energy coefficient FC11 derives for an event on a part other than KTV-6480, in 0.01 pJ
(R184): part, event number in the order of R184's table. [DESIGN CHOICE: log 92] -/
opaque energyCoeff : Nat → Nat → Nat

/-- AES-256-XTS of one 16-byte block under a key of the device (R95, R96): key, tweak, block of the
data unit, plaintext. The key is random, so no value of it is known. [DESIGN CHOICE: log 10] -/
opaque xtsEnc : Nat → Nat → Nat → Nat → Nat

/-- The inverse direction, for a block that was not written by the device. -/
opaque xtsDec : Nat → Nat → Nat → Nat → Nat

/-- Whether a Tephra core finds underflow after rounding: IEEE 754 leaves it open (R308). [DESIGN CHOICE: log 139] -/
opaque tinyAfter : Bool

/-- Whether a fused multiply-add of 0, an infinity and a quiet NaN is invalid: IEEE 754 leaves it open
(R308). -/
opaque fmaNanInvalid : Bool

/-- The fused SHA-384 of the boot ROM and of the Kerold attestation root (R533, R540). -/
opaque romDigest : Nat
opaque rootDigest : Nat

/-- The certificates of a function's slot 0, root first, in DER (R533), of what they carry: DIE_ID and PART,
firmware version, SVN and digest, the alias certificate's time, the function number, partition, KEY_EPOCH
and the function certificate's time. -/
opaque certChain : List Nat → List Byte

end Sys2Proof.Config
end

