-- ==== Sys2Proof/Machine/Fields.lean ====
section
/-! DEFINITION. The register fields the spec's chapters table (R14), each under the name
`<REGISTER>_<FIELD>`, with its place in its register, its access code and its reset value; and the
registers with their addresses (R583 to R586). A field's value for one unit is one entry of
`State.csr`. Reserved bits have no field: they read 0 and writes to them are discarded. -/

namespace Sys2Proof.Machine

/-- The access codes of R14. -/
inductive Access where
  | ro | rw | w1c | w1s | wo | rc
deriving DecidableEq, Repr

/-- One field of one register: the lowest bit, the width, the access code, the tabled reset value,
and whether a write of the field has a command row of its own (then `REGISTER_WRITE` leaves it). -/
structure FldInfo where
  lo : Nat
  width : Nat
  access : Access
  reset : Nat
  ownRow : Bool
deriving DecidableEq, Repr

/-- One register: byte offset in its address space, strides and counts of its units, its width in
bits, and its fields. -/
structure RegInfo where
  base : Nat
  dims : List (Nat × Nat)
  bits : Nat
deriving DecidableEq, Repr

/-- Every tabled register field of the spec. -/
inductive Fld where
  | SYS_ID_PART
  | SYS_ID_STEP_MAJOR
  | SYS_ID_STEP_MINOR
  | STRUCT_SRC_ADDR_ADDR
  | STRUCT_SRC_LEN_LEN
  | STRUCT_CTRL_CANCEL
  | STRUCT_CTRL_LOAD
  | STRUCT_STATUS_ERROR
  | STRUCT_STATUS_ERR_SECTION
  | STRUCT_STATUS_REFUSED
  | STRUCT_STATUS_STATE
  | STRUCT_ERR_OFFSET_OFFSET
  | STRUCT_ACTIVE_SEQ_SEQ
  | STRUCT_PENDING_TYPES
  | MEM_SCRUB_CTRL_INTERVAL
  | MEM_SCRUB_CTRL_CE_THRESHOLD
  | MEM_SCRUB_CTRL_ENABLE
  | MEM_UE_ADDR_VALID
  | MEM_UE_ADDR_LINE
  | MEM_PC_STATUS_CE_COUNT
  | MEM_PC_STATUS_UE_COUNT
  | MEM_PC_STATUS_REPAIR_LEFT
  | MEM_PC_STATUS_ISET
  | MEM_PC_STATUS_PARTITION
  | MEM_PC_STATUS_STATE
  | MEM_POOL_QUOTA_QUOTA
  | VF_POOL_STATUS_USED
  | VF_POOL_STATUS_QUOTA
  | VF_MAP_VA_VA
  | VF_MAP_SRC_VA_VA
  | VF_MAP_CTRL_PAGES
  | VF_MAP_CTRL_STATUS
  | VF_MAP_CTRL_OP
  | VF_MAP_CTRL_SIZE
  | VF_MAP_CTRL_CACHE
  | VF_MAP_CTRL_XWR
  | MEM_POWN_CTRL_OP
  | MEM_POWN_CTRL_RESULT
  | MEM_POWN_CTRL_PARTITION
  | MEM_POWN_CTRL_SIZE
  | MEM_POWN_CTRL_CACHE
  | MEM_POWN_CTRL_HOT
  | MEM_POWN_CTRL_CONTEXT
  | MEM_POWN_CTRL_PAGES
  | MEM_POWN_CTRL_XWR
  | MEM_POWN_PA_PA
  | MEM_POWN_VA_VA
  | MEM_POWN_MODEL_MODEL
  | VF_SWAP_BASE_ADDR
  | VF_SWAP_BASE_ENABLE
  | VF_SWAP_SIZE_USED
  | VF_SWAP_SIZE_SIZE
  | RDY_STATUS_STATE
  | RDY_STATUS_FAIL_REASON
  | RDY_STATUS_VF_REFUSALS
  | RDY_STATUS_READINESS
  | RDY_DROPS_DOORBELLS
  | HOST_PORT_STATUS_DOWNS
  | HOST_PORT_STATUS_BUS
  | HOST_PORT_STATUS_RATE
  | HOST_PORT_STATUS_WIDTH
  | HOST_PORT_STATUS_FLIT
  | HOST_PORT_STATUS_DEGRADED
  | HOST_PORT_STATUS_LINK
  | HOST_MOVE_TENANT
  | HOST_MOVE_STATUS
  | HOST_MOVE_TARGET
  | HOST_MOVE_SCOPE
  | HOST_CTRL_HOLD_MS
  | HOST_CTRL_AUTO_FAILOVER
  | HOST_CTRL_PRIMARY
  | HOST_CTRL_PF0_HOME
  | HOST_HOME_HOME
  | VF_HOME_MOVES
  | VF_HOME_HOME
  | VF_HOME_MOVED
  | VF_QSEL_QUEUE
  | VF_QSQ_VA
  | VF_QCQ_VA
  | VF_QCTRL_OP
  | VF_QCTRL_RESULT
  | VF_QCTRL_STATE
  | VF_QCTRL_BAD_DOORBELLS
  | VF_QCTRL_SQ_LOG2
  | VF_QCTRL_CQ_LOG2
  | VF_QCTRL_CLASS
  | VF_QCTRL_CONTINUE_ON_ERROR
  | VF_QPOS_CQ_TAIL
  | VF_QPOS_SQ_NEXT
  | VF_STATUS_PARTITION
  | VF_STATUS_STATE
  | VF_FAULT_STATUS
  | VF_FAULT_QUEUE
  | VF_FAULT_SLOT
  | VF_FAULT_VALID
  | VF_FAULT_ADDR_ADDR
  | VF_TT_CAP_TT_CAP
  | VF_TT_READ_HANDLE
  | VF_TT_ENTRY_WORD
  | SCH_TENANT_OP
  | SCH_TENANT_RESULT
  | SCH_TENANT_RUN_LIMIT
  | SCH_TENANT_WEIGHT
  | SCH_CTRL_BATCH_WAIT
  | SCH_CTRL_WRES_BANKS
  | SCH_RESERVE_SCALE_SCALE
  | SCH_CE_STATUS_PREEMPT_KILLS
  | SCH_CE_STATUS_DEDICATED
  | SCH_CE_STATUS_PARTITION
  | SCH_CE_STATUS_IN_PLACE
  | SCH_CE_STATUS_IN_PLACE_SLOT
  | SCH_CE_STATUS_BUSY
  | SCH_ACCT_THRESH_ENABLE
  | SCH_ACCT_THRESH_COUNTER
  | SCH_ACCT_THRESH_LIMIT
  | VF_SAT_OPERAND
  | VF_SAT_OUTPUT
  | VF_SAT_WHERE_VALID
  | VF_SAT_WHERE_QUEUE
  | VF_SAT_WHERE_FROM
  | VF_SAT_WHERE_TO
  | VF_SAT_WHERE_ACTION
  | VF_SAT_WHERE_SLOT
  | CE_STATUS_GROUPS
  | CE_STATUS_SEQS
  | CE_STATUS_ARRAYS
  | CE_STATUS_BUSY
  | CE_STATUS_STATE
  | CE_CTRL_OP
  | CE_CTRL_RESULT
  | CE_SRAM_ERR_CE_COUNT
  | CE_SRAM_ERR_UE_COUNT
  | CE_SRAM_ERR_MEMORY
  | CE_SRAM_ERR_BANK
  | CE_SRAM_ERR_OFFSET
  | CE_CODEC_ERR_COUNT
  | CE_SEQ_EXC_VALID
  | CE_SEQ_EXC_SEQ
  | CE_SEQ_EXC_CAUSE
  | CE_SEQ_EXC_PC
  | CE_SLOT_STATE
  | CE_SLOT_CLASS
  | CE_SLOT_IN_PLACE
  | CE_SLOT_N
  | CE_SLOT_CONTEXT
  | CE_SLOT_QUEUE
  | CE_SLOT_SEQ
  | CE_SLOT_KILLS
  | CE_SLOT_RING_SLOT
  | CE_PERF_COUNT
  | VF_PARK_VALID
  | VF_PARK_OUTCOME
  | VF_PARK_QUEUE
  | VF_PARK_VICTIMS
  | VF_PARK_SLOT
  | VF_PARK_NEED
  | VIS_STATUS_STATE
  | VIS_STATUS_PARTITION
  | VIS_STATUS_BUSY
  | VIS_STATUS_PORT
  | VIS_CTRL_ENABLE
  | VIS_PARAM_LAMBDA
  | VIS_PARAM_REFINE_THRESH
  | VIS_PARAM_CONF_BIAS
  | VIS_PARAM_LEVELS
  | VIS_IN_BASE_ADDR
  | VIS_IN_BASE_IN_DEPTH
  | VIS_IN_GEOM_FORMAT
  | VIS_IN_GEOM_W
  | VIS_IN_GEOM_H
  | VIS_IN_GEOM_PITCH
  | VIS_IN_GEOM_ENTRY
  | VIS_RING_BASE_OUT_DEPTH
  | VIS_RING_BASE_ADDR
  | VIS_TRIG_OVF_REF
  | VIS_TRIG_OVF_MOT
  | VIS_TRIG_OVF_PYR
  | VIS_TRIG_REF
  | VIS_TRIG_MOT
  | VIS_TRIG_PYR
  | VIS_TRIG_ADD_PYR
  | VIS_FRAME_NEXT
  | VIS_FRAME_DONE
  | VIS_ERR_VALID
  | VIS_ERR_PA
  | EMB_STATUS_TEXTURE_UNITS
  | EMB_STATUS_SHADERS
  | EMB_STATUS_TILE_UNITS
  | EMB_STATUS_STATE
  | EMB_ERR_CE_COUNT
  | EMB_ERR_UE_COUNT
  | EMB_ERR_MEMORY
  | EMB_PERF_COUNT
  | EQX_STREAM_CTRL_OP
  | EQX_STREAM_CTRL_RESULT
  | EQX_STREAM_CTRL_STATE
  | EQX_STREAM_CTRL_HEAD
  | EQX_STREAM_CTRL_HEADNUM
  | EQX_STREAM_CTRL_QUEUE
  | EQX_STREAM_CTRL_WARP_MODE
  | EQX_STREAM_CTRL_HISTORY
  | EQX_STREAM_CTRL_LATENCY
  | EQX_STREAM_CTRL_DEPTH_NEAR
  | EQX_STREAM_CTRL_CLASS1_SHARE
  | EQX_STREAM_SRC_SRC_KIND
  | EQX_STREAM_SRC_UPSCALE
  | EQX_STREAM_SRC_MULT
  | EQX_STREAM_SRC_SRC_INDEX
  | EQX_STREAM_SRC_LANE
  | EQX_STREAM_SRC_SRC_HANDLE
  | EQX_STREAM_NET_SCRATCH
  | EQX_STREAM_NET_NET
  | EQX_STREAM_RING_VA
  | EQX_STREAM_RING_FORMAT
  | EQX_STREAM_RING_DEPTH
  | EQX_STREAM_GEOM_OUT_W
  | EQX_STREAM_GEOM_OUT_H
  | EQX_STREAM_GEOM_PERIOD
  | EQX_STREAM_TIME_SRC_OFFSET
  | EQX_STREAM_TIME_START
  | EQX_STREAM_TRIG_OVF
  | EQX_STREAM_TRIG_COUNT
  | EQX_STREAM_STAT_PUBLISHED
  | EQX_STREAM_STAT_LATE
  | EQX_STREAM_STAT_DROPPED
  | EQX_STREAM_STAT_COMPOSED
  | EQX_STREAM_STAT2_SUPERSEDED
  | EQX_STREAM_STAT2_FAILED
  | EQX_STREAM_STAT2_STALE_WAITS
  | EQX_STREAM_NEWEST_FRAME
  | EQX_STREAM_NEWEST_NEXT
  | EQX_HOMOG_STAGE_VALUE
  | EQX_HOMOG_CTRL_COMMIT
  | EQX_MEM_READ_CONSUMED
  | EQX_LAYER_ADDR_VA
  | EQX_LAYER_GEOM_X
  | EQX_LAYER_GEOM_Y
  | EQX_LAYER_GEOM_W
  | EQX_LAYER_GEOM_H
  | EQX_LAYER_CTRL_PITCH
  | EQX_LAYER_CTRL_ACTIVE
  | EQX_LAYER_CTRL_ENABLE
  | EQX_LAYER_FLIP_PENDING
  | EQX_LAYER_FLIP_LAYERS
  | DSP_LINK_CFG_DSC_BPP
  | DSP_LINK_CFG_DSC_SLICES
  | DSP_LINK_CFG_BPC
  | DSP_AUX_CTRL_OP
  | DSP_AUX_CTRL_RESULT
  | DSP_AUX_CTRL_CMD
  | DSP_AUX_CTRL_LEN
  | DSP_AUX_CTRL_ADDR
  | DSP_AUX_CTRL_REPLY_LEN
  | DSP_AUX_DATA_DATA
  | DSP_SYNC_VPOL
  | DSP_SYNC_HPOL
  | DSP_SYNC_VSW
  | DSP_SYNC_VFP
  | DSP_SYNC_HSW
  | DSP_SYNC_HFP
  | DSP_TIMING_H_H_TOTAL
  | DSP_TIMING_H_H_ACTIVE
  | DSP_TIMING_V_PIXCLK
  | DSP_TIMING_V_V_TOTAL
  | DSP_TIMING_V_V_ACTIVE
  | DSP_LINEMATCH_LINE_D
  | DSP_LINEMATCH_LINE_C
  | DSP_LINEMATCH_LINE_B
  | DSP_LINEMATCH_LINE_A
  | DSP_STATUS_STATE
  | DSP_STATUS_REASON
  | DSP_STATUS_HPD
  | DSP_STATUS_IRQ_HPD
  | DSP_STATUS_LINE
  | DSP_STATUS_REFRESH
  | DSP_LINK_RETRAINS
  | DSP_LINK_FALLBACK
  | DSP_LINK_LTTPRS
  | DSP_LINK_ASYNC
  | DSP_LINK_DSC
  | DSP_LINK_RATE
  | DSP_LINK_LANES
  | DSP_PLANE_ADDR_VA
  | DSP_PLANE_GEOM_X
  | DSP_PLANE_GEOM_Y
  | DSP_PLANE_GEOM_W
  | DSP_PLANE_GEOM_H
  | DSP_PLANE_CTRL_PITCH
  | DSP_PLANE_CTRL_FORMAT
  | DSP_PLANE_CTRL_MODE
  | DSP_PLANE_CTRL_ENABLE
  | DSP_PLANE_FLIP_PENDING
  | DSP_PLANE_FLIP_PLANES
  | DSP_UNDERRUN_COUNT
  | DSP_UNDERRUN_CONSECUTIVE
  | DSP_UNDERRUN_LAST_LINE
  | DSP_UNDERRUN_LAST_PIXEL
  | DSP_ASYNC_VT_MAX
  | DSP_ASYNC_VT_MIN
  | DSP_LOCK_GCNT_GCNT
  | DSP_LOCK_CTRL_ENABLE
  | DSP_LOCK_CTRL_LOCKED
  | DSP_LOCK_CTRL_TRIM
  | DSP_LOCK_CTRL_PERIOD
  | DSP_LOCK_ERR_ERROR
  | VIN_STATUS_STATE
  | VIN_STATUS_PARTITION
  | VIN_STATUS_LANE
  | VIN_STATUS_HS
  | VIN_STATUS_ACTIVE_VC
  | VIN_STATUS_VC_MASK
  | VIN_ERR_ECC_CORRECTED
  | VIN_ERR_ECC_FAIL
  | VIN_ERR_CRC
  | VIN_ERR_DAMAGED
  | VIN_ERR_DROPPED
  | VIN_ERR_OTHER
  | VIN_VC_RING_ENTRY
  | VIN_VC_RING_ADDR
  | VIN_VC_RING_DEPTH
  | VIN_VC_REL_PUBLISHED
  | VIN_VC_REL_RELEASED
  | GEY_PEND_PEND
  | GEY_PEND_SET_PEND
  | GEY_RET_RESTORES
  | GEY_RET_STATE
  | GEY_RET_LOST
  | GEY_SRC_INPUT
  | GEY_SRC_HELD
  | GEY_SRC_GROUP
  | GEY_SRC_VECTOR
  | GEY_SRC_TARGET
  | GEY_SRC_PRIORITY
  | GEY_SRC_LEVEL
  | GEY_SRC_ENABLE
  | GEY_GRP_COUNT
  | GEY_GRP_TIME
  | GEY_GRP_ACC
  | GEY_GRP_STATE
  | GEY_GRP_ELAPSED
  | GEY_TGT_ACTIVE
  | GEY_TGT_SPURIOUS
  | GEY_TGT_RUNNING
  | GEY_TGT_THRESHOLD
  | GEY_TGT_COMPLETE_LEVEL
  | GEY_TGT_SUM_WORDS
  | VF_GEY_PEND_PEND
  | VF_GEY_SET_PEND
  | VF_GEY_COMPLETE_LEVEL
  | VF_GEY_SRC_ENABLE
  | VF_GEY_SRC_LEVEL
  | VF_GEY_SRC_HELD
  | VF_GEY_SRC_PRIORITY
  | TIM_GCNT_COUNT
  | TIM_CTRL_REPEAT
  | TIM_CTRL_MODE
  | TIM_CTRL_ENABLE
  | TIM_SYNC_STATUS_FRAMES_BAD
  | TIM_SYNC_STATUS_STEPS
  | TIM_SYNC_STATUS_HOPS
  | TIM_SYNC_STATUS_RATE
  | TIM_SYNC_STATUS_ERROR
  | TIM_SYNC_STATUS_STATE
  | TIM_SYNC_DELAY_LOOP
  | TIM_SYNC_DELAY_DELAY
  | TIM_CMP_TARGET_TARGET
  | TIM_CMP_RELOAD_RELOAD
  | TIM_CMP_CTRL_MISSED
  | TIM_CMP_CTRL_PERIODIC
  | TIM_CMP_CTRL_ENABLE
  | CAL_TIME_YEAR
  | CAL_TIME_MONTH
  | CAL_TIME_DAY
  | CAL_TIME_HOUR
  | CAL_TIME_MINUTE
  | CAL_TIME_SECOND
  | CAL_TIME_DOW
  | CAL_TIME_SUBSEC
  | CAL_STAGE_DATE_TIME
  | CAL_CTRL_PENDING
  | CAL_CTRL_LOAD
  | CAL_STATUS_VALID
  | CAL_STATUS_BADDATE
  | CAL_STATUS_WRAP
  | CAL_STATUS_LOADED
  | BRG_STATE_STATE
  | BRG_STATE_FAIL_REASON
  | BRG_STATE_PATH
  | BRG_STATE_ELAPSED
  | BRG_CTRL_OP
  | BRG_CTRL_HEALTH_MAX_AGE
  | BRG_CTRL_NEXT_FULL
  | BRG_CTRL_AUTO_RETURN
  | BRG_CTRL_AUTO_RETIRE
  | BRG_HEALTH_SEQ
  | BRG_HEALTH_AGE_DAYS
  | BRG_HEALTH_FULL_DUE
  | BRG_HEALTH_SLOT
  | BRG_HEALTH_WRITING
  | BRG_HEALTH_VALID
  | BRG_MEMTEST_MODE
  | BRG_MEMTEST_PHASE
  | BRG_MEMTEST_PROGRESS
  | BRG_MEMTEST_ROWS_FAILED
  | BRG_MEMTEST_ROWS_REPAIRED
  | BRG_MEMTEST_PCS_RETIRED
  | BRG_HBM_PASS
  | BRG_HBM_ATTEMPTS
  | BRG_HBM_STATE
  | BRG_PC_CTRL_OP
  | BRG_PC_CTRL_RESULT
  | BRG_PC_CTRL_PC
  | BRG_PC_CTRL_PAGES_LEFT
  | BRG_PART_RESET_OP
  | BRG_PART_RESET_RESULT
  | BRG_PART_RESET_PARTITION
  | SEC_DIE_ID_DIE_ID
  | SEC_STATUS_FW_SVN_FLOOR
  | SEC_STATUS_ARB_STEPS
  | SEC_STATUS_OWNER_SLOT
  | SEC_STATUS_ALLOW_KEROLD
  | SEC_STATUS_TOKENS_REJECTED
  | SEC_STATUS_DEBUG
  | SEC_STRUCT_FLOOR_FLOOR
  | SEC_ARB_CTRL_OP
  | SEC_ARB_CTRL_RESULT
  | SEC_OWNER_DIGEST_DIGEST
  | SEC_OWNER_CTRL_OP
  | SEC_OWNER_CTRL_RESULT
  | SEC_OWNER_CTRL_ALLOW_KEROLD
  | SEC_DBG_NONCE_NONCE
  | SEC_DBG_ADDR_ADDR
  | SEC_DBG_LEN_LEN
  | SEC_DBG_CTRL_OP
  | SEC_DBG_CTRL_RESULT
  | PWR_CTRL_OP
  | PWR_CTRL_RESULT
  | PWR_CTRL_ALERT_LEVEL
  | PWR_CTRL_T_THROTTLE
  | PWR_STATUS_STATE
  | PWR_STATUS_LEVEL
  | PWR_STATUS_CAUSE
  | PWR_STATUS_ALERT
  | PWR_STATUS_TRIPPED
  | PWR_STATUS_PLL_LOST
  | PWR_STATUS_WAKES
  | PWR_LIMIT_LIMIT_W
  | PWR_ENERGY_UJ
  | PWR_POWER_MW
  | PWR_WAKE_CALENDAR
  | PWR_WAKE_TIMER
  | PWR_WAKE_HOST
  | PWR_STRAPS_TEST_EN
  | PWR_STRAPS_SMB_ADDR
  | PWR_STRAPS_HOST_PRIMARY
  | PWR_TEMP_VALID
  | PWR_TEMP_TEMP
  | TST_CTRL_OP
  | TST_CTRL_RESULT
  | TST_CTRL_KIND
  | TST_CTRL_CLASS
  | TST_CTRL_INDEX
  | TST_SIG_MISR
  | TST_EXPECT_SIG
  | TST_FAIL_VALID
  | TST_FAIL_MEMORY
  | TST_FAIL_BANK
  | TST_FAIL_WORD
  | TST_UNIT_RUNS
  | TST_UNIT_FAILED
  | TST_UNIT_PASSED
  | TST_UNIT_TESTING
  | TIM_RNG_KEY_KEY
  | TIM_RNG_STREAM_STREAM
  | TIM_RNG_INDEX_INDEX
  | TIM_RNG_STEP_STEP
  | TIM_RNG_OUT_LO_OUT
  | TIM_RNG_OUT_HI_OUT
deriving DecidableEq, Repr

/-- Place, access and reset of each field, as its register's table gives them. [DESIGN CHOICE: log 6] [DESIGN CHOICE: log 7] -/
def Fld.info : Fld → FldInfo
  | .SYS_ID_PART => ⟨16, 16, .ro, 0x6480, false⟩
  | .SYS_ID_STEP_MAJOR => ⟨12, 4, .ro, 1, false⟩
  | .SYS_ID_STEP_MINOR => ⟨8, 4, .ro, 0, false⟩
  | .STRUCT_SRC_ADDR_ADDR => ⟨3, 61, .rw, 0, false⟩
  | .STRUCT_SRC_LEN_LEN => ⟨0, 25, .rw, 0, false⟩
  | .STRUCT_CTRL_CANCEL => ⟨1, 1, .wo, 0, false⟩
  | .STRUCT_CTRL_LOAD => ⟨0, 1, .wo, 0, false⟩
  | .STRUCT_STATUS_ERROR => ⟨24, 8, .ro, 0, false⟩
  | .STRUCT_STATUS_ERR_SECTION => ⟨16, 8, .ro, 0xff, false⟩
  | .STRUCT_STATUS_REFUSED => ⟨8, 8, .rc, 0, false⟩
  | .STRUCT_STATUS_STATE => ⟨0, 4, .ro, 0, false⟩
  | .STRUCT_ERR_OFFSET_OFFSET => ⟨0, 32, .ro, 0, false⟩
  | .STRUCT_ACTIVE_SEQ_SEQ => ⟨0, 64, .ro, 0, false⟩
  | .STRUCT_PENDING_TYPES => ⟨3, 7, .ro, 0, false⟩
  | .MEM_SCRUB_CTRL_INTERVAL => ⟨16, 16, .rw, 0x96, false⟩
  | .MEM_SCRUB_CTRL_CE_THRESHOLD => ⟨8, 8, .rw, 0x10, false⟩
  | .MEM_SCRUB_CTRL_ENABLE => ⟨0, 1, .rw, 1, false⟩
  | .MEM_UE_ADDR_VALID => ⟨63, 1, .w1c, 0, false⟩
  | .MEM_UE_ADDR_LINE => ⟨6, 40, .ro, 0, false⟩
  | .MEM_PC_STATUS_CE_COUNT => ⟨48, 16, .rc, 0, false⟩
  | .MEM_PC_STATUS_UE_COUNT => ⟨40, 8, .rc, 0, false⟩
  | .MEM_PC_STATUS_REPAIR_LEFT => ⟨32, 8, .ro, 0, false⟩
  | .MEM_PC_STATUS_ISET => ⟨24, 8, .ro, 0xff, false⟩
  | .MEM_PC_STATUS_PARTITION => ⟨16, 6, .ro, 0, false⟩
  | .MEM_PC_STATUS_STATE => ⟨0, 4, .ro, 0, false⟩
  | .MEM_POOL_QUOTA_QUOTA => ⟨0, 32, .rw, 0, false⟩
  | .VF_POOL_STATUS_USED => ⟨32, 32, .ro, 0, false⟩
  | .VF_POOL_STATUS_QUOTA => ⟨0, 32, .ro, 0, false⟩
  | .VF_MAP_VA_VA => ⟨12, 36, .rw, 0, false⟩
  | .VF_MAP_SRC_VA_VA => ⟨12, 36, .rw, 0, false⟩
  | .VF_MAP_CTRL_PAGES => ⟨32, 32, .rw, 0, false⟩
  | .VF_MAP_CTRL_STATUS => ⟨28, 4, .ro, 0, false⟩
  | .VF_MAP_CTRL_OP => ⟨16, 4, .wo, 0, false⟩
  | .VF_MAP_CTRL_SIZE => ⟨14, 2, .rw, 0, false⟩
  | .VF_MAP_CTRL_CACHE => ⟨12, 2, .rw, 0, false⟩
  | .VF_MAP_CTRL_XWR => ⟨0, 3, .rw, 0, false⟩
  | .MEM_POWN_CTRL_OP => ⟨60, 4, .wo, 0, false⟩
  | .MEM_POWN_CTRL_RESULT => ⟨56, 4, .ro, 0, false⟩
  | .MEM_POWN_CTRL_PARTITION => ⟨48, 6, .rw, 0, false⟩
  | .MEM_POWN_CTRL_SIZE => ⟨46, 2, .rw, 0, false⟩
  | .MEM_POWN_CTRL_CACHE => ⟨44, 2, .rw, 0, false⟩
  | .MEM_POWN_CTRL_HOT => ⟨43, 1, .rw, 0, false⟩
  | .MEM_POWN_CTRL_CONTEXT => ⟨32, 10, .rw, 0, false⟩
  | .MEM_POWN_CTRL_PAGES => ⟨16, 16, .rw, 0, false⟩
  | .MEM_POWN_CTRL_XWR => ⟨0, 3, .rw, 0, false⟩
  | .MEM_POWN_PA_PA => ⟨16, 30, .rw, 0, false⟩
  | .MEM_POWN_VA_VA => ⟨12, 36, .rw, 0, false⟩
  | .MEM_POWN_MODEL_MODEL => ⟨0, 32, .rw, 0, false⟩
  | .VF_SWAP_BASE_ADDR => ⟨16, 48, .rw, 0, false⟩
  | .VF_SWAP_BASE_ENABLE => ⟨0, 1, .rw, 0, false⟩
  | .VF_SWAP_SIZE_USED => ⟨32, 32, .ro, 0, false⟩
  | .VF_SWAP_SIZE_SIZE => ⟨0, 32, .rw, 0, false⟩
  | .RDY_STATUS_STATE => ⟨24, 4, .ro, 0, false⟩
  | .RDY_STATUS_FAIL_REASON => ⟨16, 8, .ro, 0, false⟩
  | .RDY_STATUS_VF_REFUSALS => ⟨8, 8, .rc, 0, false⟩
  | .RDY_STATUS_READINESS => ⟨0, 2, .ro, 0, false⟩
  | .RDY_DROPS_DOORBELLS => ⟨0, 32, .rc, 0, false⟩
  | .HOST_PORT_STATUS_DOWNS => ⟨48, 16, .rc, 0, false⟩
  | .HOST_PORT_STATUS_BUS => ⟨24, 8, .ro, 0, false⟩
  | .HOST_PORT_STATUS_RATE => ⟨12, 4, .ro, 0, false⟩
  | .HOST_PORT_STATUS_WIDTH => ⟨7, 5, .ro, 0, false⟩
  | .HOST_PORT_STATUS_FLIT => ⟨6, 1, .ro, 0, false⟩
  | .HOST_PORT_STATUS_DEGRADED => ⟨5, 1, .ro, 0, false⟩
  | .HOST_PORT_STATUS_LINK => ⟨0, 4, .ro, 0, false⟩
  | .HOST_MOVE_TENANT => ⟨32, 9, .rw, 0, false⟩
  | .HOST_MOVE_STATUS => ⟨12, 4, .ro, 0, false⟩
  | .HOST_MOVE_TARGET => ⟨8, 1, .rw, 0, false⟩
  | .HOST_MOVE_SCOPE => ⟨0, 2, .wo, 0, false⟩
  | .HOST_CTRL_HOLD_MS => ⟨24, 8, .rw, 0x32, false⟩
  | .HOST_CTRL_AUTO_FAILOVER => ⟨16, 1, .rw, 1, false⟩
  | .HOST_CTRL_PRIMARY => ⟨8, 1, .ro, 0, false⟩
  | .HOST_CTRL_PF0_HOME => ⟨0, 1, .ro, 0, false⟩
  | .HOST_HOME_HOME => ⟨0, 64, .ro, 0, false⟩
  | .VF_HOME_MOVES => ⟨16, 16, .ro, 0, false⟩
  | .VF_HOME_HOME => ⟨8, 1, .ro, 0, false⟩
  | .VF_HOME_MOVED => ⟨0, 1, .w1c, 0, false⟩
  | .VF_QSEL_QUEUE => ⟨0, 9, .rw, 0, false⟩
  | .VF_QSQ_VA => ⟨12, 36, .rw, 0, false⟩
  | .VF_QCQ_VA => ⟨12, 36, .rw, 0, false⟩
  | .VF_QCTRL_OP => ⟨60, 4, .wo, 0, false⟩
  | .VF_QCTRL_RESULT => ⟨56, 4, .ro, 0, false⟩
  | .VF_QCTRL_STATE => ⟨52, 4, .ro, 0, false⟩
  | .VF_QCTRL_BAD_DOORBELLS => ⟨32, 16, .rc, 0, false⟩
  | .VF_QCTRL_SQ_LOG2 => ⟨24, 5, .rw, 0, false⟩
  | .VF_QCTRL_CQ_LOG2 => ⟨16, 5, .rw, 0, false⟩
  | .VF_QCTRL_CLASS => ⟨8, 3, .rw, 0, false⟩
  | .VF_QCTRL_CONTINUE_ON_ERROR => ⟨0, 1, .rw, 0, false⟩
  | .VF_QPOS_CQ_TAIL => ⟨32, 32, .ro, 0, false⟩
  | .VF_QPOS_SQ_NEXT => ⟨0, 32, .ro, 0, false⟩
  | .VF_STATUS_PARTITION => ⟨16, 6, .ro, 0, false⟩
  | .VF_STATUS_STATE => ⟨0, 2, .ro, 0, false⟩
  | .VF_FAULT_STATUS => ⟨56, 8, .ro, 0, false⟩
  | .VF_FAULT_QUEUE => ⟨47, 9, .ro, 0, false⟩
  | .VF_FAULT_SLOT => ⟨16, 16, .ro, 0, false⟩
  | .VF_FAULT_VALID => ⟨0, 1, .w1c, 0, false⟩
  | .VF_FAULT_ADDR_ADDR => ⟨0, 64, .ro, 0, false⟩
  | .VF_TT_CAP_TT_CAP => ⟨0, 21, .rw, 0, true⟩
  | .VF_TT_READ_HANDLE => ⟨0, 20, .wo, 0, false⟩
  | .VF_TT_ENTRY_WORD => ⟨0, 64, .ro, 0, false⟩
  | .SCH_TENANT_OP => ⟨60, 4, .wo, 0, false⟩
  | .SCH_TENANT_RESULT => ⟨56, 4, .ro, 0, false⟩
  | .SCH_TENANT_RUN_LIMIT => ⟨16, 16, .rw, 0x3e8, false⟩
  | .SCH_TENANT_WEIGHT => ⟨0, 8, .rw, 0x10, false⟩
  | .SCH_CTRL_BATCH_WAIT => ⟨16, 8, .rw, 0, false⟩
  | .SCH_CTRL_WRES_BANKS => ⟨8, 6, .rw, 0x20, false⟩
  | .SCH_RESERVE_SCALE_SCALE => ⟨0, 14, .ro, 0x2710, false⟩
  | .SCH_CE_STATUS_PREEMPT_KILLS => ⟨48, 16, .rc, 0, false⟩
  | .SCH_CE_STATUS_DEDICATED => ⟨38, 1, .ro, 0, false⟩
  | .SCH_CE_STATUS_PARTITION => ⟨32, 6, .ro, 0, false⟩
  | .SCH_CE_STATUS_IN_PLACE => ⟨21, 1, .ro, 0, false⟩
  | .SCH_CE_STATUS_IN_PLACE_SLOT => ⟨16, 5, .ro, 0, false⟩
  | .SCH_CE_STATUS_BUSY => ⟨0, 6, .ro, 0, false⟩
  | .SCH_ACCT_THRESH_ENABLE => ⟨63, 1, .rw, 0, false⟩
  | .SCH_ACCT_THRESH_COUNTER => ⟨56, 3, .rw, 0, false⟩
  | .SCH_ACCT_THRESH_LIMIT => ⟨0, 56, .rw, 0, false⟩
  | .VF_SAT_OPERAND => ⟨32, 32, .ro, 0, false⟩
  | .VF_SAT_OUTPUT => ⟨0, 32, .ro, 0, false⟩
  | .VF_SAT_WHERE_VALID => ⟨63, 1, .w1c, 0, false⟩
  | .VF_SAT_WHERE_QUEUE => ⟨47, 9, .ro, 0, false⟩
  | .VF_SAT_WHERE_FROM => ⟨40, 4, .ro, 0, false⟩
  | .VF_SAT_WHERE_TO => ⟨36, 4, .ro, 0, false⟩
  | .VF_SAT_WHERE_ACTION => ⟨32, 4, .ro, 0, false⟩
  | .VF_SAT_WHERE_SLOT => ⟨16, 16, .ro, 0, false⟩
  | .CE_STATUS_GROUPS => ⟨48, 8, .ro, 0, false⟩
  | .CE_STATUS_SEQS => ⟨32, 16, .ro, 0, false⟩
  | .CE_STATUS_ARRAYS => ⟨24, 2, .ro, 0, false⟩
  | .CE_STATUS_BUSY => ⟨16, 6, .ro, 0, false⟩
  | .CE_STATUS_STATE => ⟨0, 4, .ro, 0, false⟩
  | .CE_CTRL_OP => ⟨28, 4, .wo, 0, false⟩
  | .CE_CTRL_RESULT => ⟨24, 4, .ro, 0, false⟩
  | .CE_SRAM_ERR_CE_COUNT => ⟨48, 16, .rc, 0, false⟩
  | .CE_SRAM_ERR_UE_COUNT => ⟨40, 8, .rc, 0, false⟩
  | .CE_SRAM_ERR_MEMORY => ⟨30, 2, .ro, 0, false⟩
  | .CE_SRAM_ERR_BANK => ⟨19, 6, .ro, 0, false⟩
  | .CE_SRAM_ERR_OFFSET => ⟨0, 19, .ro, 0, false⟩
  | .CE_CODEC_ERR_COUNT => ⟨0, 32, .rc, 0, false⟩
  | .CE_SEQ_EXC_VALID => ⟨63, 1, .w1c, 0, false⟩
  | .CE_SEQ_EXC_SEQ => ⟨48, 4, .ro, 0, false⟩
  | .CE_SEQ_EXC_CAUSE => ⟨40, 8, .ro, 0, false⟩
  | .CE_SEQ_EXC_PC => ⟨0, 32, .ro, 0, false⟩
  | .CE_SLOT_STATE => ⟨60, 4, .ro, 0, false⟩
  | .CE_SLOT_CLASS => ⟨57, 3, .ro, 0, false⟩
  | .CE_SLOT_IN_PLACE => ⟨56, 1, .ro, 0, false⟩
  | .CE_SLOT_N => ⟨52, 4, .ro, 0, false⟩
  | .CE_SLOT_CONTEXT => ⟨40, 10, .ro, 0, false⟩
  | .CE_SLOT_QUEUE => ⟨31, 9, .ro, 0, false⟩
  | .CE_SLOT_SEQ => ⟨24, 5, .ro, 0x1f, false⟩
  | .CE_SLOT_KILLS => ⟨16, 8, .ro, 0, false⟩
  | .CE_SLOT_RING_SLOT => ⟨0, 16, .ro, 0, false⟩
  | .CE_PERF_COUNT => ⟨0, 64, .ro, 0, false⟩
  | .VF_PARK_VALID => ⟨63, 1, .w1c, 0, false⟩
  | .VF_PARK_OUTCOME => ⟨61, 2, .ro, 0, false⟩
  | .VF_PARK_QUEUE => ⟨52, 9, .ro, 0, false⟩
  | .VF_PARK_VICTIMS => ⟨40, 12, .ro, 0, false⟩
  | .VF_PARK_SLOT => ⟨24, 16, .ro, 0, false⟩
  | .VF_PARK_NEED => ⟨0, 24, .ro, 0, false⟩
  | .VIS_STATUS_STATE => ⟨28, 4, .ro, 0, false⟩
  | .VIS_STATUS_PARTITION => ⟨22, 6, .ro, 0, false⟩
  | .VIS_STATUS_BUSY => ⟨16, 3, .ro, 0, false⟩
  | .VIS_STATUS_PORT => ⟨8, 8, .ro, 0, false⟩
  | .VIS_CTRL_ENABLE => ⟨0, 1, .rw, 0, true⟩
  | .VIS_PARAM_LAMBDA => ⟨56, 8, .rw, 0x10, false⟩
  | .VIS_PARAM_REFINE_THRESH => ⟨48, 8, .rw, 0x40, false⟩
  | .VIS_PARAM_CONF_BIAS => ⟨32, 16, .rw, 0x40, false⟩
  | .VIS_PARAM_LEVELS => ⟨0, 4, .rw, 4, false⟩
  | .VIS_IN_BASE_ADDR => ⟨16, 30, .rw, 0, false⟩
  | .VIS_IN_BASE_IN_DEPTH => ⟨0, 5, .rw, 4, false⟩
  | .VIS_IN_GEOM_FORMAT => ⟨62, 2, .rw, 0, false⟩
  | .VIS_IN_GEOM_W => ⟨47, 15, .rw, 0, false⟩
  | .VIS_IN_GEOM_H => ⟨32, 15, .rw, 0, false⟩
  | .VIS_IN_GEOM_PITCH => ⟨22, 10, .rw, 0, false⟩
  | .VIS_IN_GEOM_ENTRY => ⟨0, 16, .rw, 0, false⟩
  | .VIS_RING_BASE_OUT_DEPTH => ⟨60, 4, .rw, 2, false⟩
  | .VIS_RING_BASE_ADDR => ⟨16, 30, .rw, 0, false⟩
  | .VIS_TRIG_OVF_REF => ⟨26, 1, .w1c, 0, false⟩
  | .VIS_TRIG_OVF_MOT => ⟨25, 1, .w1c, 0, false⟩
  | .VIS_TRIG_OVF_PYR => ⟨24, 1, .w1c, 0, false⟩
  | .VIS_TRIG_REF => ⟨16, 8, .ro, 0, false⟩
  | .VIS_TRIG_MOT => ⟨8, 8, .ro, 0, false⟩
  | .VIS_TRIG_PYR => ⟨0, 8, .ro, 0, false⟩
  | .VIS_TRIG_ADD_PYR => ⟨0, 8, .wo, 0, false⟩
  | .VIS_FRAME_NEXT => ⟨32, 32, .ro, 0, false⟩
  | .VIS_FRAME_DONE => ⟨0, 32, .ro, 0xffffffff, false⟩
  | .VIS_ERR_VALID => ⟨63, 1, .w1c, 0, false⟩
  | .VIS_ERR_PA => ⟨0, 46, .ro, 0, false⟩
  | .EMB_STATUS_TEXTURE_UNITS => ⟨48, 16, .ro, 0, false⟩
  | .EMB_STATUS_SHADERS => ⟨24, 24, .ro, 0, false⟩
  | .EMB_STATUS_TILE_UNITS => ⟨8, 16, .ro, 0, false⟩
  | .EMB_STATUS_STATE => ⟨0, 4, .ro, 0, false⟩
  | .EMB_ERR_CE_COUNT => ⟨48, 16, .rc, 0, false⟩
  | .EMB_ERR_UE_COUNT => ⟨40, 8, .rc, 0, false⟩
  | .EMB_ERR_MEMORY => ⟨32, 2, .ro, 0, false⟩
  | .EMB_PERF_COUNT => ⟨0, 64, .ro, 0, false⟩
  | .EQX_STREAM_CTRL_OP => ⟨60, 4, .wo, 0, false⟩
  | .EQX_STREAM_CTRL_RESULT => ⟨56, 4, .ro, 0, false⟩
  | .EQX_STREAM_CTRL_STATE => ⟨52, 4, .ro, 0, false⟩
  | .EQX_STREAM_CTRL_HEAD => ⟨51, 1, .ro, 0, false⟩
  | .EQX_STREAM_CTRL_HEADNUM => ⟨48, 3, .ro, 0, false⟩
  | .EQX_STREAM_CTRL_QUEUE => ⟨42, 6, .rw, 0, false⟩
  | .EQX_STREAM_CTRL_WARP_MODE => ⟨40, 1, .rw, 0, false⟩
  | .EQX_STREAM_CTRL_HISTORY => ⟨36, 4, .rw, 4, false⟩
  | .EQX_STREAM_CTRL_LATENCY => ⟨34, 2, .rw, 1, false⟩
  | .EQX_STREAM_CTRL_DEPTH_NEAR => ⟨33, 1, .rw, 0, false⟩
  | .EQX_STREAM_CTRL_CLASS1_SHARE => ⟨16, 16, .rw, 0, false⟩
  | .EQX_STREAM_SRC_SRC_KIND => ⟨62, 2, .rw, 0, false⟩
  | .EQX_STREAM_SRC_UPSCALE => ⟨60, 2, .rw, 0, false⟩
  | .EQX_STREAM_SRC_MULT => ⟨57, 3, .rw, 1, false⟩
  | .EQX_STREAM_SRC_SRC_INDEX => ⟨48, 8, .rw, 0, false⟩
  | .EQX_STREAM_SRC_LANE => ⟨40, 8, .rw, 0xff, false⟩
  | .EQX_STREAM_SRC_SRC_HANDLE => ⟨0, 20, .rw, 0, false⟩
  | .EQX_STREAM_NET_SCRATCH => ⟨32, 20, .rw, 0, false⟩
  | .EQX_STREAM_NET_NET => ⟨0, 20, .rw, 0, false⟩
  | .EQX_STREAM_RING_VA => ⟨16, 32, .rw, 0, false⟩
  | .EQX_STREAM_RING_FORMAT => ⟨8, 4, .rw, 2, false⟩
  | .EQX_STREAM_RING_DEPTH => ⟨0, 5, .rw, 0, false⟩
  | .EQX_STREAM_GEOM_OUT_W => ⟨48, 16, .rw, 0, false⟩
  | .EQX_STREAM_GEOM_OUT_H => ⟨32, 16, .rw, 0, false⟩
  | .EQX_STREAM_GEOM_PERIOD => ⟨0, 32, .rw, 0, false⟩
  | .EQX_STREAM_TIME_SRC_OFFSET => ⟨32, 32, .rw, 0, false⟩
  | .EQX_STREAM_TIME_START => ⟨0, 32, .rw, 0, false⟩
  | .EQX_STREAM_TRIG_OVF => ⟨8, 1, .w1c, 0, false⟩
  | .EQX_STREAM_TRIG_COUNT => ⟨0, 8, .ro, 0, false⟩
  | .EQX_STREAM_STAT_PUBLISHED => ⟨48, 16, .rc, 0, false⟩
  | .EQX_STREAM_STAT_LATE => ⟨32, 16, .rc, 0, false⟩
  | .EQX_STREAM_STAT_DROPPED => ⟨16, 16, .rc, 0, false⟩
  | .EQX_STREAM_STAT_COMPOSED => ⟨0, 16, .rc, 0, false⟩
  | .EQX_STREAM_STAT2_SUPERSEDED => ⟨48, 16, .rc, 0, false⟩
  | .EQX_STREAM_STAT2_FAILED => ⟨32, 16, .rc, 0, false⟩
  | .EQX_STREAM_STAT2_STALE_WAITS => ⟨16, 16, .rc, 0, false⟩
  | .EQX_STREAM_NEWEST_FRAME => ⟨32, 32, .ro, 0xffffffff, false⟩
  | .EQX_STREAM_NEWEST_NEXT => ⟨0, 32, .ro, 0, false⟩
  | .EQX_HOMOG_STAGE_VALUE => ⟨0, 32, .rw, 0, false⟩
  | .EQX_HOMOG_CTRL_COMMIT => ⟨0, 1, .wo, 0, false⟩
  | .EQX_MEM_READ_CONSUMED => ⟨0, 32, .rw, 0, true⟩
  | .EQX_LAYER_ADDR_VA => ⟨6, 42, .rw, 0, false⟩
  | .EQX_LAYER_GEOM_X => ⟨48, 16, .rw, 0, false⟩
  | .EQX_LAYER_GEOM_Y => ⟨32, 16, .rw, 0, false⟩
  | .EQX_LAYER_GEOM_W => ⟨16, 16, .rw, 0, false⟩
  | .EQX_LAYER_GEOM_H => ⟨0, 16, .rw, 0, false⟩
  | .EQX_LAYER_CTRL_PITCH => ⟨16, 16, .rw, 0, false⟩
  | .EQX_LAYER_CTRL_ACTIVE => ⟨1, 1, .ro, 0, false⟩
  | .EQX_LAYER_CTRL_ENABLE => ⟨0, 1, .rw, 0, false⟩
  | .EQX_LAYER_FLIP_PENDING => ⟨8, 1, .ro, 0, false⟩
  | .EQX_LAYER_FLIP_LAYERS => ⟨0, 8, .wo, 0, false⟩
  | .DSP_LINK_CFG_DSC_BPP => ⟨16, 16, .rw, 0xc0, false⟩
  | .DSP_LINK_CFG_DSC_SLICES => ⟨8, 5, .rw, 8, false⟩
  | .DSP_LINK_CFG_BPC => ⟨0, 4, .rw, 8, false⟩
  | .DSP_AUX_CTRL_OP => ⟨60, 4, .wo, 0, false⟩
  | .DSP_AUX_CTRL_RESULT => ⟨56, 4, .ro, 0, false⟩
  | .DSP_AUX_CTRL_CMD => ⟨52, 4, .rw, 0, false⟩
  | .DSP_AUX_CTRL_LEN => ⟨40, 4, .rw, 0, false⟩
  | .DSP_AUX_CTRL_ADDR => ⟨20, 20, .rw, 0, false⟩
  | .DSP_AUX_CTRL_REPLY_LEN => ⟨0, 5, .ro, 0, false⟩
  | .DSP_AUX_DATA_DATA => ⟨0, 32, .rw, 0, false⟩
  | .DSP_SYNC_VPOL => ⟨57, 1, .rw, 0, false⟩
  | .DSP_SYNC_HPOL => ⟨56, 1, .rw, 1, false⟩
  | .DSP_SYNC_VSW => ⟨48, 8, .rw, 8, false⟩
  | .DSP_SYNC_VFP => ⟨32, 16, .rw, 8, false⟩
  | .DSP_SYNC_HSW => ⟨16, 16, .rw, 0x20, false⟩
  | .DSP_SYNC_HFP => ⟨0, 16, .rw, 8, false⟩
  | .DSP_TIMING_H_H_TOTAL => ⟨32, 16, .ro, 0, false⟩
  | .DSP_TIMING_H_H_ACTIVE => ⟨0, 16, .ro, 0, false⟩
  | .DSP_TIMING_V_PIXCLK => ⟨32, 32, .ro, 0, false⟩
  | .DSP_TIMING_V_V_TOTAL => ⟨16, 16, .ro, 0, false⟩
  | .DSP_TIMING_V_V_ACTIVE => ⟨0, 16, .ro, 0, false⟩
  | .DSP_LINEMATCH_LINE_D => ⟨48, 16, .rw, 0, false⟩
  | .DSP_LINEMATCH_LINE_C => ⟨32, 16, .rw, 0, false⟩
  | .DSP_LINEMATCH_LINE_B => ⟨16, 16, .ro, 0xffff, false⟩
  | .DSP_LINEMATCH_LINE_A => ⟨0, 16, .ro, 0xffff, false⟩
  | .DSP_STATUS_STATE => ⟨60, 4, .ro, 0, false⟩
  | .DSP_STATUS_REASON => ⟨56, 4, .ro, 0, false⟩
  | .DSP_STATUS_HPD => ⟨55, 1, .ro, 0, false⟩
  | .DSP_STATUS_IRQ_HPD => ⟨54, 1, .w1c, 0, false⟩
  | .DSP_STATUS_LINE => ⟨32, 16, .ro, 0, false⟩
  | .DSP_STATUS_REFRESH => ⟨0, 32, .ro, 0, false⟩
  | .DSP_LINK_RETRAINS => ⟨48, 16, .rc, 0, false⟩
  | .DSP_LINK_FALLBACK => ⟨40, 1, .ro, 0, false⟩
  | .DSP_LINK_LTTPRS => ⟨36, 4, .ro, 0, false⟩
  | .DSP_LINK_ASYNC => ⟨33, 1, .ro, 0, false⟩
  | .DSP_LINK_DSC => ⟨32, 1, .ro, 0, false⟩
  | .DSP_LINK_RATE => ⟨28, 4, .ro, 0xf, false⟩
  | .DSP_LINK_LANES => ⟨0, 3, .ro, 0, false⟩
  | .DSP_PLANE_ADDR_VA => ⟨6, 42, .rw, 0, false⟩
  | .DSP_PLANE_GEOM_X => ⟨48, 16, .rw, 0, false⟩
  | .DSP_PLANE_GEOM_Y => ⟨32, 16, .rw, 0, false⟩
  | .DSP_PLANE_GEOM_W => ⟨16, 16, .rw, 0, false⟩
  | .DSP_PLANE_GEOM_H => ⟨0, 16, .rw, 0, false⟩
  | .DSP_PLANE_CTRL_PITCH => ⟨16, 16, .rw, 0, false⟩
  | .DSP_PLANE_CTRL_FORMAT => ⟨4, 1, .rw, 0, false⟩
  | .DSP_PLANE_CTRL_MODE => ⟨1, 1, .rw, 0, false⟩
  | .DSP_PLANE_CTRL_ENABLE => ⟨0, 1, .rw, 0, false⟩
  | .DSP_PLANE_FLIP_PENDING => ⟨8, 1, .ro, 0, false⟩
  | .DSP_PLANE_FLIP_PLANES => ⟨0, 4, .wo, 0, false⟩
  | .DSP_UNDERRUN_COUNT => ⟨48, 16, .rc, 0, false⟩
  | .DSP_UNDERRUN_CONSECUTIVE => ⟨40, 8, .ro, 0, false⟩
  | .DSP_UNDERRUN_LAST_LINE => ⟨16, 16, .ro, 0, false⟩
  | .DSP_UNDERRUN_LAST_PIXEL => ⟨0, 16, .ro, 0, false⟩
  | .DSP_ASYNC_VT_MAX => ⟨16, 16, .rw, 0, false⟩
  | .DSP_ASYNC_VT_MIN => ⟨0, 16, .rw, 0, false⟩
  | .DSP_LOCK_GCNT_GCNT => ⟨0, 64, .rw, 0, false⟩
  | .DSP_LOCK_CTRL_ENABLE => ⟨63, 1, .rw, 0, false⟩
  | .DSP_LOCK_CTRL_LOCKED => ⟨62, 1, .ro, 0, false⟩
  | .DSP_LOCK_CTRL_TRIM => ⟨32, 10, .ro, 0, false⟩
  | .DSP_LOCK_CTRL_PERIOD => ⟨0, 32, .rw, 0, false⟩
  | .DSP_LOCK_ERR_ERROR => ⟨0, 32, .ro, 0, false⟩
  | .VIN_STATUS_STATE => ⟨60, 4, .ro, 0, false⟩
  | .VIN_STATUS_PARTITION => ⟨54, 6, .ro, 0, false⟩
  | .VIN_STATUS_LANE => ⟨40, 8, .ro, 0, false⟩
  | .VIN_STATUS_HS => ⟨36, 4, .ro, 0, false⟩
  | .VIN_STATUS_ACTIVE_VC => ⟨16, 16, .ro, 0, false⟩
  | .VIN_STATUS_VC_MASK => ⟨0, 16, .ro, 0, false⟩
  | .VIN_ERR_ECC_CORRECTED => ⟨52, 12, .rc, 0, false⟩
  | .VIN_ERR_ECC_FAIL => ⟨40, 12, .rc, 0, false⟩
  | .VIN_ERR_CRC => ⟨28, 12, .rc, 0, false⟩
  | .VIN_ERR_DAMAGED => ⟨20, 8, .rc, 0, false⟩
  | .VIN_ERR_DROPPED => ⟨12, 8, .rc, 0, false⟩
  | .VIN_ERR_OTHER => ⟨0, 12, .rc, 0, false⟩
  | .VIN_VC_RING_ENTRY => ⟨46, 12, .rw, 0, false⟩
  | .VIN_VC_RING_ADDR => ⟨16, 30, .rw, 0, false⟩
  | .VIN_VC_RING_DEPTH => ⟨0, 5, .rw, 4, false⟩
  | .VIN_VC_REL_PUBLISHED => ⟨32, 32, .ro, 0, false⟩
  | .VIN_VC_REL_RELEASED => ⟨0, 32, .rw, 0, true⟩
  | .GEY_PEND_PEND => ⟨0, 64, .w1c, 0, true⟩
  | .GEY_PEND_SET_PEND => ⟨0, 64, .w1s, 0, true⟩
  | .GEY_RET_RESTORES => ⟨16, 16, .rc, 0, false⟩
  | .GEY_RET_STATE => ⟨2, 2, .ro, 0, false⟩
  | .GEY_RET_LOST => ⟨0, 1, .w1c, 0, false⟩
  | .GEY_SRC_INPUT => ⟨63, 1, .ro, 0, false⟩
  | .GEY_SRC_HELD => ⟨62, 1, .ro, 0, false⟩
  | .GEY_SRC_GROUP => ⟨38, 11, .ro, 0x7ff, false⟩
  | .GEY_SRC_VECTOR => ⟨32, 6, .rw, 0, false⟩
  | .GEY_SRC_TARGET => ⟨12, 10, .ro, 0, false⟩
  | .GEY_SRC_PRIORITY => ⟨8, 4, .ro, 0, false⟩
  | .GEY_SRC_LEVEL => ⟨1, 1, .ro, 0, false⟩
  | .GEY_SRC_ENABLE => ⟨0, 1, .rw, 0, false⟩
  | .GEY_GRP_COUNT => ⟨56, 8, .rw, 0, true⟩
  | .GEY_GRP_TIME => ⟨40, 16, .rw, 0, true⟩
  | .GEY_GRP_ACC => ⟨32, 8, .ro, 0, false⟩
  | .GEY_GRP_STATE => ⟨30, 2, .ro, 0, false⟩
  | .GEY_GRP_ELAPSED => ⟨0, 23, .ro, 0, false⟩
  | .GEY_TGT_ACTIVE => ⟨48, 16, .ro, 0, false⟩
  | .GEY_TGT_SPURIOUS => ⟨40, 8, .rc, 0, false⟩
  | .GEY_TGT_RUNNING => ⟨32, 5, .ro, 0x10, false⟩
  | .GEY_TGT_THRESHOLD => ⟨0, 4, .rw, 0, false⟩
  | .GEY_TGT_COMPLETE_LEVEL => ⟨0, 4, .wo, 0, false⟩
  | .GEY_TGT_SUM_WORDS => ⟨0, 64, .ro, 0, false⟩
  | .VF_GEY_PEND_PEND => ⟨0, 8, .w1c, 0, true⟩
  | .VF_GEY_SET_PEND => ⟨0, 8, .w1s, 0, true⟩
  | .VF_GEY_COMPLETE_LEVEL => ⟨0, 4, .wo, 0, false⟩
  | .VF_GEY_SRC_ENABLE => ⟨56, 8, .ro, 0, false⟩
  | .VF_GEY_SRC_LEVEL => ⟨48, 8, .ro, 0, false⟩
  | .VF_GEY_SRC_HELD => ⟨40, 8, .ro, 0, false⟩
  | .VF_GEY_SRC_PRIORITY => ⟨0, 32, .ro, 0, false⟩
  | .TIM_GCNT_COUNT => ⟨0, 64, .ro, 0, false⟩
  | .TIM_CTRL_REPEAT => ⟨3, 1, .rw, 0, true⟩
  | .TIM_CTRL_MODE => ⟨1, 2, .rw, 0, true⟩
  | .TIM_CTRL_ENABLE => ⟨0, 1, .rw, 0, true⟩
  | .TIM_SYNC_STATUS_FRAMES_BAD => ⟨48, 16, .rc, 0, false⟩
  | .TIM_SYNC_STATUS_STEPS => ⟨32, 16, .rc, 0, false⟩
  | .TIM_SYNC_STATUS_HOPS => ⟨28, 4, .ro, 0, false⟩
  | .TIM_SYNC_STATUS_RATE => ⟨16, 9, .ro, 0, false⟩
  | .TIM_SYNC_STATUS_ERROR => ⟨8, 8, .ro, 0, false⟩
  | .TIM_SYNC_STATUS_STATE => ⟨0, 3, .ro, 0, false⟩
  | .TIM_SYNC_DELAY_LOOP => ⟨16, 16, .ro, 0, false⟩
  | .TIM_SYNC_DELAY_DELAY => ⟨0, 16, .rw, 0, false⟩
  | .TIM_CMP_TARGET_TARGET => ⟨0, 64, .rw, 0, true⟩
  | .TIM_CMP_RELOAD_RELOAD => ⟨0, 64, .rw, 0, true⟩
  | .TIM_CMP_CTRL_MISSED => ⟨16, 16, .rc, 0, false⟩
  | .TIM_CMP_CTRL_PERIODIC => ⟨1, 1, .rw, 0, false⟩
  | .TIM_CMP_CTRL_ENABLE => ⟨0, 1, .rw, 0, false⟩
  | .CAL_TIME_YEAR => ⟨48, 16, .ro, 0x7d0, false⟩
  | .CAL_TIME_MONTH => ⟨44, 4, .ro, 1, false⟩
  | .CAL_TIME_DAY => ⟨39, 5, .ro, 1, false⟩
  | .CAL_TIME_HOUR => ⟨34, 5, .ro, 0, false⟩
  | .CAL_TIME_MINUTE => ⟨28, 6, .ro, 0, false⟩
  | .CAL_TIME_SECOND => ⟨22, 6, .ro, 0, false⟩
  | .CAL_TIME_DOW => ⟨15, 3, .ro, 5, false⟩
  | .CAL_TIME_SUBSEC => ⟨0, 15, .ro, 0, false⟩
  | .CAL_STAGE_DATE_TIME => ⟨22, 42, .rw, 0, false⟩
  | .CAL_CTRL_PENDING => ⟨1, 1, .ro, 0, false⟩
  | .CAL_CTRL_LOAD => ⟨0, 1, .wo, 0, false⟩
  | .CAL_STATUS_VALID => ⟨3, 1, .ro, 0, false⟩
  | .CAL_STATUS_BADDATE => ⟨2, 1, .w1c, 0, false⟩
  | .CAL_STATUS_WRAP => ⟨1, 1, .w1c, 0, false⟩
  | .CAL_STATUS_LOADED => ⟨0, 1, .w1c, 0, false⟩
  | .BRG_STATE_STATE => ⟨60, 4, .ro, 0, false⟩
  | .BRG_STATE_FAIL_REASON => ⟨52, 8, .ro, 0, false⟩
  | .BRG_STATE_PATH => ⟨51, 1, .ro, 0, false⟩
  | .BRG_STATE_ELAPSED => ⟨0, 32, .ro, 0, false⟩
  | .BRG_CTRL_OP => ⟨28, 4, .wo, 0, false⟩
  | .BRG_CTRL_HEALTH_MAX_AGE => ⟨8, 8, .rw, 0x5a, false⟩
  | .BRG_CTRL_NEXT_FULL => ⟨2, 1, .rw, 0, true⟩
  | .BRG_CTRL_AUTO_RETURN => ⟨1, 1, .rw, 1, false⟩
  | .BRG_CTRL_AUTO_RETIRE => ⟨0, 1, .rw, 1, false⟩
  | .BRG_HEALTH_SEQ => ⟨32, 32, .ro, 0, false⟩
  | .BRG_HEALTH_AGE_DAYS => ⟨16, 16, .ro, 0, false⟩
  | .BRG_HEALTH_FULL_DUE => ⟨3, 1, .ro, 0, false⟩
  | .BRG_HEALTH_SLOT => ⟨2, 1, .ro, 0, false⟩
  | .BRG_HEALTH_WRITING => ⟨1, 1, .ro, 0, false⟩
  | .BRG_HEALTH_VALID => ⟨0, 1, .ro, 0, false⟩
  | .BRG_MEMTEST_MODE => ⟨60, 4, .ro, 0, false⟩
  | .BRG_MEMTEST_PHASE => ⟨56, 4, .ro, 0, false⟩
  | .BRG_MEMTEST_PROGRESS => ⟨48, 8, .ro, 0, false⟩
  | .BRG_MEMTEST_ROWS_FAILED => ⟨16, 16, .rc, 0, false⟩
  | .BRG_MEMTEST_ROWS_REPAIRED => ⟨8, 8, .rc, 0, false⟩
  | .BRG_MEMTEST_PCS_RETIRED => ⟨0, 8, .rc, 0, false⟩
  | .BRG_HBM_PASS => ⟨32, 32, .ro, 0, false⟩
  | .BRG_HBM_ATTEMPTS => ⟨24, 8, .ro, 0, false⟩
  | .BRG_HBM_STATE => ⟨0, 4, .ro, 0, false⟩
  | .BRG_PC_CTRL_OP => ⟨60, 4, .wo, 0, false⟩
  | .BRG_PC_CTRL_RESULT => ⟨56, 4, .ro, 0, false⟩
  | .BRG_PC_CTRL_PC => ⟨40, 7, .rw, 0, false⟩
  | .BRG_PC_CTRL_PAGES_LEFT => ⟨0, 32, .ro, 0, false⟩
  | .BRG_PART_RESET_OP => ⟨28, 4, .wo, 0, false⟩
  | .BRG_PART_RESET_RESULT => ⟨24, 4, .ro, 0, false⟩
  | .BRG_PART_RESET_PARTITION => ⟨8, 6, .rw, 0, false⟩
  | .SEC_DIE_ID_DIE_ID => ⟨0, 64, .ro, 0, false⟩
  | .SEC_STATUS_FW_SVN_FLOOR => ⟨56, 8, .ro, 0, false⟩
  | .SEC_STATUS_ARB_STEPS => ⟨48, 8, .ro, 0, false⟩
  | .SEC_STATUS_OWNER_SLOT => ⟨36, 4, .ro, 0, false⟩
  | .SEC_STATUS_ALLOW_KEROLD => ⟨35, 1, .ro, 0, false⟩
  | .SEC_STATUS_TOKENS_REJECTED => ⟨24, 8, .rc, 0, false⟩
  | .SEC_STATUS_DEBUG => ⟨0, 2, .ro, 0, false⟩
  | .SEC_STRUCT_FLOOR_FLOOR => ⟨0, 64, .ro, 0, false⟩
  | .SEC_ARB_CTRL_OP => ⟨28, 4, .wo, 0, false⟩
  | .SEC_ARB_CTRL_RESULT => ⟨24, 4, .ro, 0, false⟩
  | .SEC_OWNER_DIGEST_DIGEST => ⟨0, 64, .rw, 0, false⟩
  | .SEC_OWNER_CTRL_OP => ⟨28, 4, .wo, 0, false⟩
  | .SEC_OWNER_CTRL_RESULT => ⟨24, 4, .ro, 0, false⟩
  | .SEC_OWNER_CTRL_ALLOW_KEROLD => ⟨0, 1, .rw, 0, false⟩
  | .SEC_DBG_NONCE_NONCE => ⟨0, 64, .ro, 0, false⟩
  | .SEC_DBG_ADDR_ADDR => ⟨3, 61, .rw, 0, false⟩
  | .SEC_DBG_LEN_LEN => ⟨0, 16, .rw, 0, false⟩
  | .SEC_DBG_CTRL_OP => ⟨28, 4, .wo, 0, false⟩
  | .SEC_DBG_CTRL_RESULT => ⟨24, 4, .ro, 0, false⟩
  | .PWR_CTRL_OP => ⟨28, 4, .wo, 0, false⟩
  | .PWR_CTRL_RESULT => ⟨24, 4, .ro, 0, false⟩
  | .PWR_CTRL_ALERT_LEVEL => ⟨16, 8, .rw, 8, false⟩
  | .PWR_CTRL_T_THROTTLE => ⟨8, 8, .rw, 0x64, false⟩
  | .PWR_STATUS_STATE => ⟨60, 4, .ro, 1, false⟩
  | .PWR_STATUS_LEVEL => ⟨56, 4, .ro, 0, false⟩
  | .PWR_STATUS_CAUSE => ⟨52, 4, .ro, 0, false⟩
  | .PWR_STATUS_ALERT => ⟨51, 1, .ro, 0, false⟩
  | .PWR_STATUS_TRIPPED => ⟨50, 1, .w1c, 0, false⟩
  | .PWR_STATUS_PLL_LOST => ⟨49, 1, .w1c, 0, false⟩
  | .PWR_STATUS_WAKES => ⟨16, 16, .rc, 0, false⟩
  | .PWR_LIMIT_LIMIT_W => ⟨0, 16, .rw, 0x168, false⟩
  | .PWR_ENERGY_UJ => ⟨0, 64, .ro, 0, false⟩
  | .PWR_POWER_MW => ⟨0, 32, .ro, 0, false⟩
  | .PWR_WAKE_CALENDAR => ⟨2, 1, .rw, 0, false⟩
  | .PWR_WAKE_TIMER => ⟨1, 1, .rw, 1, false⟩
  | .PWR_WAKE_HOST => ⟨0, 1, .ro, 1, false⟩
  | .PWR_STRAPS_TEST_EN => ⟨3, 1, .ro, 0, false⟩
  | .PWR_STRAPS_SMB_ADDR => ⟨1, 2, .ro, 0, false⟩
  | .PWR_STRAPS_HOST_PRIMARY => ⟨0, 1, .ro, 0, false⟩
  | .PWR_TEMP_VALID => ⟨31, 1, .ro, 0, false⟩
  | .PWR_TEMP_TEMP => ⟨0, 16, .ro, 0, false⟩
  | .TST_CTRL_OP => ⟨28, 4, .wo, 0, false⟩
  | .TST_CTRL_RESULT => ⟨24, 4, .ro, 0, false⟩
  | .TST_CTRL_KIND => ⟨8, 2, .rw, 3, false⟩
  | .TST_CTRL_CLASS => ⟨4, 4, .rw, 0, false⟩
  | .TST_CTRL_INDEX => ⟨0, 4, .rw, 0, false⟩
  | .TST_SIG_MISR => ⟨0, 64, .ro, 0, false⟩
  | .TST_EXPECT_SIG => ⟨0, 64, .ro, 0, false⟩
  | .TST_FAIL_VALID => ⟨63, 1, .w1c, 0, false⟩
  | .TST_FAIL_MEMORY => ⟨56, 7, .ro, 0, false⟩
  | .TST_FAIL_BANK => ⟨48, 8, .ro, 0, false⟩
  | .TST_FAIL_WORD => ⟨0, 26, .ro, 0, false⟩
  | .TST_UNIT_RUNS => ⟨16, 16, .rc, 0, false⟩
  | .TST_UNIT_FAILED => ⟨2, 1, .ro, 0, false⟩
  | .TST_UNIT_PASSED => ⟨1, 1, .ro, 0, false⟩
  | .TST_UNIT_TESTING => ⟨0, 1, .ro, 0, false⟩
  | .TIM_RNG_KEY_KEY => ⟨0, 64, .rw, 0, true⟩
  | .TIM_RNG_STREAM_STREAM => ⟨0, 64, .rw, 0, true⟩
  | .TIM_RNG_INDEX_INDEX => ⟨0, 64, .rw, 0, true⟩
  | .TIM_RNG_STEP_STEP => ⟨0, 64, .rw, 0, true⟩
  | .TIM_RNG_OUT_LO_OUT => ⟨0, 64, .ro, 0, false⟩
  | .TIM_RNG_OUT_HI_OUT => ⟨0, 64, .ro, 0, false⟩

/-- Every tabled register of the spec. -/
inductive Reg where
  | SYS_ID
  | STRUCT_SRC_ADDR
  | STRUCT_SRC_LEN
  | STRUCT_CTRL
  | STRUCT_STATUS
  | STRUCT_ERR_OFFSET
  | STRUCT_ACTIVE_SEQ
  | STRUCT_PENDING
  | MEM_SCRUB_CTRL
  | MEM_UE_ADDR
  | MEM_PC_STATUS
  | MEM_POOL_QUOTA
  | VF_POOL_STATUS
  | VF_MAP_VA
  | VF_MAP_SRC_VA
  | VF_MAP_CTRL
  | MEM_POWN_CTRL
  | MEM_POWN_PA
  | MEM_POWN_VA
  | MEM_POWN_MODEL
  | VF_SWAP_BASE
  | VF_SWAP_SIZE
  | RDY_STATUS
  | RDY_DROPS
  | HOST_PORT_STATUS
  | HOST_MOVE
  | HOST_CTRL
  | HOST_HOME
  | VF_HOME
  | VF_QSEL
  | VF_QSQ
  | VF_QCQ
  | VF_QCTRL
  | VF_QPOS
  | VF_STATUS
  | VF_FAULT
  | VF_FAULT_ADDR
  | VF_TT_CAP
  | VF_TT_READ
  | VF_TT_ENTRY
  | SCH_TENANT
  | SCH_CTRL
  | SCH_RESERVE_SCALE
  | SCH_CE_STATUS
  | SCH_ACCT_THRESH
  | VF_SAT
  | VF_SAT_WHERE
  | CE_STATUS
  | CE_CTRL
  | CE_SRAM_ERR
  | CE_CODEC_ERR
  | CE_SEQ_EXC
  | CE_SLOT
  | CE_PERF
  | VF_PARK
  | VIS_STATUS
  | VIS_CTRL
  | VIS_PARAM
  | VIS_IN_BASE
  | VIS_IN_GEOM
  | VIS_RING_BASE
  | VIS_TRIG
  | VIS_TRIG_ADD
  | VIS_FRAME
  | VIS_ERR
  | EMB_STATUS
  | EMB_ERR
  | EMB_PERF
  | EQX_STREAM_CTRL
  | EQX_STREAM_SRC
  | EQX_STREAM_NET
  | EQX_STREAM_RING
  | EQX_STREAM_GEOM
  | EQX_STREAM_TIME
  | EQX_STREAM_TRIG
  | EQX_STREAM_STAT
  | EQX_STREAM_STAT2
  | EQX_STREAM_NEWEST
  | EQX_HOMOG_STAGE
  | EQX_HOMOG_CTRL
  | EQX_MEM_READ
  | EQX_LAYER_ADDR
  | EQX_LAYER_GEOM
  | EQX_LAYER_CTRL
  | EQX_LAYER_FLIP
  | DSP_LINK_CFG
  | DSP_AUX_CTRL
  | DSP_AUX_DATA
  | DSP_SYNC
  | DSP_TIMING_H
  | DSP_TIMING_V
  | DSP_LINEMATCH
  | DSP_STATUS
  | DSP_LINK
  | DSP_PLANE_ADDR
  | DSP_PLANE_GEOM
  | DSP_PLANE_CTRL
  | DSP_PLANE_FLIP
  | DSP_UNDERRUN
  | DSP_ASYNC
  | DSP_LOCK_GCNT
  | DSP_LOCK_CTRL
  | DSP_LOCK_ERR
  | VIN_STATUS
  | VIN_ERR
  | VIN_VC_RING
  | VIN_VC_REL
  | GEY_PEND
  | GEY_PEND_SET
  | GEY_RET
  | GEY_SRC
  | GEY_GRP
  | GEY_TGT
  | GEY_TGT_COMPLETE
  | GEY_TGT_SUM
  | VF_GEY_PEND
  | VF_GEY_SET
  | VF_GEY_TGT
  | VF_GEY_COMPLETE
  | VF_GEY_SRC
  | TIM_GCNT
  | TIM_CTRL
  | TIM_SYNC_STATUS
  | TIM_SYNC_DELAY
  | TIM_CMP_TARGET
  | TIM_CMP_RELOAD
  | TIM_CMP_CTRL
  | CAL_TIME
  | CAL_STAGE
  | CAL_CTRL
  | CAL_STATUS
  | BRG_STATE
  | BRG_CTRL
  | BRG_HEALTH
  | BRG_MEMTEST
  | BRG_HBM
  | BRG_PC_CTRL
  | BRG_PART_RESET
  | SEC_DIE_ID
  | SEC_STATUS
  | SEC_STRUCT_FLOOR
  | SEC_ARB_CTRL
  | SEC_OWNER_DIGEST
  | SEC_OWNER_CTRL
  | SEC_DBG_NONCE
  | SEC_DBG_ADDR
  | SEC_DBG_LEN
  | SEC_DBG_CTRL
  | PWR_CTRL
  | PWR_STATUS
  | PWR_LIMIT
  | PWR_ENERGY
  | PWR_POWER
  | PWR_WAKE
  | PWR_STRAPS
  | PWR_TEMP
  | TST_CTRL
  | TST_SIG
  | TST_EXPECT
  | TST_FAIL
  | TST_UNIT
  | TIM_RNG_KEY
  | TIM_RNG_STREAM
  | TIM_RNG_INDEX
  | TIM_RNG_STEP
  | TIM_RNG_OUT_LO
  | TIM_RNG_OUT_HI
deriving DecidableEq, Repr

/-- Address, units and width of each register. A `VF_` register's offset is that in the
VF page (R586); RDY registers' offset is that in PF0 configuration space (R111). -/
def Reg.info : Reg → RegInfo
  | .SYS_ID => ⟨0x0, [], 32⟩
  | .STRUCT_SRC_ADDR => ⟨0x40000, [], 64⟩
  | .STRUCT_SRC_LEN => ⟨0x40008, [], 32⟩
  | .STRUCT_CTRL => ⟨0x4000c, [], 32⟩
  | .STRUCT_STATUS => ⟨0x40010, [], 32⟩
  | .STRUCT_ERR_OFFSET => ⟨0x40014, [], 32⟩
  | .STRUCT_ACTIVE_SEQ => ⟨0x40018, [], 64⟩
  | .STRUCT_PENDING => ⟨0x40020, [], 32⟩
  | .MEM_SCRUB_CTRL => ⟨0x200000, [], 32⟩
  | .MEM_UE_ADDR => ⟨0x200008, [], 64⟩
  | .MEM_PC_STATUS => ⟨0x201000, [(0x8, 128)], 64⟩
  | .MEM_POOL_QUOTA => ⟨0x208000, [(0x8, 512)], 64⟩
  | .VF_POOL_STATUS => ⟨0x4100, [], 64⟩
  | .VF_MAP_VA => ⟨0x4108, [], 64⟩
  | .VF_MAP_SRC_VA => ⟨0x4118, [], 64⟩
  | .VF_MAP_CTRL => ⟨0x4110, [], 64⟩
  | .MEM_POWN_CTRL => ⟨0x20a000, [], 64⟩
  | .MEM_POWN_PA => ⟨0x20a008, [], 64⟩
  | .MEM_POWN_VA => ⟨0x20a010, [], 64⟩
  | .MEM_POWN_MODEL => ⟨0x20a018, [], 32⟩
  | .VF_SWAP_BASE => ⟨0x5000, [], 64⟩
  | .VF_SWAP_SIZE => ⟨0x5008, [], 64⟩
  | .RDY_STATUS => ⟨0x48c, [], 32⟩
  | .RDY_DROPS => ⟨0x490, [], 32⟩
  | .HOST_PORT_STATUS => ⟨0x70000, [(0x8, 2)], 64⟩
  | .HOST_MOVE => ⟨0x70040, [], 64⟩
  | .HOST_CTRL => ⟨0x70048, [], 32⟩
  | .HOST_HOME => ⟨0x70100, [(0x8, 8)], 64⟩
  | .VF_HOME => ⟨0x1080, [], 32⟩
  | .VF_QSEL => ⟨0x1010, [], 32⟩
  | .VF_QSQ => ⟨0x1018, [], 64⟩
  | .VF_QCQ => ⟨0x1020, [], 64⟩
  | .VF_QCTRL => ⟨0x1028, [], 64⟩
  | .VF_QPOS => ⟨0x1030, [], 64⟩
  | .VF_STATUS => ⟨0x1000, [], 32⟩
  | .VF_FAULT => ⟨0x1040, [], 64⟩
  | .VF_FAULT_ADDR => ⟨0x1048, [], 64⟩
  | .VF_TT_CAP => ⟨0x4000, [], 32⟩
  | .VF_TT_READ => ⟨0x4008, [], 32⟩
  | .VF_TT_ENTRY => ⟨0x4010, [(0x8, 4)], 64⟩
  | .SCH_TENANT => ⟨0x304000, [(0x8, 512)], 64⟩
  | .SCH_CTRL => ⟨0x300000, [], 32⟩
  | .SCH_RESERVE_SCALE => ⟨0x300008, [], 32⟩
  | .SCH_CE_STATUS => ⟨0x302000, [(0x8, 6)], 64⟩
  | .SCH_ACCT_THRESH => ⟨0x308000, [(0x8, 512)], 64⟩
  | .VF_SAT => ⟨0x1050, [], 64⟩
  | .VF_SAT_WHERE => ⟨0x1058, [], 64⟩
  | .CE_STATUS => ⟨0x400000, [(0x40000, 6)], 64⟩
  | .CE_CTRL => ⟨0x400008, [(0x40000, 6)], 32⟩
  | .CE_SRAM_ERR => ⟨0x400010, [(0x40000, 6)], 64⟩
  | .CE_CODEC_ERR => ⟨0x400018, [(0x40000, 6)], 32⟩
  | .CE_SEQ_EXC => ⟨0x400020, [(0x40000, 6)], 64⟩
  | .CE_SLOT => ⟨0x400100, [(0x40000, 6), (0x8, 32)], 64⟩
  | .CE_PERF => ⟨0x400200, [(0x40000, 6), (0x8, 8)], 64⟩
  | .VF_PARK => ⟨0x5010, [], 64⟩
  | .VIS_STATUS => ⟨0x580000, [(0x10000, 4)], 32⟩
  | .VIS_CTRL => ⟨0x580008, [(0x10000, 4)], 32⟩
  | .VIS_PARAM => ⟨0x580010, [(0x10000, 4)], 64⟩
  | .VIS_IN_BASE => ⟨0x580018, [(0x10000, 4)], 64⟩
  | .VIS_IN_GEOM => ⟨0x580020, [(0x10000, 4)], 64⟩
  | .VIS_RING_BASE => ⟨0x580028, [(0x10000, 4)], 64⟩
  | .VIS_TRIG => ⟨0x580030, [(0x10000, 4)], 32⟩
  | .VIS_TRIG_ADD => ⟨0x580034, [(0x10000, 4)], 32⟩
  | .VIS_FRAME => ⟨0x580038, [(0x10000, 4)], 64⟩
  | .VIS_ERR => ⟨0x580040, [(0x10000, 4)], 64⟩
  | .EMB_STATUS => ⟨0x5c0000, [], 64⟩
  | .EMB_ERR => ⟨0x5c0008, [], 64⟩
  | .EMB_PERF => ⟨0x5c0100, [(0x8, 8)], 64⟩
  | .EQX_STREAM_CTRL => ⟨0x600000, [(0x100, 64)], 64⟩
  | .EQX_STREAM_SRC => ⟨0x600008, [(0x100, 64)], 64⟩
  | .EQX_STREAM_NET => ⟨0x600010, [(0x100, 64)], 64⟩
  | .EQX_STREAM_RING => ⟨0x600018, [(0x100, 64)], 64⟩
  | .EQX_STREAM_GEOM => ⟨0x600020, [(0x100, 64)], 64⟩
  | .EQX_STREAM_TIME => ⟨0x600028, [(0x100, 64)], 64⟩
  | .EQX_STREAM_TRIG => ⟨0x600030, [(0x100, 64)], 32⟩
  | .EQX_STREAM_STAT => ⟨0x600038, [(0x100, 64)], 64⟩
  | .EQX_STREAM_STAT2 => ⟨0x600040, [(0x100, 64)], 64⟩
  | .EQX_STREAM_NEWEST => ⟨0x600048, [(0x100, 64)], 64⟩
  | .EQX_HOMOG_STAGE => ⟨0x600050, [(0x100, 64), (0x4, 9)], 32⟩
  | .EQX_HOMOG_CTRL => ⟨0x600078, [(0x100, 64)], 32⟩
  | .EQX_MEM_READ => ⟨0x600080, [(0x100, 64)], 32⟩
  | .EQX_LAYER_ADDR => ⟨0x610000, [(0x200, 8), (0x20, 8)], 64⟩
  | .EQX_LAYER_GEOM => ⟨0x610008, [(0x200, 8), (0x20, 8)], 64⟩
  | .EQX_LAYER_CTRL => ⟨0x610010, [(0x200, 8), (0x20, 8)], 32⟩
  | .EQX_LAYER_FLIP => ⟨0x610100, [(0x200, 8)], 32⟩
  | .DSP_LINK_CFG => ⟨0x640010, [(0x4000, 8)], 32⟩
  | .DSP_AUX_CTRL => ⟨0x640200, [(0x4000, 8)], 64⟩
  | .DSP_AUX_DATA => ⟨0x640210, [(0x4000, 8), (0x4, 4)], 32⟩
  | .DSP_SYNC => ⟨0x640020, [(0x4000, 8)], 64⟩
  | .DSP_TIMING_H => ⟨0x640040, [(0x4000, 8)], 64⟩
  | .DSP_TIMING_V => ⟨0x640048, [(0x4000, 8)], 64⟩
  | .DSP_LINEMATCH => ⟨0x640050, [(0x4000, 8)], 64⟩
  | .DSP_STATUS => ⟨0x640000, [(0x4000, 8)], 64⟩
  | .DSP_LINK => ⟨0x640008, [(0x4000, 8)], 64⟩
  | .DSP_PLANE_ADDR => ⟨0x640100, [(0x4000, 8), (0x20, 4)], 64⟩
  | .DSP_PLANE_GEOM => ⟨0x640108, [(0x4000, 8), (0x20, 4)], 64⟩
  | .DSP_PLANE_CTRL => ⟨0x640110, [(0x4000, 8), (0x20, 4)], 32⟩
  | .DSP_PLANE_FLIP => ⟨0x640180, [(0x4000, 8)], 32⟩
  | .DSP_UNDERRUN => ⟨0x640070, [(0x4000, 8)], 64⟩
  | .DSP_ASYNC => ⟨0x640078, [(0x4000, 8)], 32⟩
  | .DSP_LOCK_GCNT => ⟨0x640060, [(0x4000, 8)], 64⟩
  | .DSP_LOCK_CTRL => ⟨0x640068, [(0x4000, 8)], 64⟩
  | .DSP_LOCK_ERR => ⟨0x640080, [(0x4000, 8)], 32⟩
  | .VIN_STATUS => ⟨0x660000, [(0x2000, 8)], 64⟩
  | .VIN_ERR => ⟨0x660008, [(0x2000, 8)], 64⟩
  | .VIN_VC_RING => ⟨0x660100, [(0x2000, 8), (0x10, 16)], 64⟩
  | .VIN_VC_REL => ⟨0x660108, [(0x2000, 8), (0x10, 16)], 64⟩
  | .GEY_PEND => ⟨0x100000, [(0x8, 128)], 64⟩
  | .GEY_PEND_SET => ⟨0x100400, [(0x8, 128)], 64⟩
  | .GEY_RET => ⟨0x100800, [], 32⟩
  | .GEY_SRC => ⟨0x110000, [(0x8, 8192)], 64⟩
  | .GEY_GRP => ⟨0x120000, [(0x8, 1024)], 64⟩
  | .GEY_TGT => ⟨0x130000, [(0x20, 525)], 64⟩
  | .GEY_TGT_COMPLETE => ⟨0x130008, [(0x20, 525)], 32⟩
  | .GEY_TGT_SUM => ⟨0x130010, [(0x20, 525), (0x8, 2)], 64⟩
  | .VF_GEY_PEND => ⟨0x3000, [], 32⟩
  | .VF_GEY_SET => ⟨0x3004, [], 32⟩
  | .VF_GEY_TGT => ⟨0x3008, [], 64⟩
  | .VF_GEY_COMPLETE => ⟨0x3010, [], 32⟩
  | .VF_GEY_SRC => ⟨0x3018, [], 64⟩
  | .TIM_GCNT => ⟨0x20000, [], 64⟩
  | .TIM_CTRL => ⟨0x20008, [], 32⟩
  | .TIM_SYNC_STATUS => ⟨0x20010, [], 64⟩
  | .TIM_SYNC_DELAY => ⟨0x20018, [], 32⟩
  | .TIM_CMP_TARGET => ⟨0x21000, [(0x20, 64)], 64⟩
  | .TIM_CMP_RELOAD => ⟨0x21008, [(0x20, 64)], 64⟩
  | .TIM_CMP_CTRL => ⟨0x21010, [(0x20, 64)], 32⟩
  | .CAL_TIME => ⟨0x22000, [], 64⟩
  | .CAL_STAGE => ⟨0x22008, [], 64⟩
  | .CAL_CTRL => ⟨0x22010, [], 32⟩
  | .CAL_STATUS => ⟨0x22014, [], 32⟩
  | .BRG_STATE => ⟨0x30000, [], 64⟩
  | .BRG_CTRL => ⟨0x30008, [], 32⟩
  | .BRG_HEALTH => ⟨0x30010, [], 64⟩
  | .BRG_MEMTEST => ⟨0x30018, [], 64⟩
  | .BRG_HBM => ⟨0x30040, [(0x8, 4)], 64⟩
  | .BRG_PC_CTRL => ⟨0x30100, [], 64⟩
  | .BRG_PART_RESET => ⟨0x30108, [], 32⟩
  | .SEC_DIE_ID => ⟨0x50000, [(0x8, 2)], 64⟩
  | .SEC_STATUS => ⟨0x50010, [], 64⟩
  | .SEC_STRUCT_FLOOR => ⟨0x50018, [], 64⟩
  | .SEC_ARB_CTRL => ⟨0x50020, [], 32⟩
  | .SEC_OWNER_DIGEST => ⟨0x50040, [(0x8, 6)], 64⟩
  | .SEC_OWNER_CTRL => ⟨0x50070, [], 32⟩
  | .SEC_DBG_NONCE => ⟨0x50080, [(0x8, 4)], 64⟩
  | .SEC_DBG_ADDR => ⟨0x500a0, [], 64⟩
  | .SEC_DBG_LEN => ⟨0x500a8, [], 32⟩
  | .SEC_DBG_CTRL => ⟨0x500b0, [], 32⟩
  | .PWR_CTRL => ⟨0x10000, [], 32⟩
  | .PWR_STATUS => ⟨0x10008, [], 64⟩
  | .PWR_LIMIT => ⟨0x10010, [], 32⟩
  | .PWR_ENERGY => ⟨0x10018, [], 64⟩
  | .PWR_POWER => ⟨0x10020, [], 32⟩
  | .PWR_WAKE => ⟨0x10028, [], 32⟩
  | .PWR_STRAPS => ⟨0x10030, [], 32⟩
  | .PWR_TEMP => ⟨0x10100, [(0x8, 12)], 32⟩
  | .TST_CTRL => ⟨0x60000, [], 32⟩
  | .TST_SIG => ⟨0x60008, [], 64⟩
  | .TST_EXPECT => ⟨0x60010, [], 64⟩
  | .TST_FAIL => ⟨0x60018, [], 64⟩
  | .TST_UNIT => ⟨0x60100, [(0x40, 9), (0x4, 16)], 32⟩
  | .TIM_RNG_KEY => ⟨0x23000, [], 64⟩
  | .TIM_RNG_STREAM => ⟨0x23008, [], 64⟩
  | .TIM_RNG_INDEX => ⟨0x23010, [], 64⟩
  | .TIM_RNG_STEP => ⟨0x23018, [], 64⟩
  | .TIM_RNG_OUT_LO => ⟨0x23020, [], 64⟩
  | .TIM_RNG_OUT_HI => ⟨0x23028, [], 64⟩

/-- The fields of each register, highest first. -/
def Reg.fields : Reg → List Fld
  | .SYS_ID => [.SYS_ID_PART, .SYS_ID_STEP_MAJOR, .SYS_ID_STEP_MINOR]
  | .STRUCT_SRC_ADDR => [.STRUCT_SRC_ADDR_ADDR]
  | .STRUCT_SRC_LEN => [.STRUCT_SRC_LEN_LEN]
  | .STRUCT_CTRL => [.STRUCT_CTRL_CANCEL, .STRUCT_CTRL_LOAD]
  | .STRUCT_STATUS => [.STRUCT_STATUS_ERROR, .STRUCT_STATUS_ERR_SECTION, .STRUCT_STATUS_REFUSED, .STRUCT_STATUS_STATE]
  | .STRUCT_ERR_OFFSET => [.STRUCT_ERR_OFFSET_OFFSET]
  | .STRUCT_ACTIVE_SEQ => [.STRUCT_ACTIVE_SEQ_SEQ]
  | .STRUCT_PENDING => [.STRUCT_PENDING_TYPES]
  | .MEM_SCRUB_CTRL => [.MEM_SCRUB_CTRL_INTERVAL, .MEM_SCRUB_CTRL_CE_THRESHOLD, .MEM_SCRUB_CTRL_ENABLE]
  | .MEM_UE_ADDR => [.MEM_UE_ADDR_VALID, .MEM_UE_ADDR_LINE]
  | .MEM_PC_STATUS => [.MEM_PC_STATUS_CE_COUNT, .MEM_PC_STATUS_UE_COUNT, .MEM_PC_STATUS_REPAIR_LEFT, .MEM_PC_STATUS_ISET, .MEM_PC_STATUS_PARTITION, .MEM_PC_STATUS_STATE]
  | .MEM_POOL_QUOTA => [.MEM_POOL_QUOTA_QUOTA]
  | .VF_POOL_STATUS => [.VF_POOL_STATUS_USED, .VF_POOL_STATUS_QUOTA]
  | .VF_MAP_VA => [.VF_MAP_VA_VA]
  | .VF_MAP_SRC_VA => [.VF_MAP_SRC_VA_VA]
  | .VF_MAP_CTRL => [.VF_MAP_CTRL_PAGES, .VF_MAP_CTRL_STATUS, .VF_MAP_CTRL_OP, .VF_MAP_CTRL_SIZE, .VF_MAP_CTRL_CACHE, .VF_MAP_CTRL_XWR]
  | .MEM_POWN_CTRL => [.MEM_POWN_CTRL_OP, .MEM_POWN_CTRL_RESULT, .MEM_POWN_CTRL_PARTITION, .MEM_POWN_CTRL_SIZE, .MEM_POWN_CTRL_CACHE, .MEM_POWN_CTRL_HOT, .MEM_POWN_CTRL_CONTEXT, .MEM_POWN_CTRL_PAGES, .MEM_POWN_CTRL_XWR]
  | .MEM_POWN_PA => [.MEM_POWN_PA_PA]
  | .MEM_POWN_VA => [.MEM_POWN_VA_VA]
  | .MEM_POWN_MODEL => [.MEM_POWN_MODEL_MODEL]
  | .VF_SWAP_BASE => [.VF_SWAP_BASE_ADDR, .VF_SWAP_BASE_ENABLE]
  | .VF_SWAP_SIZE => [.VF_SWAP_SIZE_USED, .VF_SWAP_SIZE_SIZE]
  | .RDY_STATUS => [.RDY_STATUS_STATE, .RDY_STATUS_FAIL_REASON, .RDY_STATUS_VF_REFUSALS, .RDY_STATUS_READINESS]
  | .RDY_DROPS => [.RDY_DROPS_DOORBELLS]
  | .HOST_PORT_STATUS => [.HOST_PORT_STATUS_DOWNS, .HOST_PORT_STATUS_BUS, .HOST_PORT_STATUS_RATE, .HOST_PORT_STATUS_WIDTH, .HOST_PORT_STATUS_FLIT, .HOST_PORT_STATUS_DEGRADED, .HOST_PORT_STATUS_LINK]
  | .HOST_MOVE => [.HOST_MOVE_TENANT, .HOST_MOVE_STATUS, .HOST_MOVE_TARGET, .HOST_MOVE_SCOPE]
  | .HOST_CTRL => [.HOST_CTRL_HOLD_MS, .HOST_CTRL_AUTO_FAILOVER, .HOST_CTRL_PRIMARY, .HOST_CTRL_PF0_HOME]
  | .HOST_HOME => [.HOST_HOME_HOME]
  | .VF_HOME => [.VF_HOME_MOVES, .VF_HOME_HOME, .VF_HOME_MOVED]
  | .VF_QSEL => [.VF_QSEL_QUEUE]
  | .VF_QSQ => [.VF_QSQ_VA]
  | .VF_QCQ => [.VF_QCQ_VA]
  | .VF_QCTRL => [.VF_QCTRL_OP, .VF_QCTRL_RESULT, .VF_QCTRL_STATE, .VF_QCTRL_BAD_DOORBELLS, .VF_QCTRL_SQ_LOG2, .VF_QCTRL_CQ_LOG2, .VF_QCTRL_CLASS, .VF_QCTRL_CONTINUE_ON_ERROR]
  | .VF_QPOS => [.VF_QPOS_CQ_TAIL, .VF_QPOS_SQ_NEXT]
  | .VF_STATUS => [.VF_STATUS_PARTITION, .VF_STATUS_STATE]
  | .VF_FAULT => [.VF_FAULT_STATUS, .VF_FAULT_QUEUE, .VF_FAULT_SLOT, .VF_FAULT_VALID]
  | .VF_FAULT_ADDR => [.VF_FAULT_ADDR_ADDR]
  | .VF_TT_CAP => [.VF_TT_CAP_TT_CAP]
  | .VF_TT_READ => [.VF_TT_READ_HANDLE]
  | .VF_TT_ENTRY => [.VF_TT_ENTRY_WORD]
  | .SCH_TENANT => [.SCH_TENANT_OP, .SCH_TENANT_RESULT, .SCH_TENANT_RUN_LIMIT, .SCH_TENANT_WEIGHT]
  | .SCH_CTRL => [.SCH_CTRL_BATCH_WAIT, .SCH_CTRL_WRES_BANKS]
  | .SCH_RESERVE_SCALE => [.SCH_RESERVE_SCALE_SCALE]
  | .SCH_CE_STATUS => [.SCH_CE_STATUS_PREEMPT_KILLS, .SCH_CE_STATUS_DEDICATED, .SCH_CE_STATUS_PARTITION, .SCH_CE_STATUS_IN_PLACE, .SCH_CE_STATUS_IN_PLACE_SLOT, .SCH_CE_STATUS_BUSY]
  | .SCH_ACCT_THRESH => [.SCH_ACCT_THRESH_ENABLE, .SCH_ACCT_THRESH_COUNTER, .SCH_ACCT_THRESH_LIMIT]
  | .VF_SAT => [.VF_SAT_OPERAND, .VF_SAT_OUTPUT]
  | .VF_SAT_WHERE => [.VF_SAT_WHERE_VALID, .VF_SAT_WHERE_QUEUE, .VF_SAT_WHERE_FROM, .VF_SAT_WHERE_TO, .VF_SAT_WHERE_ACTION, .VF_SAT_WHERE_SLOT]
  | .CE_STATUS => [.CE_STATUS_GROUPS, .CE_STATUS_SEQS, .CE_STATUS_ARRAYS, .CE_STATUS_BUSY, .CE_STATUS_STATE]
  | .CE_CTRL => [.CE_CTRL_OP, .CE_CTRL_RESULT]
  | .CE_SRAM_ERR => [.CE_SRAM_ERR_CE_COUNT, .CE_SRAM_ERR_UE_COUNT, .CE_SRAM_ERR_MEMORY, .CE_SRAM_ERR_BANK, .CE_SRAM_ERR_OFFSET]
  | .CE_CODEC_ERR => [.CE_CODEC_ERR_COUNT]
  | .CE_SEQ_EXC => [.CE_SEQ_EXC_VALID, .CE_SEQ_EXC_SEQ, .CE_SEQ_EXC_CAUSE, .CE_SEQ_EXC_PC]
  | .CE_SLOT => [.CE_SLOT_STATE, .CE_SLOT_CLASS, .CE_SLOT_IN_PLACE, .CE_SLOT_N, .CE_SLOT_CONTEXT, .CE_SLOT_QUEUE, .CE_SLOT_SEQ, .CE_SLOT_KILLS, .CE_SLOT_RING_SLOT]
  | .CE_PERF => [.CE_PERF_COUNT]
  | .VF_PARK => [.VF_PARK_VALID, .VF_PARK_OUTCOME, .VF_PARK_QUEUE, .VF_PARK_VICTIMS, .VF_PARK_SLOT, .VF_PARK_NEED]
  | .VIS_STATUS => [.VIS_STATUS_STATE, .VIS_STATUS_PARTITION, .VIS_STATUS_BUSY, .VIS_STATUS_PORT]
  | .VIS_CTRL => [.VIS_CTRL_ENABLE]
  | .VIS_PARAM => [.VIS_PARAM_LAMBDA, .VIS_PARAM_REFINE_THRESH, .VIS_PARAM_CONF_BIAS, .VIS_PARAM_LEVELS]
  | .VIS_IN_BASE => [.VIS_IN_BASE_ADDR, .VIS_IN_BASE_IN_DEPTH]
  | .VIS_IN_GEOM => [.VIS_IN_GEOM_FORMAT, .VIS_IN_GEOM_W, .VIS_IN_GEOM_H, .VIS_IN_GEOM_PITCH, .VIS_IN_GEOM_ENTRY]
  | .VIS_RING_BASE => [.VIS_RING_BASE_OUT_DEPTH, .VIS_RING_BASE_ADDR]
  | .VIS_TRIG => [.VIS_TRIG_OVF_REF, .VIS_TRIG_OVF_MOT, .VIS_TRIG_OVF_PYR, .VIS_TRIG_REF, .VIS_TRIG_MOT, .VIS_TRIG_PYR]
  | .VIS_TRIG_ADD => [.VIS_TRIG_ADD_PYR]
  | .VIS_FRAME => [.VIS_FRAME_NEXT, .VIS_FRAME_DONE]
  | .VIS_ERR => [.VIS_ERR_VALID, .VIS_ERR_PA]
  | .EMB_STATUS => [.EMB_STATUS_TEXTURE_UNITS, .EMB_STATUS_SHADERS, .EMB_STATUS_TILE_UNITS, .EMB_STATUS_STATE]
  | .EMB_ERR => [.EMB_ERR_CE_COUNT, .EMB_ERR_UE_COUNT, .EMB_ERR_MEMORY]
  | .EMB_PERF => [.EMB_PERF_COUNT]
  | .EQX_STREAM_CTRL => [.EQX_STREAM_CTRL_OP, .EQX_STREAM_CTRL_RESULT, .EQX_STREAM_CTRL_STATE, .EQX_STREAM_CTRL_HEAD, .EQX_STREAM_CTRL_HEADNUM, .EQX_STREAM_CTRL_QUEUE, .EQX_STREAM_CTRL_WARP_MODE, .EQX_STREAM_CTRL_HISTORY, .EQX_STREAM_CTRL_LATENCY, .EQX_STREAM_CTRL_DEPTH_NEAR, .EQX_STREAM_CTRL_CLASS1_SHARE]
  | .EQX_STREAM_SRC => [.EQX_STREAM_SRC_SRC_KIND, .EQX_STREAM_SRC_UPSCALE, .EQX_STREAM_SRC_MULT, .EQX_STREAM_SRC_SRC_INDEX, .EQX_STREAM_SRC_LANE, .EQX_STREAM_SRC_SRC_HANDLE]
  | .EQX_STREAM_NET => [.EQX_STREAM_NET_SCRATCH, .EQX_STREAM_NET_NET]
  | .EQX_STREAM_RING => [.EQX_STREAM_RING_VA, .EQX_STREAM_RING_FORMAT, .EQX_STREAM_RING_DEPTH]
  | .EQX_STREAM_GEOM => [.EQX_STREAM_GEOM_OUT_W, .EQX_STREAM_GEOM_OUT_H, .EQX_STREAM_GEOM_PERIOD]
  | .EQX_STREAM_TIME => [.EQX_STREAM_TIME_SRC_OFFSET, .EQX_STREAM_TIME_START]
  | .EQX_STREAM_TRIG => [.EQX_STREAM_TRIG_OVF, .EQX_STREAM_TRIG_COUNT]
  | .EQX_STREAM_STAT => [.EQX_STREAM_STAT_PUBLISHED, .EQX_STREAM_STAT_LATE, .EQX_STREAM_STAT_DROPPED, .EQX_STREAM_STAT_COMPOSED]
  | .EQX_STREAM_STAT2 => [.EQX_STREAM_STAT2_SUPERSEDED, .EQX_STREAM_STAT2_FAILED, .EQX_STREAM_STAT2_STALE_WAITS]
  | .EQX_STREAM_NEWEST => [.EQX_STREAM_NEWEST_FRAME, .EQX_STREAM_NEWEST_NEXT]
  | .EQX_HOMOG_STAGE => [.EQX_HOMOG_STAGE_VALUE]
  | .EQX_HOMOG_CTRL => [.EQX_HOMOG_CTRL_COMMIT]
  | .EQX_MEM_READ => [.EQX_MEM_READ_CONSUMED]
  | .EQX_LAYER_ADDR => [.EQX_LAYER_ADDR_VA]
  | .EQX_LAYER_GEOM => [.EQX_LAYER_GEOM_X, .EQX_LAYER_GEOM_Y, .EQX_LAYER_GEOM_W, .EQX_LAYER_GEOM_H]
  | .EQX_LAYER_CTRL => [.EQX_LAYER_CTRL_PITCH, .EQX_LAYER_CTRL_ACTIVE, .EQX_LAYER_CTRL_ENABLE]
  | .EQX_LAYER_FLIP => [.EQX_LAYER_FLIP_PENDING, .EQX_LAYER_FLIP_LAYERS]
  | .DSP_LINK_CFG => [.DSP_LINK_CFG_DSC_BPP, .DSP_LINK_CFG_DSC_SLICES, .DSP_LINK_CFG_BPC]
  | .DSP_AUX_CTRL => [.DSP_AUX_CTRL_OP, .DSP_AUX_CTRL_RESULT, .DSP_AUX_CTRL_CMD, .DSP_AUX_CTRL_LEN, .DSP_AUX_CTRL_ADDR, .DSP_AUX_CTRL_REPLY_LEN]
  | .DSP_AUX_DATA => [.DSP_AUX_DATA_DATA]
  | .DSP_SYNC => [.DSP_SYNC_VPOL, .DSP_SYNC_HPOL, .DSP_SYNC_VSW, .DSP_SYNC_VFP, .DSP_SYNC_HSW, .DSP_SYNC_HFP]
  | .DSP_TIMING_H => [.DSP_TIMING_H_H_TOTAL, .DSP_TIMING_H_H_ACTIVE]
  | .DSP_TIMING_V => [.DSP_TIMING_V_PIXCLK, .DSP_TIMING_V_V_TOTAL, .DSP_TIMING_V_V_ACTIVE]
  | .DSP_LINEMATCH => [.DSP_LINEMATCH_LINE_D, .DSP_LINEMATCH_LINE_C, .DSP_LINEMATCH_LINE_B, .DSP_LINEMATCH_LINE_A]
  | .DSP_STATUS => [.DSP_STATUS_STATE, .DSP_STATUS_REASON, .DSP_STATUS_HPD, .DSP_STATUS_IRQ_HPD, .DSP_STATUS_LINE, .DSP_STATUS_REFRESH]
  | .DSP_LINK => [.DSP_LINK_RETRAINS, .DSP_LINK_FALLBACK, .DSP_LINK_LTTPRS, .DSP_LINK_ASYNC, .DSP_LINK_DSC, .DSP_LINK_RATE, .DSP_LINK_LANES]
  | .DSP_PLANE_ADDR => [.DSP_PLANE_ADDR_VA]
  | .DSP_PLANE_GEOM => [.DSP_PLANE_GEOM_X, .DSP_PLANE_GEOM_Y, .DSP_PLANE_GEOM_W, .DSP_PLANE_GEOM_H]
  | .DSP_PLANE_CTRL => [.DSP_PLANE_CTRL_PITCH, .DSP_PLANE_CTRL_FORMAT, .DSP_PLANE_CTRL_MODE, .DSP_PLANE_CTRL_ENABLE]
  | .DSP_PLANE_FLIP => [.DSP_PLANE_FLIP_PENDING, .DSP_PLANE_FLIP_PLANES]
  | .DSP_UNDERRUN => [.DSP_UNDERRUN_COUNT, .DSP_UNDERRUN_CONSECUTIVE, .DSP_UNDERRUN_LAST_LINE, .DSP_UNDERRUN_LAST_PIXEL]
  | .DSP_ASYNC => [.DSP_ASYNC_VT_MAX, .DSP_ASYNC_VT_MIN]
  | .DSP_LOCK_GCNT => [.DSP_LOCK_GCNT_GCNT]
  | .DSP_LOCK_CTRL => [.DSP_LOCK_CTRL_ENABLE, .DSP_LOCK_CTRL_LOCKED, .DSP_LOCK_CTRL_TRIM, .DSP_LOCK_CTRL_PERIOD]
  | .DSP_LOCK_ERR => [.DSP_LOCK_ERR_ERROR]
  | .VIN_STATUS => [.VIN_STATUS_STATE, .VIN_STATUS_PARTITION, .VIN_STATUS_LANE, .VIN_STATUS_HS, .VIN_STATUS_ACTIVE_VC, .VIN_STATUS_VC_MASK]
  | .VIN_ERR => [.VIN_ERR_ECC_CORRECTED, .VIN_ERR_ECC_FAIL, .VIN_ERR_CRC, .VIN_ERR_DAMAGED, .VIN_ERR_DROPPED, .VIN_ERR_OTHER]
  | .VIN_VC_RING => [.VIN_VC_RING_ENTRY, .VIN_VC_RING_ADDR, .VIN_VC_RING_DEPTH]
  | .VIN_VC_REL => [.VIN_VC_REL_PUBLISHED, .VIN_VC_REL_RELEASED]
  | .GEY_PEND => [.GEY_PEND_PEND]
  | .GEY_PEND_SET => [.GEY_PEND_SET_PEND]
  | .GEY_RET => [.GEY_RET_RESTORES, .GEY_RET_STATE, .GEY_RET_LOST]
  | .GEY_SRC => [.GEY_SRC_INPUT, .GEY_SRC_HELD, .GEY_SRC_GROUP, .GEY_SRC_VECTOR, .GEY_SRC_TARGET, .GEY_SRC_PRIORITY, .GEY_SRC_LEVEL, .GEY_SRC_ENABLE]
  | .GEY_GRP => [.GEY_GRP_COUNT, .GEY_GRP_TIME, .GEY_GRP_ACC, .GEY_GRP_STATE, .GEY_GRP_ELAPSED]
  | .GEY_TGT => [.GEY_TGT_ACTIVE, .GEY_TGT_SPURIOUS, .GEY_TGT_RUNNING, .GEY_TGT_THRESHOLD]
  | .GEY_TGT_COMPLETE => [.GEY_TGT_COMPLETE_LEVEL]
  | .GEY_TGT_SUM => [.GEY_TGT_SUM_WORDS]
  | .VF_GEY_PEND => [.VF_GEY_PEND_PEND]
  | .VF_GEY_SET => [.VF_GEY_SET_PEND]
  | .VF_GEY_TGT => []
  | .VF_GEY_COMPLETE => [.VF_GEY_COMPLETE_LEVEL]
  | .VF_GEY_SRC => [.VF_GEY_SRC_ENABLE, .VF_GEY_SRC_LEVEL, .VF_GEY_SRC_HELD, .VF_GEY_SRC_PRIORITY]
  | .TIM_GCNT => [.TIM_GCNT_COUNT]
  | .TIM_CTRL => [.TIM_CTRL_REPEAT, .TIM_CTRL_MODE, .TIM_CTRL_ENABLE]
  | .TIM_SYNC_STATUS => [.TIM_SYNC_STATUS_FRAMES_BAD, .TIM_SYNC_STATUS_STEPS, .TIM_SYNC_STATUS_HOPS, .TIM_SYNC_STATUS_RATE, .TIM_SYNC_STATUS_ERROR, .TIM_SYNC_STATUS_STATE]
  | .TIM_SYNC_DELAY => [.TIM_SYNC_DELAY_LOOP, .TIM_SYNC_DELAY_DELAY]
  | .TIM_CMP_TARGET => [.TIM_CMP_TARGET_TARGET]
  | .TIM_CMP_RELOAD => [.TIM_CMP_RELOAD_RELOAD]
  | .TIM_CMP_CTRL => [.TIM_CMP_CTRL_MISSED, .TIM_CMP_CTRL_PERIODIC, .TIM_CMP_CTRL_ENABLE]
  | .CAL_TIME => [.CAL_TIME_YEAR, .CAL_TIME_MONTH, .CAL_TIME_DAY, .CAL_TIME_HOUR, .CAL_TIME_MINUTE, .CAL_TIME_SECOND, .CAL_TIME_DOW, .CAL_TIME_SUBSEC]
  | .CAL_STAGE => [.CAL_STAGE_DATE_TIME]
  | .CAL_CTRL => [.CAL_CTRL_PENDING, .CAL_CTRL_LOAD]
  | .CAL_STATUS => [.CAL_STATUS_VALID, .CAL_STATUS_BADDATE, .CAL_STATUS_WRAP, .CAL_STATUS_LOADED]
  | .BRG_STATE => [.BRG_STATE_STATE, .BRG_STATE_FAIL_REASON, .BRG_STATE_PATH, .BRG_STATE_ELAPSED]
  | .BRG_CTRL => [.BRG_CTRL_OP, .BRG_CTRL_HEALTH_MAX_AGE, .BRG_CTRL_NEXT_FULL, .BRG_CTRL_AUTO_RETURN, .BRG_CTRL_AUTO_RETIRE]
  | .BRG_HEALTH => [.BRG_HEALTH_SEQ, .BRG_HEALTH_AGE_DAYS, .BRG_HEALTH_FULL_DUE, .BRG_HEALTH_SLOT, .BRG_HEALTH_WRITING, .BRG_HEALTH_VALID]
  | .BRG_MEMTEST => [.BRG_MEMTEST_MODE, .BRG_MEMTEST_PHASE, .BRG_MEMTEST_PROGRESS, .BRG_MEMTEST_ROWS_FAILED, .BRG_MEMTEST_ROWS_REPAIRED, .BRG_MEMTEST_PCS_RETIRED]
  | .BRG_HBM => [.BRG_HBM_PASS, .BRG_HBM_ATTEMPTS, .BRG_HBM_STATE]
  | .BRG_PC_CTRL => [.BRG_PC_CTRL_OP, .BRG_PC_CTRL_RESULT, .BRG_PC_CTRL_PC, .BRG_PC_CTRL_PAGES_LEFT]
  | .BRG_PART_RESET => [.BRG_PART_RESET_OP, .BRG_PART_RESET_RESULT, .BRG_PART_RESET_PARTITION]
  | .SEC_DIE_ID => [.SEC_DIE_ID_DIE_ID]
  | .SEC_STATUS => [.SEC_STATUS_FW_SVN_FLOOR, .SEC_STATUS_ARB_STEPS, .SEC_STATUS_OWNER_SLOT, .SEC_STATUS_ALLOW_KEROLD, .SEC_STATUS_TOKENS_REJECTED, .SEC_STATUS_DEBUG]
  | .SEC_STRUCT_FLOOR => [.SEC_STRUCT_FLOOR_FLOOR]
  | .SEC_ARB_CTRL => [.SEC_ARB_CTRL_OP, .SEC_ARB_CTRL_RESULT]
  | .SEC_OWNER_DIGEST => [.SEC_OWNER_DIGEST_DIGEST]
  | .SEC_OWNER_CTRL => [.SEC_OWNER_CTRL_OP, .SEC_OWNER_CTRL_RESULT, .SEC_OWNER_CTRL_ALLOW_KEROLD]
  | .SEC_DBG_NONCE => [.SEC_DBG_NONCE_NONCE]
  | .SEC_DBG_ADDR => [.SEC_DBG_ADDR_ADDR]
  | .SEC_DBG_LEN => [.SEC_DBG_LEN_LEN]
  | .SEC_DBG_CTRL => [.SEC_DBG_CTRL_OP, .SEC_DBG_CTRL_RESULT]
  | .PWR_CTRL => [.PWR_CTRL_OP, .PWR_CTRL_RESULT, .PWR_CTRL_ALERT_LEVEL, .PWR_CTRL_T_THROTTLE]
  | .PWR_STATUS => [.PWR_STATUS_STATE, .PWR_STATUS_LEVEL, .PWR_STATUS_CAUSE, .PWR_STATUS_ALERT, .PWR_STATUS_TRIPPED, .PWR_STATUS_PLL_LOST, .PWR_STATUS_WAKES]
  | .PWR_LIMIT => [.PWR_LIMIT_LIMIT_W]
  | .PWR_ENERGY => [.PWR_ENERGY_UJ]
  | .PWR_POWER => [.PWR_POWER_MW]
  | .PWR_WAKE => [.PWR_WAKE_CALENDAR, .PWR_WAKE_TIMER, .PWR_WAKE_HOST]
  | .PWR_STRAPS => [.PWR_STRAPS_TEST_EN, .PWR_STRAPS_SMB_ADDR, .PWR_STRAPS_HOST_PRIMARY]
  | .PWR_TEMP => [.PWR_TEMP_VALID, .PWR_TEMP_TEMP]
  | .TST_CTRL => [.TST_CTRL_OP, .TST_CTRL_RESULT, .TST_CTRL_KIND, .TST_CTRL_CLASS, .TST_CTRL_INDEX]
  | .TST_SIG => [.TST_SIG_MISR]
  | .TST_EXPECT => [.TST_EXPECT_SIG]
  | .TST_FAIL => [.TST_FAIL_VALID, .TST_FAIL_MEMORY, .TST_FAIL_BANK, .TST_FAIL_WORD]
  | .TST_UNIT => [.TST_UNIT_RUNS, .TST_UNIT_FAILED, .TST_UNIT_PASSED, .TST_UNIT_TESTING]
  | .TIM_RNG_KEY => [.TIM_RNG_KEY_KEY]
  | .TIM_RNG_STREAM => [.TIM_RNG_STREAM_STREAM]
  | .TIM_RNG_INDEX => [.TIM_RNG_INDEX_INDEX]
  | .TIM_RNG_STEP => [.TIM_RNG_STEP_STEP]
  | .TIM_RNG_OUT_LO => [.TIM_RNG_OUT_LO_OUT]
  | .TIM_RNG_OUT_HI => [.TIM_RNG_OUT_HI_OUT]

/-- The registers of the SYS block. -/
def Reg.ofSYS : List Reg :=
  [.SYS_ID]

/-- The registers of the STRUCT block. -/
def Reg.ofSTRUCT : List Reg :=
  [.STRUCT_SRC_ADDR, .STRUCT_SRC_LEN, .STRUCT_CTRL, .STRUCT_STATUS, .STRUCT_ERR_OFFSET, .STRUCT_ACTIVE_SEQ, .STRUCT_PENDING]

/-- The registers of the MEM block. -/
def Reg.ofMEM : List Reg :=
  [.MEM_SCRUB_CTRL, .MEM_UE_ADDR, .MEM_PC_STATUS, .MEM_POOL_QUOTA, .MEM_POWN_CTRL, .MEM_POWN_PA, .MEM_POWN_VA, .MEM_POWN_MODEL]

/-- The registers of the VF block. -/
def Reg.ofVF : List Reg :=
  [.VF_POOL_STATUS, .VF_MAP_VA, .VF_MAP_SRC_VA, .VF_MAP_CTRL, .VF_SWAP_BASE, .VF_SWAP_SIZE, .VF_HOME, .VF_QSEL, .VF_QSQ, .VF_QCQ, .VF_QCTRL, .VF_QPOS, .VF_STATUS, .VF_FAULT, .VF_FAULT_ADDR, .VF_TT_CAP, .VF_TT_READ, .VF_TT_ENTRY, .VF_SAT, .VF_SAT_WHERE, .VF_PARK, .VF_GEY_PEND, .VF_GEY_SET, .VF_GEY_TGT, .VF_GEY_COMPLETE, .VF_GEY_SRC]

/-- The registers of the CFG block. -/
def Reg.ofCFG : List Reg :=
  [.RDY_STATUS, .RDY_DROPS]

/-- The registers of the HOST block. -/
def Reg.ofHOST : List Reg :=
  [.HOST_PORT_STATUS, .HOST_MOVE, .HOST_CTRL, .HOST_HOME]

/-- The registers of the SCH block. -/
def Reg.ofSCH : List Reg :=
  [.SCH_TENANT, .SCH_CTRL, .SCH_RESERVE_SCALE, .SCH_CE_STATUS, .SCH_ACCT_THRESH]

/-- The registers of the CE block. -/
def Reg.ofCE : List Reg :=
  [.CE_STATUS, .CE_CTRL, .CE_SRAM_ERR, .CE_CODEC_ERR, .CE_SEQ_EXC, .CE_SLOT, .CE_PERF]

/-- The registers of the VIS block. -/
def Reg.ofVIS : List Reg :=
  [.VIS_STATUS, .VIS_CTRL, .VIS_PARAM, .VIS_IN_BASE, .VIS_IN_GEOM, .VIS_RING_BASE, .VIS_TRIG, .VIS_TRIG_ADD, .VIS_FRAME, .VIS_ERR]

/-- The registers of the EMB block. -/
def Reg.ofEMB : List Reg :=
  [.EMB_STATUS, .EMB_ERR, .EMB_PERF]

/-- The registers of the EQX block. -/
def Reg.ofEQX : List Reg :=
  [.EQX_STREAM_CTRL, .EQX_STREAM_SRC, .EQX_STREAM_NET, .EQX_STREAM_RING, .EQX_STREAM_GEOM, .EQX_STREAM_TIME, .EQX_STREAM_TRIG, .EQX_STREAM_STAT, .EQX_STREAM_STAT2, .EQX_STREAM_NEWEST, .EQX_HOMOG_STAGE, .EQX_HOMOG_CTRL, .EQX_MEM_READ, .EQX_LAYER_ADDR, .EQX_LAYER_GEOM, .EQX_LAYER_CTRL, .EQX_LAYER_FLIP]

/-- The registers of the DSP block. -/
def Reg.ofDSP : List Reg :=
  [.DSP_LINK_CFG, .DSP_AUX_CTRL, .DSP_AUX_DATA, .DSP_SYNC, .DSP_TIMING_H, .DSP_TIMING_V, .DSP_LINEMATCH, .DSP_STATUS, .DSP_LINK, .DSP_PLANE_ADDR, .DSP_PLANE_GEOM, .DSP_PLANE_CTRL, .DSP_PLANE_FLIP, .DSP_UNDERRUN, .DSP_ASYNC, .DSP_LOCK_GCNT, .DSP_LOCK_CTRL, .DSP_LOCK_ERR]

/-- The registers of the VIN block. -/
def Reg.ofVIN : List Reg :=
  [.VIN_STATUS, .VIN_ERR, .VIN_VC_RING, .VIN_VC_REL]

/-- The registers of the GEY block. -/
def Reg.ofGEY : List Reg :=
  [.GEY_PEND, .GEY_PEND_SET, .GEY_RET, .GEY_SRC, .GEY_GRP, .GEY_TGT, .GEY_TGT_COMPLETE, .GEY_TGT_SUM]

/-- The registers of the TIM block. -/
def Reg.ofTIM : List Reg :=
  [.TIM_GCNT, .TIM_CTRL, .TIM_SYNC_STATUS, .TIM_SYNC_DELAY, .TIM_CMP_TARGET, .TIM_CMP_RELOAD, .TIM_CMP_CTRL, .CAL_TIME, .CAL_STAGE, .CAL_CTRL, .CAL_STATUS, .TIM_RNG_KEY, .TIM_RNG_STREAM, .TIM_RNG_INDEX, .TIM_RNG_STEP, .TIM_RNG_OUT_LO, .TIM_RNG_OUT_HI]

/-- The registers of the BRG block. -/
def Reg.ofBRG : List Reg :=
  [.BRG_STATE, .BRG_CTRL, .BRG_HEALTH, .BRG_MEMTEST, .BRG_HBM, .BRG_PC_CTRL, .BRG_PART_RESET]

/-- The registers of the SEC block. -/
def Reg.ofSEC : List Reg :=
  [.SEC_DIE_ID, .SEC_STATUS, .SEC_STRUCT_FLOOR, .SEC_ARB_CTRL, .SEC_OWNER_DIGEST, .SEC_OWNER_CTRL, .SEC_DBG_NONCE, .SEC_DBG_ADDR, .SEC_DBG_LEN, .SEC_DBG_CTRL]

/-- The registers of the PWR block. -/
def Reg.ofPWR : List Reg :=
  [.PWR_CTRL, .PWR_STATUS, .PWR_LIMIT, .PWR_ENERGY, .PWR_POWER, .PWR_WAKE, .PWR_STRAPS, .PWR_TEMP]

/-- The registers of the TST block. -/
def Reg.ofTST : List Reg :=
  [.TST_CTRL, .TST_SIG, .TST_EXPECT, .TST_FAIL, .TST_UNIT]

end Sys2Proof.Machine
end

