-- ==== Sys2Proof/Machine/Sparse.lean ====
section
/-! DEFINITION. Sparse tables: a list of (key, value) pairs with keys strictly rising and no entry
equal to the value an unlisted key reads as, so that equal tables are equal data. Every register
file, table and memory of the model that is indexed by a number is held in this form. -/

namespace Sys2Proof.Machine

/-- A sparse table. The value an unlisted key reads as is given at each use. -/
abbrev Sparse (α : Type) := List (Nat × α)

/-- Read a key: the listed value, else the default. -/
def Sparse.get {α : Type} (d : α) : Sparse α → Nat → α
  | [], _ => d
  | (k', v) :: m, k => if k' = k then v else Sparse.get d m k

/-- List a key with a value, in the order of the keys. -/
def Sparse.put {α : Type} : Sparse α → Nat → α → Sparse α
  | [], k, v => [(k, v)]
  | (k', v') :: m, k, v =>
    if k < k' then (k, v) :: (k', v') :: m
    else if k = k' then (k, v) :: m
    else (k', v') :: Sparse.put m k v

/-- Write a key, keeping the canonical form: a key that takes the default is no longer listed. -/
def Sparse.set {α : Type} [DecidableEq α] (d : α) (m : Sparse α) (k : Nat) (v : α) : Sparse α :=
  if v = d then m.filter (fun kv => kv.1 ≠ k) else m.put k v

/-- Every listed key is above `b`, keys strictly rise, and no value is the default. -/
def Sparse.wfFrom {α : Type} [DecidableEq α] (d : α) : Option Nat → Sparse α → Bool
  | _, [] => true
  | b, (k, v) :: m =>
    (match b with | none => true | some b => decide (b < k)) && decide (v ≠ d) &&
      Sparse.wfFrom d (some k) m

/-- The canonical form. -/
def Sparse.wf {α : Type} [DecidableEq α] (d : α) (m : Sparse α) : Bool := Sparse.wfFrom d none m

/-- Listed keys in `[lo, hi)`, rising. -/
def Sparse.keysIn {α : Type} (m : Sparse α) (lo hi : Nat) : List Nat :=
  (m.map (·.1)).filter (fun k => decide (lo ≤ k) && decide (k < hi))

/-- Drop every listed key in `[lo, hi)`: each then reads as the default. -/
def Sparse.clear {α : Type} (m : Sparse α) (lo hi : Nat) : Sparse α :=
  m.filter (fun kv => !(decide (lo ≤ kv.1) && decide (kv.1 < hi)))

end Sys2Proof.Machine
end

