-- ==== Sys2Proof/Machine/State.lean ====
section
/-! DEFINITION. The state of the block, as plain data: every tabled register field (`csr`), memory,
and the state the chapters give the units behind the registers. Contexts are numbered 0-511 for the
tenants and 512 for PF0; a queue's number is context * 512 + its number in the context. -/

namespace Sys2Proof.Machine

/-! ## Functions and host links (R106-R130) -/

/-- Configuration state that one port keeps for one function (R106, R117). -/
structure FnCfg where
  mse : Bool := false        -- Memory Space Enable
  bme : Bool := false        -- Bus Master Enable
  d3hot : Bool := false
  vfEnable : Bool := false   -- PF0 only
  numVFs : Nat := 0          -- PF0 only
  msixEnable : Bool := false
  fnMask : Bool := false
deriving DecidableEq, Repr

/-- One MSI-X table entry (R113). -/
structure MsixEntry where
  addr : Nat := 0
  data : Nat := 0
  masked : Bool := true
deriving DecidableEq, Repr

/-- One MSI-X message that went out (R472): port, function, vector, address and data. -/
structure MsixMsg where
  port : Nat
  ctx : Nat
  vector : Nat
  addr : Nat
  data : Nat
deriving DecidableEq, Repr

/-- One non-posted host-memory request outstanding or held (R108, R118, R121, R124). [DESIGN CHOICE: log 51] -/
structure HostReq where
  id : Nat
  ctx : Nat
  port : Nat
  gq : Nat
  slot : Nat
  held : Bool
  since : Nat                -- GCNT at which it was issued or held
  va : Nat := 0              -- the address it reads through its context
deriving DecidableEq, Repr

/-- A planned move in progress (R121, R125). -/
structure Move where
  scope : Nat
  tenant : Nat
  target : Nat
  fns : List Nat             -- contexts that move
  busySeen : Bool            -- a SCOPE write arrived while MOVING
deriving DecidableEq, Repr

/-! ## Queues, tensors and attempts (R131-R162) -/

/-- The queue states of R158. -/
inductive QState where
  | disabled | active | stalled | destroying
deriving DecidableEq, Repr

/-- One queue (R131-R136): its creation arguments, held doorbell values and positions. `sqStart` is
the slot count of the next command that has not started. -/
structure Queue where
  st : QState := .disabled
  cls : Nat := 0
  sqLog : Nat := 0
  cqLog : Nat := 0
  sqVA : Nat := 0
  cqVA : Nat := 0
  cont : Bool := false
  sqTail : Nat := 0
  cqHead : Nat := 0
  sqNext : Nat := 0
  cqTail : Nat := 0
  sqStart : Nat := 0
  bad : Nat := 0
deriving DecidableEq, Repr

/-- The KIND of a tensor table entry (R141). -/
inductive TKind where
  | free | plain | single | sequence
deriving DecidableEq, Repr

/-- One tensor table entry (R141). -/
structure Tensor where
  kind : TKind := .free
  pending : Bool := false
  deferred : Bool := false
  cur : Nat := 0
  swapped : Bool := false
  buf0 : Nat := 0
  buf1 : Nat := 0
  pendTokens : Nat := 0
  length : Nat := 0
  bytes : Nat := 0
  window : Nat := 0
  version : Nat := 0
  ownerQueue : Nat := 0
  ownerSlot : Nat := 0
deriving DecidableEq, Repr

/-- A page of a swapped-out sequence: its offset in the window, its arena page, and the plaintext that
was written there (R96, R297). -/
structure ArenaPage where
  off : Nat
  page : Nat
  plain : List Byte
deriving DecidableEq, Repr

/-- A sequence table entry (R91, R268), with the tail holder of R273 as (queue, L, NQ). -/
structure Seq where
  layers : Nat := 0
  prio : Nat := 0
  kvHeads : Nat := 0
  headDim : Nat := 0
  fmtK : Nat := 0
  fmtV : Nat := 0
  scale : Bool := false
  gcode : Nat := 0
  created : Nat := 0
  tail : Option (Nat × Nat × Nat) := none
  marked : Bool := false          -- FC1 has selected it as a victim (R296)
  arena : List ArenaPage := []
deriving DecidableEq, Repr

/-- An input a running command has bound (R142): the handle, the buffer it reads and the version. -/
structure Bind where
  ctx : Nat
  handle : Nat
  va : Nat
  version : Nat
  buf : Nat
deriving DecidableEq, Repr

/-- Where an attempt stands. `placed` is slot state VALIDATING, `ready` is WAITING (R224); `waiting`
is a killed command back in its queue's place; `parked` is R93. -/
inductive Phase where
  | waiting | placed | ready | running | parked | ended
deriving DecidableEq, Repr

/-- A run of bytes a command writes, at a virtual address of its context. -/
structure Chunk where
  va : Nat
  data : List Byte
deriving DecidableEq, Repr

/-- What an attempt's computation gives: its status, the bytes it writes, its saturation counts
(R204), the codec blocks it decoded under R105's rule, and the last conversion that saturated. -/
structure RunOut where
  status : Nat := 0
  addr : Nat := 0
  writes : List Chunk := []
  satOperand : Nat := 0
  satOutput : Nat := 0
  elems : Nat := 0
  from_ : Nat := 0
  to_ : Nat := 0
  codecBad : Nat := 0
deriving DecidableEq, Repr

/-- A command that has been taken from its ring and has not written its record. [DESIGN CHOICE: log 62] -/
structure Flight where
  gq : Nat
  slot : Nat                  -- slot count of the header slot
  desc : List Byte
  phase : Phase
  binds : List Bind := []
  outs : List Nat := []       -- handles whose pending version (or place) it holds
  res : RunOut := {}
  slots : List (Nat × Nat) := []   -- Caldera and slot of each part
  unit : Nat := 0             -- copy channel, vision lane or Ember it runs on, plus 1
  start : Nat := 0            -- GCNT of the latest start
  endG : Nat := 0             -- GCNT at which the attempt ended
  ready : Nat := 0            -- GCNT at which it became ready or began to wait
  kills : Nat := 0            -- kills so far
  struck : Nat := 0           -- reservation and fair-share kills (R173)
  attempt : Nat := 0          -- re-runs after saturation so far
  fmt : Nat := 0              -- N of the current attempt
  satFlags : Nat := 0         -- FLAGS bits 1 and 2 of the record (R154)
  usage : Usage := {}         -- counts charged at the record (R183)
  step : Nat := 0             -- number of the batch step it was placed with
  until_ : Nat := 0           -- GCNT limit of a FENCE_WAIT, 0 none
  bound : Bool := false       -- a placed command has bound its inputs and acquired its outputs (R224)
  sram : Nat := 0             -- 64 KiB units of its slot region, per part (R222)
  lb : Nat := 0               -- 64 KiB units of the line buffer (R251)
  sinter : Nat := 0           -- 256 KiB units of Sinter, per part (R283)
  frames : List Nat := []     -- frames a swap-in has charged and not yet mapped (R298)
  need : Nat := 0             -- frames a parked command asked for (R93)
  grow : List (Nat × Nat × Nat) := []   -- sequences it appends to: handle, L, tokens (R92)
  unreachable : Bool := false -- killed under R124, waits for its function to be reachable
deriving DecidableEq, Repr

/-- One model in a Caldera's weight residency (R169, R170). [DEDUCED: log 84] -/
structure Resident where
  ce : Nat
  partition : Nat
  model : Nat
  tiles : List Nat            -- 64 KiB frames of its weights
  started : Nat               -- GCNT at which its last step started
deriving DecidableEq, Repr

/-- One 64 KiB unit of a Caldera's slot regions (R222). -/
inductive RegionSt where
  | clean | used | dirty
deriving DecidableEq, Repr

structure RegionUnit where
  st : RegionSt := .clean
  ctx : Nat := 0
  slot : Nat := 0
deriving DecidableEq, Repr

/-! ## Memory (R69-R97) -/

/-- State of the memory controllers, allocator and translation behind their registers. -/
structure MemState where
  poison : Sparse Nat := []       -- poisoned 64-byte lines, by PA / 64 (R73)
  latent : Sparse Nat := []       -- lines holding an error not yet detected (R73)
  scrubPos : Sparse Nat := []     -- next line of each channel's scrub pass (R74)
  passErr : Sparse Nat := []      -- corrected errors of the present pass (R74)
  pte : Sparse Nat := []          -- leaf entries in R81's format, by context, level and index
  frames : Sparse Nat := []       -- page-frame table (R86)
  wayOwner : Sparse Nat := []     -- partition + 1 of each cache way (R78)
  hostMap : List (Nat × Nat × Nat) := []  -- (context, first host page, pages) of R83
  mapBusy : Sparse Nat := []      -- pending STATUS + 1 of a VF_MAP request, by context (R590)
  pownBusy : Nat := 0             -- pending RESULT + 1 of a MEM_POWN request
  pownRes : Nat := 0              -- frame + 1 an ALLOC took, until its request ends (R90)
  used : Sparse Nat := []         -- USED of each context's pool (R88)
  ttFrames : Sparse Nat := []     -- frames charged for each context's tensor table (R140)
  swapUsed : Sparse Nat := []     -- USED of each swap arena (R93)
  keyEpoch : Sparse Nat := []     -- key generations of each partition, 0 none (R95)
  hot : List (Nat × Nat × Nat) := []      -- (partition, model, frames reserved) of each HOT_RESERVE (R54, R170)
  hotTaken : Sparse Nat := []     -- MODEL + 1 of each frame an ALLOC with HOT holds (R90)
deriving DecidableEq, Repr

/-! ## Time (R478-R496) -/

/-- State of the time unit behind its registers. -/
structure TimeState where
  running : Bool := false         -- GCNT advances (R478)
  adj : Int := 0                  -- ADJ of R484
  phase : Nat := 0                -- period i of R485's spread
  good : Nat := 0
  far : Nat := 0
  sinceFrame : Option Nat := none -- local periods since the last valid frame edge, if any
  frameG : Nat := 0               -- GCNT at the last valid frame, after its step
  latch : Sparse Nat := []        -- latched high half + 1, by requester (R480)
  outHi : Option Nat := none      -- latched out[127:64], none before the first OUT_LO read (R496)
  stage : Nat := 0                -- pending calendar value (R493)
  framesOut : List Nat := []      -- sync frames sent, as 128-bit numbers, newest first (R481)
deriving DecidableEq, Repr

/-! ## Power, reset and pins (R548-R572) -/

/-- State of reset, power and pins behind the PWR block. -/
structure PowerState where
  resetLow : Bool := false        -- RESET_N is low
  tapHold : Bool := false         -- the TAP holds the device in reset (R581)
  pwrOk : Bool := true            -- PWR_OK is high
  tripHeld : Bool := false        -- clocks stopped by a thermal trip, THERM_TRIP_N low (R564)
  pinsFloat : Bool := false       -- every output is high-impedance (R565)
  strapHost : Nat := 0            -- levels the board straps (R553)
  strapSmb : Nat := 0
  strapTest : Nat := 0
  calm : Nat := 0                 -- calm of R562
  relGcnt : Nat := 0              -- TCLK periods since RESET_N released (R570)
  vddCore : Nat := 750            -- VDD_CORE as FC11 last set it, mV (R549)
  above : Sparse Nat := []        -- thresholds each sensor is at or above (R562, R563)
  imageLimit : Nat := 360         -- the CORE_CLOCKS power limit in W (R47)
  smbus : Option (List Nat) := none  -- bytes of the last SMBus answer, none for a NACK (R570)
deriving DecidableEq, Repr

/-- Why the machine stops. -/
inductive Fault where
  /-- No meaning raises it: every command of the table ends in a next state. Safe. -/
  | unreachable
deriving DecidableEq, Repr

/-- Why a command is refused. -/
inductive Refusal where
  /-- The command has no meaning yet. Safe. -/
  | notModelled (mnemonic : String)
deriving DecidableEq, Repr

/-! ## The structure image in force (R41-R68) -/

/-- What the image gives a partition that the scheduler and allocator use (R48). -/
structure PartCfg where
  used : Bool := false
  share : Nat := 0            -- reserved share, 1/10,000 of one Caldera
  dedicated : Nat := 0        -- mask of dedicated Calderas
deriving DecidableEq, Repr

/-- A HEAD_PLAN record in force (R50), without the fields a register holds. -/
structure HeadPlan where
  enabled : Bool := false
  async : Bool := false
  dsc : Bool := false
  lanes : Nat := 0
  rate : Nat := 0
  hActive : Nat := 0
  hTotal : Nat := 0
  vActive : Nat := 0
  vTotal : Nat := 0
  pixclk : Nat := 0
  warpLead : Nat := 128
  maxAge : Nat := 3
  mult : Nat := 1
  upscale : Nat := 0
  srcKind : Nat := 0
  srcIndex : Nat := 0
  bindTenant : Nat := 0xFFFF
  bindHandle : Nat := 0
  share : Nat := 0
  lineC : Nat := 0xFFFF
  lineD : Nat := 0xFFFF
deriving DecidableEq, Repr

/-- One record of a structure image (R46): its tag, value, section index and the offset of its tag;
0xFF and 0 once it is in force. -/
structure Rec where
  tag : Nat
  val : List Byte
  sec : Nat := 0xFF
  off : Nat := 0
deriving DecidableEq, Repr

/-- A load in progress (R592): what it fetches, the fetched copy, and a LOAD written with its CANCEL. -/
structure ImageLoad where
  addr : Nat := 0
  len : Nat := 0
  bytes : List Byte := []
deriving DecidableEq, Repr

/-- The image in force (R57-R68) and the delta being applied. -/
structure ImageState where
  recs : List Rec := []           -- records in force, SOURCE_RANGE and TARGET_THRESHOLD apart
  parts : Sparse PartCfg := []
  satRerun : Bool := false        -- SATURATION policy: re-run wider (R52)
  satLimit : Nat := 1             -- saturated elements per command that trigger it
  inPlaceLimit : Nat := 50        -- IN_PLACE_LIMIT in µs (R52)
  underrunLimit : Nat := 0        -- UNDERRUN: restarts after which a head stops, 0 never (R52)
  thr : Sparse Nat := []          -- thresholds the image gives the targets (R473)
  class1 : Nat := 0               -- sum of CLASS1_SHARE (R37)
  heads : Sparse HeadPlan := []   -- plan of each head in force (R50)
  draining : List Nat := []       -- partitions that start no new work (R63)
  eclkDiv : Nat := 6              -- ECLK divider of CORE_CLOCKS (R47)
  hbmRate : Nat := 0              -- HBM pin rate of CORE_CLOCKS (R47)
  load : Option ImageLoad := none
  wait : List (Nat × Rec) := []   -- section type and record of the delta's waiting records (R62)
  seqNew : Nat := 0               -- SEQ of the delta being applied
  applyG : Nat := 0               -- GCNT at which it entered APPLYING (R63)
  failedAs : Nat := 0             -- reason of the FAILED state a load left (R518)
  digest : Nat := 0               -- SHA-384 of the signed bytes of the delta being applied (R536)
deriving DecidableEq, Repr

/-! ## Bring-up and repair (R501-R529) -/

/-- A health record with a valid signature (R511). -/
structure Health where
  fullReq : Bool := false
  seq : Nat := 0
  dieId : Nat := 0
  part : Nat := 0
  fwVersion : Nat := 0
  fullTime : Nat := 0             -- in the layout of CAL_TIME
  faultFirst : Nat := 0           -- RESTARTS: seconds since 2000-01-01
  faultCount : Nat := 0
  floor : List Nat := []          -- 18 words
  pcRec : Sparse Nat := []
  ceRec : Sparse Nat := []
  retired : List Nat := []        -- 64 KiB frames, ascending
  suspect : List Nat := []
deriving DecidableEq, Repr

/-- State of bring-up and repair behind the BRG block. The two health slots are QSPI flash. -/
structure BringState where
  slots : List (Option Health) := [none, none]
  cur : Health := {}              -- what the next record will hold
  dirty : Bool := false           -- a record is due (R512)
  deadCores : List Nat := []      -- cores held in reset after a failed section check (R505)
  ceTested : List Nat := []       -- Calderas whose last TEST passed since the REMOVE (R524)
  ceAuto : List Nat := []         -- Calderas FC11 is taking through REMOVE, TEST and RETURN (R525)
  pcTested : List Nat := []       -- channels whose last TEST passed (R521)
  pcAuto : List Nat := []         -- channels FC11 takes through TEST and RETURN (R522)
  pcWant : List Nat := []         -- channels FC11 will retire itself (R522)
  pcOp : Nat := 0                 -- channel of the operation in progress
  ceFc : List Nat := []           -- Calderas out of service for a halt of their Fumarole (R526)
  trainG : Nat := 0               -- GCNT at which TRAINING began (R506, R519)
  ueTimes : List (Nat × Nat) := []   -- channel and GCNT of each first uncorrectable detection (R522)
  halts : Sparse Nat := []        -- calendar second + 1 of the last halt of each Fumarole (R526)
  fcDown : List Nat := []         -- halted cores not yet restarted (R526)
  resetting : List Nat := []      -- partitions under reset (R528)
  partOp : Nat := 0               -- partition that BRG_PART_RESET resets
  keep : List Nat := []           -- retired frames of the record whose sets are not formed yet (R76)
  fwBase : Nat := 0               -- where the free values of the firmware routing begin (R460)
deriving DecidableEq, Repr

/-! ## Identity, attestation and debug (R530-R547) -/

/-- A function's SPDM connection (R538, R539): how far it has come (1 version, 2 capabilities, 3
algorithms), and whether the next request is answered by RequestResynch. -/
structure Spdm where
  stage : Nat := 0
  resync : Bool := false
deriving DecidableEq, Repr

/-- A request whose signed response the engine has not made: context, the response before its signature,
and whether it answers CHALLENGE. -/
structure SignReq where
  ctx : Nat
  body : List Byte
  chal : Bool
deriving DecidableEq, Repr

/-- A fuse programming operation and what the fuses will hold (R536, R537). -/
inductive Fuse where
  | fwFloor (svn : Nat)
  | structFloor (seq : Nat)
  | owner (digest : Nat) (first allow : Bool)
deriving DecidableEq, Repr

/-- State of the security block behind its registers. [DESIGN CHOICE: log 11] -/
structure SecState where
  fwVersion : Nat := 0            -- running firmware: [31:16] major, [15:0] minor
  fwSvn : Nat := 0
  fwDigest : Nat := 0             -- SHA-384 of the running firmware image
  owners : List Nat := []         -- fused owner root digests, slot 1 first (R535)
  chain : Option Nat := none      -- structure chain value (R540)
  tokens : Nat := 0               -- tokens accepted since reset
  lastAuth : Nat := 0xFF          -- authority of the last one (R541)
  nonceOk : Bool := false         -- SEC_DBG_NONCE holds the valid nonce
  unlock : Option (List Nat) := none   -- partitions a LEVEL 2 token has still to reset (R546)
  lockAfter : Bool := false       -- a LOCK was written during those resets
  fuses : List Fuse := []         -- fuse programming in progress, oldest first
  keys : Sparse (Nat × Nat × Nat) := []   -- partition, KEY_EPOCH and time of issue of each function key (R531)
  aliasTime : Nat := 0            -- time of issue of the firmware alias certificate (R533)
  conn : Sparse Spdm := []        -- SPDM connections, by context
  signing : List SignReq := []    -- signed responses to come, in order of arrival
  nextSign : Nat := 0             -- function number from which the signing engine looks next
  reissue : List Nat := []        -- contexts whose function key is being reissued (R532)
  replies : List (Nat × List Byte) := []   -- SPDM responses sent, newest first, by context
deriving DecidableEq, Repr

/-! ## Self-test and boundary scan (R573-R582) -/

/-- What a test path reports: its unit as class * 16 + index, RESULT, MISR and TST_FAIL (R577, R578). -/
structure TestPath where
  unit : Option Nat := none
  result : Nat := 0
  misr : Nat := 0
  fail : Nat := 0
deriving DecidableEq, Repr

/-- What the sideband outputs do under boundary scan (R579, R581). -/
inductive PinMode where
  | mission | boundary | float
deriving DecidableEq, Repr

/-- The test unit and the TAP. -/
structure TestState where
  kinds : Sparse Nat := []        -- KIND of each running test, by unit
  path : TestPath := {}           -- TST_CTRL's unit; its results are registers
  smbus : TestPath := {}
  jtag : TestPath := {}
  ir : Nat := 1                   -- the TAP's instruction; IDCODE after Test-Logic-Reset
  dr : Nat := 0                   -- what the selected data register captured
  boundary : Nat := 0             -- the boundary register's update stage
  pins : PinMode := .mission
deriving DecidableEq, Repr

/-! ## Tephra cores (R302-R333) -/

/-- An array pass, DMA transfer or unit run that a sequencer has issued (R327, R328). -/
inductive RunKind where
  | load (array tile taps : Nat)
  | pass (array off rows row : Nat) (first last : Bool)
  | drain (array off row rows fmt : Nat)
  | vec (rec_ : Nat)
  | opu (unit rec_ : Nat)
  | dma (out : Bool) (va off bytes rows pitch : Nat)
deriving DecidableEq, Repr

structure UnitRun where
  tk : Nat
  kind : RunKind
deriving DecidableEq, Repr

/-- A token's error flag: the VA and the MMU status of a failed DMA (R327). -/
structure TokErr where
  tk : Nat
  va : Nat
  status : Nat
deriving DecidableEq, Repr

/-- One programmable core. Predicates and vector registers are kept as written; `loc` and `ctl` hold
bytes + 1 of its local memory and its slot's control store, and an unlisted byte reads as the seed
says: 0 for seed 0, else a free value. -/
structure Core where
  pc : Nat := 0
  g : Sparse Nat := []
  p : Sparse Nat := []
  v : Sparse Nat := []            -- register * 64 + lane
  mode : Nat := 8
  epc : Nat := 0
  ecause : Nat := 0
  eflags : Nat := 0
  ebt : Nat := 0
  eva : Nat := 0
  emode : Nat := 0
  epmode : Nat := 0
  evec : Nat := 0
  fflags : Nat := 0
  ls : Sparse Nat := []
  le : Sparse Nat := []
  lc : Sparse Nat := []
  lact : Nat := 0
  shadow : Option (Nat × Nat) := none          -- instructions left in the old mode, MODE[3:0] to come
  slot : Option (Nat × Nat × Bool) := none     -- at a delay slot: branch, next address, taken
  dead : Bool := false                         -- stopped fetching after a double fault
  halted : Bool := false                       -- halted for a debugger
  step : Bool := false                         -- the debugger lets it execute one instruction
  asleep : Bool := false                       -- in WFI
  loc : Sparse Nat := []
  locSeed : Nat := 0
  ctl : Sparse Nat := []
  ctlSeed : Nat := 0
  tok : Sparse Nat := []
  tokOver : List Nat := []
  tokErr : List TokErr := []
  runs : List UnitRun := []                    -- issued, not ended, oldest first
deriving DecidableEq, Repr

/-- The weight registers of an array: the tile and taps each was loaded from, as the sequencer's core
and SPACE 1 offsets (R215, R219). -/
structure ArrayUnit where
  idle : Option (Nat × Nat × Nat) := none
  active : Option (Nat × Nat × Nat) := none
deriving DecidableEq, Repr

/-! ## Ember (R360-R393) -/

/-- A fragment whose exports are not yet applied (R332, R333, R374): its primitive's place in primitive
order, its draw, pixel, covered samples and their depths, and what it has exported. -/
structure Frag where
  prim : Nat
  draw : Nat
  x : Nat
  y : Nat
  mask : Nat
  depth : List Nat
  ilk : Nat := 0              -- 0 never acquired, 1 held, 2 released
  ended : Bool := false
  dropped : Bool := false     -- ended by DISCARD
  colour : Sparse (List Nat) := []   -- exports by target, FP32 R, G, B, A
  mv : Option (Nat × Nat) := none
  z : Option Nat := none
deriving DecidableEq, Repr

/-- One invocation group (R330): lanes still running, the entry values of its registers, and for
fragment work each lane's pixel and coverage. -/
structure EmbGroup where
  draw : Nat
  frag : Bool
  live : Nat                  -- mask of lanes
  g : List Nat                -- g1, g2, g3, g4, g5, g6
  v : List (List Nat)         -- v0, v1, ... by lane
  prim : Nat := 0
  pix : List (Nat × Nat) := []
deriving DecidableEq, Repr

/-- Ember's pass (R362). `ph` is 1 in the vertex phase, 2 in the bin phase, 3 when every bin is stored. -/
structure EmberState where
  on : Bool := false
  gq : Nat := 0
  slot : Nat := 0
  ph : Nat := 0
  rm : Nat := 0                          -- MODE.RM its program header gives
  draws : List (List Byte) := []         -- the draw records
  texs : List (List Byte) := []          -- the texture descriptors
  todo : List EmbGroup := []             -- groups that wait for a core, in order
  run : List (Nat × EmbGroup) := []      -- shader core and the group it runs
  frags : List Frag := []                -- in primitive order
  tile : Sparse Nat := []                -- tile memory: value + 1 by pixel, sample and plane
deriving DecidableEq, Repr

/-! ## Vision lanes (R335-R359) -/

/-- A frame between its motion run and the end of its refine run: what the refine run will write, as
runs of bytes at physical addresses. -/
structure VisFrame where
  k : Nat
  bad : Bool := false         -- a run of the frame ended with an uncorrectable word
  gcnt : Nat := 0             -- from the input header
  refined : Nat := 0
  fine : List Chunk := []
deriving DecidableEq, Repr

/-- A vision lane: the frame the next run of each unit handles, the command it runs, and a binding that
waits (R350, R356, R359). -/
structure VisLane where
  kP : Nat := 0
  kM : Nat := 0
  kR : Nat := 0
  frames : List VisFrame := []
  cmd : Option (Nat × Nat) := none     -- queue and slot of its VISION_RUN
  done : Bool := false                 -- the command's last run has ended
  unbind : Bool := false
  bind : Option (Nat × Nat) := none    -- port and partition to take
deriving DecidableEq, Repr

/-! ## Equinox (R394-R425) -/

/-- The states of a frame-ring slot but HELD, which the stripes being warped give (R406). -/
inductive SlotSt where
  | free | pending | published
deriving DecidableEq, Repr

/-- A frame-ring slot (R406-R408). `pub` is its place in the order of publications, and `owner` the queue
and slot of the command that acquired it. `plane` is the colour plane a DIRECT slot samples: context and
address (a context of 513 means a physical address), pitch, R376 format, columns and rows. -/
structure RingSlot where
  st : SlotSt := .free
  frame : Nat := 0
  scene : Nat := 0
  kind : Nat := 0
  source : Nat := 0
  ref : Nat := 0
  pub : Nat := 0
  owner : Nat × Nat := (0, 0)
  plane : Option (Nat × Nat × Nat × Nat × Nat × Nat) := none
  bind : Option Bind := none
deriving DecidableEq, Repr

/-- What a stream takes at its start (R422). -/
structure StreamPar where
  head : Option Nat := none
  queue : Nat := 0
  history : Nat := 4
  latency : Nat := 1
  near1 : Bool := false                -- DEPTH_NEAR: the largest depth is nearest
  srcKind : Nat := 0
  srcIndex : Nat := 0
  lane : Nat := 0xFF
  tenant : Nat := 0xFFFF
  handle : Nat := 0
  upscale : Nat := 0
  mult : Nat := 1
  maxAge : Nat := 3
  net : Nat := 0
  scratch : Nat := 0
  va : Nat := 0
  fmt : Nat := 2
  depth : Nat := 0
  w : Nat := 0
  h : Nat := 0
  period : Nat := 0
  off : Int := 0
deriving DecidableEq, Repr

/-- A stream's source: VERSION or lane frame, its G_src, and its colour plane as in `RingSlot`. -/
structure Source where
  id : Nat := 0
  g : Nat := 0
  plane : Option (Nat × Nat × Nat × Nat × Nat × Nat) := none
  buf : Nat := 0                       -- the buffer of the committed version (SRC_KIND 0)
deriving DecidableEq, Repr

/-- A stream (R395-R406). -/
structure Stream where
  par : StreamPar := {}
  startG : Nat := 0                    -- START_GCNT
  ring : List RingSlot := []
  seqH : Nat := 0                      -- feature sequence, and the second one + 1 during a rotation
  seq2 : Nat := 0
  rot : Nat := 0                       -- UPSCALE commits left in the rotation
  tokens : Nat := 0                    -- T of R405
  resv : Nat := 0                      -- pages of partition 63 withheld for it (R396)
  resvAll : Nat := 0
  src : Option Source := none          -- the newest source
  used : Option Source := none         -- the source of the last UPSCALE
  lost : Bool := false                 -- the source was lost under R180
  gens : Nat := 0                      -- GENERATE issued since the last UPSCALE
  pubs : Nat := 0                      -- publications since the start
  fails : Nat := 0                     -- failing EQX_FRAMEs in a row
  out : Nat := 0                       -- EQX_FRAMEs written and without a record
  stopping : Bool := false
  composing : Bool := false            -- a COMPOSE is in flight
  again : Option (Bool × StreamPar) := none   -- it starts again once it has stopped, with its slots or without
  ringFull : Nat := 0                  -- slot + 1 of the command MEM_RING_FULL fired for
  mv : List Byte := []                 -- motion and depth planes in its source slot (R397)
  z : List Byte := []
  homog : List Nat := [0x3F800000, 0, 0, 0, 0x3F800000, 0, 0, 0, 0x3F800000]   -- H in force (R413)
deriving DecidableEq, Repr

/-- Equinox beside its registers. `evt` is EQX_EVT_k; `m0` holds the descriptors FC10 wrote into M0's
ring, by slot count (R416, R424). -/
structure EqxState where
  streams : Sparse Stream := []
  evt : Sparse Nat := []
  m0 : Sparse (List Byte) := []
deriving DecidableEq, Repr

/-! ## Display heads (R426-R450) -/

/-- A stripe that its event B has reached (R410, R418, R442). -/
structure Warp where
  stripe : Nat
  refresh : Nat
  slot : Option Nat := none            -- none while it waits for a slot
  gB : Nat := 0
  mode : Nat := 0
  homog : List Nat := []
  on : Bool := false                   -- the warp has started
deriving DecidableEq, Repr

/-- A stripe-ring entry in use. -/
structure RingEnt where
  stripe : Nat
  refresh : Nat
  done : Bool := false
deriving DecidableEq, Repr

/-- The active state of a plane or layer: `fault` is the refresh for whose rest it is transparent. -/
structure PlaneSt where
  va : Nat := 0
  x : Nat := 0
  y : Nat := 0
  w : Nat := 0
  h : Nat := 0
  pitch : Nat := 0
  fmt : Nat := 0
  mode : Nat := 0
  on : Bool := false
  fault : Option Nat := none
deriving DecidableEq, Repr

/-- A display head: its raster, the warp stage's stripes, the fetch, its active planes and its link. -/
structure Head where
  on : Bool := false                       -- the timing generator runs
  wait : Option (Nat × Nat) := none        -- HEAD_START that waits for LOCK_GCNT: queue, slot
  stop : Option (Nat × Nat) := none        -- HEAD_STOP that waits for VBLANK_START
  limit : Bool := false                    -- it stops at VBLANK_START under R446
  refs : Nat := 0                          -- refreshes begun since HEAD_START
  line : Nat := 0                          -- a line, and the GCNT at which it began
  lineG : Nat := 0
  g0 : Nat := 0                            -- GCNT of line 0 of refresh r0
  r0 : Nat := 0
  d : Int := 0                             -- lines added to this refresh (R447)
  aS : Nat := 0                            -- stripe and refresh of the next event A, and of event B
  aR : Nat := 0
  bS : Nat := 0
  bR : Nat := 0
  ents : List (Option RingEnt) := [none, none, none, none]
  warps : List Warp := []
  fS : Nat := 0                            -- stripe the fetch reads next
  under : Bool := false                    -- the refresh has an underrun
  layers : List PlaneSt := []              -- active layers 0-7
  planes : List PlaneSt := []              -- active planes 0-3
  layerFlip : Nat := 0
  planeFlip : Nat := 0
  sync : List Nat := []                    -- taken VPOL, HPOL, VSW, VFP, HSW, HFP
  lineC : Nat := 0xFFFF                    -- active LINE_C and LINE_D
  lineD : Nat := 0xFFFF
  lockOn : Bool := false
  inLock : Nat := 0                        -- refreshes in a row within one line (R448)
  sink : Option Sink := none               -- what hangs on the connector
  lanes : Nat := 0                         -- the ladder's L and r
  rate : Nat := 0
  bpp : Nat := 0                           -- bits per pixel on the link in 1/16, as the training took it (R428)
  trains : Nat := 0                        -- trainings since HEAD_START
  irqLost : Option Bool := none            -- an IRQ_HPD that waits for the attempt's end: link lost
  auxWait : Bool := false                  -- a host AUX transaction waits for the training's end (R435)
  out : List (List Nat) := []              -- lines fetched for this refresh, newest last
  shown : List (List Nat) := []            -- lines of the last refresh that left the pixel pipe
deriving DecidableEq, Repr

/-! ## Video input ports (R451-R457) -/

/-- A frame in progress on a virtual channel: GCNT at its Frame Start and the lines received. -/
structure VinFrame where
  gcnt : Nat
  lines : Nat := 0
deriving DecidableEq, Repr

/-- A port: frames in progress and frame counts by channel, the command that stops it, and what it took at
PORT_START. -/
structure VinPort where
  cur : Sparse VinFrame := []
  k : Sparse Nat := []                 -- frames published since PORT_START
  rings : Sparse (Nat × Nat × Nat) := []   -- VIN_VC_RING at PORT_START: ENTRY, ADDR, DEPTH
  stop : Option (Nat × Nat) := none
deriving DecidableEq, Repr

/-- The block. -/
structure State where
  pending : List Instr := []              -- commands waiting, first in, first out
  csr : Sparse Nat := []                  -- register fields, by field and unit
  mem : List Host.Cell := []              -- bytes by physical address, canonical
  m : MemState := {}
  t : TimeState := {}
  pw : PowerState := {}
  img : ImageState := {}
  brg : BringState := {}
  sec : SecState := {}
  tst : TestState := {}
  confReached : Bool := false             -- CONFIGURING was reached since reset (R129)
  fn : Sparse FnCfg := []                 -- by port * 513 + context
  msix : Sparse MsixEntry := []           -- by (port * 513 + context) * 64 + vector
  pba : Sparse Nat := []                  -- by context * 64 + vector
  sent : List MsixMsg := []               -- MSI-X messages, newest first
  geyLatch : List Nat := []               -- sources latched during RETAIN (R474)
  reqs : List HostReq := []
  reqNext : Nat := 0
  move : Option Move := none
  foMoves : List Nat := []                -- contexts moving after a declaration (R120, R121)
  lastCpl : CplStatus := .success         -- status of the last completion returned to a host
  lastLink : Sparse Nat := []             -- last reported width * 16 + rate of each port (R107)
  queues : Sparse Queue := []
  tensors : Sparse Tensor := []           -- by context * 2^20 + handle
  seqs : Sparse Seq := []                 -- sequence table, keyed as `tensors`
  flights : List Flight := []             -- oldest first
  vtime : Sparse Nat := []                -- V[t][c] by contender * 8 + class (R164)
  wasReady : List Nat := []               -- contender * 8 + class with ready work at the last look
  lastQ : Sparse Nat := []                -- last queue served, by contender * 8 + class
  readyAt : Sparse Nat := []              -- GCNT + 1 at which a queue's next step became ready
  aged : Sparse Nat := []                 -- classes a queue's next step has risen (R163)
  stepNo : Nat := 0                       -- batch steps placed so far
  ceJoin : List Nat := []                 -- Calderas that join service at the next epoch (R524)
  ceJoinG : Sparse Nat := []              -- GCNT + 1 at which each of them ended its reload
  epochUse : Sparse Nat := []             -- array cycles of each partition on shared Calderas this epoch (R177)
  epochC1 : Sparse Nat := []              -- class-1 array cycles on each Caldera this epoch (R176)
  lastEpoch : Nat := 0                    -- GCNT / 10,000 at the last boundary handled
  acct : Sparse Nat := []                 -- R182's counters by context * 8 + i
  frac : Sparse Nat := []                 -- carried energy in 1e-12 µJ by context (R184)
  energyK : Nat := 10000                  -- K of R184 in 1/10,000
  calTime : Nat := 0                      -- GCNT of the last calibration (R185)
  calUj : Nat := 0                        -- PWR_ENERGY at the last calibration
  resident : List Resident := []
  region : Sparse RegionUnit := []        -- by Caldera * 512 + unit
  cores : Sparse Core := []               -- Fumarole c, sequencer 12 + 16e + i, shader core 108 + j
  emb : EmberState := {}
  arrays : Sparse ArrayUnit := []         -- by Caldera * 2 + array
  vis : Sparse VisLane := []
  eqx : EqxState := {}
  heads : Sparse Head := []
  ports : Sparse VinPort := []
  fresh : Nat := 0                        -- free-value counter (the model's own)
  data : Nat := 0                         -- value the last register read returned
deriving DecidableEq, Repr

/-- The machine right after reset: every field at the value the spec states; where it states none,
the value a log entry names. -/
def State.reset : State := {}

end Sys2Proof.Machine
end

