-- ==== Sys2Proof/Machine/Ops.lean ====
section
/-! DEFINITION. The operations every unit shares: reading and writing a register field, setting a
Geyser source and delivering interrupts, host-link reachability, and memory: physical bytes, the
table walk, permission checks, copy-on-write and the page allocator. -/

namespace Sys2Proof.Machine

/-! ## Lists in order -/

/-- Insert into a sorted list, before what it ties with. -/
def insertBy {α : Type} (le : α → α → Bool) (x : α) : List α → List α
  | [] => [x]
  | y :: ys => if le x y then x :: y :: ys else y :: insertBy le x ys

/-- Sort by an order; what ties keeps its place. -/
def sortBy {α : Type} (l : List α) (le : α → α → Bool) : List α := l.foldr (insertBy le) []

/-! ## Register fields -/

/-- The key of a field's unit in `State.csr`. [DESIGN CHOICE: log 12] -/
def Fld.key (f : Fld) (u : Nat) : Nat := u * 1024 + f.ctorIdx

/-- A field's reset value. The staged homography resets to the identity matrix in FP32 (R413). Of the
fields whose value comes from the image, a tenant's source has the one target and vector any image can give
it (R53, R471), and the others what an image without a record gives. [DESIGN CHOICE: log 8] -/
def Fld.resetVal (f : Fld) (u : Nat) : Nat :=
  match f with
  | .EQX_HOMOG_STAGE_VALUE => if u % 9 = 0 ∨ u % 9 = 4 ∨ u % 9 = 8 then 0x3F800000 else 0
  | .GEY_SRC_TARGET => if 1024 ≤ u ∧ u < 5120 then 13 + (u - 1024) / 8 else 0
  | .GEY_SRC_VECTOR => if 1024 ≤ u ∧ u < 5120 then u % 8 else 0
  | .GEY_GRP_COUNT | .GEY_GRP_TIME => 1
  | .VIS_STATUS_PORT | .VIN_STATUS_LANE => 0xFF
  | .VIS_STATUS_PARTITION => 63
  | .DSP_LINEMATCH_LINE_C | .DSP_LINEMATCH_LINE_D => 0xFFFF
  | _ => f.info.reset

/-- The present value of field `f` of unit `u`. -/
def State.rd (s : State) (f : Fld) (u : Nat := 0) : Nat := s.csr.get (f.resetVal u) (f.key u)

/-- Set field `f` of unit `u`, keeping the bits the field has. -/
def State.wr (s : State) (f : Fld) (u v : Nat) : State :=
  { s with csr := s.csr.set (f.resetVal u) (f.key u) (v % 2 ^ f.info.width) }

/-- Add to a field, saturating at its largest value. -/
def State.inc (s : State) (f : Fld) (u : Nat) (n : Nat := 1) : State :=
  s.wr f u (min (s.rd f u + n) (2 ^ f.info.width - 1))

/-- Units of a field that hold a value other than the reset value. -/
def State.unitsOf (s : State) (f : Fld) : List Nat :=
  ((s.csr.map (·.1)).filter (fun k => k % 1024 = f.ctorIdx)).map (· / 1024)

/-- Put every unit of a field back at its reset value. -/
def State.resetFld (s : State) (f : Fld) : State :=
  { s with csr := s.csr.filter fun kv => kv.1 % 1024 ≠ f.ctorIdx }

/-- Put one unit of a field back at its reset value. -/
def State.resetUnit (s : State) (f : Fld) (u : Nat) : State := s.wr f u (f.resetVal u)

/-- Run a state change for each element of a list, in order. -/
def State.each {α : Type} (s : State) (l : List α) (g : State → α → State) : State := l.foldl g s

/-- The global counter (R478). -/
def State.gcnt (s : State) : Nat := s.rd .TIM_GCNT_COUNT

/-- The context number of PF0. [DESIGN CHOICE: log 13] -/
def pf0 : Nat := 512

/-- The context code of a context in a register field: 0x3FF for PF0. -/
def ctxCode (c : Nat) : Nat := if c = pf0 then 0x3FF else c

/-- KTV-6460 (R2). -/
def State.is6460 (s : State) : Bool := s.rd .SYS_ID_PART == 0x6460

/-- Tenants that exist on the part (R2, R6). -/
def State.tenants (s : State) : Nat := if s.is6460 then 128 else 512

/-- Set or clear bit `i`. -/
def setBit (x i : Nat) : Nat := if x.testBit i then x else x + 2 ^ i
def clrBit (x i : Nat) : Nat := if x.testBit i then x - 2 ^ i else x

/-- The bits set in `x` among the first `n`. -/
def bitsOf (x n : Nat) : List Nat := (List.range n).filter (fun i => x.testBit i)

/-! ## Functions, home ports and reachability (R110-R119) -/

def fnKey (port ctx : Nat) : Nat := port * 513 + ctx

def State.cfg (s : State) (port ctx : Nat) : FnCfg := s.fn.get {} (fnKey port ctx)

def State.setCfg (s : State) (port ctx : Nat) (c : FnCfg) : State :=
  { s with fn := s.fn.set {} (fnKey port ctx) c }

/-- The home port of a context (R116). -/
def State.home (s : State) (ctx : Nat) : Nat :=
  if ctx = pf0 then s.rd .HOST_CTRL_PF0_HOME
  else if (s.rd .HOST_HOME_HOME (ctx / 64)).testBit (ctx % 64) then 1 else 0

def State.setHome (s : State) (ctx port : Nat) : State :=
  if ctx = pf0 then s.wr .HOST_CTRL_PF0_HOME 0 port
  else
    let w := s.rd .HOST_HOME_HOME (ctx / 64)
    s.wr .HOST_HOME_HOME (ctx / 64) (if port = 1 then setBit w (ctx % 64) else clrBit w (ctx % 64))

/-- The VF of a tenant is enabled on a port (R119). -/
def State.vfOn (s : State) (port ctx : Nat) : Bool :=
  ctx = pf0 || ((s.cfg port pf0).vfEnable && decide (ctx < (s.cfg port pf0).numVFs))

/-- The port can receive the function (R119). -/
def State.eligiblePort (s : State) (port ctx : Nat) : Bool :=
  s.rd .HOST_PORT_STATUS_LINK port == 3 && (s.cfg port ctx).mse && (s.cfg port ctx).bme && s.vfOn port ctx

/-- The function can issue requests: home port in L0 and Bus Master Enable at 1,
and no planned move under way (R118, R121, R124). -/
def State.reachable (s : State) (ctx : Nat) : Bool :=
  !(match s.move with | some m => m.fns.contains ctx | none => false) && s.rd .HOST_PORT_STATUS_LINK (s.home ctx) == 3 && (s.cfg (s.home ctx) ctx).bme

/-- The part's TDP in W (R2). -/
def State.tdp (s : State) : Nat :=
  if s.rd .SYS_ID_PART = 0x6480 then 360 else if s.is6460 then 230 else 200

/-- The limit that CORE_CLOCKS sets on the package power, the part's TDP before an image does (R47). [DEDUCED: log 241] -/
def State.limitCap (s : State) : Nat := min s.pw.imageLimit s.tdp

/-- The readiness state is READY or DEGRADED_READY (R115). -/
def State.ready (s : State) : Bool := s.rd .RDY_STATUS_STATE == 7 || s.rd .RDY_STATUS_STATE == 8

/-! ## Geyser (R458-R475) -/

/-- Sources that never become pending (R458, R6). -/
def State.srcDead (s : State) (src : Nat) : Bool :=
  decide (8192 ≤ src) || (decide (704 ≤ src) && decide (src < 1024)) ||
    (s.is6460 && decide (2048 ≤ src) && decide (src < 5120))

def State.pend (s : State) (src : Nat) : Bool := (s.rd .GEY_PEND_PEND (src / 64)).testBit (src % 64)

def State.setPend (s : State) (src : Nat) : State :=
  s.wr .GEY_PEND_PEND (src / 64) (setBit (s.rd .GEY_PEND_PEND (src / 64)) (src % 64))

def State.clrPend (s : State) (src : Nat) : State :=
  s.wr .GEY_PEND_PEND (src / 64) (clrBit (s.rd .GEY_PEND_PEND (src / 64)) (src % 64))

/-- Every pending source. -/
def State.pendList (s : State) : List Nat :=
  (s.unitsOf .GEY_PEND_PEND).flatMap fun w =>
    (bitsOf (s.rd .GEY_PEND_PEND w) 64).map (w * 64 + ·)

/-- A group's COUNT and TIME; 0 acts as 1. -/
def State.grpCount (s : State) (g : Nat) : Nat := max 1 (s.rd .GEY_GRP_COUNT g)
def State.grpTime (s : State) (g : Nat) : Nat := max 1 (s.rd .GEY_GRP_TIME g)

/-- One event of a source in its coalescing group (R467). -/
def State.grpEvent (s : State) (src : Nat) : State :=
  let g := s.rd .GEY_SRC_GROUP src
  if 1024 ≤ g then s
  else if s.rd .GEY_GRP_STATE g = 0 then
    ((s.wr .GEY_GRP_STATE g 1).wr .GEY_GRP_ACC g 1).wr .GEY_GRP_ELAPSED g 0
  else s.inc .GEY_GRP_ACC g

/-- Step 1 of R466 for one unit fire, detected edge or software set. -/
def State.srcEvent (s : State) (src : Nat) : State :=
  if s.srcDead src || s.rd .GEY_SRC_ENABLE src == 0 then s
  else (s.setPend src).grpEvent src

/-- Step 2 of R466 for one W1C bit (R465). -/
def State.srcClear (s : State) (src : Nat) : State :=
  if s.pend src then
    let s := s.clrPend src
    if s.rd .GEY_SRC_LEVEL src = 1 then s.wr .GEY_SRC_HELD src 1 else s
  else s

/-- Step 3 of R466: a completion of a level at a target, with the re-sample of its HELD sources. [DEDUCED: log 203] -/
def State.tgtComplete (s : State) (x l : Nat) : State :=
  let s := s.wr .GEY_TGT_ACTIVE x (clrBit (s.rd .GEY_TGT_ACTIVE x) l)
  s.each ((s.unitsOf .GEY_SRC_HELD).filter fun src =>
      s.rd .GEY_SRC_HELD src = 1 ∧ s.rd .GEY_SRC_TARGET src = x) fun s src =>
    let s := s.wr .GEY_SRC_HELD src 0
    if s.rd .GEY_SRC_INPUT src = 1 ∧ s.rd .GEY_SRC_ENABLE src = 1 then (s.setPend src).grpEvent src else s

/-- Step 4 of R466: groups open, or return to IDLE when no source of theirs is pending (R467). -/
def State.grpSettle (s : State) : State :=
  let busy := s.pendList.map (s.rd .GEY_SRC_GROUP ·)
  s.each (s.unitsOf .GEY_GRP_STATE) fun s g =>
    if ¬ busy.contains g then
      ((s.wr .GEY_GRP_STATE g 0).wr .GEY_GRP_ACC g 0).wr .GEY_GRP_ELAPSED g 0
    else if s.rd .GEY_GRP_STATE g = 1 ∧
        (s.grpCount g ≤ s.rd .GEY_GRP_ACC g ∨ s.grpTime g * 100 ≤ s.rd .GEY_GRP_ELAPSED g) then
      s.wr .GEY_GRP_STATE g 2
    else s

/-- The running level of a target, none when ACTIVE is 0 (R461). -/
def State.running (s : State) (x : Nat) : Option Nat :=
  if s.rd .GEY_TGT_ACTIVE x = 0 then none else some (Nat.log2 (s.rd .GEY_TGT_ACTIVE x))

/-- R461. -/
def State.eligible (s : State) (x src : Nat) : Bool :=
  s.pend src && s.rd .GEY_SRC_ENABLE src == 1 && s.rd .GEY_SRC_TARGET src == x &&
    (decide (1024 ≤ s.rd .GEY_SRC_GROUP src) || s.rd .GEY_GRP_STATE (s.rd .GEY_SRC_GROUP src) == 2) &&
    decide (s.rd .GEY_TGT_THRESHOLD x < s.rd .GEY_SRC_PRIORITY src) &&
    (match s.running x with | none => true | some l => decide (l < s.rd .GEY_SRC_PRIORITY src))

def State.eligibleList (s : State) (x : Nat) : List Nat := s.pendList.filter (s.eligible x)

/-- The take of R462 at a target: ACTIVE takes the highest eligible priority among `srcs`. -/
def State.take (s : State) (x : Nat) (srcs : List Nat) : State :=
  match srcs with
  | [] => s.inc .GEY_TGT_SPURIOUS x
  | _ => s.wr .GEY_TGT_ACTIVE x
      (setBit (s.rd .GEY_TGT_ACTIVE x) ((srcs.map (s.rd .GEY_SRC_PRIORITY ·)).foldl max 0))

def msixKey (port ctx vec : Nat) : Nat := fnKey port ctx * 64 + vec

/-- The vector cannot be sent now: masked, or the function cannot issue requests (R472, R118, R128). [DEDUCED: log 206] -/
def State.vecBlocked (s : State) (ctx vec : Nat) : Bool :=
  let p := s.home ctx
  let c := s.cfg p ctx
  !(s.reachable ctx) || c.d3hot || !c.msixEnable || c.fnMask || !(s.vfOn p ctx) ||
    (s.msix.get {} (msixKey p ctx vec)).masked

/-- The vector of an eligible source: k for a tenant's source, the VECTOR field for PF0 (R471). -/
def State.vecOf (s : State) (x src : Nat) : Nat :=
  if x = 12 then s.rd .GEY_SRC_VECTOR src else (src - 1024) % 8

/-- The function a Geyser target above 11 delivers to. -/
def tgtCtx (x : Nat) : Nat := if x = 12 then pf0 else x - 13

/-- Send one vector's message on the home port and take its interrupt (R472). -/
def State.sendVec (s : State) (x vec : Nat) (srcs : List Nat) : State :=
  let ctx := tgtCtx x
  let p := s.home ctx
  let e := s.msix.get {} (msixKey p ctx vec)
  let s := s.take x srcs
  { s with sent := ⟨p, ctx, vec, e.addr, e.data⟩ :: s.sent, pba := s.pba.set 0 (ctx * 64 + vec) 0 }

/-- The requesting vector that goes first: highest eligible priority, then the lowest vector. -/
def bestVec (cands : List (Nat × Nat)) : Option Nat :=
  (cands.foldl (fun (b : Option (Nat × Nat)) (pv : Nat × Nat) =>
    match b with
    | none => some pv
    | some b => if b.1 < pv.1 ∨ (b.1 = pv.1 ∧ pv.2 < b.2) then some pv else some b) none).map (·.2)

/-- Sends of a target, one edge after another, until no sendable vector requests (R472). -/
def State.sendAll (s : State) (x : Nat) : Nat → State
  | 0 => s
  | fuel + 1 =>
    let el := (s.eligibleList x).filter fun src => !(s.vecBlocked (tgtCtx x) (s.vecOf x src))
    match bestVec (el.map fun src => (s.rd .GEY_SRC_PRIORITY src, s.vecOf x src)) with
    | none => s
    | some v => (s.sendVec x v (el.filter fun src => s.vecOf x src = v)).sendAll x fuel

/-- PBA bits of a target: set for a requesting vector that is blocked, clear for one that stopped
requesting (R472). -/
def State.pbaSettle (s : State) (x : Nat) : State :=
  let ctx := tgtCtx x
  let req := (s.eligibleList x).map (s.vecOf x)
  s.each ((s.pba.keysIn (ctx * 64) (ctx * 64 + 64)).map (· - ctx * 64) ++ req) fun s v =>
    { s with pba := s.pba.set 0 (ctx * 64 + v) (b2n (req.contains v)) }

/-- Steps 4 and 5 of R466 for every MSI-X target. -/
def State.deliver (s : State) : State :=
  let s := s.grpSettle
  let xs := ((s.pendList.map (s.rd .GEY_SRC_TARGET ·)) ++
    (s.pba.map fun (kv : Nat × Nat) => if kv.1 / 64 = pf0 then 12 else 13 + kv.1 / 64)).eraseDups.filter (12 ≤ ·)
  s.each xs fun s x => (s.sendAll x 17).pbaSettle x

/-- Sources that can fire during RETAIN: the always-on domain and the host island (R474). [DEDUCED: log 205] -/
def retainSource (src : Nat) : Bool :=
  (decide (43 ≤ src) && decide (src ≤ 46)) || (decide (576 ≤ src) && decide (src ≤ 639)) ||
    (decide (16 ≤ src) && decide (src ≤ 20))

/-- One CCLK edge of Geyser (R466): events, W1C clears, completions, groups, delivery. Outside LIVE
an event is latched when its source can fire in RETAIN, and nothing is delivered (R474). [DESIGN CHOICE: log 202] -/
def State.geyEdge (s : State) (sets clears : List Nat) (completes : List (Nat × Nat)) : State :=
  if s.rd .GEY_RET_STATE ≠ 0 then
    { s with geyLatch := s.geyLatch ++ sets.filter retainSource }
  else
    let s := s.each sets State.srcEvent
    let s := s.each clears State.srcClear
    let s := s.each completes fun s xl => s.tgtComplete xl.1 xl.2
    s.deliver

/-- A unit fires a source (R464). -/
def State.fire (s : State) (src : Nat) : State := s.geyEdge [src] [] []

def State.fireIf (s : State) (c : Bool) (src : Nat) : State := if c then s.fire src else s

/-- Source k of a tenant; for PF0 the scheduler source that carries the same event (R179). -/
def ctxSrc (ctx k : Nat) : Nat := if ctx = pf0 then 128 + k else 1024 + 8 * ctx + k

/-! ## Power state and service of the register blocks (R129, R475, R558-R560) -/

/-- R475: the restore of Geyser on a wake; `ok` is its retention check. -/
def State.geyRestore (s : State) (ok : Bool) : State :=
  let latched := s.geyLatch
  let s : State := { (s.wr .GEY_RET_STATE 0 0).inc .GEY_RET_RESTORES 0 with geyLatch := [] }
  if ok then
    let s := s.each latched State.srcEvent
    (s.each ((s.unitsOf .GEY_SRC_INPUT).filter fun src =>
        s.rd .GEY_SRC_LEVEL src = 1 ∧ s.rd .GEY_SRC_HELD src = 0 ∧ s.rd .GEY_SRC_ENABLE src = 1)
      State.setPend).deliver
  else
    let s := s.each ((s.unitsOf .GEY_SRC_ENABLE).filter fun src => !(s.srcDead src)) State.setPend
    let s := s.resetFld .GEY_TGT_ACTIVE |>.resetFld .GEY_SRC_HELD |>.resetFld .GEY_GRP_STATE
      |>.resetFld .GEY_GRP_ACC |>.resetFld .GEY_GRP_ELAPSED
    (s.wr .GEY_RET_LOST 0 1).fire 5

/-- R559, R560: a wake event in RETAIN starts the wake; one while RETAIN is being entered aborts it. -/
def State.wake (s : State) (ok : Bool) : State :=
  if s.rd .PWR_STATUS_STATE = 4 then
    ((s.wr .PWR_STATUS_STATE 0 5).inc .PWR_STATUS_WAKES 0).geyRestore ok
  else if s.rd .PWR_STATUS_STATE = 3 then
    let s := (s.wr .PWR_STATUS_STATE 0 5).wr .PWR_CTRL_RESULT 0 3
    (if s.rd .GEY_RET_STATE = 0 then s else s.geyRestore ok).fire 54
  else s

/-- The blocks by how R129 and R556 serve them. -/
inductive Blk where
  | island   -- SYS, PWR, TIM, HOST
  | early    -- BRG, STRUCT, SEC, TST
  | late     -- every other block of PF0 BAR0, and the VF windows
  | gone     -- the pages of a tenant, or of a queue of PF0, that the part does not have
deriving DecidableEq, Repr

/-- The device is held in reset, by RESET_N or by the TAP (R552, R581). -/
def State.inReset (s : State) : Bool := s.pw.resetLow || s.pw.tapHold

/-- An access to a block: `none` in reset or after a trip stopped the clocks, and when the block is
not served yet (R129) or not there; outside the host island
it wakes the device from RETAIN first (R558). [DEDUCED: log 240] -/
def State.access (s : State) (b : Blk) : Option State :=
  if s.inReset || s.pw.tripHeld then none
  else match b with
  | .island => some s
  | .early => some (s.wake true)
  | .late => if s.confReached then some (s.wake true) else none
  | .gone => none

/-- How R129 serves a context's own register page; a tenant the part lacks has none (R2, R6). -/
def State.ctxBlk (s : State) (ctx : Nat) : Blk :=
  if ctx = pf0 then .island else if ctx < s.tenants then .late else .gone

/-- How R129 serves the doorbell of a queue: PF0 has M0-M63, a tenant of the part queues 0-511 (R131). -/
def State.bellBlk (s : State) (ctx q : Nat) : Blk :=
  if (ctx = pf0 ∧ q < 64) ∨ (ctx < s.tenants ∧ q < 512) then .island else .gone

/-- Apply a change to the state an access finds; an unserved access changes nothing (R588). [DESIGN CHOICE: log 58] -/
def State.accessed (s : State) (b : Blk) (g : State → State) : State :=
  match s.access b with
  | some s => g s
  | none => s

/-- Fire a source of the always-on domain or the host island, which can wake the device (R558). -/
def State.fireIsland (s : State) (src : Nat) : State :=
  let s := s.fire src
  let wakes := (decide (576 ≤ src) && decide (src ≤ 639) && s.rd .PWR_WAKE_TIMER == 1) ||
    (decide (43 ≤ src) && decide (src ≤ 46) && s.rd .PWR_WAKE_CALENDAR == 1)
  if wakes then s.wake true else s

/-- A unit's number in the test block: class and index (R573). -/
def tstUnit (cls idx : Nat) : Nat := cls * 16 + idx

/-- A test of the unit runs (R574). -/
def State.testing (s : State) (cls idx : Nat) : Bool := s.rd .TST_UNIT_TESTING (tstUnit cls idx) == 1

/-- The unit's last test failed (R576). -/
def State.testFailed (s : State) (cls idx : Nat) : Bool := s.rd .TST_UNIT_FAILED (tstUnit cls idx) == 1

/-- The half of a 64-bit register an access covers: 0 the whole, 1 the low half, 2 the high (R587). -/
def mergeHalf (old half val : Nat) : Nat :=
  if half = 1 then old / 2 ^ 32 * 2 ^ 32 + val % 2 ^ 32
  else if half = 2 then old % 2 ^ 32 + val % 2 ^ 32 * 2 ^ 32
  else val % 2 ^ 64

/-! ## Physical memory (R69-R73) -/

/-- What a byte of memory that nothing has written reads as. [DESIGN CHOICE: log 31] -/
def unwritten : Byte := 0

/-- Host memory of port `p` at bus address `a` lies beside the HBM in the model's memory list. [DESIGN CHOICE: log 32] -/
def hostKey (p a : Nat) : Nat := 2 ^ 46 + p * 2 ^ 45 + a % 2 ^ 45

/-- The memory-list key of a physical address, for a context's home port. -/
def State.cellKey (s : State) (ctx pa : Nat) : Nat :=
  if pa / 2 ^ 45 % 2 = 1 then hostKey (s.home ctx) (pa % 2 ^ 45) else pa % 2 ^ 45

/-- Memory is in its canonical form: addresses strictly rising, and no listed byte equal to what an unlisted
address reads as. -/
def Memory.wf (m : List Host.Cell) : Bool := Sparse.wf unwritten m

def State.getByte (s : State) (k : Nat) : Byte := Sparse.get unwritten s.mem k

def State.putByte (s : State) (k : Nat) (b : Byte) : State :=
  { s with mem := Sparse.set unwritten s.mem k b }

/-- Write consecutive bytes from key `k`. -/
def State.putBytes (s : State) (k : Nat) : List Byte → State
  | [] => s
  | b :: bs => (s.putByte k b).putBytes (k + 1) bs

/-- A pseudo-channel's STATE changes; source 69 fires (R77). -/
def State.pcState (s : State) (pc st : Nat) : State :=
  if s.rd .MEM_PC_STATUS_STATE pc = st then s else (s.wr .MEM_PC_STATUS_STATE pc st).fire 69

/-- Class-1 shares of the memory streams that have been started (R37, R422). -/
def State.streamShares (s : State) : Nat :=
  (((List.range 64).filter fun i => s.rd .EQX_STREAM_CTRL_STATE i != 0 && s.rd .EQX_STREAM_CTRL_HEAD i == 0).map
    fun i => s.rd .EQX_STREAM_CTRL_CLASS1_SHARE i).foldl (· + ·) 0

/-- Sum of the class-1 shares of all streams (R37, R177). -/
def State.class1Sum (s : State) : Nat := s.img.class1 + s.streamShares

/-- Members of an interleave set, ascending (R71). -/
def State.members (s : State) (n : Nat) : List Nat :=
  (s.unitsOf .MEM_PC_STATUS_ISET).filter (fun pc => s.rd .MEM_PC_STATUS_ISET pc = n)

/-- 64 KiB frames of one pseudo-channel: 1.125 GiB (R70). -/
def pcFrames : Nat := 18432

/-- Frames of a set. -/
def State.setFrames (s : State) (n : Nat) : Nat := (s.members n).length * pcFrames

/-- A set takes new allocations: none of its channels is being retired (R520). -/
def State.setOpen (s : State) (n : Nat) : Bool := (s.members n).all fun pc => s.rd .MEM_PC_STATUS_STATE pc == 1

/-- The partition a set belongs to. -/
def State.setPart (s : State) (n : Nat) : Option Nat :=
  (s.members n).head?.map (s.rd .MEM_PC_STATUS_PARTITION ·)

/-- The sets of a partition, ascending. -/
def State.setsOf (s : State) (p : Nat) : List Nat :=
  ((List.range 128).filter fun n => s.setPart n = some p)

/-- R71: the pseudo-channel and the offset within it of an offset in a set. -/
def State.locate (s : State) (set off : Nat) : Option (Nat × Nat) :=
  let mem := s.members set
  let n := mem.length
  if n = 0 then none
  else
    let g := off / 256
    (mem[(Nat.xor g (off / 65536)) % n]?).map fun pc => (pc, (g / n) * 256 + off % 256)

/-- The inverse of R71 within a set of `n` channels: the set offset of channel index `idx` at `o`. -/
def unlocate (n idx o : Nat) : Nat :=
  -- the granule's bits above log2 n are those of o; the low bits are idx xor'ed with bits 8.. of g
  let hi := o / 256
  let g0 := hi * n
  let low := (List.range n).find? (fun l => (Nat.xor (g0 + l) ((g0 + l) / 256)) % n = idx)
  (g0 + low.getD 0) * 256 + o % 256

/-- An HBM physical address lies inside a set in use (R69). -/
def State.hbmOk (s : State) (pa : Nat) : Bool :=
  decide (pa % 2 ^ 38 / 65536 < s.setFrames (pa / 2 ^ 38 % 128))

/-- The partition of a context: 63 for PF0 (R31, R48). -/
def State.partOf (s : State) (ctx : Nat) : Nat :=
  if ctx = pf0 then 63 else s.rd .VF_STATUS_PARTITION ctx

/-! ## Retirement of a pseudo-channel (R520, R522) -/

/-- A waiting section of the loading image names a partition (R523). -/
def State.waitNames (s : State) (p : Nat) : Bool :=
  s.img.wait.any fun w => (w.2.tag == 0x30 || w.2.tag == 0x31 || w.2.tag == 0x90) && (w.2.val.getD 0 0).toNat == p

/-- 64 KiB frames of a set that are allocated or partition-owned: those a retirement moves. -/
def State.setHeld (s : State) (n : Nat) : List Nat :=
  (s.m.frames.keysIn (n * 2 ^ 22) ((n + 1) * 2 ^ 22)).filter fun k => bits (s.m.frames.get 0 k) 60 4 != 2

/-- R520 step 1: the channel reads RETIRING and its set takes no new allocations. -/
def State.startRetire (s : State) (pc : Nat) : State :=
  let st := s.rd .MEM_PC_STATUS_STATE pc
  if (st == 1 || st == 3) && !(s.waitNames (s.rd .MEM_PC_STATUS_PARTITION pc)) then
    let s : State := { s with brg := { s.brg with pcOp := pc } }
    ((s.pcState pc 3).wr .BRG_PC_CTRL_RESULT 0 1).wr .BRG_PC_CTRL_PAGES_LEFT 0
      (s.setHeld (s.rd .MEM_PC_STATUS_ISET pc)).length
  else s.wr .BRG_PC_CTRL_RESULT 0 2

/-- R522: with AUTO_RETIRE at 1 and no operation in progress, FC11 issues the next RETIRE it wants; not while it
restarts (R526). -/
def State.nextRetire (s : State) : State :=
  if s.rd .BRG_PC_CTRL_RESULT = 1 ∨ s.brg.fcDown.contains 11 then s
  else match s.brg.pcWant.find? fun pc => s.rd .MEM_PC_STATUS_STATE pc == 1 with
    | none => s
    | some pc =>
      let s : State := { s with brg := { s.brg with
        pcWant := s.brg.pcWant.filter (· ≠ pc), pcAuto := pc :: s.brg.pcAuto.filter (· ≠ pc) } }
      (s.wr .BRG_PC_CTRL_PC 0 pc).startRetire pc

/-- R522: FC11 wants a channel retired. [DEDUCED: log 221] -/
def State.wantRetire (s : State) (pc : Nat) : State :=
  if s.rd .BRG_CTRL_AUTO_RETIRE = 0 then s
  else ({ s with brg := { s.brg with pcWant := s.brg.pcWant.filter (· ≠ pc) ++ [pc] } } : State).nextRetire

/-- TCLK periods in 24 h. -/
def dayTclk : Nat := 86400 * 100000000

/-- Uncorrectable detections of a channel within the last 24 h, the new one included; at 4 it is
retired (R522). -/
def State.noteUE (s : State) (pc : Nat) : State :=
  let l := (pc, s.gcnt) :: s.brg.ueTimes.filter fun x => decide (s.gcnt < x.2 + dayTclk)
  let s : State := { s with brg := { s.brg with ueTimes := l } }
  if 4 ≤ (l.filter (·.1 = pc)).length then s.wantRetire pc else s

/-- A first detection of an uncorrectable error at a line (R73). -/
def State.firstUE (s : State) (line : Nat) : State :=
  let pa := line * 64
  let s : State := { s with m := { s.m with poison := s.m.poison.set 0 line 1, latent := s.m.latent.set 0 line 0 } }
  let s := (s.wr .MEM_UE_ADDR_VALID 0 1).wr .MEM_UE_ADDR_LINE 0 line
  let s := match s.locate (pa / 2 ^ 38) (pa % 2 ^ 38) with
    | some (pc, _) => (s.inc .MEM_PC_STATUS_UE_COUNT pc).noteUE pc
    | none => s
  s.fire 65

/-- A read of an HBM line fails: it is poisoned or holds an uncorrectable error (R73). -/
def State.lineBad (s : State) (pa : Nat) : Bool :=
  decide (pa < 2 ^ 45) && (s.m.poison.get 0 (pa / 64) == 1 || s.m.latent.get 0 (pa / 64) == 1)

/-! ## Translation (R80-R85) -/

/-- Fields of a table entry (R81). -/
def pteV (e : Nat) : Bool := e.testBit 0
def pteLeaf (e : Nat) : Bool := e.testBit 1
def pteR (e : Nat) : Bool := e.testBit 2
def pteW (e : Nat) : Bool := e.testBit 3
def pteD (e : Nat) : Bool := e.testBit 9
def pteA (e : Nat) : Bool := e.testBit 10
def pteC (e : Nat) : Bool := e.testBit 11
def pteX (e : Nat) : Bool := e.testBit 62
def pteS (e : Nat) : Bool := e.testBit 63
def ptePA (e : Nat) : Nat := bits e 12 34 * 4096
/-- A non-zero reserved field or the reserved CACHE code (R81). -/
def pteRsvd (e : Nat) : Bool := e.testBit 61 || bits e 46 13 != 0 || bits e 4 5 != 0 || bits e 59 2 == 3

/-- Build a leaf entry: PA, S, X, CACHE, W, R, C (R81). -/
def mkPte (pa : Nat) (sh : Bool) (cache xwr : Nat) (c : Bool) : Nat :=
  b2n sh * 2 ^ 63 + xwr / 4 % 2 * 2 ^ 62 + cache % 4 * 2 ^ 59 + pa / 4096 % 2 ^ 34 * 2 ^ 12 +
    b2n c * 2 ^ 11 + xwr / 2 % 2 * 8 + xwr % 2 * 4 + 3

/-- Bytes a leaf of level 1, 2 or 3 maps, as a power of two (R80). -/
def lvlShift (lvl : Nat) : Nat := if lvl = 1 then 30 else if lvl = 2 then 21 else 12

/-- The key of a leaf entry: context, level, index of the address at that level. -/
def pteKey (ctx lvl va : Nat) : Nat := (ctx * 4 + lvl) * 2 ^ 36 + va % 2 ^ 48 / 2 ^ lvlShift lvl

def State.pteAt (s : State) (ctx lvl va : Nat) : Nat := s.m.pte.get 0 (pteKey ctx lvl va)

def State.setPte (s : State) (ctx lvl va e : Nat) : State :=
  { s with m := { s.m with pte := s.m.pte.set 0 (pteKey ctx lvl va) e } }

/-- The leaf that maps an address: its level and entry. [DESIGN CHOICE: log 33] -/
def State.leaf (s : State) (ctx va : Nat) : Option (Nat × Nat) :=
  if pteV (s.pteAt ctx 1 va) then some (1, s.pteAt ctx 1 va)
  else if pteV (s.pteAt ctx 2 va) then some (2, s.pteAt ctx 2 va)
  else if pteV (s.pteAt ctx 3 va) then some (3, s.pteAt ctx 3 va)
  else none

/-- What an access asks for. -/
inductive Acc where
  | r | w | x
deriving DecidableEq, Repr

/-- The walk and its checks: a physical address, or TRANSLATION_FAULT 0x02 or PERMISSION_FAULT 0x03
(R81, R83, R84). [DESIGN CHOICE: log 35] -/
def State.translate (s : State) (ctx va : Nat) (a : Acc) : Except Nat Nat :=
  if 2 ^ 48 ≤ va then .error 2
  else match s.leaf ctx va with
  | none => .error 2
  | some (lvl, e) =>
    if pteRsvd e || !(pteLeaf e) then .error 2
    else
      let pa := ptePA e + va % 2 ^ lvlShift lvl
      let allowed := match a with | .r => pteR e | .w => pteW e | .x => pteX e
      if pa / 2 ^ 45 % 2 = 0 then
        if !(s.hbmOk pa) then .error 2
        else if s.setPart (pa / 2 ^ 38 % 128) ≠ some (s.partOf ctx) ∧ ¬ (ctx = pf0 ∧ pteW e = false) then .error 3
        else if allowed then .ok pa else .error 3
      else if s.m.hostMap.any (fun r => r.1 == ctx && decide (r.2.1 ≤ pa % 2 ^ 45 / 4096) &&
          decide (pa % 2 ^ 45 / 4096 < r.2.1 + r.2.2)) then
        if allowed then .ok pa else .error 3
      else .error 3

/-- Read one byte through a context. An uncorrectable or poisoned line gives 0x08 (R73). -/
def State.ldByte (s : State) (ctx va : Nat) : Except Nat Byte :=
  match s.translate ctx va .r with
  | .error e => .error e
  | .ok pa => if s.lineBad pa then .error 8 else .ok (s.getByte (s.cellKey ctx pa))

/-- Read `n` bytes through a context; the first fault gives its status and address. -/
def State.ldBytes (s : State) (ctx va : Nat) : Nat → Except (Nat × Nat) (List Byte)
  | 0 => .ok []
  | n + 1 => match s.ldByte ctx va with
    | .error e => .error (e, va)
    | .ok b => match s.ldBytes ctx (va + 1) n with
      | .error e => .error e
      | .ok bs => .ok (b :: bs)

/-- Little-endian number of a byte list. -/
def leNat : List Byte → Nat
  | [] => 0
  | b :: bs => b.toNat + 256 * leNat bs

/-- `n` little-endian bytes of a number. -/
def natLe : Nat → Nat → List Byte
  | 0, _ => []
  | n + 1, x => BitVec.ofNat 8 x :: natLe n (x / 256)

/-- Set A, and D for a write, in the leaf of an address (R84). -/
def State.touch (s : State) (ctx va : Nat) (write : Bool) : State :=
  match s.leaf ctx va with
  | none => s
  | some (lvl, e) => s.setPte ctx lvl va (let e := setBit e 10; if write then setBit e 9 else e)

/-! ## Page frames and pools (R86-R90) -/

/-- Frame states of R86. -/
inductive FrameSt where
  | free | allocated | retired | owned
deriving DecidableEq, Repr

/-- A page-frame table entry (R86). `tenant` is the charged context, 0x3FF none. The POISON bit is
not stored: it is whether a line of the frame is poisoned now. -/
structure Frame where
  st : FrameSt := .free
  part : Nat := 0
  tenant : Nat := 0x3FF
  unit : Nat := 0
  ref : Nat := 0
deriving DecidableEq, Repr

def encFrame (f : Frame) : Nat :=
  (match f.st with | .free => 0 | .allocated => 1 | .retired => 2 | .owned => 3) * 2 ^ 60 +
    f.part % 64 * 2 ^ 54 + f.tenant % 1024 * 2 ^ 44 + f.unit % 4 * 2 ^ 38 + f.ref % 65536 * 2 ^ 16

def decFrame (w : Nat) : Frame :=
  { st := match bits w 60 4 with | 0 => .free | 1 => .allocated | 2 => .retired | _ => .owned
    part := bits w 54 6, tenant := bits w 44 10, unit := bits w 38 2, ref := bits w 16 16 }

/-- Frame `n` is PA / 65,536. An unlisted frame is FREE. -/
def State.frame (s : State) (n : Nat) : Frame := decFrame (s.m.frames.get 0 n)

def State.setFrame (s : State) (n : Nat) (f : Frame) : State :=
  { s with m := { s.m with frames := s.m.frames.set 0 n (if f.st = .free then 0 else encFrame f) } }

/-- Frames of one unit by its UNIT code (R86). -/
def unitFrames (u : Nat) : Nat := if u = 2 then 32 else if u = 3 then 16384 else 1

/-- A line of the frames `[n, n + k)` is poisoned. -/
def State.framesPoisoned (s : State) (n k : Nat) : Bool := !(s.m.poison.keysIn (n * 1024) ((n + k) * 1024)).isEmpty

/-- Frames of a set that are not FREE. -/
def State.setUsed (s : State) (n : Nat) : Nat :=
  (s.m.frames.keysIn (n * 2 ^ 22) ((n + 1) * 2 ^ 22)).length

/-- Frames of a partition that an ALLOC with HOT took for a model and still holds (R90). -/
def State.hotOut (s : State) (p model : Nat) : Nat :=
  (s.m.hotTaken.filter fun (kv : Nat × Nat) => kv.2 = model + 1 ∧ (s.frame kv.1).part = p).length

/-- Frames the HOT_RESERVE of a partition and model withholds now (R90, R170). -/
def State.hotLeft (s : State) (p model : Nat) : Nat :=
  (((s.m.hot.filter fun r => r.1 = p ∧ r.2.1 = model).map (·.2.2)).foldl (· + ·) 0) - s.hotOut p model

/-- Frames a partition's hot-set reservations withhold now (R170). -/
def State.hotHeld (s : State) (p : Nat) : Nat :=
  ((((s.m.hot.filter (·.1 = p)).map (·.2.1)).eraseDups).map (s.hotLeft p)).foldl (· + ·) 0

/-- Frames the tensor tables of a partition's contexts take (R140). [DEDUCED: log 42] -/
def State.ttHeld (s : State) (p : Nat) : Nat :=
  ((s.m.ttFrames.filter fun (kv : Nat × Nat) => s.partOf kv.1 = p).map (·.2)).foldl (· + ·) 0

/-- Pages withheld for the feature sequences of running streams (R396). -/
def State.eqxHeld (s : State) (p : Nat) : Nat :=
  if p = 63 then (s.eqx.streams.map fun (kv : Nat × Stream) => kv.2.resv).foldl (· + ·) 0 else 0

/-- Free frames of a partition that no reservation withholds (R88, R170, R396). -/
def State.freeFrames (s : State) (p : Nat) : Nat :=
  ((((s.setsOf p).filter s.setOpen).map fun n => s.setFrames n - s.setUsed n).foldl (· + ·) 0) - s.hotHeld p - s.ttHeld p - s.eqxHeld p

/-- No frame of `[n, n + k)` is taken. -/
def State.runFree (s : State) (n k : Nat) : Bool := (s.m.frames.keysIn n (n + k)).isEmpty

/-- The lowest aligned free run of `k` frames in a set, searched from position `i` in units of `k`. [DEDUCED: log 38] -/
def State.findRun (s : State) (set k al : Nat) : Nat → Nat → Option Nat
  | 0, _ => none
  | fuel + 1, i =>
    if s.setFrames set < i * al + k then none
    else if s.runFree (set * 2 ^ 22 + i * al) k then some (set * 2 ^ 22 + i * al)
    else s.findRun set k al fuel (i + 1)

/-- The sets of a partition by falling free bytes, ties by rising number (R72). -/
def State.setOrder (s : State) (p : Nat) : List Nat :=
  sortBy ((s.setsOf p).filter s.setOpen) fun a b => decide (s.setFrames b - s.setUsed b ≤ s.setFrames a - s.setUsed a)

/-- The first free run of `k` frames aligned to `al`, taking the set with the most free bytes first. -/
def State.findFrames (s : State) (p k al : Nat) : Option Nat :=
  (s.setOrder p).findSome? fun set => s.findRun set k al (s.setFrames set / al + 1) 0

/-- Quota of a context's pool: unlimited for PF0 (R88, R94). -/
def State.quota (s : State) (ctx : Nat) : Nat := if ctx = pf0 then 0xFFFFFFFF else s.rd .MEM_POOL_QUOTA_QUOTA ctx

def State.used (s : State) (ctx : Nat) : Nat := s.m.used.get 0 ctx

def State.charge (s : State) (ctx : Nat) (n : Int) : State :=
  { s with m := { s.m with used := s.m.used.set 0 ctx ((s.used ctx : Int) + n).toNat } }

/-- The pool can supply `n` frames (R88). -/
def State.canSupply (s : State) (ctx n : Nat) : Bool :=
  decide (s.used ctx + n ≤ s.quota ctx) && decide (n ≤ s.freeFrames (s.partOf ctx))

/-- Mark `k` frames from `n` with an entry; the count is kept in the first (R86). -/
def State.markFrames (s : State) (n k : Nat) (f : Frame) : State :=
  s.each (List.range k) fun s i => s.setFrame (n + i) (if i = 0 then f else { f with ref := 0 })

/-- Take one unit of `k` frames for a context: charged, ALLOCATED, REFCOUNT 1. -/
def State.takeUnit (s : State) (ctx u : Nat) : Option (State × Nat) :=
  let k := unitFrames u
  if s.canSupply ctx k then
    (s.findFrames (s.partOf ctx) k k).map fun n =>
      ((s.markFrames n k ⟨.allocated, s.partOf ctx, ctxCode ctx, u, 1⟩).charge ctx k, n)
  else none

/-- Frames the health record lists as retired. -/
def State.retiredFrames (s : State) : List Nat := (s.m.frames.map (·.1)).filter fun n => (s.frame n).st == .retired

/-- Mark a frame RETIRED (R76). When the record's list is full, its frame's channel is retired instead
of listing it (R513). -/
def State.retireFrame (s : State) (n : Nat) : State :=
  let full := decide (16384 ≤ s.retiredFrames.length)
  let s := (s.setFrame n { s.frame n with st := .retired, ref := 0 }).fire 70
  let s : State := { s with brg := { s.brg with dirty := true } }
  if full then
    match (s.m.poison.keysIn (n * 1024) ((n + 1) * 1024)).head? with
    | some line => match s.locate (line * 64 / 2 ^ 38) (line * 64 % 2 ^ 38) with
      | some (pc, _) => s.wantRetire pc
      | none => s
    | none => s
  else s

/-- Return the `k` frames of a unit to FREE, or to RETIRED where a line is poisoned (R76, R89). -/
def State.releaseFrames (s : State) (n k : Nat) : State :=
  s.each (List.range k) fun s i =>
    if s.framesPoisoned (n + i) 1 then s.retireFrame (n + i) else s.setFrame (n + i) {}

/-- Remove one mapping of the unit whose first frame is `n` (R88, R89, R90). -/
def State.decRef (s : State) (ctx n : Nat) : State :=
  let f := s.frame n
  match f.st with
  | .owned => s.setFrame n { f with ref := f.ref - 1 }
  | .allocated =>
    if f.ref ≤ 1 then
      (s.releaseFrames n (unitFrames f.unit)).charge ctx (-(unitFrames f.unit : Int))
    else s.setFrame n { f with ref := f.ref - 1 }
  | _ => s

/-- First frame of the unit that maps an address. -/
def unitHead (lvl pa : Nat) : Nat := pa / 2 ^ (max 16 (lvlShift lvl)) * 2 ^ (max 16 (lvlShift lvl) - 16)

/-- Copy the bytes of `k` frames. A line that cannot be read leaves a line that cannot be read. [DEDUCED: log 40] -/
def State.copyFrames (s : State) (src dst k : Nat) : State :=
  let cells := s.mem.filter fun c => decide (src * 65536 ≤ c.1) && decide (c.1 < (src + k) * 65536)
  let moved := fun (m : Sparse Nat) =>
    ((m.keysIn (src * 1024) ((src + k) * 1024)).foldl (fun (m : Sparse Nat) l => m.set 0 (l - src * 1024 + dst * 1024) 1) m)
  let s : State := { s with
    mem := Sparse.clear s.mem (dst * 65536) ((dst + k) * 65536)
    m := { s.m with poison := moved s.m.poison, latent := moved s.m.latent } }
  s.each cells fun s c => s.putByte (c.1 - src * 65536 + dst * 65536) c.2

/-- Write a leaf for `lvl` at `va`: 16 entries with C for a 64 KiB page, else one (R82). -/
def State.mapUnit (s : State) (ctx lvl va pa : Nat) (big sh : Bool) (cache xwr : Nat) : State :=
  if big then
    s.each (List.range 16) fun s i => s.setPte ctx 3 (va + i * 4096) (mkPte (pa + i * 4096) sh cache xwr true)
  else s.setPte ctx lvl va (mkPte pa sh cache xwr false)

/-- Clear S in every entry of the unit mapped at `base`, and point it at `pa` (R87). -/
def State.repoint (s : State) (ctx lvl base pa : Nat) (big : Bool) : State :=
  s.each (if big then List.range 16 else [0]) fun s i =>
    let e := clrBit (s.pteAt ctx lvl (base + i * 4096)) 63
    s.setPte ctx lvl (base + i * 4096) (e - ptePA e + (pa + i * 4096) / 4096 % 2 ^ 34 * 4096)

/-- The start of the mapping unit an address lies in: 64 KiB for a contiguous group. -/
def unitBase (lvl : Nat) (big : Bool) (va : Nat) : Nat :=
  if big then va / 65536 * 65536 else va / 2 ^ lvlShift lvl * 2 ^ lvlShift lvl

/-- R87: a write through a copy-on-write mapping. `none` when the pool cannot supply the copy. [DEDUCED: log 41] -/
def State.cow (s : State) (ctx va : Nat) : Option State :=
  match s.leaf ctx va with
  | none => some s
  | some (lvl, e) =>
    if !(pteS e && pteW e) then some s
    else
      let big := lvl == 3 && pteC e
      let base := unitBase lvl big va
      let pa := ptePA (s.pteAt ctx lvl base)
      let n := unitHead lvl pa
      if (s.frame n).ref ≤ 1 then some (s.repoint ctx lvl base pa big)
      else
        let u := if lvl = 2 then 2 else if lvl = 1 then 3 else 1
        match s.takeUnit ctx u with
        | none => none
        | some (s, n') =>
          let s := s.copyFrames n n' (unitFrames u)
          let s := s.repoint ctx lvl base (n' * 65536) big
          some (s.setFrame n { s.frame n with ref := (s.frame n).ref - 1 })

/-- A write to a frame drops the resident weight tiles of that frame (R169). -/
def State.dropTiles (s : State) (frame : Nat) : State :=
  if s.resident.any (·.tiles.contains frame) then
    { s with resident := s.resident.map fun r => { r with tiles := r.tiles.filter (· ≠ frame) } }
  else s

/-- Write the part of a line a request covers: translation, copy-on-write, poison (R73, R84, R87).
The result is the state and, where the write failed, the status. -/
def State.stLine (s : State) (ctx va : Nat) (bs : List Byte) : State × Option Nat :=
  match s.translate ctx va .w with
  | .error e => (s, some e)
  | .ok _ =>
    match s.cow ctx va with
    | none => (s.fire (ctxSrc ctx 3), some 4)
    | some s =>
      match s.translate ctx va .w with
      | .error e => (s, some e)
      | .ok pa =>
        let s := s.touch ctx va true
        let line := pa / 64
        let whole := decide (bs.length = 64)
        if s.lineBad pa && !whole then
          (if s.m.latent.get 0 line = 1 then s.firstUE line else s, some 8)
        else
          let s := if whole then
            { s with m := { s.m with poison := s.m.poison.set 0 line 0, latent := s.m.latent.set 0 line 0 } } else s
          ((if pa < 2 ^ 45 then s.dropTiles (pa / 65536) else s).putBytes (s.cellKey ctx pa) bs, none)

/-- Write bytes through a context, line by line. A poisoned line drops only its own bytes; a
translation fault ends the write. The first failure's status and address are returned. -/
def State.stBytes (s : State) (ctx va : Nat) (bs : List Byte) : Nat → State × Option (Nat × Nat)
  | 0 => (s, none)
  | fuel + 1 =>
    if bs.isEmpty then (s, none)
    else
      let n := min bs.length (64 - va % 64)
      match s.stLine ctx va (bs.take n) with
      | (s, none) => s.stBytes ctx (va + n) (bs.drop n) fuel
      | (s, some 8) => ((s.stBytes ctx (va + n) (bs.drop n) fuel).1, some (8, va))
      | (s, some e) => (s, some (e, va))

/-- Write a chunk list. -/
def State.stChunks (s : State) (ctx : Nat) : List Chunk → State × Option (Nat × Nat)
  | [] => (s, none)
  | c :: cs =>
    match s.stBytes ctx c.va c.data (c.data.length + 1) with
    | (s, none) => s.stChunks ctx cs
    | (s, some (8, a)) => ((s.stChunks ctx cs).1, some (8, a))
    | (s, some f) => (s, some f)

/-- First detections on reading a range through a context (R73). [DEDUCED: log 49] -/
def State.detect (s : State) (ctx va : Nat) : State :=
  match s.translate ctx va .r with
  | .ok pa => if s.m.latent.get 0 (pa / 64) = 1 ∧ pa < 2 ^ 45 then s.firstUE (pa / 64) else s
  | .error _ => s

/-- A byte the spec leaves undefined (R146): written from the free-value counter. [DESIGN CHOICE: log 75] -/
def State.freeBytes (s : State) (ctx va : Nat) : Nat → State
  | 0 => s
  | n + 1 =>
    match s.translate ctx va .w with
    | .ok pa => ({ s with fresh := s.fresh + 1 }.putByte (s.cellKey ctx pa)
        (Config.freeByte s.fresh pa)).freeBytes ctx (va + 1) n
    | .error _ => s.freeBytes ctx (va + 1) n

/-! ## Tensors (R140-R142) -/

def tKey (ctx h : Nat) : Nat := ctx * 2 ^ 20 + h

def State.tensor (s : State) (ctx h : Nat) : Tensor := s.tensors.get {} (tKey ctx h)

def State.setTensor (s : State) (ctx h : Nat) (t : Tensor) : State :=
  { s with tensors := s.tensors.set {} (tKey ctx h) t }

/-- The address of the committed buffer of a PLAIN or SINGLE tensor. -/
def Tensor.curBuf (t : Tensor) : Nat := if t.kind = .plain ∧ t.cur = 1 then t.buf1 else t.buf0

/-- The address of the buffer a PLAIN pending version is written to (R143). -/
def Tensor.pendBuf (t : Tensor) : Nat := if t.cur = 1 then t.buf0 else t.buf1

/-! ## Queues -/

def qKey (ctx q : Nat) : Nat := ctx * 512 + q

def State.queue (s : State) (gq : Nat) : Queue := s.queues.get {} gq

def State.setQueue (s : State) (gq : Nat) (q : Queue) : State := { s with queues := s.queues.set {} gq q }

/-- The context of a queue number. -/
def gqCtx (gq : Nat) : Nat := gq / 512

/-- Attempts of a queue, oldest first. -/
def State.flightsOf (s : State) (gq : Nat) : List Flight := s.flights.filter (·.gq = gq)

/-- Replace the attempt of one command. -/
def State.setFlight (s : State) (f : Flight) : State :=
  { s with flights := s.flights.map fun g => if g.gq = f.gq ∧ g.slot = f.slot then f else g }

def State.dropFlight (s : State) (f : Flight) : State :=
  { s with flights := s.flights.filter fun g => ¬ (g.gq = f.gq ∧ g.slot = f.slot) }

/-! ## Display heads (R50, R436) -/

def State.plan (s : State) (h : Nat) : HeadPlan := s.img.heads.get {} h

def State.head (s : State) (h : Nat) : Head := s.heads.get {} h

def State.setHead (s : State) (h : Nat) (x : Head) : State := { s with heads := s.heads.set {} h x }

/-! ## Tephra cores (R304, R317) -/

/-- Core numbers: Fumarole c is c, sequencer i of CEe is 12 + 16e + i, shader core j is 108 + j. -/
def seqCore (e i : Nat) : Nat := 12 + 16 * e + i
def shaderCore (j : Nat) : Nat := 108 + j

def State.core (s : State) (id : Nat) : Core := s.cores.get {} id

def State.setCore (s : State) (id : Nat) (c : Core) : State := { s with cores := s.cores.set {} id c }

/-- A core begins a program: its registers, predicates, FFLAGS and loops are cleared, and MODE is the
start mode (R304, R317). The exception registers keep their values. -/
def Core.begin (c : Core) (pc mode : Nat) : Core :=
  { epc := c.epc, ecause := c.ecause, eflags := c.eflags, ebt := c.ebt, eva := c.eva, emode := c.emode
    epmode := c.epmode, evec := c.evec, pc := pc, mode := mode }

/-- A core of Kerold firmware begins. Where its program stands is not given, nor what a Fumarole's
local memory and a slot's control store hold: free values. [DESIGN CHOICE: log 129] -/
def State.startFirmware (s : State) (id : Nat) (locFree : Bool) : State :=
  let n := s.fresh
  let c := (s.core id).begin (Config.freeNat n 317 % 2 ^ 29 * 8) 8
  ({ s with fresh := n + 2 } : State).setCore id
    { c with locSeed := if locFree then n + 1 else 0, ctlSeed := n + 1 }

/-- Slot counts run modulo 2^32. -/
def m32 (x : Nat) : Nat := x % 2 ^ 32

/-- `a - b` modulo 2^32. -/
def sub32 (a b : Nat) : Nat := (a + 2 ^ 32 - b % 2 ^ 32) % 2 ^ 32

end Sys2Proof.Machine
end

