-- ==== Sys2Proof/Machine/QueueOps.lean ====
section
/-! DEFINITION. What every command from a queue shares: fetching and validating its descriptor,
deciding whether it can start, binding inputs and acquiring outputs, ending, committing, killing,
writing completion records, stalling and accounting (R131-R162, R182-R184). -/

namespace Sys2Proof.Machine

/-! ## Descriptors (R136-R139) -/

def d8 (d : List Byte) (o : Nat) : Nat := (d.getD o 0).toNat
def d16 (d : List Byte) (o : Nat) : Nat := d8 d o + d8 d (o + 1) * 256
def d32 (d : List Byte) (o : Nat) : Nat := d16 d o + d16 d (o + 2) * 65536
def d48 (d : List Byte) (o : Nat) : Nat := d32 d o + d16 d (o + 4) * 2 ^ 32
def d64 (d : List Byte) (o : Nat) : Nat := d32 d o + d32 d (o + 4) * 2 ^ 32

/-- Bytes `[lo, hi)` are all 0. -/
def dZero (d : List Byte) (lo hi : Nat) : Bool := ((d.drop lo).take (hi - lo)).all (· == 0)

def dOp (d : List Byte) : Nat := d8 d 0
def dInPlace (d : List Byte) : Bool := bit (d8 d 1) 0
def dOverlap (d : List Byte) : Bool := bit (d8 d 1) 1
def dIrq (d : List Byte) : Bool := bit (d8 d 1) 2
def dDefer (d : List Byte) : Bool := bit (d8 d 1) 3
def dExt (d : List Byte) : Nat := d8 d 2
def dTag (d : List Byte) : Nat := d32 d 4
def dModel (d : List Byte) : Nat := d32 d 12

/-- What R139's table says of a command type: PF0 only, least and most EXT, IN_PLACE and DEFER allowed. -/
structure OpInfo where
  pf0Only : Bool := false
  extMin : Nat := 0
  extMax : Nat := 0
  inPlace : Bool := false
  defer_ : Bool := false
deriving DecidableEq, Repr

/-- R139. -/
def opInfo (op : Nat) : Option OpInfo :=
  match op with
  | 0x00 => some {}
  | 0x01 => some { inPlace := true, defer_ := true }
  | 0x02 | 0x03 | 0x04 | 0x05 | 0x06 | 0x07 => some {}
  | 0x10 | 0x11 => some { extMax := 3, inPlace := true, defer_ := true }
  | 0x18 => some { extMin := 1, extMax := 3, inPlace := true, defer_ := true }
  | 0x19 | 0x1A | 0x1B | 0x1C | 0x1D => some { extMax := 3, inPlace := true, defer_ := true }
  | 0x20 => some { extMin := 1, extMax := 3, defer_ := true }
  | 0x21 | 0x22 | 0x23 | 0x24 | 0x25 => some { extMax := 1 }
  | 0x28 => some { extMax := 1, defer_ := true }
  | 0x30 => some { extMin := 1, extMax := 3, defer_ := true }
  | 0x38 | 0x39 => some { pf0Only := true }
  | 0x3C | 0x3D | 0x3E | 0x3F => some { pf0Only := true }
  | _ => none

/-- R138, R139: the header is valid for its issuer. COMPOSE is for M0 only. -/
def headerOk (gq : Nat) (d : List Byte) : Bool :=
  match opInfo (dOp d) with
  | none => false
  | some i =>
    d8 d 3 == 0 && d32 d 8 == 0 && d8 d 1 / 16 == 0 && decide (i.extMin ≤ dExt d) && decide (dExt d ≤ i.extMax) &&
      !(dInPlace d && dDefer d) && (i.inPlace || !dInPlace d) && (i.defer_ || !dDefer d) &&
      (!i.pf0Only || gqCtx gq == pf0) && (dOp d != 0x39 || gq == qKey pf0 0)

/-- A handle field holds no bits above [19:0] (R138). -/
def handleOk (h : Nat) : Bool := decide (h < 2 ^ 20)

/-- The address of slot count `k` of a submission ring (R136). -/
def slotVA (q : Queue) (k : Nat) : Nat := q.sqVA + k % 2 ^ q.sqLog * 64

/-- The compositor queue M0. FC10 alone writes its ring, whose place in partition 63 is not given: its
descriptors stand in `State.eqx.m0` (R132, R416). -/
def qM0 : Nat := qKey pf0 0

/-- Read the descriptor at slot count `k`: the header slot gives EXT, and every slot must be covered
by SQ_TAIL (R138). `none` when it is not covered; a fault when the ring cannot be read. -/
def State.fetchDesc (s : State) (gq k : Nat) : Option (Except (Nat × Nat) (List Byte)) :=
  let q := s.queue gq
  let left := sub32 q.sqTail k
  if left = 0 then none
  else if gq = qM0 then (if (s.eqx.m0.get [] k).isEmpty then none else some (.ok (s.eqx.m0.get [] k)))
  else match s.ldBytes (gqCtx gq) (slotVA q k) 64 with
  | .error e => some (.error e)
  | .ok h =>
    let n := 1 + (if dExt h ≤ 3 then dExt h else 0)
    if left < n then none
    else if n = 1 then some (.ok h)
    else
      some ((List.range (n - 1)).foldl (fun acc i => match acc with
        | .error e => .error e
        | .ok bs => match s.ldBytes (gqCtx gq) (slotVA q (k + 1 + i)) 64 with
          | .error e => .error e
          | .ok b => .ok (bs ++ b)) (.ok h))

/-- Slots a descriptor occupies. -/
def slotsOf (d : List Byte) : Nat := max 1 (d.length / 64)

/-! ## What may start (R142, R155) -/

/-- The completion ring has room for one more record (R155). -/
def Queue.cqRoom (q : Queue) : Bool := decide (sub32 q.cqTail q.cqHead < 2 ^ q.cqLog)

/-- The ring lies in host memory that the context cannot reach now (R118). -/
def State.ringHeld (s : State) (ctx va : Nat) : Bool :=
  match s.translate ctx va .r with
  | .ok pa => pa / 2 ^ 45 % 2 == 1 && !(s.reachable ctx)
  | .error _ => false

/-- A candidate to start: its slot count, its descriptor, and its earlier attempt if it was killed. -/
structure Cand where
  slot : Nat
  desc : List Byte
  prior : Option Flight
deriving DecidableEq, Repr

/-- The candidate already stands in a Caldera's slots. -/
def Cand.placed (c : Cand) : Bool :=
  match c.prior with
  | some f => f.phase == .placed
  | none => false

/-- The first command of a queue that is not started, with its descriptor or the fetch's fault. -/
def State.candidate (s : State) (gq : Nat) : Option (Except (Nat × Nat × Nat) Cand) :=
  let q := s.queue gq
  if q.st ≠ .active ∨ s.rd .PWR_STATUS_STATE ≠ 1 ∨ ¬ s.ready ∨ s.img.draining.contains (s.partOf (gqCtx gq)) ∨
      (gqCtx gq ≠ pf0 ∧ s.rd .VF_STATUS_STATE (gqCtx gq) = 2) ∨ s.brg.resetting.contains (s.partOf (gqCtx gq)) then none
  else match (s.flightsOf gq).find? (fun f => f.phase == .waiting || f.phase == .placed) with
  | some f => if f.unreachable then none else some (.ok ⟨f.slot, f.desc, some f⟩)
  | none =>
    if s.ringHeld (gqCtx gq) (slotVA q q.sqStart) then none
    else match s.fetchDesc gq q.sqStart with
    | none => none
    | some (.error e) => some (.error (q.sqStart, e.1, e.2))
    | some (.ok d) => some (.ok ⟨q.sqStart, d, none⟩)

/-- R142, R153, R155: the candidate at slot count `k` may start, given the queue's earlier commands. -/
def State.mayStart (s : State) (gq k : Nat) (d : List Byte) : Bool :=
  let q := s.queue gq
  let earlier := (s.flightsOf gq).filter fun f => decide (sub32 f.slot q.sqNext < sub32 k q.sqNext)
  let full := !q.cqRoom && (s.flightsOf gq).any (·.phase == .ended)
  if full then false
  else match earlier.getLast? with
  | none => decide (k = q.sqNext)
  | some p =>
    dOverlap d && !dInPlace d && !dInPlace p.desc && dOp p.desc != 0x04 &&
      (p.phase == .ready || p.phase == .running || p.phase == .ended)

/-! ## Inputs and outputs (R142, R143, R162) -/

/-- What a command names: input handles, output handles, and outputs written in part (R149). -/
structure Plan where
  ins : List Nat := []
  outs : List Nat := []
  part : List Nat := []
deriving DecidableEq, Repr

/-- A handle is FREE or at or beyond TT_CAP (R162). -/
def State.handleFree (s : State) (ctx h : Nat) : Bool :=
  decide (s.rd .VF_TT_CAP_TT_CAP ctx ≤ h) || (s.tensor ctx h).kind == .free

/-- R162's cases that hold for any command; the handle that conflicts. -/
def State.conflict (s : State) (gq : Nat) (inPlace : Bool) (p : Plan) : Option Nat :=
  let ctx := gqCtx gq
  ((p.ins ++ p.outs).find? fun h => s.handleFree ctx h).or
    (p.outs.find? fun h =>
      let t := s.tensor ctx h
      (t.deferred && t.ownerQueue == gq % 512) || (!inPlace && t.kind == .single))

/-- The bindings of a handle: the inputs of commands in flight, and those DIRECT frame-ring slots keep
(R142, R408). -/
def State.readersOf (s : State) (ctx h : Nat) : List Bind :=
  (s.flights.flatMap (·.binds) ++ s.eqx.streams.flatMap fun (kv : Nat × Stream) => kv.2.ring.filterMap (·.bind)).filter
    fun b => b.ctx == ctx && b.handle == h

/-- A buffer of a handle is bound. -/
def State.boundBuf (s : State) (ctx h buf : Nat) : Bool := (s.readersOf ctx h).any (·.buf == buf)

/-- A running in-place command holds a handle (R148). -/
def State.heldInPlace (s : State) (ctx h : Nat) : Bool :=
  s.flights.any fun f => gqCtx f.gq == ctx && dInPlace f.desc && f.outs.contains h &&
    (f.phase == .ready || f.phase == .running || f.phase == .ended)

/-- R143, R148: the command can bind its inputs and acquire its outputs now. -/
def State.canAcquire (s : State) (gq : Nat) (inPlace : Bool) (p : Plan) : Bool :=
  let ctx := gqCtx gq
  !(p.ins.any fun h => s.heldInPlace ctx h) &&
    p.outs.all fun h =>
      let t := s.tensor ctx h
      !t.pending && !(s.heldInPlace ctx h) &&
        (if inPlace then
          (s.readersOf ctx h).isEmpty
         else !(t.kind == .plain && s.boundBuf ctx h (1 - t.cur)))

/-- The binding of an input to its committed version (R142). -/
def State.bindOf (s : State) (ctx h : Nat) : Bind :=
  let t := s.tensor ctx h
  ⟨ctx, h, if t.kind = .sequence then 2 ^ 47 + t.window * 2 ^ 32 else t.curBuf, t.version, t.cur⟩

/-- Acquire the outputs (R143): pending versions, owned by the command's queue and slot. -/
def State.acquire (s : State) (gq k : Nat) (inPlace : Bool) (outs : List Nat) : State :=
  if inPlace then s
  else
    let ctx := gqCtx gq
    s.each outs fun s h =>
      s.setTensor ctx h { s.tensor ctx h with
        pending := true, deferred := false, ownerQueue := gq % 512
        ownerSlot := k % 2 ^ (s.queue gq).sqLog }

/-- Where a command writes an output: the pending buffer, or in place the committed one (R143, R148). -/
def State.outVA (s : State) (ctx h : Nat) (inPlace : Bool) : Nat :=
  let t := s.tensor ctx h
  if inPlace || t.kind != .plain then t.curBuf else t.pendBuf

/-! ## Ending, killing and aborting (R146, R226) -/

/-- Take `n` bytes from a context's address with each byte that cannot be read as 0. -/
def State.peek (s : State) (ctx va n : Nat) : List Byte :=
  (List.range n).map fun i => match s.ldByte ctx (va + i) with | .ok b => b | .error _ => 0

/-- Free an attempt's Caldera slots; the units of its regions wait for zeroing (R222, R226). -/
def State.freeSlots (s : State) (f : Flight) : State :=
  let s := s.each f.slots fun s es =>
    let u := es.1 * 32 + es.2
    let s := s.each [Fld.CE_SLOT_STATE, .CE_SLOT_CLASS, .CE_SLOT_IN_PLACE, .CE_SLOT_N, .CE_SLOT_CONTEXT,
      .CE_SLOT_QUEUE, .CE_SLOT_SEQ, .CE_SLOT_KILLS, .CE_SLOT_RING_SLOT] fun s fl => s.resetUnit fl u
    { s with region := s.region.map fun kv =>
        if kv.1 / 512 = es.1 ∧ kv.2.slot = es.2 ∧ kv.2.st = .used then (kv.1, { kv.2 with st := .dirty }) else kv }
  s

/-- Clear PENDING on an attempt's outputs; the buffer a PLAIN attempt was writing holds undefined
bytes from here on (R146). -/
def State.abortOuts (s : State) (f : Flight) : State :=
  if dInPlace f.desc then s
  else
    let ctx := gqCtx f.gq
    s.each f.outs fun s h =>
      let t := s.tensor ctx h
      if t.pending && !t.deferred then
        let s := s.setTensor ctx h { t with pending := false, pendTokens := 0, ownerQueue := 0, ownerSlot := 0 }
        if t.kind == .plain then s.freeBytes ctx t.pendBuf t.bytes else s
      else s

/-- Add to an EMB_PERF counter; source 358 fires when it wraps (R393). -/
def State.embPerf (s : State) (i n : Nat) : State :=
  let v := s.rd .EMB_PERF_COUNT i + n
  (s.wr .EMB_PERF_COUNT i v).fireIf (decide (2 ^ 64 ≤ v)) 358

/-- Ember leaves a pass: its cores stop and its state is IDLE again (R363, R393). -/
def State.freeEmber (s : State) (f : Flight) (killed : Bool) : State :=
  if s.emb.on ∧ s.emb.gq = f.gq ∧ s.emb.slot = f.slot then
    let s : State := { s with emb := {} }
    let s := s.each (List.range 24) fun s j => s.setCore (shaderCore j) {}
    let s := if killed then s.embPerf 7 1 else s
    if s.rd .EMB_STATUS_STATE = 2 then (s.wr .EMB_STATUS_STATE 0 1).fire 352 else s
  else s

/-! ## Vision lanes and frame-ring slots that a command holds (R146, R356, R359, R406) -/

def State.lane (s : State) (l : Nat) : VisLane := s.vis.get {} l

def State.setLane (s : State) (l : Nat) (v : VisLane) : State := { s with vis := s.vis.set {} l v }

/-- VIS_STATUS.STATE changes; the source fires (R358). -/
def State.visState (s : State) (l st : Nat) : State :=
  if s.rd .VIS_STATUS_STATE l = st then s else (s.wr .VIS_STATUS_STATE l st).fire (288 + 16 * l + 6)

/-- A lane has no run in progress and no count left. -/
def State.laneEmpty (s : State) (l : Nat) : Bool :=
  s.rd .VIS_STATUS_BUSY l == 0 && s.rd .VIS_TRIG_PYR l == 0 && s.rd .VIS_TRIG_MOT l == 0 && s.rd .VIS_TRIG_REF l == 0

/-- R359: a lane takes the binding that waits for it, once its runs or its command have ended; a lane that
the host disabled is IDLE once its runs have ended (R350). -/
def State.laneSettle (s : State) (l : Nat) : State :=
  let v := s.lane l
  if v.cmd.isSome then s
  else
    let s :=
      if v.unbind && s.laneEmpty l then ((s.wr .VIS_CTRL_ENABLE l 0).setLane l { v with unbind := false }).visState l 1
      else if s.rd .VIS_STATUS_STATE l = 2 ∧ s.rd .VIS_CTRL_ENABLE l = 0 ∧ s.rd .VIS_STATUS_BUSY l = 0 then s.visState l 1
      else s
    match (s.lane l).bind with
    | some (p, q) =>
      if (s.lane l).unbind then s
      else ((s.wr .VIS_STATUS_PORT l p).wr .VIS_STATUS_PARTITION l q).setLane l { s.lane l with bind := none }
    | none => s

/-- The lane of a command is free again: its units stop and its counters are cleared (R356). -/
def State.freeLane (s : State) (f : Flight) : State :=
  match (List.range 4).find? fun l => (s.lane l).cmd == some (f.gq, f.slot) with
  | none => s
  | some l =>
    let s := s.each [Fld.VIS_STATUS_BUSY, .VIS_TRIG_PYR, .VIS_TRIG_MOT, .VIS_TRIG_REF] fun s fl => s.wr fl l 0
    ((s.wr .VIS_STATUS_STATE l 1).setLane l { s.lane l with cmd := none, done := false }).laneSettle l

def State.stream (s : State) (i : Nat) : Stream := s.eqx.streams.get {} i

def State.setStream (s : State) (i : Nat) (x : Stream) : State :=
  { s with eqx := { s.eqx with streams := s.eqx.streams.set {} i x } }

/-- A killed or failing command returns its frame-ring slot to FREE (R406). -/
def State.freeRingSlot (s : State) (f : Flight) : State :=
  if dOp f.desc = 0x38 ∨ dOp f.desc = 0x39 then
    let i := d8 f.desc 0x10
    let x := s.stream i
    s.setStream i { x with ring := x.ring.map fun r => if r.st = .pending ∧ r.owner = (f.gq, f.slot) then {} else r }
  else s

/-- Drop the host reads of an attempt, return the frames it had charged, and let go of a sequence it
was swapping out (R297, R298). -/
def State.dropReqs (s : State) (f : Flight) : State :=
  let s := ((s.freeEmber f true).freeLane f).freeRingSlot f
  let s : State := { s with reqs := s.reqs.filter fun r => ¬ (r.gq = f.gq ∧ r.slot = f.slot) }
  let s := s.each f.frames fun s n => (s.releaseFrames n 1).charge (gqCtx f.gq) (-1)
  if dOp f.desc = 0x24 ∧ f.phase = .running then
    let k := tKey (gqCtx f.gq) (d32 f.desc 0x10)
    { s with seqs := s.seqs.set {} k { s.seqs.get {} k with marked := false } }
  else s

/-- Release the tails a queue holds (R273). -/
def State.releaseTails (s : State) (gq : Nat) : State :=
  s.each ((s.seqs.filter fun (kv : Nat × Seq) => match kv.2.tail with | some t => t.1 == gq | none => false).map (·.1))
    fun s k => { s with seqs := s.seqs.set {} k { s.seqs.get {} k with tail := none } }

/-- An attempt that can be killed: not in place, and not ended with a deferred version (R146-R148). -/
def Flight.killable (f : Flight) : Bool := !dInPlace f.desc

/-- Kill an attempt: it goes back to its place in its queue and runs again (R146, R173). -/
def State.kill (s : State) (f : Flight) : State :=
  let s := (s.abortOuts f).freeSlots f |>.dropReqs f
  s.setFlight { f with
    phase := .waiting, binds := [], outs := [], res := {}, slots := [], unit := 0, usage := {}
    kills := f.kills + 1, ready := s.gcnt, until_ := 0, bound := false, frames := [], need := 0, grow := [] }

/-- Kill a running attempt's slot: PREEMPT_KILLS and the kill counter of each Caldera advance (R173). -/
def State.preempt (s : State) (f : Flight) (strike : Bool) : State :=
  let s := s.each f.slots fun s es =>
    (s.inc .SCH_CE_STATUS_PREEMPT_KILLS es.1).wr .CE_PERF_COUNT (es.1 * 8 + 7)
      (s.rd .CE_PERF_COUNT (es.1 * 8 + 7) + 1)
  s.kill { f with struck := if strike then f.struck + 1 else f.struck }

/-- An attempt ends with a failing status: not in place it is aborted first (R146). -/
def State.failFlight (s : State) (f : Flight) (status addr : Nat) : State :=
  let s := ((s.freeEmber f false).abortOuts f).dropReqs f
  s.setFlight { f with
    phase := .ended, binds := if dInPlace f.desc then f.binds else []
    outs := if dInPlace f.desc then f.outs else []
    frames := [], res := { f.res with status := status, addr := addr }, endG := s.gcnt }

/-- A status that stalls the queue (R156). -/
def failing (st : Nat) : Bool := !(st == 0 || st == 1 || st == 5)

/-! ## Accounting (R182-R184) -/

/-- Coefficients of R184's table in 0.01 pJ, in its order. -/
def State.coeff (s : State) (i : Nat) : Nat :=
  if s.rd .SYS_ID_PART = 0x6480 then [12, 7, 35, 100, 120, 15000, 2400, 4000, 250000].getD i 0
  else Config.energyCoeff (s.rd .SYS_ID_PART) i

/-- Energy of an attempt in 0.01 pJ before K (R184). [DEDUCED: log 93] -/
def State.energyOf (s : State) (u : Usage) : Nat :=
  u.mac8 * s.coeff 0 + u.mac4 * s.coeff 1 + u.mac16 * s.coeff 2 + u.vecOps * s.coeff 3 +
    u.shaderOps * s.coeff 4 + u.vision * s.coeff 5 + (u.hbmRead + u.hbmWrite) * s.coeff 6 +
    u.pcie * s.coeff 7 + (u.array + u.vector) * s.coeff 8

def acctKey (ctx i : Nat) : Nat := ctx * 8 + i

def State.addAcct (s : State) (ctx i n : Nat) : State :=
  { s with acct := s.acct.set 0 (acctKey ctx i) ((s.acct.get 0 (acctKey ctx i) + n) % 2 ^ 64) }

/-- R183: the counts of one attempt are added in one cycle; an armed threshold that is reached fires
once. -/
def State.chargeUse (s : State) (ctx : Nat) (u : Usage) : State :=
  let e := s.energyOf u * s.energyK + s.frac.get 0 ctx
  let s : State := { s with frac := s.frac.set 0 ctx (e % 10 ^ 12) }
  let s := ((((s.addAcct ctx 0 u.array).addAcct ctx 1 u.vector).addAcct ctx 2 u.vision).addAcct ctx 3 u.ember)
  let s := ((((s.addAcct ctx 4 u.hbmRead).addAcct ctx 5 u.hbmWrite).addAcct ctx 6 u.pcie).addAcct ctx 7 (e / 10 ^ 12))
  if ctx < 512 ∧ s.rd .SCH_ACCT_THRESH_ENABLE ctx = 1 ∧
      s.rd .SCH_ACCT_THRESH_LIMIT ctx ≤ s.acct.get 0 (acctKey ctx (s.rd .SCH_ACCT_THRESH_COUNTER ctx)) then
    (s.wr .SCH_ACCT_THRESH_ENABLE ctx 0).fire (ctxSrc ctx 5)
  else s

/-! ## Records (R144, R147, R154-R160) -/

/-- Commit one handle (R144). -/
def commitTensor (t : Tensor) : Tensor :=
  match t.kind with
  | .plain => { t with cur := 1 - t.cur, pending := false, deferred := false, version := m32 (t.version + 1)
                       ownerQueue := 0, ownerSlot := 0 }
  | .sequence => { t with length := t.length + t.pendTokens, pendTokens := 0, pending := false, deferred := false
                          version := m32 (t.version + 1), ownerQueue := 0, ownerSlot := 0 }
  | _ => t

/-- Abort one handle's pending version (R146, R147). -/
def abortTensor (t : Tensor) : Tensor :=
  { t with pending := false, deferred := false, pendTokens := 0, ownerQueue := 0, ownerSlot := 0 }

/-- What the end of a command does to its outputs when its record is written: commit, defer, or for
an in-place command a new version number whatever the status (R144, R147, R148). -/
def State.commitOuts (s : State) (f : Flight) : State :=
  let ctx := gqCtx f.gq
  s.each f.outs fun s h =>
    let t := s.tensor ctx h
    if dInPlace f.desc then s.setTensor ctx h { t with version := m32 (t.version + 1) }
    else if f.res.status ≠ 0 then s
    else if dDefer f.desc then s.setTensor ctx h { t with deferred := true }
    else s.setTensor ctx h (commitTensor t)

/-- The 16 bytes of a completion record (R154). -/
def recordBytes (tag status flags slot g : Nat) : List Byte :=
  natLe 4 tag ++ natLe 1 status ++ natLe 1 flags ++ natLe 2 slot ++ natLe 8 g

/-- PHASE: 1 on the first pass through the ring, 0 on the second, and so on (R154). -/
def phaseBit (cqTail cqLog : Nat) : Nat := 1 - cqTail / 2 ^ cqLog % 2

/-- Write one record at CQ_TAIL and advance CQ_TAIL (R154). -/
def State.putRecord (s : State) (gq tag status satFlags slot g : Nat) : State :=
  let q := s.queue gq
  let bytes := recordBytes tag status (phaseBit q.cqTail q.cqLog + satFlags) (slot % 2 ^ q.sqLog) g
  let s := if gq = qM0 then s else (s.stBytes (gqCtx gq) (q.cqVA + q.cqTail % 2 ^ q.cqLog * 16) bytes 17).1
  s.setQueue gq { s.queue gq with cqTail := m32 (q.cqTail + 1) }

/-- The failure record of a context (R132's VF_FAULT): kept while VALID is set. -/
def State.noteFault (s : State) (gq status slot addr : Nat) : State :=
  let ctx := gqCtx gq
  if s.rd .VF_FAULT_VALID ctx = 1 then s
  else if status = 5 then s.wr .VF_FAULT_ADDR_ADDR ctx addr
  else if failing status then
    ((((s.wr .VF_FAULT_STATUS ctx status).wr .VF_FAULT_QUEUE ctx (gq % 512)).wr .VF_FAULT_SLOT ctx slot).wr
      .VF_FAULT_VALID ctx 1).wr .VF_FAULT_ADDR_ADDR ctx
        (if status = 2 ∨ status = 3 ∨ status = 8 ∨ status = 7 then addr else 0)
  else s

/-- Stop a queue after a failing record: later started commands are killed without records, and read
descriptors are read again after RESUME (R158). -/
def State.stallQueue (s : State) (gq : Nat) : State :=
  let s := s.each (s.flightsOf gq) fun s f => ((s.abortOuts f).freeSlots f |>.dropReqs f).dropFlight f
  (s.releaseTails gq).setQueue gq { s.queue gq with st := .stalled, sqStart := (s.queue gq).sqNext }

/-- The sources a record fires (R157, R84, R153, R179). -/
def State.recordFires (s : State) (gq : Nat) (d : List Byte) (st : Nat) : State :=
  let ctx := gqCtx gq
  let s := s.fireIf (dIrq d || st != 0) (ctxSrc ctx 0)
  let s := s.fireIf (st == 2 || st == 3) (ctxSrc ctx 1)
  s.fireIf (dOp d == 0x04 && (st == 0x09 || st == 0x0B)) (ctxSrc ctx 4)

/-- The next command of a queue to complete has ended, and can commit. -/
def State.commitNext (s : State) (gq : Nat) : Option Flight :=
  (s.flightsOf gq).find? fun f => f.slot == (s.queue gq).sqNext && f.phase == .ended && !f.unreachable

/-- R144, R154-R160: the next command of a queue to complete commits and its record is written, when
it has ended, is of type `op`, its record fits and the ring can be reached. `act` is the command type's own
effect at its commit; it runs before the record (R152). -/
def State.tryCommit (s : State) (gq op : Nat) (act : State → Flight → State) : State :=
  let q := s.queue gq
  match (s.commitNext gq).filter fun f => dOp f.desc == op with
  | none => s
  | some f =>
    if q.st = .disabled ∨ q.st = .stalled ∨ ¬ q.cqRoom ∨ s.ringHeld (gqCtx gq) q.cqVA then s
    else
      let st := f.res.status
      let s := s.commitOuts f
      let s := if st = 0 then act s f else s
      let s := s.putRecord gq (dTag f.desc) st f.satFlags f.slot (if st = 0 then s.gcnt else f.endG)
      let s := s.setQueue gq { s.queue gq with sqNext := m32 (q.sqNext + slotsOf f.desc) }
      let s := (s.freeSlots f).dropFlight f
      let s := s.noteFault gq st (f.slot % 2 ^ q.sqLog) f.res.addr
      let s := s.chargeUse (gqCtx gq) f.usage
      let s := s.recordFires gq f.desc st
      let s := if failing st then s.releaseTails gq else s
      if failing st && !(s.queue gq).cont && (s.queue gq).st == .active then s.stallQueue gq else s

/-- No effect of a command's own at its commit. -/
def noAct (s : State) (_ : Flight) : State := s

/-! ## Starting a command -/

/-- Take a candidate out of the ring: its attempt is listed, and the queue's start pointer moves. -/
def State.enter (s : State) (gq : Nat) (c : Cand) (f : Flight) : State :=
  match c.prior with
  | some _ => s.setFlight f
  | none =>
    let s : State := { s with flights := s.flights ++ [f] }
    s.setQueue gq { s.queue gq with sqStart := m32 (c.slot + slotsOf c.desc) }

/-- The attempt of a candidate, new or again. -/
def candFlight (s : State) (gq : Nat) (c : Cand) : Flight :=
  match c.prior with
  | some f => { f with start := s.gcnt }
  | none => { gq := gq, slot := c.slot, desc := c.desc, phase := .running, start := s.gcnt, ready := s.gcnt }

/-- A candidate ends at once with a status, and its record is written if it is due. -/
def State.endNow (s : State) (gq : Nat) (c : Cand) (st addr : Nat) (act : State → Flight → State) : State :=
  let f := candFlight s gq c
  let s := s.enter gq c { f with phase := .ended, res := { status := st, addr := addr }, endG := s.gcnt }
  s.tryCommit gq (dOp c.desc) act

/-- Pieces of a PLAIN output's committed version, copied into the pending buffer first where the
output is written in part (R149). [DEDUCED: log 74] -/
def State.carryOver (s : State) (ctx : Nat) (part : List Nat) : List Chunk :=
  part.filterMap fun h =>
    let t := s.tensor ctx h
    if t.kind = .plain then some ⟨t.pendBuf, s.peek ctx t.curBuf t.bytes⟩ else none

/-- The host reads an attempt waits for: one per bound input that lies in host memory (R108). -/
def State.issueReads (s : State) (f : Flight) : State :=
  s.each f.binds fun s b =>
    match s.translate b.ctx b.va .r with
    | .ok pa =>
      if pa / 2 ^ 45 % 2 = 1 then
        { s with
          reqs := s.reqs ++ [⟨s.reqNext, b.ctx, s.home b.ctx, f.gq, f.slot, !(s.reachable b.ctx), s.gcnt, b.va⟩]
          reqNext := s.reqNext + 1 }
      else s
    | .error _ => s

/-- Mark the pages of the bound inputs accessed, first and last byte (R84). -/
def State.touchBinds (s : State) (f : Flight) : State :=
  s.each f.binds fun s b => s.touch b.ctx b.va false

/-- A seen queue fault: the descriptor itself cannot be read, and the command fails (R84). [DEDUCED: log 63] -/
def State.fetchFault (s : State) (gq slot st addr : Nat) (act : State → Flight → State) : State :=
  s.endNow gq ⟨slot, [], none⟩ st addr act

/-- Start the next command of a queue when it is of type `op` and may start. `check` gives the plan or
the status (and the handle) of a body that fails validation or conflicts; `blocked` says that its unit cannot take it now; `go`
computes the attempt from the state in which it starts, and `fin` follows a start. -/
def State.startCmd (s : State) (gq op : Nat) (act : State → Flight → State)
    (check : State → List Byte → Except (Nat × Nat) Plan)
    (blocked : State → List Byte → Bool)
    (go : State → Flight → Plan → State × Flight) (fin : State → State := id) : State :=
  match s.candidate gq with
  | none => s
  | some (.error (slot, st, addr)) => if s.mayStart gq slot [] then s.fetchFault gq slot st addr act else s
  | some (.ok c) =>
    if dOp c.desc ≠ op ∨ ¬ s.mayStart gq c.slot c.desc ∨ c.placed then s
    else if !(headerOk gq c.desc) then s.endNow gq c 6 0 act
    else match check s c.desc with
    | .error e => s.endNow gq c e.1 e.2 act
    | .ok p =>
      let ip := dInPlace c.desc
      match s.conflict gq ip p with
      | some h => s.endNow gq c 5 h act
      | none =>
        if ¬ s.canAcquire gq ip p ∨ blocked s c.desc then s
        else
          let f := { candFlight s gq c with
            phase := .running, binds := p.ins.map (s.bindOf (gqCtx gq)), outs := p.outs }
          let s := s.acquire gq c.slot ip p.outs
          let r := go s f p
          let s := (r.1.enter gq c r.2).issueReads r.2
          fin (s.touchBinds r.2)

/-- Body that is neither blocked nor computed further: the attempt ends at its start. -/
def notBlocked (_ : State) (_ : List Byte) : Bool := false

/-- A command with no work of its own ends OK at its start, and commits if it is due. -/
def State.startShort (s : State) (gq op : Nat) (act : State → Flight → State)
    (check : State → List Byte → Except (Nat × Nat) Plan) : State :=
  s.startCmd gq op act check notBlocked (fun s f _ => (s, { f with phase := .ended, endG := s.gcnt }))
    fun s => s.tryCommit gq op act

/-- The attempt of a queue in a given phase that started first. -/
def State.flightIn (s : State) (gq : Nat) (g : Flight → Bool) : Option Flight := (s.flightsOf gq).find? g

/-- An opcode that bears on no queue of the model's Calderas runs on a copy channel, a lane or Ember. -/
def State.unitBusy (s : State) (op n : Nat) : Bool :=
  s.flights.any fun f => dOp f.desc == op && f.unit == n + 1 && (f.phase == .running)

/-- The lowest free unit of `n` for an opcode (R172). -/
def State.freeUnit (s : State) (op n : Nat) : Option Nat := (List.range n).find? fun i => !(s.unitBusy op i)

/-- R172: the killable command of lowest class on the units of an opcode, newest start first, that a
class-0 or class-1 command may displace. -/
def State.unitVictim (s : State) (op cls : Nat) : Option Flight :=
  if 1 < cls then none
  else
    (sortBy (s.flights.filter fun f => dOp f.desc == op && f.unit != 0 && f.phase == .running && f.killable &&
      decide (cls < (s.queue f.gq).cls)) fun a b =>
        decide ((s.queue b.gq).cls < (s.queue a.gq).cls) ||
          ((s.queue b.gq).cls == (s.queue a.gq).cls && decide (b.start ≤ a.start))).head?

end Sys2Proof.Machine
end

