-- ==== Sys2Proof/Machine/Jobs.lean ====
section
/-! DEFINITION. What the operator commands share: operands as rows in tensors, reading them through a
context, packing results, narrowing operands on the way in, the reduction of R199 and the output
narrowing of R203. -/

namespace Sys2Proof.Machine

/-! ## Operands in memory -/

/-- Rows of an operand in the bound version of a tensor: `planes` planes of `rows` rows. `need` is what
a body rule asks the tensor to hold. -/
structure Rect where
  handle : Nat
  off : Nat := 0
  planes : Nat := 1
  planePitch : Nat := 0
  rows : Nat
  pitch : Nat := 0
  bytes : Nat
  need : Nat := 0
deriving DecidableEq, Repr

/-- The bytes a rectangle needs from the start of its tensor. -/
def Rect.extent (r : Rect) : Nat :=
  if r.planes = 0 ∨ r.rows = 0 ∨ r.bytes = 0 then r.need
  else max r.need (r.off + (r.planes - 1) * r.planePitch + (r.rows - 1) * r.pitch + r.bytes)

/-- The addresses of the rows, in plane and row order. -/
def Rect.rowVAs (r : Rect) (base : Nat) : List Nat :=
  (List.range r.planes).flatMap fun p => (List.range r.rows).map fun y => base + r.off + p * r.planePitch + y * r.pitch

/-- Bytes of a row of `n` elements of a format, padded as R191 says. -/
def rowBytes (code n : Nat) : Nat :=
  match fmtBits code with
  | 4 => (n + 1) / 2
  | 6 => (n + 3) / 4 * 3
  | w => n * w / 8

/-- Element `i` of a row held as a little-endian number (R191). -/
def rowElem (code row i : Nat) : Nat := row / 2 ^ (i * fmtBits code) % 2 ^ fmtBits code

/-- The bytes of a row of encodings; padding elements are 0 (R191). -/
def packRow (code : Nat) (els : List Nat) : List Byte :=
  natLe (rowBytes code els.length)
    (els.foldr (fun x acc => acc * 2 ^ fmtBits code + x % 2 ^ fmtBits code) 0)

/-- Read every row of a rectangle through a context. -/
def State.loadRows (s : State) (ctx n : Nat) : List Nat → Except (Nat × Nat) (List Nat)
  | [] => .ok []
  | va :: vas => match s.ldBytes ctx va n with
    | .error e => .error e
    | .ok bs => match s.loadRows ctx n vas with
      | .error e => .error e
      | .ok rs => .ok (leNat bs :: rs)

/-- Mark the pages of the rows read as accessed (R84). -/
def State.touchRows (s : State) (ctx n : Nat) (vas : List Nat) : State :=
  s.each vas fun s va =>
    s.each (List.range ((va + n - 1) / 4096 - va / 4096 + 1)) fun s i => s.touch ctx (va / 4096 * 4096 + i * 4096) false

/-- Bytes a command writes into an output: the output's position in its list, the byte offset. -/
structure OutRun where
  out : Nat
  off : Nat
  data : List Byte
deriving DecidableEq, Repr

/-- What an operator computes. -/
structure JobOut where
  status : Nat := 0
  runs : List OutRun := []
  satOperand : Nat := 0
  satOutput : Nat := 0
  codecBad : Nat := 0
deriving DecidableEq, Repr

/-- A validated operator command: operands, outputs with the bytes they must hold, resources, and the
computation from the rows read, for the narrowing format of the attempt. -/
structure Job where
  ins : List Rect := []
  outs : List (Nat × Nat) := []      -- handle, bytes needed
  sram : Nat := 0
  parts : Nat := 1
  lb : Nat := 0
  sinter : Nat := 0
  fmtN : Nat := 0xF
  run : Nat → Array (Array Nat) → JobOut

/-- Every operand lies inside its tensor (R230). -/
def Job.inside (s : State) (ctx : Nat) (j : Job) : Bool :=
  (j.ins.all fun r => decide (r.extent ≤ (s.tensor ctx r.handle).bytes)) &&
    j.outs.all fun o => decide (o.2 ≤ (s.tensor ctx o.1).bytes)

/-- The handles a job binds and acquires. -/
def Job.plan (j : Job) : Plan :=
  { ins := ((j.ins.filter (·.rows ≠ 0)).map (·.handle)).eraseDups, outs := (j.outs.map (·.1)).eraseDups }

/-- An operand that a flag calls for; one that is not called for has no rows, and its handle must be 0. -/
def optRect (present : Bool) (r : Rect) : Rect := if present then r else { handle := 0, rows := 0, bytes := 0 }

/-- A handle field is legal: in range when it is called for, else 0. -/
def optHandle (present : Bool) (h : Nat) : Bool := if present then handleOk h else h == 0

/-- Read every operand, run the computation, and give the attempt's outcome. -/
def State.runJob (s : State) (ctx : Nat) (ip : Bool) (n : Nat) (j : Job) : State × RunOut :=
  let base := fun (r : Rect) => (s.tensor ctx r.handle).curBuf
  match j.ins.foldl (fun (acc : Except (Nat × Nat) (Array (Array Nat))) (r : Rect) =>
      match acc with
      | .error e => .error e
      | .ok a => match s.loadRows ctx r.bytes (r.rowVAs (base r)) with
        | .error e => .error e
        | .ok rs => .ok (a.push rs.toArray)) (.ok #[]) with
  | .error e => (s.detect ctx e.2, { status := e.1, addr := e.2 })
  | .ok a =>
    let o := j.run n a
    let hs := j.outs.map (·.1)
    let s' := s.each j.ins fun s r => s.touchRows ctx r.bytes (r.rowVAs (base r))
    (s', { status := o.status
           writes := o.runs.map fun (r : OutRun) => ⟨s.outVA ctx (hs.getD r.out 0) ip + r.off, r.data⟩
           satOperand := o.satOperand, satOutput := o.satOutput, codecBad := o.codecBad })

/-! ## Compute classes (R196, R207) -/

/-- Compute classes: 0 INT4, 1 INT8, 2 FP4, 3 FP8, 4 F16. -/
def classOf (n : Nat) : Option Nat :=
  match n with
  | 0 => some 0
  | 1 | 2 => some 1
  | 3 => some 2
  | 4 | 5 | 6 | 7 => some 3
  | 8 | 9 => some 4
  | _ => none

/-- Stored formats a class takes in unchanged. -/
def accepted (cls code : Nat) : Bool :=
  match cls with
  | 0 => code == 0
  | 1 => decide (code ≤ 2)
  | 2 => code == 3
  | 3 => decide (3 ≤ code) && decide (code ≤ 7)
  | _ => decide (code ≤ 9)

/-- A stored format is narrowed into N on the fly. -/
def narrowed (n code : Nat) : Bool :=
  match classOf n with
  | none => false
  | some c => !(accepted c code) && !(fmtInt code) && decide (fmtBits n < fmtBits code)

/-- A stored format is legal under N (R196). -/
def storedOk (n code : Nat) : Bool :=
  fmtOk code && match classOf n with | none => false | some c => accepted c code || narrowed n code

/-- N's class is an integer class. -/
def intClass (n : Nat) : Bool := match classOf n with | some 0 | some 1 => true | _ => false

/-- R207. -/
def successor (n : Nat) : Option Nat :=
  match n with
  | 0 => some 1
  | 1 | 2 => some 8
  | 3 | 4 | 5 => some 6
  | 6 | 7 => some 9
  | _ => none

/-- Columns of a weight tile (R214). -/
def tileCols (n : Nat) : Nat := if classOf n = some 4 then 32 else 128

/-- An operand element as it enters the arrays (R196, R197, R208): its value and whether narrowing it
saturated. `declared` is the body's N, `n` the attempt's; an operand that the declared N narrows is
narrowed into the N of every attempt. [DEDUCED: log 99] [DEDUCED: log 100] -/
def enter (declared n code b : Nat) (sc : Val) (z : Int) : Val × Bool :=
  let folded := intClass declared && !(intClass n)
  let z' := if folded then 0 else z
  if narrowed declared code then
    let r := narrow n ((decElem code b).div sc) z'
    (decElem n r.1, r.2)
  else if folded && fmtInt code then ((decElem code b).sub (.ofInt z), false)
  else (decElem code b, false)

/-! ## The reduction of R199 -/

/-- The zero-point terms of one output element. -/
structure ZTerm where
  za : Int := 0
  zw : Int := 0
  sumw : Nat → Int := fun _ => 0
  cnt : Nat → Nat := fun _ => 0

/-- The exact sum of the products of `[lo, hi)`. -/
def exactDot (a w : Nat → Val) (lo hi : Nat) : Val :=
  (List.range (hi - lo)).foldl (fun acc i => acc.add ((a (lo + i)).mul (w (lo + i)))) .zero

/-- The exact sum of the activations of `[lo, hi)`. -/
def exactSum (a : Nat → Val) (lo hi : Nat) : Int :=
  (List.range (hi - lo)).foldl (fun acc i => acc + ((a (lo + i)).trunc.getD 0)) 0

/-- One group's term of R199 in an integer class. -/
def intGroup (z : ZTerm) (a w : Nat → Val) (g lo hi : Nat) : SVal :=
  let p := (exactDot a w lo hi).trunc.getD 0
  let p := p - z.zw * exactSum a lo hi - z.za * z.sumw g + (z.cnt g : Int) * z.za * z.zw
  .fp (.ofInt p) false

/-- One group's term of R199 in a float class: segments of 32 rows. -/
def floatGroup (a w : Nat → Val) (lo hi : Nat) : SVal :=
  (List.range (ceilDiv (hi - lo) 32)).foldl (fun f i =>
    f.add (.fp (exactDot a w (lo + 32 * i) (min hi (lo + 32 * i + 32))) false)) (.of .zero)

/-- R199 over `[k0, k1)`, groups of G from 0; `c` is the combined scale of a group. -/
def r199 (isInt : Bool) (G k0 k1 : Nat) (a w : Nat → Val) (c : Nat → Val) (z : ZTerm) : SVal :=
  (List.range (ceilDiv k1 G - k0 / G)).foldl (fun acc i =>
    let g := k0 / G + i
    let lo := max k0 (g * G)
    let hi := min k1 (g * G + G)
    let f := if isInt then intGroup z a w g lo hi else floatGroup a w lo hi
    acc.add (.fp (f.v.mul (c g)) f.sat)) (.of .zero)

/-- `P` ranges of `n` things, the lower ranges one longer (R218). -/
def splitRange (n P i : Nat) : Nat × Nat :=
  let q := n / P
  let r := n % P
  (i * q + min i r, (i + 1) * q + min (i + 1) r)

/-- R199 with a reduction split: the parts are added in ascending order (R199, R218). -/
def r199Split (isInt : Bool) (G K P : Nat) (a w : Nat → Val) (c : Nat → Val) (z : ZTerm) : SVal :=
  match (List.range P).map (fun i =>
      let r := splitRange (ceilDiv K 128) P i
      r199 isInt G (r.1 * 128) (min K (r.2 * 128)) a w c z) with
  | [] => .of .zero
  | x :: xs => xs.foldl SVal.add x

/-! ## Output narrowing (R203) -/

/-- Narrow an FP32 result with a factor and a zero point: the encoding and whether it saturated on
its path or here. -/
def quantise (code : Nat) (y : SVal) (r : Val) (zo : Int) : Nat × Bool :=
  let q := narrow code (y.v.mul r) zo
  (q.1, q.2 || y.sat)

/-- A row of narrowed results as bytes, and how many saturated. -/
def quantRow (code : Nat) (els : List (Nat × Bool)) : List Byte × Nat :=
  (packRow code (els.map (·.1)), (els.filter (·.2)).length)

/-- Rows written at a pitch, with the saturations of all. -/
def writeRows (out off pitch : Nat) (rows : List (List Byte × Nat)) : List OutRun × Nat :=
  ((rows.zipIdx).map fun ri => ⟨out, off + ri.2 * pitch, ri.1.1⟩, (rows.map (·.2)).foldl (· + ·) 0)

/-- A signed 16-bit and 32-bit body field. -/
def i16 (x : Nat) : Int := toSigned 16 x
def i32 (x : Nat) : Int := toSigned 32 x

/-- A pitch rule of R230: a multiple of 64, at least the row's bytes. -/
def pitchOk (pitch bytes : Nat) : Bool := pitch % 64 == 0 && decide (bytes ≤ pitch)

/-- A slot region field: 0 breaks the body; a request above 384 units exceeds every capacity (R222). [DEDUCED: log 102] -/
def sramStatus (u : Nat) : Option Nat := if u = 0 then some 6 else if 384 < u then some 7 else none

/-- First status of a list of checks, in order. -/
def firstBad (l : List (Bool × Nat)) : Option Nat := (l.find? (·.1)).map (·.2)

end Sys2Proof.Machine
end

