-- ==== Sys2Proof/Machine/Calendar.lean ====
section
/-! DEFINITION. Calendar arithmetic (R491, R492), and the health record's age (R502, R511). -/

namespace Sys2Proof.Machine

/-- R491. -/
def leapYear (y : Nat) : Bool := y % 4 == 0 && (y % 100 != 0 || y % 400 == 0)

def monthDays (y m : Nat) : Nat :=
  match m with
  | 2 => if leapYear y then 29 else 28
  | 4 | 6 | 9 | 11 => 30
  | _ => 31

/-- Days from 2000-01-01 to a date. -/
def dayNumber (y m d : Nat) : Nat :=
  let n := y - 2000
  let leaps := (n + 3) / 4 - ((n + 99) / 100 - 1) + ((n + 399) / 400 - 1)
  n * 365 + (if n = 0 then 0 else leaps) + (((List.range (m - 1)).map fun i => monthDays y (i + 1)).foldl (· + ·) 0) + (d - 1)

/-- R492: 0 for Monday; 2000-01-01 reads 5. -/
def dayOfWeek (y m d : Nat) : Nat := (dayNumber y m d + 5) % 7

/-- The fields of CAL_STAGE, in the layout of CAL_TIME. -/
structure DateTime where
  year : Nat
  month : Nat
  day : Nat
  hour : Nat
  minute : Nat
  second : Nat
deriving DecidableEq, Repr

def decDate (v : Nat) : DateTime := ⟨bits v 48 16, bits v 44 4, bits v 39 5, bits v 34 5, bits v 28 6, bits v 22 6⟩

/-- R493: the ranges of a stage. -/
def DateTime.ok (d : DateTime) : Bool :=
  decide (2000 ≤ d.year) && decide (d.year ≤ 2399) && decide (1 ≤ d.month) && decide (d.month ≤ 12) &&
    decide (1 ≤ d.day) && decide (d.day ≤ monthDays d.year d.month) && decide (d.hour ≤ 23) &&
    decide (d.minute ≤ 59) && decide (d.second ≤ 59)

def State.date (s : State) : DateTime :=
  ⟨s.rd .CAL_TIME_YEAR, s.rd .CAL_TIME_MONTH, s.rd .CAL_TIME_DAY, s.rd .CAL_TIME_HOUR,
    s.rd .CAL_TIME_MINUTE, s.rd .CAL_TIME_SECOND⟩

/-- Seconds since 2000-01-01. -/
def DateTime.seconds (d : DateTime) : Nat :=
  dayNumber d.year d.month d.day * 86400 + d.hour * 3600 + d.minute * 60 + d.second

/-- A date in the layout of CAL_TIME, without the sub-second part. -/
def DateTime.encode (d : DateTime) : Nat :=
  d.year * 2 ^ 48 + d.month * 2 ^ 44 + d.day * 2 ^ 39 + d.hour * 2 ^ 34 + d.minute * 2 ^ 28 + d.second * 2 ^ 22

/-- Calendar seconds since 2000-01-01 now. -/
def State.calSec (s : State) : Nat := s.date.seconds

/-! ## The health record in force (R502, R504) -/

/-- DIE_ID as a number. -/
def State.dieId (s : State) : Nat := s.rd .SEC_DIE_ID_DIE_ID 0 + s.rd .SEC_DIE_ID_DIE_ID 1 * 2 ^ 64

/-- The slot of the newest valid record and the record (R504). -/
def State.healthNow (s : State) : Option (Nat × Health) :=
  (s.brg.slots.zipIdx.foldl (fun (b : Option (Nat × Health)) (si : Option Health × Nat) =>
    match si.1 with
    | none => b
    | some h => match b with
      | some x => if x.2.seq < h.seq then some (si.2, h) else b
      | none => some (si.2, h)) none)

/-- HEALTH_MAX_AGE; 0 acts as 90. -/
def State.maxAge (s : State) : Nat := if s.rd .BRG_CTRL_HEALTH_MAX_AGE = 0 then 90 else s.rd .BRG_CTRL_HEALTH_MAX_AGE

/-- Seconds since a record's full test. -/
def State.fullAge (s : State) (h : Health) : Nat := s.calSec - (decDate h.fullTime).seconds

/-- R502: a record lets the device take the warm path. -/
def State.warmOk (s : State) (h : Health) : Bool :=
  h.dieId == s.dieId && h.part == s.rd .SYS_ID_PART && h.fwVersion / 65536 == s.sec.fwVersion / 65536 && !h.fullReq &&
    s.rd .CAL_STATUS_VALID == 1 && decide (s.fullAge h ≤ s.maxAge * 86400)

end Sys2Proof.Machine
end

