-- ==== Sys2Proof/Machine/Rng.lean ====
section
/-! DEFINITION. The counter-based random generator of R495. -/

namespace Sys2Proof.Machine

/-! ## The counter-based generator (R495, R496) -/

def rotl32 (x n : Nat) : Nat := (x * 2 ^ (n % 32) + x / 2 ^ (32 - n % 32)) % 2 ^ 32

def rngA : List Nat := [13, 19, 7, 26, 11, 29, 17, 5, 23, 9]
def rngB : List Nat := [21, 3, 27, 14, 30, 8, 15, 24, 6, 18]

/-- The state words of R495. -/
structure RngW where
  x0 : Nat
  x1 : Nat
  x2 : Nat
  x3 : Nat
deriving DecidableEq, Repr

/-- Round `r` of R495. -/
def rngRound (k s : Nat) (w : RngW) (r : Nat) : RngW :=
  let q := 0x5DC724A9
  let kk := (bits k (r % 2 * 32) 32 + r * q) % 2 ^ 32
  let ss := Nat.xor (bits s (r % 2 * 32) 32) (rotl32 q r)
  let x0 := (w.x0 + w.x1 + kk) % 2 ^ 32
  let x2 := (w.x2 + w.x3 + ss) % 2 ^ 32
  let x1 := Nat.xor (rotl32 w.x1 (rngA.getD r 0)) x0
  let x3 := Nat.xor (rotl32 w.x3 (rngB.getD r 0)) x2
  ⟨x0, x3, x2, x1⟩

/-- R495: 128 output bits of key, stream and 128-bit counter. -/
def rng (k s c : Nat) : Nat :=
  let w := (List.range 10).foldl (rngRound k s) ⟨bits c 0 32, bits c 32 32, bits c 64 32, bits c 96 32⟩
  (w.x0 + bits k 0 32) % 2 ^ 32 + (w.x1 + bits k 32 32) % 2 ^ 32 * 2 ^ 32 +
    (w.x2 + bits s 0 32) % 2 ^ 32 * 2 ^ 64 + (w.x3 + bits s 32 32) % 2 ^ 32 * 2 ^ 96

/-- OUT of the present inputs (R496). -/
def State.rngOut (s : State) : Nat :=
  rng (s.rd .TIM_RNG_KEY_KEY) (s.rd .TIM_RNG_STREAM_STREAM)
    (s.rd .TIM_RNG_STEP_STEP * 2 ^ 64 + s.rd .TIM_RNG_INDEX_INDEX)

end Sys2Proof.Machine
end

