-- ==== Sys2Proof/Machine/RegRead.lean ====
section
/-! DEFINITION. Reading a register: its fields' values, the fields another piece of state gives, and
the clearing of RC fields (R14, R587). -/

namespace Sys2Proof.Machine

/-- R477: a mask of a tenant's eight sources. -/
def State.tenantMask (s : State) (t : Nat) (g : State → Nat → Bool) : Nat :=
  ((List.range 8).map fun k => b2n (g s (1024 + 8 * t + k)) * 2 ^ k).foldl (· + ·) 0

/-- R557: every Caldera, vision lane and Ember is gated. -/
def State.enginesIdle (s : State) : Bool :=
  (s.unitsOf .CE_SLOT_STATE).isEmpty && (s.unitsOf .VIS_STATUS_BUSY).isEmpty &&
    ((List.range 4).all fun l => s.rd .VIS_STATUS_STATE l ≠ 3) && s.rd .EMB_STATUS_STATE != 2

/-- The line a head is on (R436, R447): lines that the frame lock inserts have no number of their own. [DESIGN CHOICE: log 195] -/
def State.lineNow (s : State) (h : Nat) : Nat :=
  let x := s.head h
  let p := s.plan h
  let n := (s.gcnt - x.lineG) * p.pixclk / (p.hTotal * 100000)
  if !x.on then 0
  else if x.line < p.vActive then min (x.line + n) (p.vActive - 1)
  else if x.line ≠ p.vActive ∨ n = 0 then min (x.line + n) (p.vTotal - 1)
  else if (n : Int) ≤ x.d then Config.freeNat n 447 % 65536
  else min ((p.vActive : Int) + n - x.d).toNat (p.vTotal - 1)

/-- The queue a context's selector names; PF0's is read as M0-M63 (R132). -/
def State.selQueue (s : State) (ctx : Nat) : Nat :=
  qKey ctx (if ctx = pf0 then s.rd .VF_QSEL_QUEUE ctx % 64 else s.rd .VF_QSEL_QUEUE ctx)

/-- The value a read of a field returns. Fields that report other state are computed from it. [DESIGN CHOICE: log 219] -/
def State.fieldVal (s : State) (f : Fld) (u : Nat) : Nat :=
  match f with
  | .GEY_TGT_RUNNING => (s.running u).getD 16
  | .TIM_RNG_OUT_LO_OUT => s.rngOut % 2 ^ 64
  | .TIM_RNG_OUT_HI_OUT => s.t.outHi.getD (rng 0 0 0 / 2 ^ 64)
  | .GEY_TGT_SUM_WORDS =>
    ((List.range 64).map fun j => b2n ((bitsOf (s.rd .GEY_PEND_PEND (u % 2 * 64 + j)) 64).any fun i =>
      let src := (u % 2 * 64 + j) * 64 + i
      s.rd .GEY_SRC_ENABLE src = 1 ∧ s.rd .GEY_SRC_TARGET src = u / 2) * 2 ^ j).foldl (· + ·) 0
  | .VF_GEY_PEND_PEND => s.tenantMask u fun s src => s.pend src
  | .VF_GEY_SET_PEND => s.tenantMask u fun s src => s.pend src
  | .GEY_PEND_SET_PEND => s.rd .GEY_PEND_PEND u
  | .VF_GEY_SRC_ENABLE => s.tenantMask u fun s src => s.rd .GEY_SRC_ENABLE src = 1
  | .VF_GEY_SRC_LEVEL => s.tenantMask u fun s src => s.rd .GEY_SRC_LEVEL src = 1
  | .VF_GEY_SRC_HELD => s.tenantMask u fun s src => s.rd .GEY_SRC_HELD src = 1
  | .VF_GEY_SRC_PRIORITY =>
    ((List.range 8).map fun k => s.rd .GEY_SRC_PRIORITY (1024 + 8 * u + k) * 16 ^ k).foldl (· + ·) 0
  | .VF_POOL_STATUS_USED => s.used u
  | .VF_POOL_STATUS_QUOTA => s.quota u
  | .VF_SWAP_SIZE_USED => s.m.swapUsed.get 0 u
  | .VF_HOME_HOME => s.home u
  | .VF_STATUS_PARTITION => s.partOf u
  | .VF_STATUS_STATE => if u = pf0 then b2n s.confReached else s.rd .VF_STATUS_STATE u
  | .RDY_STATUS_READINESS =>
    match s.rd .RDY_STATUS_STATE with | 7 => 1 | 8 => 2 | 9 => 3 | _ => 0
  | .RDY_STATUS_FAIL_REASON => s.rd .BRG_STATE_FAIL_REASON
  | .BRG_STATE_STATE => s.rd .RDY_STATUS_STATE
  | .BRG_STATE_ELAPSED => min (s.pw.relGcnt / 100000) (2 ^ 32 - 1)
  | .BRG_HEALTH_VALID => b2n s.healthNow.isSome
  | .BRG_HEALTH_SEQ => s.healthNow.elim 0 fun x => x.2.seq % 2 ^ 32
  | .BRG_HEALTH_SLOT => s.healthNow.elim 0 fun x => x.1
  | .BRG_HEALTH_AGE_DAYS => s.healthNow.elim 0 fun x => min 65535 (s.fullAge x.2 / 86400)
  | .BRG_HEALTH_FULL_DUE => s.healthNow.elim 1 fun x => b2n !(s.warmOk x.2)
  | .BRG_HEALTH_WRITING => b2n s.brg.dirty
  | .BRG_MEMTEST_PHASE =>
    match s.rd .BRG_MEMTEST_MODE with
    | 0 => 0
    | 2 => 1 + Config.freeNat s.gcnt 508 % 3
    | _ => 1 + Config.freeNat s.gcnt 508 % 6
  | .BRG_MEMTEST_PROGRESS => if s.rd .BRG_MEMTEST_MODE = 0 then 0 else Config.freeNat s.gcnt 509 % 101
  | .BRG_HBM_STATE =>
    if s.rd f u = 2 ∧ s.gcnt < s.brg.trainG + u * 100000 then 1 else s.rd f u
  | .PWR_STATUS_STATE => if s.rd f u = 1 ∧ s.enginesIdle then 2 else s.rd f u
  | .HOST_CTRL_PRIMARY => s.rd .PWR_STRAPS_HOST_PRIMARY
  | .VF_QCTRL_STATE =>
    match (s.queue (s.selQueue u)).st with
    | .disabled => 0 | .active => 1 | .stalled => 2 | .destroying => 3
  | .VF_QCTRL_BAD_DOORBELLS => (s.queue (s.selQueue u)).bad
  | .VF_QPOS_CQ_TAIL => (s.queue (s.selQueue u)).cqTail
  | .VF_QPOS_SQ_NEXT => (s.queue (s.selQueue u)).sqNext
  | .SCH_CE_STATUS_BUSY | .CE_STATUS_BUSY =>
    ((List.range 32).filter fun i => s.rd .CE_SLOT_STATE (u * 32 + i) ≠ 0).length
  | .SCH_CE_STATUS_IN_PLACE => b2n ((List.range 32).any fun i => s.rd .CE_SLOT_IN_PLACE (u * 32 + i) = 1)
  | .SCH_CE_STATUS_IN_PLACE_SLOT =>
    ((List.range 32).find? fun i => s.rd .CE_SLOT_IN_PLACE (u * 32 + i) = 1).getD 0
  | .TST_EXPECT_SIG => s.rd .TST_EXPECT_SIG (s.rd .TST_CTRL_CLASS)
  | .DSP_STATUS_LINE => s.lineNow u
  | .VIN_STATUS_HS => if s.rd .VIN_STATUS_STATE u = 2 ∨ s.rd .VIN_STATUS_STATE u = 3 then Config.freeNat (s.gcnt + u) 451 % 16 else 0
  | .DSP_STATUS_HPD => b2n ((s.head u).sink.isSome && s.rd .DSP_STATUS_STATE u != 0)
  | _ => if f.info.access = .wo then 0 else s.rd f u

/-- The value of a register: its fields in place, reserved bits 0. [DESIGN CHOICE: log 262] -/
def State.regVal (s : State) (r : Reg) (u : Nat) : Nat :=
  (r.fields.map fun f => s.fieldVal f u * 2 ^ f.info.lo).foldl (· + ·) 0

/-- A field lies wholly in the half an access covers (R587). -/
def Fld.within (f : Fld) (half : Nat) : Bool :=
  half == 0 || (half == 1 && decide (f.info.lo + f.info.width ≤ 32)) || (half == 2 && decide (32 ≤ f.info.lo))

/-- The part of a register value a read of a half returns. -/
def takeHalf (half v : Nat) : Nat := if half = 1 then v % 2 ^ 32 else if half = 2 then v / 2 ^ 32 else v

/-- Read a register: the value is returned and RC fields in the part read are cleared (R14, R587). -/
def State.readReg (s : State) (r : Reg) (u half : Nat) : State :=
  let v := takeHalf half (s.regVal r u)
  let s : State := { s with data := v }
  s.each (r.fields.filter fun f => f.info.access == .rc && f.within half) fun s f => s.wr f u 0

/-- A read of a block that is not served returns 0 (R588). [DEDUCED: log 261] -/
def State.readBlk (s : State) (b : Blk) (r : Reg) (u half : Nat) : State :=
  match s.access b with
  | some s => s.readReg r u half
  | none => { s with data := 0 }

end Sys2Proof.Machine
end

