-- ==== Sys2Proof/Machine/Memory.lean ====
section
/-! DEFINITION. The page allocator's requests: mapping, sharing and unmapping by a context, and
partition-owned frames (R85-R90, R590). -/

namespace Sys2Proof.Machine

/-- The operands of a mapping request, sampled at its OP write (R590). -/
structure MapReq where
  ctx : Nat
  va : Nat
  src : Nat
  pages : Nat
  size : Nat        -- 0 4 KiB, 1 64 KiB, 2 2 MiB, 3 1 GiB
  cache : Nat
  xwr : Nat
deriving DecidableEq, Repr

/-- Bytes of a page of a SIZE code, as a power of two. -/
def sizeShift (sz : Nat) : Nat := if sz = 0 then 12 else if sz = 1 then 16 else if sz = 2 then 21 else 30

/-- The table level of a SIZE code. -/
def sizeLvl (sz : Nat) : Nat := if sz = 2 then 2 else if sz = 3 then 1 else 3

def MapReq.bytes (r : MapReq) : Nat := r.pages * 2 ^ sizeShift r.size

/-- Some leaf of a context maps part of `[va, va + n)`. -/
def State.mapped (s : State) (ctx va n : Nat) : Bool :=
  n != 0 && [1, 2, 3].any fun lvl =>
    !(s.m.pte.keysIn (pteKey ctx lvl va) (pteKey ctx lvl va + ((va + n - 1) / 2 ^ lvlShift lvl - va / 2 ^ lvlShift lvl) + 1)).isEmpty

/-- The SIZE code of the leaf that maps an address. -/
def State.leafSize (s : State) (ctx va : Nat) : Option Nat :=
  (s.leaf ctx va).map fun le => if le.1 = 1 then 3 else if le.1 = 2 then 2 else if pteC le.2 then 1 else 0

/-- The addresses of a range's pages. -/
def pageVAs (va pages sz : Nat) : List Nat := (List.range pages).map fun i => va + i * 2 ^ sizeShift sz

/-- Every page of a range is mapped by a leaf of one size. -/
def State.mappedAs (s : State) (ctx va pages sz : Nat) : Bool :=
  (pageVAs va pages sz).all fun a => s.leafSize ctx a == some sz

/-- A range is aligned to its page size and lies below the sequence-window region (R89, R91). -/
def rangeOk (va pages sz : Nat) : Bool :=
  pages != 0 && va % 2 ^ sizeShift sz == 0 && decide (va + pages * 2 ^ sizeShift sz ≤ 2 ^ 47)

/-! ## MAP -/

/-- Pages of a carved frame that a context maps, as their positions in the frame (R86, R88). -/
def State.carvedUsed (s : State) (ctx n : Nat) : List Nat :=
  ((s.m.pte.keysIn (pteKey ctx 3 0) (pteKey ctx 3 0 + 2 ^ 36)).filter fun k =>
      let e := s.m.pte.get 0 k
      !(pteC e) && ptePA e / 65536 == n).map fun k => ptePA (s.m.pte.get 0 k) / 4096 % 16

/-- The carved frames charged to a context, ascending. [DEDUCED: log 39] -/
def State.carved (s : State) (ctx : Nat) : List Nat :=
  (s.m.frames.map (·.1)).filter fun n =>
    let f := s.frame n
    f.st == .allocated && f.unit == 0 && f.tenant == ctxCode ctx

/-- One 4 KiB page for a context: from a frame it has carved, else from a newly carved one (R88). -/
def State.takePage (s : State) (ctx : Nat) : Option (State × Nat) :=
  match (s.carved ctx).findSome? (fun n =>
      ((List.range 16).find? fun i => !((s.carvedUsed ctx n).contains i)).map fun i => (n, i)) with
  | some (n, i) => some (s.setFrame n { s.frame n with ref := (s.frame n).ref + 1 }, n * 65536 + i * 4096)
  | none => (s.takeUnit ctx 0).map fun r => (r.1, r.2 * 65536)

/-- The physical address of one new unit of a SIZE code, charged to a context. -/
def State.takeSized (s : State) (ctx sz : Nat) : Option (State × Nat) :=
  if sz = 0 then s.takePage ctx else (s.takeUnit ctx sz).map fun r => (r.1, r.2 * 65536)

/-- Map new units at each address in turn, or fail. -/
def State.mapNew (s : State) (r : MapReq) : List Nat → Option State
  | [] => some s
  | va :: vas =>
    match s.takeSized r.ctx r.size with
    | none => none
    | some (s, pa) => (s.mapUnit r.ctx (sizeLvl r.size) va pa (r.size = 1) false r.cache r.xwr).mapNew r vas

/-- R89 MAP: all the pages or none; the state and the STATUS. -/
def State.doMap (s : State) (r : MapReq) : State × Nat :=
  if !(rangeOk r.va r.pages r.size) || s.mapped r.ctx r.va r.bytes then (s, 3)
  else match s.mapNew r (pageVAs r.va r.pages r.size) with
  | some s => (s, 0)
  | none => (s, 2)

/-! ## SHARE -/

/-- The unit a mapping of an address lies in, by its first frame. -/
def State.unitAt (s : State) (ctx va : Nat) : Option Nat :=
  match s.leaf ctx va with
  | some (lvl, e) => if ptePA e / 2 ^ 45 % 2 = 1 then none else some (unitHead lvl (ptePA e))
  | none => none

/-- Set S in every entry of one unit's mapping (R89). -/
def State.setShared (s : State) (ctx va : Nat) : State :=
  match s.leaf ctx va with
  | none => s
  | some (lvl, e) =>
    let big := lvl == 3 && pteC e
    let base := unitBase lvl big va
    s.each (if big then List.range 16 else [0]) fun s i =>
      s.setPte ctx lvl (base + i * 4096) (setBit (s.pteAt ctx lvl (base + i * 4096)) 63)

/-- Share one unit: the new mapping, the source entries and the reference count; `none` refuses it
(R86, R89). -/
def State.shareUnit (s : State) (r : MapReq) (va src : Nat) : Option State :=
  match s.unitAt r.ctx src with
  | none => none
  | some n =>
    let f := s.frame n
    let w := r.xwr / 2 % 2
    if f.ref = 65535 ∨ (f.st = .owned ∧ w = 1) then none
    else
      let s := s.setFrame n { f with ref := f.ref + 1 }
      if f.st = .owned then
        some (s.mapUnit r.ctx (sizeLvl r.size) va (n * 65536) (r.size = 1) false r.cache r.xwr)
      else
        some ((s.mapUnit r.ctx (sizeLvl r.size) va (n * 65536) (r.size = 1) true r.cache r.xwr).setShared r.ctx src)

def State.shareAll (s : State) (r : MapReq) : List (Nat × Nat) → Option State
  | [] => some s
  | vs :: rest => match s.shareUnit r vs.1 vs.2 with
    | none => none
    | some s => s.shareAll r rest

/-- R89 SHARE. -/
def State.doShare (s : State) (r : MapReq) : State × Nat :=
  if !(rangeOk r.va r.pages r.size) || !(rangeOk r.src r.pages r.size) || s.mapped r.ctx r.va r.bytes ||
      !((pageVAs r.src r.pages r.size).all fun a => (s.leaf r.ctx a).isSome) then (s, 3)
  else if (r.size ≠ 1 ∧ r.size ≠ 2) ∨ !(s.mappedAs r.ctx r.src r.pages r.size) then (s, 4)
  else match s.shareAll r ((pageVAs r.va r.pages r.size).zip (pageVAs r.src r.pages r.size)) with
  | some s => (s, 0)
  | none => (s, 4)

/-! ## UNMAP -/

/-- Remove one unit's mapping: its entries, then its reference count (R89). -/
def State.unmapUnit (s : State) (ctx va : Nat) : State :=
  match s.leaf ctx va with
  | none => s
  | some (lvl, e) =>
    let big := lvl == 3 && pteC e
    let base := unitBase lvl big va
    let s := s.each (if big then List.range 16 else [0]) fun s i => s.setPte ctx lvl (base + i * 4096) 0
    if ptePA e / 2 ^ 45 % 2 = 1 then s else s.decRef ctx (unitHead lvl (ptePA e))

/-- R89 UNMAP. [DEDUCED: log 36] -/
def State.doUnmap (s : State) (r : MapReq) : State × Nat :=
  if !(rangeOk r.va r.pages r.size) || !(s.mappedAs r.ctx r.va r.pages r.size) then (s, 3)
  else (s.each (pageVAs r.va r.pages r.size) fun s va => s.unmapUnit r.ctx va, 0)

/-! ## VF_MAP_CTRL -/

/-- A write of VF_MAP_CTRL with an OP: the RW fields are stored, and a request starts unless STATUS is
BUSY, with its operands sampled now (R89, R590). [DEDUCED: log 37] -/
def State.mapCtrl (s : State) (ctx val : Nat) (op : State → MapReq → State × Nat) : State :=
  s.accessed (s.ctxBlk ctx) fun s =>
    let busy := s.rd .VF_MAP_CTRL_STATUS ctx == 1
    let s := (((s.wr .VF_MAP_CTRL_PAGES ctx (bits val 32 32)).wr .VF_MAP_CTRL_SIZE ctx (bits val 14 2)).wr
      .VF_MAP_CTRL_CACHE ctx (bits val 12 2)).wr .VF_MAP_CTRL_XWR ctx (bits val 0 3)
    if busy then s
    else
      let r := op s
        { ctx := ctx, va := s.rd .VF_MAP_VA_VA ctx * 4096, src := s.rd .VF_MAP_SRC_VA_VA ctx * 4096
          pages := bits val 32 32, size := bits val 14 2, cache := bits val 12 2, xwr := bits val 0 3 }
      let s := r.1.wr .VF_MAP_CTRL_STATUS ctx 1
      { s with m := { s.m with mapBusy := s.m.mapBusy.set 0 ctx (r.2 + 1) } }

/-- R89: OP = MAP. -/
def execVfMap (ctx val : Nat) (s : State) : Host.Outcome State Fault Refusal :=
  .next (s.mapCtrl ctx val State.doMap)

/-- R89: OP = UNMAP. -/
def execVfUnmap (ctx val : Nat) (s : State) : Host.Outcome State Fault Refusal :=
  .next (s.mapCtrl ctx val State.doUnmap)

/-- R89: OP = SHARE. -/
def execVfShare (ctx val : Nat) (s : State) : Host.Outcome State Fault Refusal :=
  .next (s.mapCtrl ctx val State.doShare)

/-- R590: the request ends and STATUS leaves BUSY. -/
def execMapRequestEnd (ctx : Nat) (s : State) : Host.Outcome State Fault Refusal :=
  .next (
    if s.rd .VF_MAP_CTRL_STATUS ctx = 1 then
      let s := s.wr .VF_MAP_CTRL_STATUS ctx (s.m.mapBusy.get 0 ctx - 1)
      { s with m := { s.m with mapBusy := s.m.mapBusy.set 0 ctx 0 } }
    else s)

/-- R87: the allocator serves a write through a copy-on-write mapping; without the frames for a copy
PAGE_EVENT fires. -/
def execCopyOnWrite (ctx va : Nat) (s : State) : Host.Outcome State Fault Refusal :=
  .next (match s.cow ctx va with
    | some s => s
    | none => s.fire (ctxSrc ctx 3))

/-! ## Partition-owned frames (R90) -/

/-- The operands of a MEM_POWN_CTRL request (R590). -/
structure PownReq where
  part : Nat
  size : Nat
  cache : Nat
  hot : Bool
  code : Nat          -- CONTEXT field
  pages : Nat
  xwr : Nat
  pa : Nat
  va : Nat
  model : Nat
deriving DecidableEq, Repr

def pownReq (s : State) (val : Nat) : PownReq :=
  { part := bits val 48 6, size := bits val 46 2, cache := bits val 44 2, hot := bit val 43
    code := bits val 32 10, pages := bits val 16 16, xwr := bits val 0 3
    pa := s.rd .MEM_POWN_PA_PA * 65536, va := s.rd .MEM_POWN_VA_VA * 4096, model := s.rd .MEM_POWN_MODEL_MODEL }

/-- The context a CONTEXT field names, when it exists. -/
def State.ctxOf (s : State) (code : Nat) : Option Nat :=
  if code = 0x3FF then some pf0 else if code < s.tenants then some code else none

def PownReq.frames (r : PownReq) : Nat := r.pages * unitFrames r.size

/-- R90's first two outcomes: BAD_RANGE for SIZE or PAGES, then REFUSED. -/
def State.pownRefused (s : State) (r : PownReq) (needCtx : Bool) : Option Nat :=
  if r.size = 0 ∨ r.size = 3 ∨ r.pages = 0 then some 3
  else if (s.setsOf r.part).isEmpty then some 4
  else if needCtx && (match s.ctxOf r.code with | some c => s.partOf c != r.part | none => true) then some 4
  else none

/-- The units from a PA are partition-owned units of that size and partition. -/
def State.ownedRun (s : State) (r : PownReq) : Bool :=
  let k := unitFrames r.size
  let n := r.pa / 65536
  n % k == 0 && (List.range r.frames).all fun i =>
    let f := s.frame (n + i)
    f.st == .owned && f.part == r.part && f.unit == r.size

/-- R90 ALLOC. -/
def State.pownAlloc (s : State) (r : PownReq) : State × Nat :=
  match s.pownRefused r false with
  | some e => (s, e)
  | none =>
    let k := r.frames
    if (if r.hot then s.hotLeft r.part r.model else s.freeFrames r.part) < k then (s, 2)
    else match s.findFrames r.part k (unitFrames r.size) with
    | none => (s, 2)
    | some n =>
      let s := s.each (List.range k) fun s i => s.setFrame (n + i) ⟨.owned, r.part, 0x3FF, r.size, 0⟩
      let s := if r.hot then
        { s with m := { s.m with
          hotTaken := (List.range k).foldl (fun m i => m.set 0 (n + i) (r.model + 1)) s.m.hotTaken } } else s
      ({ s with m := { s.m with pownRes := n + 1 } }, 0)

/-- R90 FREE. -/
def State.pownFree (s : State) (r : PownReq) : State × Nat :=
  match s.pownRefused r false with
  | some e => (s, e)
  | none =>
    let n := r.pa / 65536
    if (List.range r.frames).any (fun i => (s.frame (n + i)).st == .owned && (s.frame (n + i)).ref != 0) then (s, 4)
    else if !(s.ownedRun r) then (s, 3)
    else
      let s := s.releaseFrames n r.frames
      ({ s with m := { s.m with hotTaken := s.m.hotTaken.clear n (n + r.frames) } }, 0)

/-- R90 MAP. -/
def State.pownMap (s : State) (r : PownReq) : State × Nat :=
  match s.pownRefused r true with
  | some e => (s, e)
  | none =>
    let ctx := (s.ctxOf r.code).getD 0
    let k := unitFrames r.size
    if !(s.ownedRun r) || !(rangeOk r.va r.pages r.size) || s.mapped ctx r.va (r.frames * 65536) then (s, 3)
    else
      (s.each (List.range r.pages) fun s i =>
        let n := r.pa / 65536 + i * k
        (s.setFrame n { s.frame n with ref := (s.frame n).ref + 1 }).mapUnit ctx (sizeLvl r.size)
          (r.va + i * k * 65536) (n * 65536) (r.size = 1) false r.cache r.xwr, 0)

/-- An address of a context is mapped to a partition-owned frame. -/
def State.ownedAt (s : State) (ctx va : Nat) : Bool :=
  match s.unitAt ctx va with | some n => (s.frame n).st == .owned | none => false

/-- R90 UNMAP. -/
def State.pownUnmap (s : State) (r : PownReq) : State × Nat :=
  match s.pownRefused r true with
  | some e => (s, e)
  | none =>
    let ctx := (s.ctxOf r.code).getD 0
    if !(rangeOk r.va r.pages r.size) || !(s.mappedAs ctx r.va r.pages r.size) ||
        !((pageVAs r.va r.pages r.size).all (s.ownedAt ctx)) then (s, 3)
    else (s.each (pageVAs r.va r.pages r.size) fun s va => s.unmapUnit ctx va, 0)

/-- A write of MEM_POWN_CTRL with an OP (R90, R590). -/
def State.pownCtrl (s : State) (val : Nat) (op : State → PownReq → State × Nat) : State :=
  s.accessed .late fun s =>
    let busy := s.rd .MEM_POWN_CTRL_RESULT == 1
    let q := pownReq s val
    let s := ((((((s.wr .MEM_POWN_CTRL_PARTITION 0 q.part).wr .MEM_POWN_CTRL_SIZE 0 q.size).wr
      .MEM_POWN_CTRL_CACHE 0 q.cache).wr .MEM_POWN_CTRL_HOT 0 (b2n q.hot)).wr .MEM_POWN_CTRL_CONTEXT 0 q.code).wr
      .MEM_POWN_CTRL_PAGES 0 q.pages).wr .MEM_POWN_CTRL_XWR 0 q.xwr
    if busy then s
    else
      let r := op s q
      let s := r.1.wr .MEM_POWN_CTRL_RESULT 0 1
      { s with m := { s.m with pownBusy := r.2 + 1 } }

/-- R90: OP = ALLOC. -/
def execPownAlloc (val : Nat) (s : State) : Host.Outcome State Fault Refusal :=
  .next (s.pownCtrl val State.pownAlloc)

/-- R90: OP = FREE. -/
def execPownFree (val : Nat) (s : State) : Host.Outcome State Fault Refusal :=
  .next (s.pownCtrl val State.pownFree)

/-- R90: OP = MAP. -/
def execPownMap (val : Nat) (s : State) : Host.Outcome State Fault Refusal :=
  .next (s.pownCtrl val State.pownMap)

/-- R90: OP = UNMAP. -/
def execPownUnmap (val : Nat) (s : State) : Host.Outcome State Fault Refusal :=
  .next (s.pownCtrl val State.pownUnmap)

/-- R90, R590: the request ends, RESULT leaves BUSY, and an ALLOC gives its PA. -/
def execPownRequestEnd (s : State) : Host.Outcome State Fault Refusal :=
  .next (
    if s.rd .MEM_POWN_CTRL_RESULT = 1 then
      let s := s.wr .MEM_POWN_CTRL_RESULT 0 (s.m.pownBusy - 1)
      let s := if s.m.pownRes = 0 then s else s.wr .MEM_POWN_PA_PA 0 (s.m.pownRes - 1)
      { s with m := { s.m with pownBusy := 0, pownRes := 0 } }
    else s)

/-- A read of MEM_PC_STATUS returns and clears CE_COUNT and UE_COUNT (R73). -/
def execMemPcStatusRead (pc half : Nat) (s : State) : Host.Outcome State Fault Refusal :=
  .next (s.readBlk .late .MEM_PC_STATUS pc half)

end Sys2Proof.Machine
end

