-- ==== Sys2Proof/Machine/EqxBase.lean ====
section
/-! DEFINITION. What other chapters do to Equinox: its routes, its event registers, source events, and
the loss of a source (R180, R394, R397, R398, R424, R425). -/

namespace Sys2Proof.Machine

/-! ## Routes (R49) -/

/-- The ROUTE records in force: source class and index, destination class and index. -/
def State.routes (s : State) : List (Nat × Nat × Nat × Nat) :=
  (s.img.recs.filter (·.tag = 0x40)).map fun r => (d8 r.val 1, d8 r.val 2, d8 r.val 3, d8 r.val 4)

/-- The streams a unit routes to. -/
def State.routedStreams (s : State) (cls idx : Nat) : List Nat :=
  (s.routes.filter fun r => r.1 = cls ∧ r.2.1 = idx ∧ r.2.2.1 = 4).map (·.2.2.2)

/-- The stream of a head, and the head of a stream (R394). -/
def State.headStream (s : State) (h : Nat) : Option Nat :=
  (s.routes.find? fun r => r.1 == 4 && r.2.2.1 == 5 && r.2.2.2 == h).map (·.2.1)

def State.streamHead (s : State) (i : Nat) : Option Nat :=
  (s.routes.find? fun r => r.1 == 4 && r.2.1 == i && r.2.2.1 == 5).map (·.2.2.2)

/-- The vision lane routed to a stream. -/
def State.streamLane (s : State) (i : Nat) : Option Nat :=
  (s.routes.find? fun r => r.1 == 2 && r.2.2.1 == 4 && r.2.2.2 == i).map (·.2.1)

/-! ## Events (R424, R425) -/

/-- Source k of Equinox fires, and EQX_EVT_k marks `bit`. -/
def State.eqxFire (s : State) (k bit : Nat) : State :=
  ({ s with eqx := { s.eqx with evt := s.eqx.evt.set 0 k (setBit (s.eqx.evt.get 0 k) bit) } } : State).fire (384 + k)

/-- EQUINOX_LATE of the tenant bound to a stream (R425). -/
def State.eqxTenantLate (s : State) (i : Nat) : State :=
  let p := (s.stream i).par
  if p.srcKind = 0 ∧ p.tenant < 512 then s.fire (ctxSrc p.tenant 6) else s

/-- EQX_STREAM_CTRL.STATE changes (R424). [DEDUCED: log 186] -/
def State.eqxState (s : State) (i st : Nat) : State :=
  if s.rd .EQX_STREAM_CTRL_STATE i = st then s else (s.wr .EQX_STREAM_CTRL_STATE i st).eqxFire 10 i

/-! ## Sources (R397, R398) -/

/-- A stream runs. -/
def State.eqxRuns (s : State) (i : Nat) : Bool := s.rd .EQX_STREAM_CTRL_STATE i == 2

/-- R398: one source event at a running stream's trigger counter, with the source it announces. -/
def State.eqxTrigger (s : State) (i : Nat) (src : Option Source) : State :=
  if !(s.eqxRuns i) then s
  else
    let x := s.stream i
    let s := if src.isSome then s.setStream i { x with src := src, lost := false } else s
    if s.rd .EQX_STREAM_TRIG_COUNT i = 255 then (s.wr .EQX_STREAM_TRIG_OVF i 1).eqxFire 4 i
    else s.wr .EQX_STREAM_TRIG_COUNT i (s.rd .EQX_STREAM_TRIG_COUNT i + 1)

/-- The running streams bound to a handle (R32, R397). -/
def State.boundStreams (s : State) (ctx h : Nat) : List Nat :=
  ((s.eqx.streams.map (·.1)).filter fun i =>
    let p := (s.stream i).par
    s.eqxRuns i && p.srcKind == 0 && p.handle == h && (if p.tenant = 0xFFFF then pf0 else p.tenant) == ctx)

/-- R397: a commit has raised the VERSION of a handle. `geom` is the plane's pitch, format, columns and
rows where the command gives them; otherwise those of the version before are kept. -/
def State.eqxCommitted (s : State) (ctx h : Nat) (geom : Option (Nat × Nat × Nat × Nat)) : State :=
  let t := s.tensor ctx h
  s.each (s.boundStreams ctx h) fun s i =>
    let x := s.stream i
    let g := geom.orElse fun _ => (x.src.bind (·.plane)).map fun p => (p.2.2.1, p.2.2.2.1, p.2.2.2.2.1, p.2.2.2.2.2)
    s.eqxTrigger i (some
      { id := t.version, g := ((s.gcnt : Int) + x.par.off).toNat, buf := t.cur
        plane := g.map fun (q : Nat × Nat × Nat × Nat) => (ctx, t.curBuf, q.1, q.2.1, q.2.2.1, q.2.2.2) })

/-- R180 step 7: streams bound to a render target of a tenant lose their source; the DIRECT slots that
bind its versions are free. -/
def State.eqxLose (s : State) (t : Nat) : State :=
  s.each ((s.eqx.streams.map (·.1)).filter fun i =>
      let x := s.stream i
      (x.par.srcKind == 0 && x.par.tenant == t) || x.ring.any fun r => r.bind.elim false (·.ctx == t)) fun s i =>
    let x := s.stream i
    let drop := fun (r : RingSlot) => match r.bind with | some b => b.ctx == t | none => false
    s.setStream i { x with
      src := if x.par.tenant = t then none else x.src, lost := x.lost || x.par.tenant == t
      ring := x.ring.map fun r => if drop r then {} else r }

end Sys2Proof.Machine
end

