-- ==== Sys2Proof/Machine/Queues.lean ====
section
/-! DEFINITION. Queues, doorbells, the tensor table and the commands of the queue chapter
(R131-R162). -/

namespace Sys2Proof.Machine

/-! ## Queue control (R132, R133, R158, R161) -/

/-- The RW fields of a VF_QCTRL write. [DEDUCED: log 73] -/
def State.wrQctrl (s : State) (ctx val : Nat) : State :=
  (((s.wr .VF_QCTRL_SQ_LOG2 ctx (bits val 24 5)).wr .VF_QCTRL_CQ_LOG2 ctx (bits val 16 5)).wr
    .VF_QCTRL_CLASS ctx (bits val 8 3)).wr .VF_QCTRL_CONTINUE_ON_ERROR ctx (bits val 0 1)

/-- A class the function can use (R132). -/
def classOk (ctx cls : Nat) : Bool := if ctx = pf0 then decide (1 ≤ cls) else decide (2 ≤ cls)

/-- A partition that the image in force does not configure (R517). -/
def State.unconfigured (s : State) (p : Nat) : Bool := !(s.img.parts.get {} p).used

/-- R133: VF_QCTRL written with OP = CREATE. [DEDUCED: log 72] -/
def execQueueCreate (ctx val : Nat) (s : State) : Host.Outcome State Fault Refusal :=
  .next (s.accessed (s.ctxBlk ctx) fun s =>
    let busy := s.rd .VF_QCTRL_RESULT ctx == 1
    let s := s.wrQctrl ctx val
    if busy then s
    else
      let gq := s.selQueue ctx
      let q := s.queue gq
      let sl := s.rd .VF_QCTRL_SQ_LOG2 ctx
      let cl := s.rd .VF_QCTRL_CQ_LOG2 ctx
      let cls := s.rd .VF_QCTRL_CLASS ctx
      if gq = qKey pf0 0 then s.wr .VF_QCTRL_RESULT ctx 4
      else if q.st ≠ .disabled then s.wr .VF_QCTRL_RESULT ctx 3
      else if sl < 6 ∨ 16 < sl ∨ cl < 6 ∨ 16 < cl then s.wr .VF_QCTRL_RESULT ctx 2
      else if !(classOk ctx cls) || s.unconfigured (s.partOf ctx) then s.wr .VF_QCTRL_RESULT ctx 4
      else
        (s.setQueue gq { q with
          st := .active, cls := cls, sqLog := sl, cqLog := cl
          sqVA := s.rd .VF_QSQ_VA ctx * 4096, cqVA := s.rd .VF_QCQ_VA ctx * 4096
          cont := s.rd .VF_QCTRL_CONTINUE_ON_ERROR ctx == 1
          sqTail := 0, cqHead := 0, sqNext := 0, cqTail := 0, sqStart := 0 }).wr .VF_QCTRL_RESULT ctx 0)

/-- Abort the DEFERRED versions a queue owns (R161). -/
def State.abortDeferred (s : State) (gq : Nat) : State :=
  let ctx := gqCtx gq
  s.each (s.tensors.keysIn (tKey ctx 0) (tKey (ctx + 1) 0)) fun s k =>
    let h := k - tKey ctx 0
    let t := s.tensor ctx h
    if t.deferred ∧ t.ownerQueue = gq % 512 then
      let s := s.setTensor ctx h (abortTensor t)
      if t.kind == .plain then s.freeBytes ctx t.pendBuf t.bytes else s
    else s

/-- Remove an attempt with no trace (R146). -/
def State.erase (s : State) (f : Flight) : State := ((s.abortOuts f).freeSlots f |>.dropReqs f).dropFlight f

/-- R161 steps 1 and 2, R133: OP = DESTROY. -/
def execQueueDestroy (ctx : Nat) (s : State) : Host.Outcome State Fault Refusal :=
  .next (s.accessed (s.ctxBlk ctx) fun s =>
    let gq := s.selQueue ctx
    let q := s.queue gq
    if s.rd .VF_QCTRL_RESULT ctx = 1 then s
    else if gq = qKey pf0 0 then s.wr .VF_QCTRL_RESULT ctx 4
    else if q.st ≠ .active ∧ q.st ≠ .stalled then s.wr .VF_QCTRL_RESULT ctx 3
    else
      let s := s.each ((s.flightsOf gq).filter Flight.killable) State.erase
      (s.setQueue gq { s.queue gq with st := .destroying }).wr .VF_QCTRL_RESULT ctx 1)

/-- R161 step 4: KILLED records in slot order while the completion ring has room. [DEDUCED: log 68] -/
def State.killedRecords (s : State) (gq k : Nat) : Nat → State
  | 0 => s
  | fuel + 1 =>
    if !(s.queue gq).cqRoom then s
    else match s.fetchDesc gq k with
    | some (.ok d) =>
      let s := (s.putRecord gq (dTag d) 1 0 k s.gcnt).fire (ctxSrc (gqCtx gq) 0)
      let k' := m32 (k + slotsOf d)
      (s.setQueue gq { s.queue gq with sqNext := k' }).killedRecords gq k' fuel
    | _ => s

/-- An in-place command that has ended when the completion ring of its DESTROYING queue is full gets no record:
its outputs have a new VERSION and its counts are charged (R148, R158, R183). -/
def State.endUnrecorded (s : State) (f : Flight) : State :=
  ((s.commitOuts f).freeSlots f |>.dropFlight f).chargeUse (gqCtx f.gq) f.usage

/-- R161 steps 3 and 4, R158: once no in-place command of the queue runs, and the record of none waits for room
that a full ring of a DESTROYING queue never gets. [DEDUCED: log 67] -/
def execDestroyEnd (ctx q : Nat) (s : State) : Host.Outcome State Fault Refusal :=
  .next (
    let gq := qKey ctx q
    if (s.queue gq).st = .destroying ∧
        ((s.flightsOf gq).isEmpty ∨ ((s.flightsOf gq).all (·.phase == .ended) ∧ ¬ (s.queue gq).cqRoom)) then
      let s := s.each (s.flightsOf gq) State.endUnrecorded
      let s := (s.abortDeferred gq).killedRecords gq (s.queue gq).sqNext 65537
      ((s.releaseTails gq).setQueue gq { s.queue gq with st := .disabled }).wr .VF_QCTRL_RESULT ctx 0
    else s)

/-- R158: OP = RESUME restarts a STALLED queue at SQ_NEXT. -/
def execQueueResume (ctx : Nat) (s : State) : Host.Outcome State Fault Refusal :=
  .next (s.accessed (s.ctxBlk ctx) fun s =>
    let gq := s.selQueue ctx
    if s.rd .VF_QCTRL_RESULT ctx = 1 then s
    else if (s.queue gq).st = .stalled then
      (s.setQueue gq { s.queue gq with st := .active, sqStart := (s.queue gq).sqNext }).wr .VF_QCTRL_RESULT ctx 0
    else s.wr .VF_QCTRL_RESULT ctx 3)

/-- R135: a read of VF_QCTRL returns and clears the selected queue's BAD_DOORBELLS. -/
def execVfQctrlRead (ctx half : Nat) (s : State) : Host.Outcome State Fault Refusal :=
  .next (
    let ok := (s.access (s.ctxBlk ctx)).isSome
    let s := s.readBlk (s.ctxBlk ctx) .VF_QCTRL ctx half
    if ok && Fld.within .VF_QCTRL_BAD_DOORBELLS half then
      s.setQueue (s.selQueue ctx) { s.queue (s.selQueue ctx) with bad := 0 }
    else s)

/-! ## Doorbells (R134, R135) -/

/-- R135: a new SQ_TAIL passes its check. -/
def sqTailOk (q : Queue) (v : Nat) : Bool :=
  decide (sub32 v q.sqTail ≤ 2 ^ 31 - 1) && decide (sub32 v q.sqNext ≤ 2 ^ q.sqLog)

/-- R135: a new CQ_HEAD passes its check. -/
def cqHeadOk (q : Queue) (v : Nat) : Bool :=
  decide (sub32 v q.cqHead ≤ 2 ^ 31 - 1) && decide (sub32 v q.cqHead ≤ sub32 q.cqTail q.cqHead)

/-- A doorbell write has a field that passes its check (R135, R153). [DEDUCED: log 65] -/
def doorbellAccepted (q : Queue) (half val : Nat) : Bool :=
  (half != 2 && sqTailOk q (val % 2 ^ 32)) ||
    (half != 1 && cqHeadOk q (if half = 2 then val % 2 ^ 32 else val / 2 ^ 32 % 2 ^ 32))

/-- R135: the fields a doorbell writes, each checked; a rejected field counts the write once. [DEDUCED: log 64] -/
def ringDoorbell (q : Queue) (half val : Nat) : Queue :=
  let tail := val % 2 ^ 32
  let head := if half = 2 then val % 2 ^ 32 else val / 2 ^ 32 % 2 ^ 32
  let wt := half != 2
  let wh := half != 1
  let badT := wt && !(sqTailOk q tail)
  let badH := wh && !(cqHeadOk q head)
  { q with
    sqTail := if wt && !badT then tail else q.sqTail
    cqHead := if wh && !badH then head else q.cqHead
    bad := if badT || badH then min 65535 (q.bad + 1) else q.bad }

/-! ## Fences (R151-R153) -/

/-- R151: what a wait finds when it reads its fence: none while it is not satisfied. -/
def fenceFinds (fence value : Nat) : Option Nat :=
  if 2 ^ 63 ≤ fence then some 0x0B else if value ≤ fence then some 0 else none

/-- Read the fence of a running FENCE_WAIT again; it ends when it is satisfied, holds ERROR or
cannot be read (R153). -/
def State.pollFence (s : State) (f : Flight) : State :=
  match s.ldBytes (gqCtx f.gq) (d64 f.desc 0x10) 8 with
  | .error e => (s.failFlight f e.1 e.2).tryCommit f.gq 0x04 noAct
  | .ok bs => match fenceFinds (leNat bs) (d64 f.desc 0x18) with
    | none => s
    | some st =>
      (s.setFlight { f with phase := .ended, endG := s.gcnt, res := { f.res with status := st } }).tryCommit f.gq 0x04 noAct

/-- The running FENCE_WAIT of a queue. -/
def State.waitOf (s : State) (gq : Nat) : Option Flight :=
  s.flightIn gq fun f => dOp f.desc == 0x04 && f.phase == .running

/-- R134, R135, R115, R153, R558: a doorbell write. `half` is 0 for 8 bytes, 1 or 2 for a 4-byte
write of the low or high half. [DESIGN CHOICE: log 66] -/
def execDoorbell (ctx q half val : Nat) (s : State) : Host.Outcome State Fault Refusal :=
  .next (s.accessed (s.bellBlk ctx q) fun s =>
    if !s.ready then s.inc .RDY_DROPS_DOORBELLS 0
    else
      let s := s.wake true
      let gq := qKey ctx q
      let qu := s.queue gq
      if ctx ≠ pf0 ∧ s.rd .VF_STATUS_STATE ctx = 2 then s
      else if qu.st = .disabled ∨ qu.st = .destroying then
        s.setQueue gq { qu with bad := min 65535 (qu.bad + 1) }
      else
        let s := s.setQueue gq (ringDoorbell qu half val)
        if doorbellAccepted qu half val then
          match s.waitOf gq with
          | some f => s.pollFence f
          | none => s
        else s)

/-- R151, R153: the body rule of FENCE_WAIT: FENCE is 8-byte aligned. [DEDUCED: log 70] -/
def fenceCheck (_ : State) (d : List Byte) : Except (Nat × Nat) Plan :=
  if d64 d 0x10 % 8 = 0 then .ok {} else .error (6, 0)

/-- R153: FENCE_WAIT reads its fence at its start. -/
def execFenceWait (ctx q : Nat) (s : State) : Host.Outcome State Fault Refusal :=
  let gq := qKey ctx q
  .next (
    let s := s.startCmd gq 0x04 noAct fenceCheck notBlocked fun s f _ =>
      (s, { f with until_ := if d32 f.desc 0x20 = 0 then 0 else s.gcnt + d32 f.desc 0x20 * 100 })
    match s.waitOf gq with
    | some f => if f.start = s.gcnt then s.pollFence f else s
    | none => s)

/-- R153: a waiting fence is read again. -/
def execFencePoll (ctx q : Nat) (s : State) : Host.Outcome State Fault Refusal :=
  .next (match s.waitOf (qKey ctx q) with
    | some f => s.pollFence f
    | none => s)

/-- R153: TIMEOUT_US passes. [DEDUCED: log 69] -/
def execFenceTimeout (ctx q : Nat) (s : State) : Host.Outcome State Fault Refusal :=
  .next (match s.waitOf (qKey ctx q) with
    | some f =>
      if f.until_ ≠ 0 ∧ f.until_ ≤ s.gcnt then (s.failFlight f 9 0).tryCommit f.gq 0x04 noAct else s
    | none => s)

/-- The physical 64-byte line of a context's address. -/
def State.lineOf (s : State) (ctx va : Nat) : Option Nat :=
  match s.translate ctx va .r with
  | .ok pa => some (s.cellKey ctx pa / 64)
  | .error _ => none

/-- R152, R153: at its commit a FENCE_SIGNAL writes VALUE, fires FENCE where NOTIFY asks, and every
wait of the partition on the same line reads its fence. -/
def signalAct (s : State) (f : Flight) : State :=
  let ctx := gqCtx f.gq
  let va := d64 f.desc 0x10
  let s := (s.stBytes ctx va (natLe 8 (d64 f.desc 0x18)) 9).1
  let s := s.fireIf (bit (d8 f.desc 0x20) 0) (ctxSrc ctx 4)
  s.each (s.flights.filter fun w =>
      dOp w.desc == 0x04 && w.phase == .running && s.partOf (gqCtx w.gq) == s.partOf ctx &&
        s.lineOf (gqCtx w.gq) (d64 w.desc 0x10) == s.lineOf ctx va && (s.lineOf ctx va).isSome)
    State.pollFence

/-- R152: bit 63 of a FENCE_SIGNAL's VALUE is 0; a fence that cannot be written fails the command (R84). [DEDUCED: log 71] -/
def signalCheck (gq : Nat) (s : State) (d : List Byte) : Except (Nat × Nat) Plan :=
  if 2 ^ 63 ≤ d64 d 0x18 then .error (6, 0)
  else match fenceCheck s d with
  | .error e => .error e
  | .ok p => match s.translate (gqCtx gq) (d64 d 0x10) .w with
    | .error e => .error (e, d64 d 0x10)
    | .ok _ => .ok p

def execFenceSignal (ctx q : Nat) (s : State) : Host.Outcome State Fault Refusal :=
  let gq := qKey ctx q
  .next (s.startShort gq 0x05 signalAct (signalCheck gq))

/-! ## Commands on the tensor table (R147, R150) -/

def nopCheck (_ : State) (_ : List Byte) : Except (Nat × Nat) Plan := .ok {}

/-- R139: NOP has no body. -/
def execNopCmd (ctx q : Nat) (s : State) : Host.Outcome State Fault Refusal :=
  .next (s.startShort (qKey ctx q) 0x00 noAct nopCheck)

/-- R150, R162: the body rules of TENSOR_DEFINE, then its conflict. -/
def defineCheck (gq : Nat) (s : State) (d : List Byte) : Except (Nat × Nat) Plan :=
  let kind := d8 d 0x14
  let b0 := d64 d 0x18
  let b1 := d64 d 0x20
  let n := d64 d 0x28
  let h := d32 d 0x10
  if !(handleOk h) || (kind != 1 && kind != 2) || n == 0 || decide (2 ^ 40 ≤ n) ||
      b0 % 64 != 0 || decide (2 ^ 48 ≤ b0) ||
      (kind == 1 && (b1 % 64 != 0 || decide (2 ^ 48 ≤ b1))) || (kind == 2 && b1 != 0) then .error (6, 0)
  else if s.rd .VF_TT_CAP_TT_CAP (gqCtx gq) ≤ h ∨ (s.tensor (gqCtx gq) h).kind ≠ .free then .error (5, h)
  else .ok {}

/-- R150: the FREE entry becomes valid with CUR 0 and VERSION 0. -/
def defineAct (s : State) (f : Flight) : State :=
  let d := f.desc
  s.setTensor (gqCtx f.gq) (d32 d 0x10)
    { kind := if d8 d 0x14 = 1 then .plain else .single
      buf0 := d64 d 0x18, buf1 := if d8 d 0x14 = 1 then d64 d 0x20 else 0, bytes := d64 d 0x28 }

def execTensorDefine (ctx q : Nat) (s : State) : Host.Outcome State Fault Refusal :=
  let gq := qKey ctx q
  .next (s.startShort gq 0x02 defineAct (defineCheck gq))

/-- R150, R162: TENSOR_RELEASE conflicts on a FREE entry or one with a pending version, and on a
SEQUENCE, which only the sequence commands remove (R141). [DEDUCED: log 77] -/
def releaseCheck (gq : Nat) (s : State) (d : List Byte) : Except (Nat × Nat) Plan :=
  let h := d32 d 0x10
  let t := s.tensor (gqCtx gq) h
  if !(handleOk h) then .error (6, 0)
  else if s.handleFree (gqCtx gq) h || t.pending || t.kind == .sequence then .error (5, h)
  else .ok {}

def releaseAct (s : State) (f : Flight) : State := s.setTensor (gqCtx f.gq) (d32 f.desc 0x10) {}

def execTensorRelease (ctx q : Nat) (s : State) : Host.Outcome State Fault Refusal :=
  let gq := qKey ctx q
  .next (s.startShort gq 0x03 releaseAct (releaseCheck gq))

/-- The handles a VERSION command lists (R147). -/
def listedHandles (d : List Byte) : List Nat := (List.range (d8 d 0x10)).map fun i => d32 d (0x14 + 4 * i)

/-- R147, R162: every listed handle must hold a DEFERRED version owned by the same queue. -/
def versionCheck (gq : Nat) (s : State) (d : List Byte) : Except (Nat × Nat) Plan :=
  let hs := listedHandles d
  if d8 d 0x10 = 0 ∨ 8 < d8 d 0x10 ∨ ¬ hs.all handleOk then .error (6, 0)
  else match hs.find? (fun h =>
      s.handleFree (gqCtx gq) h || !((s.tensor (gqCtx gq) h).deferred && (s.tensor (gqCtx gq) h).ownerQueue == gq % 512)) with
    | some h => .error (5, h)
    | none => .ok {}

/-- R147: commit every listed handle in one cycle. [DEDUCED: log 76] -/
def versionCommitAct (s : State) (f : Flight) : State :=
  s.each (listedHandles f.desc).eraseDups fun s h =>
    (s.setTensor (gqCtx f.gq) h (commitTensor (s.tensor (gqCtx f.gq) h))).eqxCommitted (gqCtx f.gq) h none

/-- R147: discard every listed handle's deferred version. -/
def versionAbortAct (s : State) (f : Flight) : State :=
  s.each (listedHandles f.desc).eraseDups fun s h =>
    let t := s.tensor (gqCtx f.gq) h
    let s := s.setTensor (gqCtx f.gq) h (abortTensor t)
    if t.kind == .plain then s.freeBytes (gqCtx f.gq) t.pendBuf t.bytes else s

def execVersionCommit (ctx q : Nat) (s : State) : Host.Outcome State Fault Refusal :=
  let gq := qKey ctx q
  .next (s.startShort gq 0x06 versionCommitAct (versionCheck gq))

def execVersionAbort (ctx q : Nat) (s : State) : Host.Outcome State Fault Refusal :=
  let gq := qKey ctx q
  .next (s.startShort gq 0x07 versionAbortAct (versionCheck gq))

/-! ## The tensor table (R140, R141) -/

/-- R141: word `i` of an entry. -/
def Tensor.word (t : Tensor) (i : Nat) : Nat :=
  match i with
  | 0 => (match t.kind with | .free => 0 | .plain => 1 | .single => 2 | .sequence => 3) * 2 ^ 60 +
      b2n t.pending * 2 ^ 59 + b2n t.deferred * 2 ^ 58 + b2n (t.kind == .plain && t.cur == 1) * 2 ^ 57 +
      b2n t.swapped * 2 ^ 56 + t.buf0 % 2 ^ 48 / 64 * 64
  | 1 => if t.kind = .sequence then t.pendTokens % 2 ^ 21 * 2 ^ 32 + t.length % 2 ^ 21
      else t.buf1 % 2 ^ 48 / 64 * 64
  | 2 => if t.kind = .sequence then t.window % 2 ^ 15 else t.bytes % 2 ^ 40
  | _ => t.version % 2 ^ 32 * 2 ^ 32 + t.ownerQueue % 512 * 2 ^ 16 + t.ownerSlot % 2 ^ 16

/-- R140: VF_TT_READ copies one entry in one cycle; beyond TT_CAP it reads as FREE. -/
def execTtRead (ctx handle : Nat) (s : State) : Host.Outcome State Fault Refusal :=
  .next (s.accessed (s.ctxBlk ctx) fun s =>
    let h := handle % 2 ^ 20
    let t := if s.rd .VF_TT_CAP_TT_CAP ctx ≤ h then {} else s.tensor ctx h
    s.each (List.range 4) fun s i => s.wr .VF_TT_ENTRY_WORD (ctx * 4 + i) (t.word i))

/-- Frames a table of `cap` handles takes (R140). [DEDUCED: log 78] -/
def ttFrames (cap : Nat) : Nat := cap / 2048

/-- R140: the conditions on a write of TT_CAP. -/
def State.ttCapOk (s : State) (ctx val : Nat) : Bool :=
  let old := ttFrames (s.rd .VF_TT_CAP_TT_CAP ctx)
  let new := ttFrames val
  val % 2048 == 0 && decide (val ≤ 1048576) && (s.tensors.keysIn (tKey ctx 0) (tKey (ctx + 1) 0)).isEmpty &&
    decide (s.used ctx - old + new ≤ s.quota ctx) && decide (new ≤ s.freeFrames (s.partOf ctx) + old)

/-- R140: a write of TT_CAP replaces the table and its charged frames, or is ignored. -/
def execTtCapWrite (ctx val : Nat) (s : State) : Host.Outcome State Fault Refusal :=
  .next (s.accessed (s.ctxBlk ctx) fun s =>
    let v := val % 2 ^ 21
    if s.ttCapOk ctx v then
      let old := ttFrames (s.rd .VF_TT_CAP_TT_CAP ctx)
      let s := s.charge ctx ((ttFrames v : Int) - old)
      ({ s with m := { s.m with ttFrames := s.m.ttFrames.set 0 ctx (ttFrames v) } }).wr .VF_TT_CAP_TT_CAP ctx v
    else s)

end Sys2Proof.Machine
end

