-- ==== Sys2Proof/Machine/Sequences.lean ====
section
/-! DEFINITION. Sequences: their layout and pages, the page check and parking of R92 and R93, and the
commands SEQ_CREATE, SEQ_FORK, SEQ_FREE, KV_SWAP_OUT and KV_SWAP_IN (R91-R93, R268-R273, R294-R299). -/

namespace Sys2Proof.Machine

def State.seq (s : State) (ctx h : Nat) : Seq := s.seqs.get {} (tKey ctx h)

def State.setSeq (s : State) (ctx h : Nat) (q : Seq) : State := { s with seqs := s.seqs.set {} (tKey ctx h) q }

/-! ## Layout (R91, R269, R270) -/

/-- [DEDUCED: log 120] -/
def groups (hd gcode : Nat) : Nat := ceilDiv hd (32 * 2 ^ gcode)

def Seq.dataK (q : Seq) : Nat := q.kvHeads * q.headDim * fmtBitsOf q.fmtK / 8
where
  /-- Bits of an element format of R268. -/
  fmtBitsOf (c : Nat) : Nat :=
    match c with | 0 | 3 => 4 | 4 | 5 => 6 | 8 | 9 => 16 | 10 => 32 | _ => 8

def Seq.dataV (q : Seq) : Nat := q.kvHeads * q.headDim * Seq.dataK.fmtBitsOf q.fmtV / 8

/-- R269. -/
def Seq.bptK (q : Seq) : Nat := ceilDiv (q.dataK + (if q.scale then q.kvHeads * groups q.headDim q.gcode else 0)) 32 * 32
def Seq.bptV (q : Seq) : Nat := ceilDiv (q.dataV + (if q.scale then q.kvHeads else 0)) 32 * 32

/-- Bytes per token of region r. -/
def Seq.bpt (q : Seq) (r : Nat) : Nat := if r % 2 = 0 then q.bptK else q.bptV

/-- R: the smallest power of two that is at least 2 × LAYERS (R269). -/
def Seq.regions (q : Seq) : Nat := ((List.range 9).map (2 ^ ·)).find? (fun r => decide (2 * q.layers ≤ r)) |>.getD 256

def Seq.regionSize (q : Seq) : Nat := 2 ^ 32 / q.regions

/-- The base of sequence window `w` (R91). -/
def windowVA (w : Nat) : Nat := 2 ^ 47 + w * 2 ^ 32

/-- The address of region r of a sequence. -/
def State.regionVA (s : State) (ctx h r : Nat) : Nat := windowVA (s.tensor ctx h).window + r * (s.seq ctx h).regionSize

/-- The mapped pages of a window, ascending. -/
def State.windowPages (s : State) (ctx w : Nat) : List Nat :=
  ((s.m.pte.keysIn (pteKey ctx 3 (windowVA w)) (pteKey ctx 3 (windowVA w) + 2 ^ 20)).filter (· % 16 = 0)).map
    fun k => k % 2 ^ 36 * 4096

/-! ## The page check (R92) -/

/-- The region bound of R91 and R92 holds for `n` more tokens. -/
def State.growFits (s : State) (ctx h L n : Nat) : Bool :=
  let q := s.seq ctx h
  decide (L + n ≤ 1048576) &&
    (List.range (2 * q.layers)).all fun r => decide ((L + n) * q.bpt r ≤ q.regionSize)

/-- Pages an append must map, and shared partly filled pages it must copy (R92, R272). -/
def State.growPages (s : State) (ctx h L n : Nat) : List Nat × List Nat :=
  let q := s.seq ctx h
  let per := (List.range (2 * q.layers)).map fun r =>
    let base := s.regionVA ctx h r
    let old := ceilDiv (L * q.bpt r) 65536
    let new := ceilDiv ((L + n) * q.bpt r) 65536
    let fresh := ((List.range (new - old)).map fun i => base + (old + i) * 65536).filter fun va => (s.leaf ctx va).isNone
    let at_ := base + L * q.bpt r
    let shared := if L * q.bpt r % 65536 != 0 && (match s.leaf ctx at_ with | some le => pteS le.2 | none => false) then [at_] else []
    (fresh, shared)
  (per.flatMap (·.1), per.flatMap (·.2))

/-- Frames a list of appends needs. -/
def State.growNeed (s : State) (ctx : Nat) (g : List (Nat × Nat × Nat)) : Nat :=
  (g.map fun e => let p := s.growPages ctx e.1 e.2.1 e.2.2; p.1.length + p.2.length).foldl (· + ·) 0

/-- Charge and map one 64 KiB page. -/
def State.mapPage (s : State) (ctx va : Nat) : State :=
  match s.takeUnit ctx 1 with
  | some (s, n) => s.mapUnit ctx 3 va (n * 65536) true false 0 3
  | none => s

/-- Map the pages of the appends, copying shared ones (R87, R92). -/
def State.growMap (s : State) (ctx : Nat) (g : List (Nat × Nat × Nat)) : State :=
  s.each g fun s e =>
    let p := s.growPages ctx e.1 e.2.1 e.2.2
    let s := s.each p.2 fun s va => (s.cow ctx va).getD s
    s.each p.1 fun s va => s.mapPage ctx va

/-! ## Swapping (R93, R96, R297, R298) -/

/-- The swap arena of a context is enabled, its capacity and base. -/
def State.arenaOn (s : State) (ctx : Nat) : Bool := s.rd .VF_SWAP_BASE_ENABLE ctx == 1
def State.arenaRoom (s : State) (ctx : Nat) : Nat := s.rd .VF_SWAP_SIZE_SIZE ctx - s.m.swapUsed.get 0 ctx
def State.arenaVA (s : State) (ctx page : Nat) : Nat :=
  hostKey (s.home ctx) (s.rd .VF_SWAP_BASE_ADDR ctx * 65536 + page * 65536)

/-- Arena pages a context holds. -/
def State.arenaHeld (s : State) (ctx : Nat) : List Nat :=
  (s.seqs.filter fun (kv : Nat × Seq) => kv.1 / 2 ^ 20 = ctx).flatMap fun (kv : Nat × Seq) => kv.2.arena.map (·.page)

/-- The key a partition's memory is encrypted with now. -/
def State.keyOf (s : State) (p : Nat) : Nat := p * 2 ^ 32 + s.m.keyEpoch.get 0 p

/-- 16-byte blocks of a byte list. -/
def blocks16 : Nat → List Byte → List Nat
  | 0, _ => []
  | n + 1, bs => leNat (bs.take 16) :: blocks16 n (bs.drop 16)

/-- A page encrypted for the arena; the tweak is the arena byte offset / 64 (R96). -/
def encPage (key page : Nat) (plain : List Byte) : List Byte :=
  ((blocks16 4096 plain).zipIdx).flatMap fun bi =>
    natLe 16 (Config.xtsEnc key (page * 1024 + bi.2 / 4) (bi.2 % 4) bi.1)

/-- A page read back from the arena: a block that is still what was written gives its plaintext. [DESIGN CHOICE: log 124] -/
def decPage (key page : Nat) (plain got : List Byte) : List Byte :=
  (((blocks16 4096 plain).zip (blocks16 4096 got)).zipIdx).flatMap fun bi =>
    let t := page * 1024 + bi.2 / 4
    natLe 16 (if bi.1.2 = Config.xtsEnc key t (bi.2 % 4) bi.1.1 % 2 ^ 128 then bi.1.1
      else Config.xtsDec key t (bi.2 % 4) bi.1.2)

/-- The lowest free arena page. -/
def lowestFree (held : List Nat) : Nat := ((List.range (held.length + 1)).find? fun i => !(held.contains i)).getD 0

/-- Write one page to the arena, unmap it, and remember it (R297). -/
def State.swapPage (s : State) (ctx h va : Nat) : State :=
  let plain := s.peek ctx va 65536
  let page := lowestFree (s.arenaHeld ctx)
  let s := s.putBytes (s.arenaVA ctx page) (encPage (s.keyOf (s.partOf ctx)) page plain)
  let q := s.seq ctx h
  let s := s.setSeq ctx h { q with arena := q.arena ++ [⟨va - windowVA (s.tensor ctx h).window, page, plain⟩] }
  let s : State := { s with m := { s.m with swapUsed := s.m.swapUsed.set 0 ctx (s.m.swapUsed.get 0 ctx + 1) } }
  s.unmapUnit ctx va

/-- Swap a sequence out: every page in ascending order, then SWAPPED (R93, R297). -/
def State.swapOut (s : State) (ctx h : Nat) : State :=
  let s := s.each (s.windowPages ctx (s.tensor ctx h).window) fun s va => s.swapPage ctx h va
  let s := s.setSeq ctx h { s.seq ctx h with marked := false }
  s.setTensor ctx h { s.tensor ctx h with swapped := true }

/-- Map a sequence's pages again at frames already charged (R298). -/
def State.swapIn (s : State) (ctx h : Nat) (frames : List Nat) : State :=
  let q := s.seq ctx h
  let base := windowVA (s.tensor ctx h).window
  let key := s.keyOf (s.partOf ctx)
  let s := s.each (q.arena.zip frames) fun s pf =>
    let got := (List.range 65536).map fun i => s.getByte (s.arenaVA ctx pf.1.page + i)
    let s := s.mapUnit ctx 3 (base + pf.1.off) (pf.2 * 65536) true false 0 3
    s.putBytes (pf.2 * 65536) (decPage key pf.1.page pf.1.plain got)
  let s : State := { s with m := { s.m with swapUsed := s.m.swapUsed.set 0 ctx (s.m.swapUsed.get 0 ctx - q.arena.length) } }
  let s := s.setSeq ctx h { q with arena := [] }
  s.setTensor ctx h { s.tensor ctx h with swapped := false }

/-! ## Parking (R93, R296, R299) -/

/-- A command in flight references a sequence: it binds it, holds it as an output, or its tail is held. -/
def State.seqInUse (s : State) (ctx h : Nat) : Bool :=
  (s.seq ctx h).tail.isSome ||
    s.flights.any fun f => gqCtx f.gq == ctx && (f.outs.contains h || f.binds.any fun b => b.handle == h)

/-- Parked commands of a context in the order they are resolved (R296). -/
def State.parked (s : State) (ctx : Nat) : List Flight :=
  sortBy (s.flights.filter fun f => gqCtx f.gq == ctx && f.phase == .parked) fun a b =>
    decide (a.ready < b.ready) || (a.ready == b.ready && decide (a.gq ≤ b.gq))

/-- The sequences a parked command itself waits for. -/
def Flight.ownSeqs (f : Flight) : List Nat := if dOp f.desc = 0x25 then [d32 f.desc 0x10] else f.grow.map (·.1)

/-- The next victim: lowest priority first, then newest creation (R93). -/
def State.nextVictim (s : State) (f : Flight) : Option Nat :=
  let ctx := gqCtx f.gq
  let cand := (s.seqs.filter fun (kv : Nat × Seq) => kv.1 / 2 ^ 20 = ctx).map fun (kv : Nat × Seq) => (kv.1 % 2 ^ 20, kv.2)
  let cand := cand.filter fun hq => !((s.tensor ctx hq.1).swapped) && !(s.seqInUse ctx hq.1) && !(f.ownSeqs.contains hq.1)
  ((sortBy cand fun a b => decide (b.2.prio < a.2.prio) ||
    (a.2.prio == b.2.prio && decide (b.2.created ≤ a.2.created))).head?).map (·.1)

/-- A park ends with PAGE_EXHAUSTED. -/
def State.failPark (s : State) (f : Flight) : State :=
  let ctx := gqCtx f.gq
  ((s.failFlight f 4 0).wr .VF_PARK_OUTCOME ctx 2).fire (ctxSrc ctx 3)

/-- The frames of a swap-in, one for each arena page. -/
def State.takeFrames (s : State) (ctx : Nat) : Nat → State × List Nat
  | 0 => (s, [])
  | n + 1 => match s.takeUnit ctx 1 with
    | none => (s, [])
    | some (s, k) => let r := s.takeFrames ctx n; (r.1, k :: r.2)

/-- The parked command's page need as things stand. -/
def State.parkNeed (s : State) (f : Flight) : Nat :=
  if dOp f.desc = 0x25 then (s.seq (gqCtx f.gq) (d32 f.desc 0x10)).arena.length else s.growNeed (gqCtx f.gq) f.grow

/-- The parked command resumes at the page check: its frames are charged. A swap-in goes on; an append
goes back to its place to start. -/
def State.resumePark (s : State) (f : Flight) : State :=
  let ctx := gqCtx f.gq
  let s := s.wr .VF_PARK_OUTCOME ctx 1
  if dOp f.desc = 0x25 then
    let r := s.takeFrames ctx (s.parkNeed f)
    r.1.setFlight { f with phase := .running, frames := r.2, start := s.gcnt
                           binds := [s.bindOf ctx (d32 f.desc 0x10)] }
  else (s.growMap ctx f.grow).setFlight { f with phase := .waiting, grow := [], need := 0 }

/-- Take up the first parked command of a context: resume it, choose its next victim, or fail it. -/
def State.resolvePark (s : State) (ctx : Nat) : Nat → State
  | 0 => s
  | fuel + 1 =>
    match s.parked ctx with
    | [] => s
    | f :: _ =>
      if s.canSupply ctx (s.parkNeed f) then (s.resumePark f).resolvePark ctx fuel
      else match s.nextVictim f with
      | none => (s.failPark f).resolvePark ctx fuel
      | some h =>
        if !(s.arenaOn ctx) || decide (s.arenaRoom ctx < (s.windowPages ctx (s.tensor ctx h).window).length) then
          (s.failPark f).resolvePark ctx fuel
        else s.setSeq ctx h { s.seq ctx h with marked := true }

/-- R93, R299: park a command that the pool cannot supply. Without an enabled arena it fails at once;
the first parked command of the context is taken up. -/
def State.park (s : State) (f : Flight) (need : Nat) : State :=
  let ctx := gqCtx f.gq
  let first := (s.parked ctx).isEmpty
  let s := s.freeSlots f
  let f := { f with phase := .parked, ready := s.gcnt, need := need, slots := [], binds := [], outs := [], bound := false, unit := 0 }
  let s := s.setFlight f
  let s := (((((s.wr .VF_PARK_VALID ctx 1).wr .VF_PARK_OUTCOME ctx 0).wr .VF_PARK_QUEUE ctx (f.gq % 512)).wr
    .VF_PARK_VICTIMS ctx 0).wr .VF_PARK_SLOT ctx (f.slot % 2 ^ (s.queue f.gq).sqLog)).wr .VF_PARK_NEED ctx (min need (2 ^ 24 - 1))
  let s := s.fire (ctxSrc ctx 3)
  if !(s.arenaOn ctx) then s.failPark f
  else if first then s.resolvePark ctx 513 else s

/-- R296: FC1 finishes writing the marked victim and unmaps it; the parked command resumes, the next
victim is chosen, or the park fails. -/
def execVictimSwappedOut (ctx : Nat) (s : State) : Host.Outcome State Fault Refusal :=
  .next (
    match (s.seqs.filter fun (kv : Nat × Seq) => kv.1 / 2 ^ 20 = ctx ∧ kv.2.marked ∧
        ¬ (s.flights.any fun f => gqCtx f.gq == ctx && dOp f.desc == 0x24 && f.phase == .running &&
          d32 f.desc 0x10 == kv.1 % 2 ^ 20)).head? with
    | none => s
    | some kv =>
      let s := s.swapOut ctx (kv.1 % 2 ^ 20)
      let s := s.inc .VF_PARK_VICTIMS ctx
      s.resolvePark ctx 513)

/-! ## The sequence commands -/

/-- A context's handle is a sequence. -/
def State.isSeq (s : State) (ctx h : Nat) : Bool := !(s.handleFree ctx h) && (s.tensor ctx h).kind == .sequence

/-- The lowest free window number of a context (R268). [DEDUCED: log 125] -/
def State.freeWindow (s : State) (ctx : Nat) : Option Nat :=
  let used := (s.seqs.filter fun (kv : Nat × Seq) => kv.1 / 2 ^ 20 = ctx).map fun (kv : Nat × Seq) => (s.tensor ctx (kv.1 % 2 ^ 20)).window
  let w := lowestFree used
  if w < 32768 then some w else none

/-- A format a sequence may hold (R268). -/
def seqFmtOk (c : Nat) : Bool := c == 0 || c == 1 || (decide (3 ≤ c) && decide (c ≤ 9))

/-- The layout a SEQ_CREATE body asks for. -/
def seqBody (g : Nat) (d : List Byte) : Seq :=
  { layers := d8 d 0x14, prio := d8 d 0x15, kvHeads := d16 d 0x16, headDim := d16 d 0x18
    fmtK := bits (d8 d 0x1A) 0 4, fmtV := bits (d8 d 0x1A) 4 4, scale := bits (d8 d 0x1B) 0 2 == 1
    gcode := bits (d8 d 0x1B) 2 2, created := g }

/-- R268: validation and conflict of SEQ_CREATE. -/
def seqCreateCheck (gq : Nat) (s : State) (d : List Byte) : Except (Nat × Nat) Plan :=
  let q := seqBody 0 d
  let h := d32 d 0x10
  let ctx := gqCtx gq
  if !(handleOk h) || q.layers == 0 || decide (128 < q.layers) || decide (15 < q.prio) || q.kvHeads == 0 ||
      decide (256 < q.kvHeads) || decide (q.headDim < 32) || decide (256 < q.headDim) || q.headDim % 32 != 0 ||
      !(seqFmtOk q.fmtK) || !(seqFmtOk q.fmtV) || decide (1 < bits (d8 d 0x1B) 0 2) || q.gcode == 3 ||
      bits (d8 d 0x1B) 4 4 != 0 || !(dZero d 0x1C 0x100) then .error (6, 0)
  else if s.rd .VF_TT_CAP_TT_CAP ctx ≤ h ∨ (s.tensor ctx h).kind ≠ .free then .error (5, h)
  else if 65536 < q.bptK ∨ 65536 < q.bptV ∨ (s.freeWindow ctx).isNone then .error (7, 0)
  else .ok {}

/-- Make a FREE handle a sequence with a new window and a given length. -/
def State.newSeq (s : State) (ctx h : Nat) (q : Seq) (len : Nat) : State :=
  let w := (s.freeWindow ctx).getD 0
  (s.setTensor ctx h { kind := .sequence, window := w, length := len }).setSeq ctx h q

def seqCreateAct (s : State) (f : Flight) : State := s.newSeq (gqCtx f.gq) (d32 f.desc 0x10) (seqBody s.gcnt f.desc) 0

/-- R268. -/
def execSeqCreate (ctx q : Nat) (s : State) : Host.Outcome State Fault Refusal :=
  let gq := qKey ctx q
  .next (s.startShort gq 0x21 seqCreateAct (seqCreateCheck gq))

/-- Pages of the parent that hold positions below a length, as offsets in the window (R294). -/
def forkOffs (q : Seq) (len : Nat) : List Nat :=
  (List.range (2 * q.layers)).flatMap fun r =>
    (List.range (ceilDiv (len * q.bpt r) 65536)).map fun i => r * q.regionSize + i * 65536

/-- R294: validation, conflict and limits of SEQ_FORK. [DEDUCED: log 126] -/
def seqForkCheck (gq : Nat) (s : State) (d : List Byte) : Except (Nat × Nat) Plan :=
  let ctx := gqCtx gq
  let p := d32 d 0x10
  let c := d32 d 0x14
  let pt := s.tensor ctx p
  if !(handleOk p) || !(handleOk c) || decide (15 < d8 d 0x1C) || !(dZero d 0x1D 0x100) then .error (6, 0)
  else if !(s.isSeq ctx p) then .error (5, p)
  else if s.rd .VF_TT_CAP_TT_CAP ctx ≤ c ∨ (s.tensor ctx c).kind ≠ .free then .error (5, c)
  else if pt.swapped then .error (0x0C, 0)
  else if pt.length < d32 d 0x18 ∨ (s.freeWindow ctx).isNone ∨
      (forkOffs (s.seq ctx p) (d32 d 0x18)).any (fun o =>
        match s.unitAt ctx (windowVA pt.window + o) with | some n => (s.frame n).ref == 65535 | none => false) then .error (7, 0)
  else .ok { ins := [p] }

/-- R294: the child shares the parent's pages copy-on-write. -/
def seqForkAct (s : State) (f : Flight) : State :=
  let ctx := gqCtx f.gq
  let p := d32 f.desc 0x10
  let c := d32 f.desc 0x14
  let q := s.seq ctx p
  let len := d32 f.desc 0x18
  let s := s.newSeq ctx c { q with prio := d8 f.desc 0x1C, created := s.gcnt, tail := none, marked := false, arena := [] } len
  let src := windowVA (s.tensor ctx p).window
  let dst := windowVA (s.tensor ctx c).window
  s.each (forkOffs q len) fun s o =>
    (s.shareUnit ⟨ctx, dst + o, src + o, 1, 1, 0, 3⟩ (dst + o) (src + o)).getD s

/-- A command must wait while FC1 or a swap-out holds a sequence (R296). -/
def State.seqMarked (s : State) (ctx h : Nat) : Bool := (s.seq ctx h).marked

/-- R294. -/
def execSeqFork (ctx q : Nat) (s : State) : Host.Outcome State Fault Refusal :=
  let gq := qKey ctx q
  .next (s.startCmd gq 0x22 seqForkAct (seqForkCheck gq) (fun s d => s.seqMarked ctx (d32 d 0x10)) (fun s f _ =>
    (s, { f with phase := .ended, endG := s.gcnt })) fun s => s.tryCommit gq 0x22 seqForkAct)

/-- The body HANDLE alone, naming a sequence. -/
def seqHandleCheck (gq : Nat) (s : State) (d : List Byte) : Except (Nat × Nat) Plan :=
  if !(handleOk (d32 d 0x10)) || !(dZero d 0x14 0x100) then .error (6, 0)
  else if !(s.isSeq (gqCtx gq) (d32 d 0x10)) then .error (5, d32 d 0x10)
  else .ok {}

/-- A command in flight binds the sequence, or another queue holds its tail (R295, R297). -/
def State.seqBusy (s : State) (gq h : Nat) : Bool :=
  (match (s.seq (gqCtx gq) h).tail with | some t => t.1 != gq | none => false) || s.seqMarked (gqCtx gq) h ||
    s.flights.any fun f => gqCtx f.gq == gqCtx gq && (f.outs.contains h || f.binds.any fun b => b.handle == h)

/-- R295: unmap every page, release arena pages, free the window and the entry. -/
def State.freeSeq (s : State) (ctx h : Nat) : State :=
  let s := s.each (s.windowPages ctx (s.tensor ctx h).window) fun s va => s.unmapUnit ctx va
  let n := (s.seq ctx h).arena.length
  let s : State := { s with m := { s.m with swapUsed := s.m.swapUsed.set 0 ctx (s.m.swapUsed.get 0 ctx - n) } }
  (s.setSeq ctx h {}).setTensor ctx h {}

def seqFreeAct (s : State) (f : Flight) : State := s.freeSeq (gqCtx f.gq) (d32 f.desc 0x10)

/-- R295. -/
def execSeqFree (ctx q : Nat) (s : State) : Host.Outcome State Fault Refusal :=
  let gq := qKey ctx q
  .next (s.startCmd gq 0x23 seqFreeAct (seqHandleCheck gq) (fun s d => s.seqBusy gq (d32 d 0x10)) (fun s f _ =>
    (s, { f with phase := .ended, endG := s.gcnt })) fun s => s.tryCommit gq 0x23 seqFreeAct)

/-- R162, R297: a swap-out of a resident sequence with arena room for every page. -/
def swapOutCheck (gq : Nat) (s : State) (d : List Byte) : Except (Nat × Nat) Plan :=
  match seqHandleCheck gq s d with
  | .error e => .error e
  | .ok p =>
    let ctx := gqCtx gq
    let t := s.tensor ctx (d32 d 0x10)
    if t.swapped then .error (5, d32 d 0x10)
    else if !(s.arenaOn ctx) || decide (s.arenaRoom ctx < (s.windowPages ctx t.window).length) then .error (7, 0)
    else .ok p

/-- [DESIGN CHOICE: log 123] -/
def swapOutAct (s : State) (f : Flight) : State := s.swapOut (gqCtx f.gq) (d32 f.desc 0x10)

/-- R297: the swap-out starts; from here a command against the sequence waits. -/
def execKvSwapOut (ctx q : Nat) (s : State) : Host.Outcome State Fault Refusal :=
  let gq := qKey ctx q
  .next (s.startCmd gq 0x24 swapOutAct (swapOutCheck gq) (fun s d => s.seqBusy gq (d32 d 0x10)) (fun s f _ =>
    (s.setSeq ctx (d32 f.desc 0x10) { s.seq ctx (d32 f.desc 0x10) with marked := true }, f)) id)

/-- R162, R298. -/
def swapInCheck (gq : Nat) (s : State) (d : List Byte) : Except (Nat × Nat) Plan :=
  match seqHandleCheck gq s d with
  | .error e => .error e
  | .ok p => if !((s.tensor (gqCtx gq) (d32 d 0x10)).swapped) then .error (5, d32 d 0x10) else .ok p

def swapInAct (s : State) (f : Flight) : State :=
  s.swapIn (gqCtx f.gq) (d32 f.desc 0x10) f.frames

/-- R298: the swap-in charges its frames, or parks. -/
def execKvSwapIn (ctx q : Nat) (s : State) : Host.Outcome State Fault Refusal :=
  let gq := qKey ctx q
  .next (s.startCmd gq 0x25 swapInAct (swapInCheck gq) notBlocked (fun s f _ =>
      let n := (s.seq ctx (d32 f.desc 0x10)).arena.length
      if s.canSupply ctx n then let r := s.takeFrames ctx n; (r.1, { f with frames := r.2 })
      else (s, { f with need := n + 1 }))
    fun s => match s.flightIn gq fun f => dOp f.desc == 0x25 && f.phase == .running && f.need != 0 with
      | some f => s.park f (f.need - 1)
      | none => s)

end Sys2Proof.Machine
end

