-- ==== Sys2Proof/Machine/Calderas.lean ====
section
/-! DEFINITION. The Calderas' slots: regions of local SRAM, binding a placed command, sequencers, and
the events of R222-R227 and R233. -/

namespace Sys2Proof.Machine

/-! ## Regions, line buffer and Sinter (R220, R222, R251, R283) -/

/-- Bank groups the weight residency takes: WRES_BANKS / 8, at most 6 (R169, R220). -/
def State.wresGroups (s : State) : Nat := min 48 (s.rd .SCH_CTRL_WRES_BANKS) / 8

/-- Present bank groups of a Caldera, ascending. -/
def State.groupsOf (s : State) (e : Nat) : List Nat := bitsOf (s.rd .CE_STATUS_GROUPS e) 8

/-- The 64 KiB units a Caldera's slot regions are taken from: 48 in each present group above the
residency's (R220, R222). -/
def State.regionUnits (s : State) (e : Nat) : List Nat :=
  ((s.groupsOf e).drop s.wresGroups).flatMap fun g => (List.range 48).map fun i => g * 48 + i

def State.regionAt (s : State) (e u : Nat) : RegionUnit := s.region.get {} (e * 512 + u)

/-- Units of a Caldera that can be given out. -/
def State.cleanUnits (s : State) (e : Nat) : List Nat := (s.regionUnits e).filter fun u => (s.regionAt e u).st == .clean

/-- Line-buffer and Sinter units of a Caldera that attempts hold. -/
def State.lbUsed (s : State) (e : Nat) : Nat :=
  ((s.flights.filter fun f => f.phase == .ready || f.phase == .running).map fun f =>
    f.lb * (f.slots.filter (·.1 = e)).length).foldl (· + ·) 0

def State.sinterUsed (s : State) (e : Nat) : Nat :=
  ((s.flights.filter fun f => f.phase == .ready || f.phase == .running).map fun f =>
    f.sinter * (f.slots.filter (·.1 = e)).length).foldl (· + ·) 0

/-- Slots an attempt holds on a Caldera. -/
def Flight.slotsOn (f : Flight) (e : Nat) : Nat := (f.slots.filter (·.1 = e)).length

/-- Every part's region, line-buffer and Sinter units are free. -/
def State.regionFits (s : State) (f : Flight) : Bool :=
  ((f.slots.map (·.1)).eraseDups).all fun e =>
    decide (f.sram * f.slotsOn e ≤ (s.cleanUnits e).length) && decide (s.lbUsed e + f.lb * f.slotsOn e ≤ 64) &&
      decide (s.sinterUsed e + f.sinter * f.slotsOn e ≤ 32)

/-- Give a slot its region. -/
def State.takeRegion (s : State) (e slot n ctx : Nat) : State :=
  s.each ((s.cleanUnits e).take n) fun s u =>
    { s with region := s.region.set {} (e * 512 + u) ⟨.used, ctx, slot⟩ }

/-- Set a slot's state. -/
def State.slotState (s : State) (f : Flight) (st : Nat) : State :=
  s.each f.slots fun s es => s.wr .CE_SLOT_STATE (es.1 * 32 + es.2) st

/-- R222, R224: the regions are taken and the slots wait for sequencers; without room the command waits. -/
def State.tryRegion (s : State) (f : Flight) : State :=
  if s.regionFits f then
    let s := s.each f.slots fun s es => s.takeRegion es.1 es.2 f.sram (gqCtx f.gq)
    (s.slotState f 2).setFlight { f with phase := .ready, ready := s.gcnt }
  else s.setFlight f

/-- The commands that run on Calderas. -/
def ceOp (op : Nat) : Bool :=
  op == 0x10 || op == 0x11 || (decide (0x18 ≤ op) && decide (op ≤ 0x1D)) || op == 0x20 || op == 0x38 || op == 0x39

/-! ## Starting a placed command (R224) -/

/-- What the body of a Caldera command asks for once it is valid. `wait` says that it must wait for a
tail or a swap-out; `tails` are the appends that take their sequence's tail. -/
structure CeCmd where
  plan : Plan
  extra : List Bind := []
  sram : Nat := 0
  lb : Nat := 0
  sinter : Nat := 0
  fmtN : Nat := 0xF
  wait : Bool := false
  grow : List (Nat × Nat × Nat) := []
  adv : Bool := false
  go : State → Nat → State × RunOut

/-- The slot's command ends with a failing status and binds no sequencer. -/
def State.ceFail (s : State) (f : Flight) (st addr : Nat) : State :=
  (s.slotState f 4).failFlight f st addr

/-- Take the tails of the sequences a command appends to (R273), and set PEND_TOKENS where it advances
them (R272). -/
def State.takeTails (s : State) (gq : Nat) (c : CeCmd) : State :=
  s.each c.grow fun s e =>
    let ctx := gqCtx gq
    let q := s.seq ctx e.1
    let s := s.setSeq ctx e.1 { q with tail := some (gq, e.2.1, e.2.2) }
    if c.adv then s.setTensor ctx e.1 { s.tensor ctx e.1 with pendTokens := e.2.2 } else s

/-- Step 2 of R224 for a command in a slot: the body's rules, R142, R143 and R92, then the region. [DESIGN CHOICE: log 104] -/
def State.ceStart (s : State) (gq op : Nat) (check : State → Nat → List Byte → Except (Nat × Nat) CeCmd) : State :=
  match s.flightIn gq fun f => f.phase == .placed && dOp f.desc == op with
  | none => s
  | some f =>
    if f.bound then s.tryRegion f
    else if !(headerOk gq f.desc) then s.ceFail f 6 0
    else match check s gq f.desc with
    | .error e => (if e.1 = 8 then s.detect (gqCtx gq) e.2 else s).ceFail f e.1 e.2
    | .ok c =>
      let ip := dInPlace f.desc
      let ctx := gqCtx gq
      if f.slots.any fun es => decide ((s.regionUnits es.1).length < c.sram * f.slotsOn es.1) then s.ceFail f 7 0
      else if c.wait || !(s.canAcquire gq ip c.plan) then s
      else
        let need := s.growNeed ctx c.grow
        if !(s.canSupply ctx need) && need != 0 then s.park { f with grow := c.grow } need
        else
          let s := s.growMap ctx c.grow
          let n := if f.attempt = 0 then c.fmtN else f.fmt
          let r := c.go s n
          let f := { f with
            bound := true, binds := c.plan.ins.map (s.bindOf ctx) ++ c.extra, outs := c.plan.outs, fmt := n, res := r.2
            sram := c.sram, lb := c.lb, sinter := c.sinter, start := s.gcnt, ready := s.gcnt }
          let s := (r.1.acquire gq f.slot ip c.plan.outs).takeTails gq c
          let s := s.each f.slots fun s es => s.wr .CE_SLOT_N (es.1 * 32 + es.2) n
          (s.issueReads f).tryRegion f

/-- A validated operator job as a Caldera command. -/
def ofJob (s : State) (gq : Nat) (d : List Byte) (j : Job) : Except (Nat × Nat) CeCmd :=
  match s.conflict gq (dInPlace d) j.plan with
  | some h => .error (5, h)
  | none =>
    if !(j.inside s (gqCtx gq)) then .error (6, 0)
    else .ok { plan := j.plan, sram := j.sram, lb := j.lb, sinter := j.sinter, fmtN := j.fmtN
               go := fun s n => s.runJob (gqCtx gq) (dInPlace d) n j }

/-- The check of a command whose body builds a job. -/
def jobCheck (mk : State → List Byte → Except (Nat × Nat) Job) (s : State) (gq : Nat) (d : List Byte) :
    Except (Nat × Nat) CeCmd :=
  match mk s d with
  | .error e => .error e
  | .ok j => ofJob s gq d j

/-! ## Sequencers (R225) -/

/-- Present sequencers of a Caldera, ascending; the two highest serve only classes 0 and 1. -/
def State.seqsOf (s : State) (e : Nat) : List Nat := bitsOf (s.rd .CE_STATUS_SEQS e) 16

/-- A sequencer is bound to a slot. -/
def State.seqBound (s : State) (e i : Nat) : Bool := (List.range 32).any fun sl => s.rd .CE_SLOT_STATE (e * 32 + sl) == 3 && s.rd .CE_SLOT_SEQ (e * 32 + sl) == i

/-- The waiting slots of a Caldera with their attempts, highest class first, then the oldest. -/
def State.waitingSlots (s : State) (e : Nat) : List (Nat × Flight) :=
  sortBy (s.flights.flatMap fun f => if f.phase == .ready || f.phase == .running then
      (f.slots.filter fun es => es.1 = e ∧ s.rd .CE_SLOT_STATE (e * 32 + es.2) = 2).map fun es => (es.2, f) else []) fun a b =>
    let ca := s.rd .CE_SLOT_CLASS (e * 32 + a.1)
    let cb := s.rd .CE_SLOT_CLASS (e * 32 + b.1)
    decide (ca < cb) || (ca == cb && decide (a.2.ready ≤ b.2.ready))

/-- R224 step 3, R225: the lowest-numbered free sequencer that may serve it takes the first waiting slot. [DEDUCED: log 105] -/
def execSequencerBind (ce : Nat) (s : State) : Host.Outcome State Fault Refusal :=
  .next (
    let seqs := s.seqsOf ce
    let free := seqs.filter fun i => !(s.seqBound ce i)
    let low := seqs.take (seqs.length - 2)
    match (s.waitingSlots ce).findSome? (fun sf =>
        (free.find? fun i => low.contains i || decide (s.rd .CE_SLOT_CLASS (ce * 32 + sf.1) ≤ 1)).map fun i => (sf, i)) with
    | none => s
    | some ((sl, f), i) =>
      (((s.wr .CE_SLOT_STATE (ce * 32 + sl) 3).wr .CE_SLOT_SEQ (ce * 32 + sl) i).setFlight
        { f with phase := .running }).startFirmware (seqCore ce i) false)

/-- R222: the zeroing of a freed slot region ends. [DESIGN CHOICE: log 106] -/
def execRegionZeroed (ce slot : Nat) (s : State) : Host.Outcome State Fault Refusal :=
  .next { s with region := (s.region.filter fun (kv : Nat × RegionUnit) =>
    ¬ (kv.1 / 512 = ce ∧ kv.2.slot = slot ∧ kv.2.st = .dirty)) }

/-- R233: a command has waited 1 ms for its region; the source fires on its Caldera. [DEDUCED: log 110] -/
def execRegionWait (ctx q : Nat) (s : State) : Host.Outcome State Fault Refusal :=
  .next (match s.flightIn (qKey ctx q) fun f => f.phase == .placed && f.bound && decide (f.ready + 100000 ≤ s.gcnt) with
    | some f => s.fire (192 + 16 * ((f.slots.map (·.1)).headD 0) + 11)
    | none => s)

/-- The attempt in a slot. -/
def State.inSlot (s : State) (e sl : Nat) : Option Flight := s.flights.find? fun f => f.slots.contains (e, sl)

/-- The first `n` bytes of a list of writes, in order. -/
def takeChunks : Nat → List Chunk → List Chunk
  | _, [] => []
  | n, c :: cs => if n = 0 then [] else if c.data.length ≤ n then c :: takeChunks (n - c.data.length) cs
      else [⟨c.va, c.data.take n⟩]

/-- A running in-place command is stopped with a status. How many of its bytes had reached memory is
not given: a free value (R89, R148). -/
def State.stopInPlace (s : State) (f : Flight) (st : Nat) : State :=
  let n := if f.phase = .running then Config.freeNat s.fresh 148 else 0
  let s := (({ s with fresh := s.fresh + 1 } : State).stChunks (gqCtx f.gq) (takeChunks n f.res.writes)).1
  (s.slotState f 4).failFlight f st 0

/-- Kill an attempt for the loss of its unit or memory: its slots count a kill (R146, R233). -/
def State.killSlots (s : State) (f : Flight) : State :=
  (s.each f.slots fun s es => s.wr .CE_PERF_COUNT (es.1 * 8 + 7) (s.rd .CE_PERF_COUNT (es.1 * 8 + 7) + 1)).kill f

/-- An in-place command's unit leaves service: it completes with UNIT_LOST; any other is killed (R146, R227). -/
def State.loseUnit (s : State) (f : Flight) : State :=
  if f.killable then s.killSlots f
  else s.stopInPlace f 0x0A

/-! ## Service states (R524, R525) -/

/-- Change CE_STATUS.STATE; STATE_CHANGE fires (R233). -/
def State.setCe (s : State) (e st : Nat) : State :=
  if s.rd .CE_STATUS_STATE e = st then s else (s.wr .CE_STATUS_STATE e st).fire (192 + 16 * e)

/-- CE_CTRL.RESULT leaves BUSY; CTRL_DONE fires (R233). -/
def State.ceDone (s : State) (e res : Nat) : State := (s.wr .CE_CTRL_RESULT e res).fire (192 + 16 * e + 12)

/-- REMOVE (R524): every killable slot is killed, the residency is emptied. -/
def State.ceTakeOut (s : State) (e : Nat) : State :=
  let s := (s.setCe e 2).wr .CE_CTRL_RESULT e 1
  let s := s.each (s.flights.filter fun f => f.killable && (f.slots.any fun x => x.1 == e)) State.killSlots
  { s with
    resident := s.resident.filter fun r => r.ce ≠ e
    ceJoin := s.ceJoin.filter (· ≠ e)
    brg := { s.brg with ceTested := s.brg.ceTested.filter (· ≠ e) } }

/-- R525: FC11 issues REMOVE, and TEST once it ends; a fault outside IN_SERVICE changes nothing. -/
def State.ceFault (s : State) (e : Nat) : State :=
  if s.rd .CE_STATUS_STATE e = 1 then
    let s := s.ceTakeOut e
    { s with brg := { s.brg with ceAuto := e :: s.brg.ceAuto.filter (· ≠ e) } }
  else s

end Sys2Proof.Machine
end

