-- ==== Sys2Proof/Machine/Keys.lean ====
section
/-! DEFINITION. Function keys and SPDM connections, as other units touch them (R531, R532, R539). -/

namespace Sys2Proof.Machine

/-- A calendar time as one number: year, month, day, hour, minute, second. -/
def packTime (y mo d h mi se : Nat) : Nat := y * 2 ^ 26 + mo * 2 ^ 22 + d * 2 ^ 17 + h * 2 ^ 12 + mi * 2 ^ 6 + se

/-- notBefore of a certificate issued now (R533). -/
def State.issueTime (s : State) : Nat :=
  if s.rd .CAL_STATUS_VALID = 1 then
    packTime (s.rd .CAL_TIME_YEAR) (s.rd .CAL_TIME_MONTH) (s.rd .CAL_TIME_DAY) (s.rd .CAL_TIME_HOUR) (s.rd .CAL_TIME_MINUTE)
      (s.rd .CAL_TIME_SECOND)
  else packTime 2000 1 1 0 0 0

/-- A function key is issued: what it is derived from, and when (R531). -/
def State.issueKey (s : State) (ctx : Nat) : State :=
  let p := s.partOf ctx
  { s with sec := { s.sec with keys := s.sec.keys.set (0, 0, 0) ctx (p, s.m.keyEpoch.get 0 p, s.issueTime) } }

/-- The keys of a boot: the firmware alias key and PF0's function key (R531). [DEDUCED: log 232] -/
def State.issueBoot (s : State) : State :=
  ({ s with sec := { s.sec with aliasTime := s.issueTime } } : State).issueKey pf0

/-- A function's SPDM connection ends: the next request must begin with GET_VERSION (R539). -/
def State.endConn (s : State) (ctx : Nat) : State :=
  { s with sec := { s.sec with
    conn := s.sec.conn.set {} ctx { s.sec.conn.get {} ctx with stage := 0 }
    signing := s.sec.signing.filter fun r => r.ctx ≠ ctx } }

end Sys2Proof.Machine
end

