-- ==== Sys2Proof/Machine/Reset.lean ====
section
/-! DEFINITION. The device reset (R552): every unit returns to its reset state but the always-on
domain, the fuses, the QSPI flash and what lies outside the device. -/

namespace Sys2Proof.Machine

/-- Fields of the always-on domain and of the fuses, which a device reset keeps (R552, R9). [DEDUCED: log 248] -/
def keptFields : List Fld :=
  [.CAL_TIME_YEAR, .CAL_TIME_MONTH, .CAL_TIME_DAY, .CAL_TIME_HOUR, .CAL_TIME_MINUTE, .CAL_TIME_SECOND,
    .CAL_TIME_DOW, .CAL_TIME_SUBSEC, .CAL_STAGE_DATE_TIME, .CAL_CTRL_PENDING, .CAL_STATUS_VALID,
    .CAL_STATUS_BADDATE, .CAL_STATUS_WRAP, .CAL_STATUS_LOADED, .PWR_STATUS_TRIPPED, .PWR_STATUS_PLL_LOST,
    .SYS_ID_PART, .SYS_ID_STEP_MAJOR, .SYS_ID_STEP_MINOR, .SEC_DIE_ID_DIE_ID, .SEC_STATUS_FW_SVN_FLOOR,
    .SEC_STATUS_ARB_STEPS, .SEC_STATUS_OWNER_SLOT, .SEC_STATUS_ALLOW_KEROLD, .SEC_STRUCT_FLOOR_FLOOR,
    .TST_EXPECT_SIG]

/-- A field keeps its value over a device reset. -/
def keptKey (k : Nat) : Bool := keptFields.any fun f => f.ctorIdx == k % 1024

/-- The state a device reset leaves. Host memory lies outside the device and is kept; HBM contents
are not. -/
def State.hardReset (s : State) : State :=
  { State.reset with
    pending := s.pending
    csr := s.csr.filter fun kv => keptKey kv.1
    mem := s.mem.filter fun c => decide (2 ^ 46 ≤ c.1)
    t := { stage := s.t.stage, framesOut := s.t.framesOut }
    pw := { strapHost := s.pw.strapHost, strapSmb := s.pw.strapSmb, strapTest := s.pw.strapTest, tapHold := s.pw.tapHold }
    sec := { owners := s.sec.owners }
    tst := { ir := s.tst.ir, dr := s.tst.dr, boundary := s.tst.boundary, pins := s.tst.pins }
    brg := { slots := s.brg.slots }
    sent := s.sent
    reqNext := s.reqNext
    fresh := s.fresh }

/-- R116, R553: the sampled straps are shown, and every function is homed on the strapped port, on
port A on KTV-6460. -/
def State.applyStraps (s : State) : State :=
  let port := if s.is6460 then 0 else s.pw.strapHost
  let s := ((s.wr .PWR_STRAPS_HOST_PRIMARY 0 s.pw.strapHost).wr .PWR_STRAPS_SMB_ADDR 0 s.pw.strapSmb).wr
    .PWR_STRAPS_TEST_EN 0 s.pw.strapTest
  let s := s.wr .HOST_CTRL_PF0_HOME 0 port
  s.each (List.range 8) fun s w => s.wr .HOST_HOME_HOME w (if port = 1 then 2 ^ 64 - 1 else 0)

/-- A device reset that the device makes itself (R527, R555, R581): it restarts from RESET. -/
def State.restart (s : State) : State := s.hardReset.applyStraps

end Sys2Proof.Machine
end

