-- ==== Sys2Proof/Machine/Bringup.lean ====
section
/-! DEFINITION. Bring-up, the health record, the floor plan, and repair of pseudo-channels, Calderas
and Fumaroles in service (R501-R529, R73-R76). -/

namespace Sys2Proof.Machine

/-! ## Readiness (R501, R529) -/

/-- R132: firmware creates the compositor queue M0; its ring lengths are not given, and are free. [DESIGN CHOICE: log 226] -/
def State.openM0 (s : State) : State :=
  let n := s.fresh
  ({ s with fresh := n + 1 } : State).setQueue qM0
    { st := .active, cls := 0, sqLog := 6 + Config.freeNat n 132 % 11, cqLog := 6 + Config.freeNat n 133 % 11, cont := true }

/-- Enter a readiness state with a failure reason; READINESS fires when either changes. -/
def State.setReadiness (s : State) (st reason : Nat) : State :=
  if s.rd .RDY_STATUS_STATE = st ∧ s.rd .BRG_STATE_FAIL_REASON = reason then s
  else
    let s := (s.wr .RDY_STATUS_STATE 0 st).wr .BRG_STATE_FAIL_REASON 0 reason
    let s := if st = 6 ∧ ¬ s.confReached then s.openM0 else s
    ({ s with confReached := s.confReached || st == 6 } : State).fire 0

def State.failed (s : State) (reason : Nat) : State := s.setReadiness 9 reason

/-- The readiness state is `st`, and the device is out of reset. -/
def State.inState (s : State) (st : Nat) : Bool := s.rd .RDY_STATUS_STATE == st && !s.inReset && !s.pw.tripHeld

/-- R501, R478: the root PLL locks, GCNT starts, FC0's boot ROM runs. -/
def execPllLock (s : State) : Host.Outcome State Fault Refusal :=
  .next (if s.inState 0 then ({ s with t := { s.t with running := true } } : State).setReadiness 1 0 else s)

/-- R555: no lock 0.5 ms after reset release. -/
def execPllLockTimeout (s : State) : Host.Outcome State Fault Refusal :=
  .next (if s.inState 0 then s.failed 2 else s)

/-- R555: a loss of lock acts as RESET_N and sets PLL_LOST; the device restarts from RESET. -/
def execPllLost (s : State) : Host.Outcome State Fault Refusal :=
  .next (if s.t.running ∧ ¬ s.inReset then s.restart.wr .PWR_STATUS_PLL_LOST 0 1 else s)

/-! ## Firmware (R504, R505, R534, R460) -/

/-- The firmware image the ROM runs: of those it accepts, the one of higher version, slot A on a tie. -/
def State.pickFw (s : State) (fw : List FwImage) : Option FwImage :=
  ((fw.take 2).filter fun i => i.ok && decide (i.svn ≤ 64) && decide (s.rd .SEC_STATUS_FW_SVN_FLOOR ≤ i.svn)).foldl
    (fun (b : Option FwImage) (i : FwImage) => match b with
      | none => some i
      | some x => if x.version < i.version then some i else some x) none

/-- R460: the routing firmware gives system source `src`. Target, priority and type are its own choice:
free values. [DESIGN CHOICE: log 216] -/
def State.firmwareRoute (s : State) (src : Nat) : State :=
  let v := Config.freeNat (s.brg.fwBase + src) 460
  let s := (((s.wr .GEY_SRC_TARGET src (v % 12)).wr .GEY_SRC_PRIORITY src (v / 12 % 16)).wr .GEY_SRC_LEVEL src (v / 192 % 2)).wr
    .GEY_SRC_ENABLE src 1
  (s.resetUnit .GEY_SRC_GROUP src).wr .GEY_SRC_VECTOR src 0

def State.firmwareRouting (s : State) : State :=
  (({ s with fresh := s.fresh + 704, brg := { s.brg with fwBase := s.fresh } } : State)).each (List.range 704) State.firmwareRoute

/-- The cores without which the device fails: FC0-FC2 and FC9-FC11. -/
def vitalCore (c : Nat) : Bool := decide (c < 3) || (decide (9 ≤ c) && decide (c < 12))

/-- R505: `dead` lists the cores whose section check failed twice: Fumarole c as c, sequencer i of
CEe as 12 + 16e + i, shader core j as 108 + j. TEST_EN keeps the device in ROM (R553).
[DESIGN CHOICE: log 214] [DESIGN CHOICE: log 215] -/
def execFirmwareMulticast (fw : List FwImage) (dead : List Nat) (s : State) : Host.Outcome State Fault Refusal :=
  .next (
    if !(s.inState 1) || s.pw.strapTest == 1 then s
    else match s.pickFw fw with
      | none => s.failed 1
      | some i =>
        if dead.any vitalCore then s.failed 3
        else
          let s : State := { s with
            brg := { s.brg with deadCores := dead }
            sec := { s.sec with fwVersion := i.version, fwSvn := i.svn, fwDigest := i.digest } }
          let s := (s.setReadiness 2 0).firmwareRouting.issueBoot
          s.each ((List.range 12).filter fun c => !(dead.contains c)) fun s c => s.startFirmware c true)

/-! ## The path (R502) -/

/-- What the next record starts from. A record of this die and part carries its restart count and
Caldera record over; the warm path keeps all of it. [DEDUCED: log 217] -/
def State.startRecord (s : State) (warm : Bool) : Health :=
  let base : Health := { dieId := s.dieId, part := s.rd .SYS_ID_PART, fwVersion := s.sec.fwVersion }
  match s.healthNow with
  | none => base
  | some (_, h) =>
    if warm then { h with fwVersion := s.sec.fwVersion, fullReq := false }
    else { base with seq := h.seq, faultFirst := h.faultFirst, faultCount := h.faultCount, ceRec := h.ceRec }

/-- R502, R533: FC0 checks certificates 0-2 and chooses the path; TRAINING begins. -/
def execPathChosen (certs : Bool) (s : State) : Host.Outcome State Fault Refusal :=
  .next (
    if !(s.inState 2) then s
    else if !certs then s.failed 1
    else
      let warm := s.healthNow.elim false fun x => s.warmOk x.2
      let s : State := { s with brg := { s.brg with
        cur := s.startRecord warm, trainG := s.gcnt, keep := (s.startRecord warm).retired } }
      let s := s.each (List.range 4) fun s k => s.wr .BRG_HBM_STATE k 2
      (s.wr .BRG_STATE_PATH 0 (b2n warm)).setReadiness 3 0)

def State.warmPath (s : State) : Bool := s.rd .BRG_STATE_PATH == 1

/-! ## Training (R506) -/

/-- The channel state the record holds. -/
def State.recordRetired (s : State) (pc : Nat) : Bool := bits (s.brg.cur.pcRec.get 0 pc) 24 4 == 5

/-- TRAINING ends: each stack's STATE, PASS and ATTEMPTS, and each channel's spare rows (R75). -/
def execTrainingDone (hbms : List (Nat × Nat × Nat)) (spares : List Nat) (s : State) : Host.Outcome State Fault Refusal :=
  .next (
    if !(s.inState 3) then s
    else
      let s := s.each hbms.zipIdx fun s (xk : (Nat × Nat × Nat) × Nat) =>
        if xk.2 < 4 then
          ((s.wr .BRG_HBM_STATE xk.2 xk.1.1).wr .BRG_HBM_PASS xk.2 xk.1.2.1).wr .BRG_HBM_ATTEMPTS xk.2 (min 255 xk.1.2.2)
        else s
      let s := s.each (List.range 128) fun s pc =>
        if s.warmPath && s.recordRetired pc then s.pcState pc 5
        else if s.rd .BRG_HBM_STATE (pc / 32) = 3 ∧ (s.rd .BRG_HBM_PASS (pc / 32)).testBit (pc % 32) then
          (s.pcState pc 2).wr .MEM_PC_STATUS_REPAIR_LEFT pc (min 255 (spares.getD pc 0))
        else s.pcState pc 0
      (s.wr .BRG_MEMTEST_MODE 0 (if s.warmPath then 2 else 1)).setReadiness 4 0)

/-! ## Memory test and row repair (R508-R510, R75) -/

/-- The PC_RECORD word of a channel with its counts raised (R511). -/
def State.pcCount (s : State) (pc lo n : Nat) : State :=
  let w := s.brg.cur.pcRec.get 0 pc
  let v := min 255 (bits w lo 8 + n)
  let w := w - bits w lo 8 * 2 ^ lo + v * 2 ^ lo
  { s with brg := { s.brg with cur := { s.brg.cur with pcRec := s.brg.cur.pcRec.set 0 pc w } } }

/-- R75: a repair uses a spare row; source 67 fires, and 68 when none is left. -/
def State.repairRow (s : State) (pc : Nat) : State :=
  let left := s.rd .MEM_PC_STATUS_REPAIR_LEFT pc - 1
  let s := ((s.wr .MEM_PC_STATUS_REPAIR_LEFT pc left).pcCount pc 8 1).fire 67
  let s : State := { s with brg := { s.brg with dirty := true } }
  s.fireIf (left == 0) 68

/-- The rows of one channel that failed a test: repaired and listed, or the channel cannot be kept
(R510). The result says whether it can. [DEDUCED: log 218] -/
def State.testRows (s : State) (pc : Nat) : List Nat → State × Bool
  | [] => (s, true)
  | r :: rs =>
    if s.rd .MEM_PC_STATUS_REPAIR_LEFT pc = 0 then (s, false)
    else
      let s := s.repairRow pc
      let cur := s.brg.cur
      let sus := if cur.suspect.contains r ∨ 4096 ≤ cur.suspect.length then cur.suspect else cur.suspect ++ [r]
      let s := { s with brg := { s.brg with cur := { cur with suspect := sus } } }
      ((s.inc .BRG_MEMTEST_ROWS_REPAIRED 0).testRows pc rs)

/-- One channel's result: `true` when it stays usable. Rows are in the layout of SUSPECT (R511). -/
def State.testChannel (s : State) (pc : Nat) (rows : List Nat) : State × Bool :=
  let mine := rows.filter fun r => r % 128 = pc
  let w := s.brg.cur.pcRec.get 0 pc
  let s : State := { s with brg := { s.brg with cur := { s.brg.cur with
    pcRec := s.brg.cur.pcRec.set 0 pc (w - bits w 16 8 * 2 ^ 16 + min 255 mine.length * 2 ^ 16) } } }
  let s := s.inc .BRG_MEMTEST_ROWS_FAILED 0 mine.length
  let r := s.testRows pc (mine.take 8)
  (r.1, r.2 && decide (mine.length ≤ 8))

/-- The memory test of bring-up ends: channels with too many bad rows read RETIRED. -/
def State.endMemtest (s : State) (rows : List Nat) : State :=
  let s := s.each (List.range 128) fun s pc =>
    if s.rd .MEM_PC_STATUS_STATE pc = 2 then
      match s.testChannel pc rows with
      | (s, true) => s
      | (s, false) => (s.pcState pc 5).inc .BRG_MEMTEST_PCS_RETIRED 0
    else s
  let s : State := if s.warmPath then s
    else { s with brg := { s.brg with cur := { s.brg.cur with fullTime := s.date.encode } } }
  ((s.wr .BRG_MEMTEST_MODE 0 0).fire 3).setReadiness 5 0

/-! ## Interleave sets (R70, R72) -/

/-- A set holds allocations. -/
def State.setBusy (s : State) (n : Nat) : Bool := !(s.setHeld n).isEmpty

/-- The groups R70 cuts from a list of channels. -/
def cutGroups : Nat → List Nat → List (List Nat)
  | 0, _ => []
  | fuel + 1, l =>
    if l.isEmpty then []
    else
      let k := min 32 (2 ^ Nat.log2 l.length)
      l.take k :: cutGroups fuel (l.drop k)

/-- The lowest set number no channel uses. -/
def State.freeSet (s : State) : Nat := ((List.range 128).find? fun n => (s.members n).isEmpty).getD 128

/-- What stays with the cells of a set: its undetected (0) and poisoned (1) lines and its retired frames (2),
by channel and offset. -/
def State.badCells (s : State) (n : Nat) : List (Nat × Nat × Nat) :=
  let of := fun (lines : List Nat) (kind : Nat) => lines.filterMap fun line =>
    (s.locate n (line % 2 ^ 32 * 64)).map fun po => (po.1, po.2, kind)
  of (s.m.latent.keysIn (n * 2 ^ 32) ((n + 1) * 2 ^ 32)) 0 ++ of (s.m.poison.keysIn (n * 2 ^ 32) ((n + 1) * 2 ^ 32)) 1 ++
    of (((s.m.frames.keysIn (n * 2 ^ 22) ((n + 1) * 2 ^ 22)).filter fun k => (s.frame k).st == .retired).map (· * 1024)) 2

/-- The physical line of a channel's offset. -/
def State.lineAt (s : State) (pc off : Nat) : Option Nat :=
  let n := s.rd .MEM_PC_STATUS_ISET pc
  if n = 0xFF then none
  else
    let mem := s.members n
    (mem.findIdx? (· == pc)).map fun i => (n * 2 ^ 38 + unlocate mem.length i off) / 64

/-- Forget a set: its channels lie in none, and its addresses hold nothing. -/
def State.dropSet (s : State) (n : Nat) : State :=
  let ms := s.members n
  let s : State := { s with
    mem := Sparse.clear s.mem (n * 2 ^ 38) ((n + 1) * 2 ^ 38)
    m := { s.m with
      frames := s.m.frames.clear (n * 2 ^ 22) ((n + 1) * 2 ^ 22)
      poison := s.m.poison.clear (n * 2 ^ 32) ((n + 1) * 2 ^ 32)
      latent := s.m.latent.clear (n * 2 ^ 32) ((n + 1) * 2 ^ 32) } }
  s.each ms fun s pc => s.wr .MEM_PC_STATUS_ISET pc 0xFF

/-- A free frame becomes RETIRED again. -/
def State.keepRetired (s : State) (pc frame : Nat) : State :=
  if (s.frame frame).st = .free then s.setFrame frame { st := .retired, part := s.rd .MEM_PC_STATUS_PARTITION pc } else s

/-- Put the bad lines back where their cells are now addressed; a free frame that holds a poisoned
line, or was retired, is RETIRED (R76). -/
def State.restoreBad (s : State) (l : List (Nat × Nat × Nat)) : State :=
  s.each l fun s x =>
    match s.lineAt x.1 x.2.1 with
    | none => s
    | some line =>
      if x.2.2 = 0 then { s with m := { s.m with latent := s.m.latent.set 0 line 1 } }
      else if x.2.2 = 1 then
        ({ s with m := { s.m with poison := s.m.poison.set 0 line 1 } } : State).keepRetired x.1 (line / 1024)
      else s.keepRetired x.1 (line / 1024)

/-- The frames that the record of a warm start lists in a set are RETIRED again once it is formed (R76); a channel
holds 18,432 frames. -/
def State.keepRecorded (s : State) (p n k : Nat) : State :=
  let mine := s.brg.keep.filter fun f => f / 2 ^ 22 = n ∧ f % 2 ^ 22 < k * 18432
  let s := s.each mine fun s f => s.setFrame f { st := .retired, part := p }
  { s with brg := { s.brg with keep := s.brg.keep.filter fun f => !(mine.contains f) } }

/-- Form the sets of a list of channels for a partition (R70). -/
def State.formSets (s : State) (p : Nat) (chans : List Nat) : State :=
  s.each (cutGroups 129 (sortBy chans.eraseDups fun a b => decide (a ≤ b))) fun s g =>
    let n := s.freeSet
    (s.each g fun s pc =>
      ((s.wr .MEM_PC_STATUS_ISET pc n).wr .MEM_PC_STATUS_PARTITION pc p).pcState pc 1).keepRecorded p n g.length

/-- R70, R72: sets that hold allocations stay whole; every other channel of the partition but `gone`,
with those added, is grouped anew. -/
def State.regroup (s : State) (p : Nat) (added gone : List Nat) : State :=
  let drop := (s.setsOf p).filter fun n => !(s.setBusy n) || ((s.members n).any gone.contains)
  let chans := ((drop.flatMap s.members) ++ added).filter fun pc => !(gone.contains pc)
  let bad := drop.flatMap s.badCells
  ((s.each drop State.dropSet).formSets p chans).restoreBad bad

/-! ## The floor plan (R514, R515) -/

def State.setFloor (s : State) (i v : Nat) : State :=
  { s with brg := { s.brg with cur := { s.brg.cur with
      floor := (List.range 18).map fun k => if k = i then v else s.brg.cur.floor.getD k 0 } } }

/-- Channels that are neither ABSENT nor RETIRED, as a mask of 64 from `lo`. -/
def State.pcMask (s : State) (lo : Nat) : Nat :=
  ((List.range 64).map fun i =>
    let st := s.rd .MEM_PC_STATUS_STATE (lo + i)
    b2n (st != 0 && st != 5) * 2 ^ i).foldl (· + ·) 0

/-- Words 1 and 2 follow the channels; a change increments GENERATION and fires FLOOR_PLAN. -/
def State.refloorPcs (s : State) : State :=
  let f := s.brg.cur.floor
  if f.getD 1 0 = s.pcMask 0 ∧ f.getD 2 0 = s.pcMask 64 then s
  else
    (((s.setFloor 1 (s.pcMask 0)).setFloor 2 (s.pcMask 64)).setFloor 17 ((f.getD 17 0 + 1) % 2 ^ 32)).fire 1

/-- A mask without the bits a list names. -/
def maskOff (x : Nat) (l : List Nat) : Nat := l.foldl clrBit x

/-- The floor plan CHECKING builds from the self-test's words: on the warm path only what the record
lists, without the dead cores, and with the presence rules of R7, R213, R361, R505 and R525. [DEDUCED: log 265] -/
def State.buildFloor (s : State) (raw : List Nat) : List Nat :=
  let w := fun i =>
    let v := raw.getD i 0
    if s.warmPath then Nat.land v (s.brg.cur.floor.getD i 0) else v
  let dead := s.brg.deadCores
  let fcs := maskOff (bits (w 0) 48 12) (dead.filter (· < 12))
  let seqs := fun e => maskOff (bits (w (10 + e)) 16 16) ((dead.filter fun c => 12 + 16 * e ≤ c ∧ c < 28 + 16 * e).map (· - (12 + 16 * e)))
  let groups := fun e => ((List.range 8).map fun g => b2n (bits (w (4 + e)) (8 * g) 8 == 255) * 2 ^ g).foldl (· + ·) 0
  let failed := fun e => !s.warmPath && decide (2 ≤ bits (s.brg.cur.ceRec.get 0 e) 0 8)
  let ce := fun e => (w 0).testBit e && fcs.testBit (3 + e) && bits (w (10 + e)) 0 2 != 0 &&
    decide (4 ≤ (bitsOf (seqs e) 16).length) && decide (2 ≤ (bitsOf (groups e) 8).length) && !(failed e)
  let ces := ((List.range 6).map fun e => b2n (ce e) * 2 ^ e).foldl (· + ·) 0
  let shaders := maskOff (bits (w 16) 32 24) ((dead.filter (108 ≤ ·)).map (· - 108))
  let ember := (w 0).testBit 28 && decide (4 ≤ (bitsOf shaders 24).length) &&
    decide (4 ≤ (bitsOf (w 16) 16).length) && decide (4 ≤ (bitsOf (bits (w 16) 16 16) 16).length)
  let fcs := if s.is6460 then maskOff fcs (((List.range 6).filter fun e => !(ces.testBit e)).map (3 + ·)) else fcs
  let w0 := ces + bits (w 0) 8 20 * 2 ^ 8 + b2n ember * 2 ^ 28 + bits (w 0) 32 4 * 2 ^ 32 + bits (w 0) 40 2 * 2 ^ 40 + fcs * 2 ^ 48
  [w0, s.pcMask 0, s.pcMask 64, w 3] ++
    ((List.range 6).map fun e => if ce e then w (4 + e) else 0) ++
    ((List.range 6).map fun e => if ce e then bits (w (10 + e)) 0 2 + groups e * 2 ^ 8 + seqs e * 2 ^ 16 else 0) ++
    [bits (w 16) 0 32 + shaders * 2 ^ 32, 0]

/-- The status registers that show the floor plan. -/
def State.showFloor (s : State) : State :=
  let f := s.brg.cur.floor
  let has := fun i => (f.getD 0 0).testBit i
  let s := s.each (List.range 6) fun s e =>
    let w := f.getD (10 + e) 0
    (((s.wr .CE_STATUS_ARRAYS e (bits w 0 2)).wr .CE_STATUS_GROUPS e (bits w 8 8)).wr .CE_STATUS_SEQS e (bits w 16 16)).wr
      .CE_STATUS_STATE e (b2n (has e))
  let s := s.each (List.range 8) fun s i =>
    (s.wr .DSP_STATUS_STATE i (b2n (has (8 + i)))).wr .VIN_STATUS_STATE i (b2n (has (16 + i)))
  let s := s.each (List.range 4) fun s l => s.wr .VIS_STATUS_STATE l (b2n (has (24 + l)))
  (((s.wr .EMB_STATUS_STATE 0 (b2n (has 28))).wr .EMB_STATUS_TILE_UNITS 0 (bits (f.getD 16 0) 0 16)).wr
    .EMB_STATUS_TEXTURE_UNITS 0 (bits (f.getD 16 0) 16 16)).wr .EMB_STATUS_SHADERS 0 (bits (f.getD 16 0) 32 24)

/-! ## Writing the health record (R512) -/

/-- The PC_RECORD word of a channel now. -/
def State.pcWord (s : State) (pc : Nat) : Nat :=
  s.rd .MEM_PC_STATUS_REPAIR_LEFT pc + bits (s.brg.cur.pcRec.get 0 pc) 8 16 * 2 ^ 8 + s.rd .MEM_PC_STATUS_STATE pc * 2 ^ 24

/-- The record FC11 writes now. -/
def State.record (s : State) : Health :=
  let c := s.brg.cur
  { c with
    fullReq := s.rd .BRG_CTRL_NEXT_FULL == 1
    seq := c.seq + 1
    dieId := s.dieId, part := s.rd .SYS_ID_PART, fwVersion := s.sec.fwVersion
    pcRec := (List.range 128).foldl (fun m pc => m.set 0 pc (s.pcWord pc)) []
    retired := (sortBy (s.retiredFrames ++ s.brg.keep) fun a b => decide (a ≤ b)).take 16384 }

/-- Write a record into the slot that does not hold the newest valid one; a write that fails twice
leaves the previous record (R504, R512). -/
def State.writeHealth (s : State) (ok : Bool) : State :=
  let s : State := { s with brg := { s.brg with dirty := false } }
  if ok then
    let h := s.record
    let slot := s.healthNow.elim 0 fun x => 1 - x.1
    ({ s with brg := { s.brg with cur := h, slots := s.brg.slots.set slot (some h) } } : State).fire 2
  else s.fire 8

/-- R512: the events of a second are written together; while FC11 restarts they wait (R526). -/
def execHealthRecordWrite (ok : Bool) (s : State) : Host.Outcome State Fault Refusal :=
  .next (if s.brg.dirty ∧ ¬ s.inReset ∧ ¬ s.brg.fcDown.contains 11 then s.writeHealth ok else s)

/-- R512: a write of BRG_CTRL that changes NEXT_FULL writes FULL_REQUESTED into the record. -/
def State.brgCtrl (s : State) (val : Nat) : State :=
  (((s.wr .BRG_CTRL_HEALTH_MAX_AGE 0 (bits val 8 8)).wr .BRG_CTRL_NEXT_FULL 0 (bits val 2 1)).wr
    .BRG_CTRL_AUTO_RETURN 0 (bits val 1 1)).wr .BRG_CTRL_AUTO_RETIRE 0 (bits val 0 1)

def execNextFullWrite (val : Nat) (ok : Bool) (s : State) : Host.Outcome State Fault Refusal :=
  .next (s.accessed .early fun s =>
    let old := s.rd .BRG_CTRL_NEXT_FULL
    let s := s.brgCtrl val
    if bits val 2 1 ≠ old ∧ s.confReached then s.writeHealth ok else s)

/-! ## Checking (R514) -/

/-- The units of the floor plan that CHECKING tests, with their classes; Fumaroles on the cold path (R573). [DEDUCED: log 253] -/
def State.checked (s : State) : List (Nat × Nat) :=
  let w := s.brg.cur.floor.getD 0 0
  let some_ := fun (cls lo n : Nat) => (bitsOf (bits w lo n) n).map fun i => (cls, i)
  some_ 1 0 6 ++ some_ 2 28 1 ++ some_ 3 24 4 ++ some_ 4 8 8 ++ some_ 5 16 8 ++ some_ 6 32 4 ++ [(7, 0)] ++
    (if s.warmPath then [] else some_ 8 48 12)

/-- They have passed their tests (R501, R577, R582). -/
def State.showTests (s : State) : State :=
  (s.each s.checked fun s u => (s.wr .TST_UNIT_PASSED (tstUnit u.1 u.2) 1).inc .TST_UNIT_RUNS (tstUnit u.1 u.2)).fire 644

/-- The end of CHECKING. `words` is what the self-test of every unit finds, in the layout of R515. -/
def execCheckingDone (words : List Nat) (ok : Bool) (s : State) : Host.Outcome State Fault Refusal :=
  .next (
    if !(s.inState 5) then s
    else
      let s : State := { s with brg := { s.brg with cur := { s.brg.cur with floor := s.buildFloor words } } }
      (s.showFloor.showTests.writeHealth ok).setReadiness 6 0)

/-! ## Pseudo-channels in service (R520-R523) -/

/-- BRG_PC_CTRL's own fields, and whether its OP is taken: not while RESULT is BUSY. -/
def State.pcCtrl (s : State) (val : Nat) (op : State → Nat → State) : State :=
  let busy := s.rd .BRG_PC_CTRL_RESULT == 1
  let s := s.wr .BRG_PC_CTRL_PC 0 (bits val 40 7)
  if busy then s else op s (bits val 40 7)

/-- BRG_PC_CTRL.RESULT leaves BUSY (R529). -/
def State.pcDone (s : State) (res : Nat) : State := ((s.wr .BRG_PC_CTRL_RESULT 0 res).fire 4).nextRetire

/-- [DEDUCED: log 220] -/
def execPcRetire (val : Nat) (s : State) : Host.Outcome State Fault Refusal :=
  .next (s.accessed .early fun s => s.pcCtrl val State.startRetire)

/-- Move one unit to another set: bytes, poison marks, mappings and its page-frame entries (R520). -/
def State.moveUnit (s : State) (src dst k : Nat) : State :=
  let fs := (List.range k).map fun i => s.frame (src + i)
  let s := s.copyFrames src dst k
  let s := s.each fs.zipIdx fun s (fi : Frame × Nat) => (s.setFrame (dst + fi.2) fi.1).setFrame (src + fi.2) {}
  let m := s.m
  let pte := m.pte.map fun (kv : Nat × Nat) =>
    let pa := ptePA kv.2
    if pteV kv.2 ∧ pa < 2 ^ 45 ∧ src * 65536 ≤ pa ∧ pa < (src + k) * 65536 then
      (kv.1, kv.2 - pa + (pa - src * 65536 + dst * 65536))
    else kv
  { s with
    resident := s.resident.map fun r => { r with tiles := r.tiles.filter fun n => ¬ (src ≤ n ∧ n < src + k) }
    m := { m with
      pte := pte
      poison := m.poison.clear (src * 1024) ((src + k) * 1024)
      latent := m.latent.clear (src * 1024) ((src + k) * 1024)
      hotTaken := (m.hotTaken.filter fun (kv : Nat × Nat) => src ≤ kv.1 ∧ kv.1 < src + k).foldl
        (fun h (kv : Nat × Nat) => h.set 0 (kv.1 - src + dst) kv.2) (m.hotTaken.clear src (src + k)) } }

/-- Move the units of a set out, in address order, until one does not fit. -/
def State.moveOut (s : State) (p n : Nat) : Nat → State
  | 0 => s
  | fuel + 1 =>
    match (s.setHeld n).head? with
    | none => s
    | some f =>
      let k := unitFrames (s.frame f).unit
      match s.findFrames p k k with
      | none => s
      | some d => (s.moveUnit f d k).moveOut p n fuel

/-- Channels of a partition that hold its memory. -/
def State.partChans (s : State) (p : Nat) : List Nat := (s.setsOf p).flatMap s.members

/-- R520 steps 2-4, R522. The move also ends, with DONE, when no page is left of its set (R523). -/
def State.retireEnd (s : State) (pc : Nat) : State :=
  let p := s.rd .MEM_PC_STATUS_PARTITION pc
  let n := s.rd .MEM_PC_STATUS_ISET pc
  let s := s.moveOut p n (s.m.frames.length + 1)
  let left := (s.setHeld n).length
  let s := s.wr .BRG_PC_CTRL_PAGES_LEFT 0 left
  if left ≠ 0 then s.pcDone 3
  else
    let s := (s.regroup p [] [pc]).pcState pc 5
    let s : State := { s with brg := { s.brg with dirty := true, pcTested := s.brg.pcTested.filter (· ≠ pc) } }
    let s := s.refloorPcs
    let s := s.fireIf (decide ((s.partChans p).length < 2)) 7
    if s.rd .BRG_CTRL_AUTO_RETURN = 1 ∧ s.brg.pcAuto.contains pc then
      -- FC11 goes on to TEST
      let s := (s.wr .BRG_PC_CTRL_RESULT 0 0).fire 4
      ((s.pcState pc 4).wr .BRG_PC_CTRL_RESULT 0 1).wr .BRG_MEMTEST_MODE 0 3
    else s.pcDone 0

/-- A retirement move ends, or room has appeared for one that had stopped. -/
def execRetireEnd (pc : Nat) (s : State) : Host.Outcome State Fault Refusal :=
  .next (
    if pc < 128 ∧ s.rd .MEM_PC_STATUS_STATE pc = 3 ∧ (s.rd .BRG_PC_CTRL_RESULT ≠ 1 ∨ s.brg.pcOp = pc) then s.retireEnd pc
    else s)

/-- R521: TEST on a RETIRED channel. -/
def execPcTest (val : Nat) (s : State) : Host.Outcome State Fault Refusal :=
  .next (s.accessed .early fun s => s.pcCtrl val fun s pc =>
    if s.rd .MEM_PC_STATUS_STATE pc = 5 then
      let s : State := { s with brg := { s.brg with pcOp := pc } }
      ((s.pcState pc 4).wr .BRG_PC_CTRL_RESULT 0 1).wr .BRG_MEMTEST_MODE 0 3
    else s.wr .BRG_PC_CTRL_RESULT 0 2)

/-- R521: a tested channel goes back as a one-channel set of its partition, or FREE when no such
partition is configured. -/
def State.returnPc (s : State) (pc : Nat) : State :=
  let p := s.rd .MEM_PC_STATUS_PARTITION pc
  let s := if s.unconfigured p then s.pcState pc 2 else s.formSets p [pc]
  let s : State := { s with brg := { s.brg with
    dirty := true, pcTested := s.brg.pcTested.filter (· ≠ pc), pcAuto := s.brg.pcAuto.filter (· ≠ pc) } }
  (s.refloorPcs.wr .BRG_PC_CTRL_RESULT 0 0).fire 4

def execPcReturn (val : Nat) (s : State) : Host.Outcome State Fault Refusal :=
  .next (s.accessed .early fun s => s.pcCtrl val fun s pc =>
    if s.rd .MEM_PC_STATUS_STATE pc = 5 ∧ s.brg.pcTested.contains pc then s.returnPc pc
    else s.wr .BRG_PC_CTRL_RESULT 0 2)

/-- The TEST of one channel ends (R521, R522). -/
def State.endPcTest (s : State) (rows : List Nat) : State :=
  let pc := s.brg.pcOp
  let r := s.testChannel pc rows
  let s := ((r.1.pcState pc 5).wr .BRG_MEMTEST_MODE 0 0).fire 3
  if r.2 then
    let s : State := { s with brg := { s.brg with pcTested := pc :: s.brg.pcTested.filter (· ≠ pc) } }
    let s := (s.wr .BRG_PC_CTRL_RESULT 0 0).fire 4
    if s.brg.pcAuto.contains pc ∧ s.rd .BRG_CTRL_AUTO_RETURN = 1 then (s.returnPc pc).nextRetire else s.nextRetire
  else
    ({ s with brg := { s.brg with dirty := true, pcAuto := s.brg.pcAuto.filter (· ≠ pc) } } : State).pcDone 4

/-- R508-R510, R521: a memory test ends, of bring-up or of one channel. -/
def execMemtestDone (rows : List Nat) (s : State) : Host.Outcome State Fault Refusal :=
  .next (
    if s.inState 4 then s.endMemtest rows
    else if s.rd .BRG_MEMTEST_MODE = 3 then s.endPcTest rows
    else s)

/-- R75: FC11 has repaired a row of a channel in service; with no spare row left, it retires the
channel instead; FC11 repairs nothing while it restarts (R526). -/
def execRowRepaired (pc : Nat) (s : State) : Host.Outcome State Fault Refusal :=
  .next (
    let st := s.rd .MEM_PC_STATUS_STATE pc
    if 128 ≤ pc ∨ (st ≠ 1 ∧ st ≠ 3) ∨ s.brg.fcDown.contains 11 then s
    else if s.rd .MEM_PC_STATUS_REPAIR_LEFT pc = 0 then s.wantRetire pc
    else s.repairRow pc)

/-- Lines of a pseudo-channel (R74). -/
def pcLines : Nat := 18874368

/-- R73, R74: patrol scrub reads a channel's next line. -/
def execScrubRead (pc : Nat) (found : EccResult) (s : State) : Host.Outcome State Fault Refusal :=
  .next (
    if 128 ≤ pc ∨ s.rd .MEM_SCRUB_CTRL_ENABLE = 0 ∨ s.rd .MEM_PC_STATUS_ISET pc = 0xFF then s
    else
      let i := s.m.scrubPos.get 0 pc
      let line := s.lineAt pc (i * 64)
      let latent := match line with | some l => s.m.latent.get 0 l == 1 | none => false
      let poisoned := match line with | some l => s.m.poison.get 0 l == 1 | none => false
      let s :=
        if (found == .uncorrectable || latent) && !poisoned then
          match line with | some l => s.firstUE l | none => s
        else if found == .corrected then
          let n := s.m.passErr.get 0 pc + 1
          let s := s.inc .MEM_PC_STATUS_CE_COUNT pc
          let s : State := { s with m := { s.m with passErr := s.m.passErr.set 0 pc n } }
          s.fireIf (n == s.rd .MEM_SCRUB_CTRL_CE_THRESHOLD) 64
        else s
      if i + 1 = pcLines then
        ({ s with m := { s.m with scrubPos := s.m.scrubPos.set 0 pc 0, passErr := s.m.passErr.set 0 pc 0 } } : State).fire 66
      else { s with m := { s.m with scrubPos := s.m.scrubPos.set 0 pc (i + 1) } })

def execBrgMemtestRead (half : Nat) (s : State) : Host.Outcome State Fault Refusal :=
  .next (s.readBlk .early .BRG_MEMTEST 0 half)

/-! ## Calderas in service (R524, R525) -/

/-- An OP of CE_CTRL, ignored while RESULT reads BUSY. -/
def State.ceCtrl (s : State) (e : Nat) (op : State → State) : State :=
  if 6 ≤ e ∨ s.rd .CE_CTRL_RESULT e = 1 then s else op s

def execCeRemove (ce val : Nat) (s : State) : Host.Outcome State Fault Refusal :=
  let _ := val
  .next (s.accessed .late fun s => s.ceCtrl ce fun s =>
    if s.rd .CE_STATUS_STATE ce = 1 then s.ceTakeOut ce else s.wr .CE_CTRL_RESULT ce 2)

/-- TEST starts. -/
def State.ceTestStart (s : State) (e : Nat) : State :=
  ((s.setCe e 4).wr .CE_CTRL_RESULT e 1).wr .TST_UNIT_TESTING (16 + e) 1

def execCeTest (ce val : Nat) (s : State) : Host.Outcome State Fault Refusal :=
  let _ := val
  .next (s.accessed .late fun s => s.ceCtrl ce fun s =>
    if s.rd .CE_STATUS_STATE ce = 3 then s.ceTestStart ce else s.wr .CE_CTRL_RESULT ce 2)

/-- RETURN starts: firmware is reloaded and the regions are zeroed. -/
def State.ceReload (s : State) (e : Nat) : State := (s.setCe e 5).wr .CE_CTRL_RESULT e 1

/-- The last TEST passed since the REMOVE, and the Caldera is not marked failed (R525). -/
def State.ceMayReturn (s : State) (e : Nat) : Bool :=
  s.rd .CE_STATUS_STATE e == 3 && s.brg.ceTested.contains e && decide (bits (s.brg.cur.ceRec.get 0 e) 0 8 < 2)

def execCeReturn (ce val : Nat) (s : State) : Host.Outcome State Fault Refusal :=
  let _ := val
  .next (s.accessed .late fun s => s.ceCtrl ce fun s =>
    if s.ceMayReturn ce then s.ceReload ce else s.wr .CE_CTRL_RESULT ce 2)

/-- R524, R526: the last in-place command has ended and the Caldera is OUT_OF_SERVICE; FC11 goes on to
TEST where it removed it, or to RETURN where a Fumarole's halt did and that core runs again. -/
def execRemoveEnd (ce : Nat) (s : State) : Host.Outcome State Fault Refusal :=
  .next (
    if 6 ≤ ce ∨ s.rd .CE_STATUS_STATE ce ≠ 2 ∨ (s.flights.any fun f => f.slots.any fun x => x.1 == ce) then s
    else
      let s := (s.setCe ce 3).ceDone ce 0
      if s.brg.ceAuto.contains ce then s.ceTestStart ce
      else if s.brg.ceFc.contains ce ∧ ¬ s.brg.fcDown.contains (3 + ce) then s.ceReload ce
      else s)

/-- R524: the reload ends; the Caldera is IN_SERVICE at the next scheduler epoch. -/
def execReloadEnd (ce : Nat) (s : State) : Host.Outcome State Fault Refusal :=
  .next (
    if 6 ≤ ce ∨ s.rd .CE_STATUS_STATE ce ≠ 5 then s
    else { s with
      region := Sparse.clear s.region (ce * 512) (ce * 512 + 512)
      ceJoin := ce :: s.ceJoin.filter (· ≠ ce)
      ceJoinG := s.ceJoinG.set 0 ce (s.gcnt + 1)
      brg := { s.brg with ceFc := s.brg.ceFc.filter (· ≠ ce), ceAuto := s.brg.ceAuto.filter (· ≠ ce) } })

/-- R511: a TEST failure counts in CE_RECORD: failures within 24 h of the first. -/
def State.ceFailCount (s : State) (e : Nat) : State :=
  let w := s.brg.cur.ceRec.get 0 e
  let n := bits w 0 8
  let w := if n = 0 ∨ bits w 32 32 + 86400 < s.calSec then 1 + s.calSec % 2 ^ 32 * 2 ^ 32 else w - n + min 255 (n + 1)
  { s with brg := { s.brg with dirty := true, cur := { s.brg.cur with ceRec := s.brg.cur.ceRec.set 0 e w } } }

/-- A TEST of a Caldera ends (R524, R525). [DEDUCED: log 222] -/
def State.ceTestEnd (s : State) (e : Nat) (pass : Bool) : State :=
  let s := s.setCe e 3
  if pass then
    let s : State := { s with brg := { s.brg with ceTested := e :: s.brg.ceTested.filter (· ≠ e) } }
    let s := (s.fire (192 + 16 * e + 8)).ceDone e 0
    if s.brg.ceAuto.contains e ∧ s.rd .BRG_CTRL_AUTO_RETURN = 1 ∧ s.ceMayReturn e then s.ceReload e else s
  else
    let s : State := { s with brg := { s.brg with ceTested := s.brg.ceTested.filter (· ≠ e) } }
    let s := ((s.ceFailCount e).fire (192 + 16 * e + 9)).ceDone e 3
    { s with brg := { s.brg with ceAuto := s.brg.ceAuto.filter (· ≠ e) } }

/-! ## Device-wide faults and Fumarole recovery (R526, R527) -/

/-- R527: FC11 writes the health record and the device restarts, or at the fourth fault within an hour
enters FAILED with RESTART_LIMIT. -/
def State.deviceFault (s : State) (ok : Bool) : State :=
  let c := s.brg.cur
  let fresh := decide (c.faultCount = 0) || decide (c.faultFirst + 3600 < s.calSec)
  let first := if fresh then s.calSec else c.faultFirst
  let n := if fresh then 1 else c.faultCount + 1
  let s : State := { s with brg := { s.brg with cur := { c with faultFirst := first, faultCount := if n = 4 then 0 else n } } }
  let s := s.writeHealth ok
  if n = 4 then s.failed 8 else s.restart

/-- R527: a fatal fabric error, once FC11 keeps the record of this start. [DEDUCED: log 224] -/
def execFatalFabricError (ok : Bool) (s : State) : Host.Outcome State Fault Refusal :=
  .next (
    let st := s.rd .RDY_STATUS_STATE
    if s.inReset ∨ s.pw.tripHeld ∨ ¬ (s.confReached ∨ (3 ≤ st ∧ st ≤ 5)) then s else s.deviceFault ok)

/-- R526: a Fumarole halts. FC0's halt, and a second of the same core within an hour, are device-wide
faults. While FC3-FC8 restart, their Caldera acts as if REMOVE were written. [DEDUCED: log 223] -/
def State.fumaroleHalt (s : State) (fc : Nat) (ok : Bool) : State :=
  let s := s.fire 24
  let last := s.brg.halts.get 0 fc
  let s : State := { s with brg := { s.brg with
    halts := s.brg.halts.set 0 fc (s.calSec + 1), fcDown := fc :: s.brg.fcDown.filter (· ≠ fc) } }
  if fc = 0 ∨ (last ≠ 0 ∧ s.calSec + 1 ≤ last + 3600) then s.deviceFault ok
  else if 3 ≤ fc ∧ fc ≤ 8 ∧ s.rd .CE_STATUS_STATE (fc - 3) = 1 then
    let s := s.ceTakeOut (fc - 3)
    { s with brg := { s.brg with ceFc := (fc - 3) :: s.brg.ceFc.filter (· ≠ fc - 3) } }
  else s

/-- R526: the halted core is reloaded and runs again. FC11's pending health events are then written:
`ok` is the outcome of that write. -/
def execFumaroleRestarted (fc : Nat) (ok : Bool) (s : State) : Host.Outcome State Fault Refusal :=
  .next (
    if ¬ s.brg.fcDown.contains fc then s
    else
      let s : State := { s with brg := { s.brg with fcDown := s.brg.fcDown.filter (· ≠ fc) } }
      let s := (s.fire 25).startFirmware fc true
      let e := fc - 3
      let s := if 3 ≤ fc ∧ s.brg.ceFc.contains e ∧ s.rd .CE_STATUS_STATE e = 3 then s.ceReload e else s
      let s := if fc = 11 then s.nextRetire else s
      if fc = 11 ∧ s.brg.dirty then s.writeHealth ok else s)

/-- R527: BRG_CTRL.OP = RESTART. -/
def execBrgRestart (val : Nat) (ok : Bool) (s : State) : Host.Outcome State Fault Refusal :=
  .next (s.accessed .early fun s =>
    let s := s.brgCtrl val
    (if s.confReached then s.writeHealth ok else s).restart)

end Sys2Proof.Machine
end

