-- ==== Sys2Proof/Machine/Codec.lean ====
section
/-! DEFINITION. The feature-map codec (R102-R105, R259). -/

namespace Sys2Proof.Machine

/-- The rounding offset h of R103. -/
def codecHalf (s : Nat) : Nat := if s = 0 then 0 else 2 ^ (s - 1)

/-- The smallest shift of 0 to `top` for which `range >> s ≤ most`. -/
def codecShift (range most top : Nat) : Nat := ((List.range (top + 1)).find? fun s => decide (range / 2 ^ s ≤ most)).getD top

def listMin (l : List Nat) : Nat := l.foldl min (l.headD 0)
def listMax (l : List Nat) : Nat := l.foldl max 0

/-- R103: encode 16 samples in 2:1 mode. -/
def enc21 (x : List Nat) : Nat :=
  let base := listMin x
  let s := codecShift (listMax x - base) 7 5
  base + s * 2 ^ 8 + ((x.zipIdx).map fun vi => (vi.1 - base) / 2 ^ s * 2 ^ (12 + 3 * vi.2)).foldl (· + ·) 0

/-- R103, R105: decode a 2:1 word. -/
def dec21 (w : Nat) : List Nat :=
  let base := bits w 0 8
  let s := bits w 8 4
  (List.range 16).map fun i => if 5 < s then base else min 255 (base + bits w (12 + 3 * i) 3 * 2 ^ s + codecHalf s)

/-- The quadrant of sample i of a block (R104). -/
def quadrant (i : Nat) : Nat := i / 8 * 2 + i % 4 / 2

/-- R104: encode 16 samples in 4:1 mode. -/
def enc41 (x : List Nat) : Nat :=
  let base := listMin x
  let m := (List.range 4).map fun j =>
    (((x.zipIdx).filter fun vi => quadrant vi.2 = j).map (·.1)).foldl (· + ·) 0 / 4
  let s := codecShift (listMax m - base) 31 3
  base + s * 2 ^ 8 + ((m.zipIdx).map fun vi => (vi.1 - base) / 2 ^ s * 2 ^ (12 + 5 * vi.2)).foldl (· + ·) 0

/-- R104, R105: decode a 4:1 word. -/
def dec41 (w : Nat) : List Nat :=
  let base := bits w 0 8
  let s := bits w 8 4
  (List.range 16).map fun i =>
    if 3 < s then base else min 255 (base + bits w (12 + 5 * quadrant i) 5 * 2 ^ s + codecHalf s)

/-- Bytes of a block: mode 1 is 2:1, mode 2 is 4:1. -/
def blockBytes (mode : Nat) : Nat := if mode = 1 then 8 else 4

def decBlock (mode w : Nat) : List Nat := if mode = 1 then dec21 w else dec41 w
def encBlock (mode : Nat) (x : List Nat) : Nat := if mode = 1 then enc21 x else enc41 x

/-- A block word that the SHIFT rule of R105 decodes. -/
def blockBad (mode w : Nat) : Bool := decide ((if mode = 1 then 5 else 3) < bits w 8 4)

/-- Bytes of a plane in codec form (R102, R235). -/
def codecBytes (mode H W : Nat) : Nat := ceilDiv W 4 * ceilDiv H 4 * blockBytes mode

/-- INT8 samples are offset by 0x80 around the codec (R259). -/
def codecFlip (code b : Nat) : Nat := if code = 1 then Nat.xor b 0x80 else b

/-- Word `k` of a codec plane held as one little-endian number. -/
def codecWord (mode plane k : Nat) : Nat := plane / 2 ^ (8 * blockBytes mode * k) % 2 ^ (8 * blockBytes mode)

/-- A codec plane decoded into rows of samples, and its malformed blocks (R102, R105). -/
def decPlane (mode code H W plane : Nat) : Array (Array Nat) × Nat :=
  let bw := ceilDiv W 4
  let n := bw * ceilDiv H 4
  let blocks := ((List.range n).map fun k => (decBlock mode (codecWord mode plane k)).toArray).toArray
  (((List.range H).map fun y => ((List.range W).map fun x =>
      codecFlip code ((blocks.getD (y / 4 * bw + x / 4) #[]).getD (y % 4 * 4 + x % 4) 0)).toArray).toArray,
    ((List.range n).filter fun k => blockBad mode (codecWord mode plane k)).length)

/-- Rows of samples encoded as a codec plane, edges repeated (R102). -/
def encPlane (mode code H W : Nat) (smp : Nat → Nat → Nat) : List Byte :=
  (List.range (ceilDiv H 4)).flatMap fun by_ => (List.range (ceilDiv W 4)).flatMap fun bx =>
    natLe (blockBytes mode) (encBlock mode ((List.range 16).map fun i =>
      codecFlip code (smp (min (H - 1) (by_ * 4 + i / 4)) (min (W - 1) (bx * 4 + i % 4)))))

end Sys2Proof.Machine
end

