-- ==== Sys2Proof/Machine/Matmul.lean ====
section
/-! DEFINITION. The bodies and results of MATMUL and VECTOR (R229-R231). -/

namespace Sys2Proof.Machine

/-- Calderas that the floor plan reports present (R213, R218). -/
def State.cesPresent (s : State) : List Nat := (List.range 6).filter fun e => s.rd .CE_STATUS_STATE e ≠ 0

/-- Element (i, j) of rows of a format as stored. -/
def elemAt (code : Nat) (rows : Array Nat) (i j : Nat) : Nat := rowElem code (rows.getD i 0) j

/-- A 16-bit zero point: one for the tensor, or one per index. -/
def zpAt (rows : Array Nat) (one : Bool) (i : Nat) : Int :=
  i16 (rowElem 8 (rows.getD 0 0) (if one then 0 else i))

/-- A zero point lies in the range of its operand's stored format (R202). [DEDUCED: log 103] -/
def zpOk (code : Nat) (z : Int) : Bool :=
  match ffmt code with
  | some f => !(f.over z.natAbs 1 0)
  | none => decide ((intRange code).1 ≤ z) && decide (z ≤ (intRange code).2)

/-- A matrix of entered operand elements and how many saturated (R197, R204). -/
def enterAll (rows cols : Nat) (f : Nat → Nat → Val × Bool) : Array (Array Val) × Nat :=
  let m := (List.range rows).map fun i => (List.range cols).map (f i)
  ((m.map fun r => (r.map (·.1)).toArray).toArray, (m.map fun r => (r.filter (·.2)).length).foldl (· + ·) 0)

def valAt (a : Array (Array Val)) (i j : Nat) : Val := (a.getD i #[]).getD j .zero

/-- Fields of FMT and SCALE (R230). -/
structure FmtScale where
  x : Nat
  w : Nat
  n : Nat
  o : Nat
  sa : Nat
  sw : Nat
  gc : Nat
  za : Bool
  zw : Bool
deriving DecidableEq, Repr

def fmtScale (d : List Byte) (o : Nat) : FmtScale :=
  { x := bits (d16 d o) 0 4, w := bits (d16 d o) 4 4, n := bits (d16 d o) 8 4, o := bits (d16 d o) 12 4
    sa := bits (d8 d (o + 2)) 0 2, sw := bits (d8 d (o + 2)) 2 2, gc := bits (d8 d (o + 2)) 4 2
    za := bit (d8 d (o + 2)) 6, zw := bit (d8 d (o + 2)) 7 }

/-- The rules of R192, R196 and R202 on formats, scales and zero points. -/
def FmtScale.ok (f : FmtScale) : Bool :=
  fmtOk f.o && (classOf f.n).isSome && storedOk f.n f.x && storedOk f.n f.w &&
    f.sa != 3 && f.sw != 3 && f.gc != 3 && (intClass f.n || (!f.za && !f.zw))

/-- A scale tensor is present. -/
def FmtScale.scaled (f : FmtScale) : Bool := f.sa != 0 || f.sw != 0

/-- G of R198. -/
def FmtScale.G (f : FmtScale) : Nat := if f.scaled then groupSize f.gc else 128

/-- Scale of group `g` from a row of one-byte scales. -/
def scaleAt (code : Nat) (rows : Array Nat) (i j : Nat) : Val :=
  if code = 0 then .one else decScale code (rowElem 2 (rows.getD i 0) j)

/-- R230: the body of MATMUL. -/
def matmulJob (s : State) (d : List Byte) : Except (Nat × Nat) Job :=
  let e := dExt d
  let f := fmtScale d 0x1C
  let md := d8 d 0x1F
  let wt := bit md 0
  let perCol := bit md 1
  let P := bits md 4 3 + 1
  let red := bit md 7
  let M := d32 d 0x20
  let N := d32 d 0x24
  let K := d32 d 0x28
  let ap := d32 d 0x2C
  let wp := d32 d 0x30
  let yp := d32 d 0x34
  let G := f.G
  let ng := ceilDiv K G
  let epi := if 2 ≤ e then d8 d 0x8D else 0
  let hasB := bit epi 0
  let hasR := bit epi 1
  let rf := d8 d 0x8C
  let hs := [d32 d 0x10, d32 d 0x14, d32 d 0x18]
  let sr := d16 d 0x3E
  let wRows := if wt then N else K
  let wBytes := rowBytes f.w (if wt then K else N)
  let need1 := f.scaled || f.za || f.zw || perCol
  let bad6 := !(hs.all handleOk) || !f.ok || M == 0 ||
    decide (16777216 < M) || N == 0 || decide (1048576 < N) || K == 0 || decide (1048576 < K) ||
    (need1 && e == 0) || (perCol && d32 d 0x38 != 0) || decide (6 < P) ||
    !(pitchOk ap (rowBytes f.x K)) || !(pitchOk wp wBytes) || !(pitchOk yp (rowBytes f.o N)) ||
    !(optHandle (f.sa != 0) (d32 d 0x40)) || !(optHandle (f.sw != 0) (d32 d 0x44)) ||
    !(optHandle f.za (d32 d 0x48)) || !(optHandle f.za (d32 d 0x4C)) || !(optHandle f.zw (d32 d 0x50)) ||
    !(optHandle perCol (d32 d 0x54)) || (f.sa != 0 && !(pitchOk (d32 d 0x58) ng)) ||
    (f.sw != 0 && !(pitchOk (d32 d 0x5C) N)) || (f.za && !(pitchOk (d32 d 0x60) (4 * N))) ||
    !(dZero d 0x64 0x80) || !(optHandle hasB (d32 d 0x80)) || !(optHandle hasR (d32 d 0x84)) ||
    (hasR && (!(fmtOk rf) || !(pitchOk (d32 d 0x88) (rowBytes rf N)))) || decide (4 ≤ epi) ||
    !(dZero d 0x8E 0x100) ||
    decide ((if red then ceilDiv K 128 else ceilDiv N (tileCols f.n)) < P)
  let ins : List Rect :=
    [{ handle := d32 d 0x10, rows := M, pitch := ap, bytes := rowBytes f.x K },
     { handle := d32 d 0x14, rows := wRows, pitch := wp, bytes := wBytes },
     optRect (f.sa != 0) { handle := d32 d 0x40, rows := M, pitch := d32 d 0x58, bytes := ng },
     optRect (f.sw != 0) { handle := d32 d 0x44, rows := ng, pitch := d32 d 0x5C, bytes := N },
     optRect f.za { handle := d32 d 0x48, rows := ng, pitch := d32 d 0x60, bytes := 4 * N },
     optRect f.za { handle := d32 d 0x4C, rows := 1, bytes := if bit md 2 then 2 else 2 * M },
     optRect f.zw { handle := d32 d 0x50, rows := 1, bytes := if bit md 3 then 2 else 2 * N },
     optRect perCol { handle := d32 d 0x54, rows := 1, bytes := 4 * N },
     optRect hasB { handle := d32 d 0x80, rows := 1, bytes := 4 * N },
     optRect hasR { handle := d32 d 0x84, rows := M, pitch := d32 d 0x88, bytes := rowBytes rf N }]
  let y := d32 d 0x18
  if bad6 || (dInPlace d && ((ins.filter (·.rows ≠ 0)).any (·.handle == y))) then .error (6, 0)
  else match sramStatus sr with
  | some st => .error (st, 0)
  | none =>
    if s.cesPresent.length < P then .error (0x0A, 0)
    else .ok
      { ins := ins, outs := [(y, (M - 1) * yp + rowBytes f.o N)], sram := sr, parts := P, fmtN := f.n
        run := fun n r =>
          let in_ := fun i => r.getD i #[]
          let isInt := intClass n
          let az := fun m => if f.za then zpAt (in_ 5) (bit md 2) m else 0
          let wz := fun c => if f.zw then zpAt (in_ 6) (bit md 3) c else 0
          let zbad := (f.za && !((List.range (if bit md 2 then 1 else M)).all fun m => zpOk f.x (az m))) ||
            (f.zw && !((List.range (if bit md 3 then 1 else N)).all fun c => zpOk f.w (wz c)))
          if zbad then { status := 6 }
          else
            let asc := fun m g => scaleAt f.sa (in_ 2) m g
            let wsc := fun g c => scaleAt f.sw (in_ 3) g c
            let A := enterAll M K fun m k => enter f.n n f.x (elemAt f.x (in_ 0) m k) (asc m (k / G)) (az m)
            let W := enterAll K N fun k c => enter f.n n f.w
              (if wt then elemAt f.w (in_ 1) c k else elemAt f.w (in_ 1) k c) (wsc (k / G) c) (wz c)
            let rows := (List.range M).map fun m => quantRow f.o ((List.range N).map fun c =>
              let z : ZTerm := if isInt then
                { za := az m, zw := wz c
                  sumw := fun g => i32 (rowElem 10 ((in_ 4).getD g 0) c)
                  cnt := fun g => min K (g * G + G) - g * G } else {}
              let y := r199Split isInt G K (if red then P else 1) (valAt A.1 m) (fun k => valAt W.1 k c)
                (fun g => (asc m g).mul (wsc g c)) z
              let y := if hasB then y.add (.of (decFP32 (rowElem 10 ((in_ 8).getD 0 0) c))) else y
              let y := if hasR then y.add (.of (decElem rf (elemAt rf (in_ 9) m c))) else y
              quantise f.o y (decFP32 (if perCol then rowElem 10 ((in_ 7).getD 0 0) c else d32 d 0x38))
                (i16 (d16 d 0x3C)))
            let w := writeRows 0 0 yp rows
            { runs := w.1, satOperand := A.2 + W.2, satOutput := w.2 } }

/-! ## VECTOR (R229, R231) -/

/-- Operands an OP uses: 0, 1 or 2. -/
def vecUses (op : Nat) : Option Nat :=
  if op ≤ 2 ∨ op = 4 ∨ op = 5 then some 1
  else if op = 3 ∨ op = 0xA then some 2
  else if op ≤ 0xF then some 0
  else none

/-- R229, for the elementwise operations. -/
def vecOp (op : Nat) (x a b : SVal) : SVal :=
  match op with
  | 0x00 => x.add a
  | 0x01 => x.sub a
  | 0x02 => x.mul a
  | 0x03 => x.fma a b
  | 0x04 => x.max a
  | 0x05 => x.min a
  | 0x06 => vExp2 x
  | 0x07 => vRecip x
  | 0x08 => vRsqrt x
  | 0x09 => x.max (.of .zero)
  | 0x0A => (x.max a).min b
  | 0x0B => vSigmoid x
  | 0x0C => x.mul (vSigmoid x)
  | _ => x

/-- R231: the body of VECTOR. -/
def vectorJob (_ : State) (d : List Byte) : Except (Nat × Nat) Job :=
  let op := d8 d 0x10
  let xf := bits (d8 d 0x11) 0 4
  let of_ := bits (d8 d 0x11) 4 4
  let b1 := bits (d8 d 0x12) 0 2
  let b2 := bits (d8 d 0x12) 2 2
  let R := d32 d 0x24
  let C := d32 d 0x28
  let xp := d32 d 0x2C
  let yp := d32 d 0x30
  let f1 := bits (d8 d 0x48) 0 4
  let f2 := bits (d8 d 0x48) 4 4
  let uses := (vecUses op).getD 0
  let perRow := op == 0x0D || op == 0x0E
  let outC := if perRow then 1 else C
  let y := d32 d 0x20
  let rectOf := fun b h p f => optRect (b != 3)
    (if b = 0 then { handle := h, rows := R, pitch := p, bytes := rowBytes f C }
     else if b = 1 then { handle := h, rows := 1, pitch := p, bytes := rowBytes f C }
     else { handle := h, rows := R, pitch := p, bytes := rowBytes f 1 } : Rect)
  let r1 := rectOf b1 (d32 d 0x18) (d32 d 0x40) f1
  let r2 := rectOf b2 (d32 d 0x1C) (d32 d 0x44) f2
  let opBad := fun (k b h imm p f : Nat) (r : Rect) =>
    (decide (uses < k) && (b != 3 || imm != 0)) || !(optHandle (b != 3) h) ||
      (b != 3 && (!(fmtOk f) || !(pitchOk p r.bytes) || dExt d == 0))
  if (vecUses op).isNone || !(fmtOk xf) || !(fmtOk of_) || bits (d8 d 0x12) 4 4 != 0 || d8 d 0x13 != 0 ||
      !(handleOk (d32 d 0x14)) || !(handleOk y) || R == 0 || decide (16777216 < R) || C == 0 ||
      decide (1048576 < C) || !(pitchOk xp (rowBytes xf C)) || !(pitchOk yp (rowBytes of_ outC)) ||
      opBad 1 b1 (d32 d 0x18) (d32 d 0x34) (d32 d 0x40) f1 r1 ||
      opBad 2 b2 (d32 d 0x1C) (d32 d 0x38) (d32 d 0x44) f2 r2 ||
      d16 d 0x3E != 0 || !(dZero d 0x49 0x100) ||
      (dInPlace d && ((b1 != 0 && b1 != 3 && d32 d 0x18 == y) || (b2 != 0 && b2 != 3 && d32 d 0x1C == y))) then
    .error (6, 0)
  else match sramStatus (d16 d 0x3C) with
  | some st => .error (st, 0)
  | none => .ok
    { ins := [{ handle := d32 d 0x14, rows := R, pitch := xp, bytes := rowBytes xf C }, r1, r2]
      outs := [(y, (R - 1) * yp + rowBytes of_ outC)], sram := d16 d 0x3C
      run := fun _ r =>
        let X := r.getD 0 #[]
        let arg := fun (b f : Nat) (rows : Array Nat) imm i j =>
          if b = 3 then SVal.of (decFP32 imm)
          else .of (decElem f (elemAt f rows (if b = 1 then 0 else i) (if b = 2 then 0 else j)))
        let x := fun i j => SVal.of (decElem xf (elemAt xf X i j))
        let rows := (List.range R).map fun i => quantRow of_
          (if perRow then
            let v := if op = 0x0D then (List.range C).foldl (fun acc j => acc.add (x i j)) (.of .zero)
              else (List.range (C - 1)).foldl (fun acc j => acc.max (x i (j + 1))) (x i 0)
            [quantise of_ v .one 0]
          else (List.range C).map fun j =>
            if op = 0x0F ∧ xf = of_ then (elemAt xf X i j, false)
            else quantise of_ (vecOp op (x i j) (arg b1 f1 (r.getD 1 #[]) (d32 d 0x34) i j)
              (arg b2 f2 (r.getD 2 #[]) (d32 d 0x38) i j)) .one 0)
        let w := writeRows 0 0 yp rows
        { runs := w.1, satOutput := w.2 } }

end Sys2Proof.Machine
end

