-- ==== Sys2Proof/Machine/Conv.lean ====
section
/-! DEFINITION. Planar images and CONV: its body, its limits and its three forms (R234-R252, R259-R261). -/

namespace Sys2Proof.Machine

/-! ## Planar images (R234, R235) -/

/-- An image operand: codec 0 none, 1 2:1, 2 4:1. -/
structure Img where
  codec : Nat := 0
  code : Nat
  planes : Nat
  H : Nat
  W : Nat
  rp : Nat
  pp : Nat
deriving DecidableEq, Repr

/-- R235, R259. -/
def Img.ok (m : Img) : Bool :=
  if m.codec = 0 then
    fmtOk m.code && pitchOk m.rp (rowBytes m.code m.W) && m.pp % 64 == 0 && decide (m.H * m.rp ≤ m.pp)
  else
    m.codec != 3 && (m.code == 1 || m.code == 2) && m.rp == 0 && m.pp % 64 == 0 &&
      decide (codecBytes m.codec m.H m.W ≤ m.pp)

def Img.rect (m : Img) (h : Nat) : Rect :=
  if m.codec = 0 then
    { handle := h, planes := m.planes, planePitch := m.pp, rows := m.H, pitch := m.rp
      bytes := rowBytes m.code m.W, need := m.planes * m.pp }
  else
    { handle := h, planes := m.planes, planePitch := m.pp, rows := 1
      bytes := codecBytes m.codec m.H m.W, need := m.planes * m.pp }

/-- The stored element at (plane, y, x), and the malformed codec blocks read. -/
def Img.data (m : Img) (rows : Array Nat) : (Nat → Nat → Nat → Nat) × Nat :=
  if m.codec = 0 then (fun p y x => rowElem m.code (rows.getD (p * m.H + y) 0) x, 0)
  else
    let ps := rows.map fun r => decPlane m.codec m.code m.H m.W r
    (fun p y x => (((ps.getD p (#[], 0)).1.getD y #[]).getD x 0),
      ps.foldl (fun n p => n + p.2) 0)

/-- Write planes of narrowed elements: the runs, and the elements that saturated. [DEDUCED: log 115] [DEDUCED: log 116] -/
def Img.write (m : Img) (out : Nat) (el : Nat → Nat → Nat → Nat × Bool) : List OutRun × Nat :=
  let ps := (List.range m.planes).map fun p =>
    let rows := (List.range m.H).map fun y => (List.range m.W).map (el p y)
    let sat := (rows.map fun r => (r.filter (·.2)).length).foldl (· + ·) 0
    if m.codec = 0 then
      ((rows.zipIdx).map fun (ri : List (Nat × Bool) × Nat) =>
        (⟨out, p * m.pp + ri.2 * m.rp, packRow m.code (ri.1.map (·.1))⟩ : OutRun), sat)
    else
      let arr := (rows.map fun r => (r.map (·.1)).toArray).toArray
      ([⟨out, p * m.pp, encPlane m.codec m.code m.H m.W fun y x => (arr.getD y #[]).getD x 0⟩], sat)
  (ps.flatMap (·.1), (ps.map (·.2)).foldl (· + ·) 0)

/-! ## Sizes and limits (R236, R248-R252) -/

/-- R236 on one axis; 0 where the output would be empty. -/
def outSize (n p0 p1 dil k stride : Nat) : Nat :=
  if n + p0 + p1 < dil * (k - 1) + 1 ∨ stride = 0 then 0 else (n + p0 + p1 - dil * (k - 1) - 1) / stride + 1

/-- One line-buffer row of `n` elements (R250). -/
def lbRow (code n : Nat) : Nat := ceilDiv (n * fmtBits code) 512 * 64

/-- Geometry of a windowed command for R249-R252. -/
structure Win where
  cin : Nat
  cout : Nat
  code : Nat
  ocode : Nat
  kh : Nat
  kw : Nat
  sy : Nat
  sx : Nat
  dy : Nat
  dx : Nat
  wout : Nat
deriving DecidableEq, Repr

/-- Input columns of a band of `wb` output columns. -/
def Win.bandIn (w : Win) (wb : Nat) : Nat := (wb - 1) * w.sx + (w.kw - 1) * w.dx + 1

def Win.lbNeed (w : Win) (wb : Nat) : Nat :=
  ((w.kh - 1) * w.dy + 1 - w.sy) * w.cin * lbRow w.code (w.bandIn wb)

/-- R250: the band width, none where no multiple of 64 fits. -/
def Win.band (w : Win) : Option Nat :=
  if w.lbNeed w.wout ≤ 4194304 then some w.wout
  else (((List.range (w.wout / 64)).map fun i => (w.wout / 64 - i) * 64).find? fun b => decide (w.lbNeed b ≤ 4194304))

/-- R249, R252: the least SRAM field for a band; `m` is the Winograd tile, 1 otherwise. -/
def Win.minSram (w : Win) (wb m wt : Nat) : Nat :=
  let s0 := max 1 (1024 / wb)
  let S := if m = 1 then s0 else max m (s0 / m * m)
  let inB := S * w.sy * w.cin * lbRow w.code (w.bandIn wb)
  let outB := S * w.cout * lbRow w.ocode wb
  ceilDiv (wt + 2 * inB + 2 * outB + 65536) 65536

/-! ## The body of CONV (R261) -/

structure ConvBody where
  f : FmtScale
  form : Nat
  ic : Nat
  oc : Nat
  perCh : Bool
  oneWz : Bool
  cin : Nat
  cout : Nat
  h : Nat
  w : Nat
  kh : Nat
  kw : Nat
  sy : Nat
  sx : Nat
  dy : Nat
  dx : Nat
  groups : Nat
  pt : Nat
  pb : Nat
  pl : Nat
  pr : Nat
  batch : Nat
deriving DecidableEq, Repr

def convBody (d : List Byte) : ConvBody :=
  { f := fmtScale d 0x1C, form := bits (d8 d 0x1F) 0 2, ic := bits (d8 d 0x1F) 2 2, oc := bits (d8 d 0x1F) 4 2
    perCh := bit (d8 d 0x1F) 6, oneWz := bit (d8 d 0x1F) 7, cin := d16 d 0x20, cout := d16 d 0x22
    h := d16 d 0x24, w := d16 d 0x26, kh := d8 d 0x28, kw := d8 d 0x29, sy := d8 d 0x2A, sx := d8 d 0x2B
    dy := d8 d 0x2C, dx := d8 d 0x2D, groups := d16 d 0x2E, pt := d8 d 0x30, pb := d8 d 0x31
    pl := d8 d 0x32, pr := d8 d 0x33, batch := d16 d 0x3C }

def ConvBody.hout (b : ConvBody) : Nat := outSize b.h b.pt b.pb b.dy b.kh b.sy
def ConvBody.wout (b : ConvBody) : Nat := outSize b.w b.pl b.pr b.dx b.kw b.sx
def ConvBody.Cg (b : ConvBody) : Nat := b.cin / b.groups
/-- Cp of R238. -/
def ConvBody.Cp (b : ConvBody) : Nat := if b.f.scaled then ceilDiv b.Cg b.f.G * b.f.G else b.Cg
def ConvBody.K (b : ConvBody) : Nat := b.kh * b.kw * b.Cp
def ConvBody.NG (b : ConvBody) : Nat := b.Cp / b.f.G

/-- R237: the form's conditions. -/
def ConvBody.formOk (b : ConvBody) : Bool :=
  match b.form with
  | 0 => true
  | 1 => b.kh == 3 && b.kw == 3 && b.sy == 1 && b.sx == 1 && b.dy == 1 && b.dx == 1 && b.groups == 1 &&
      !b.f.za && !b.f.zw && classOf b.f.n != some 2 && (!(intClass b.f.n) || decide (b.f.w ≤ 1))
  | 2 => b.groups == b.cin && b.cout % b.cin == 0
  | _ => false

/-- A dimension is 0. -/
def ConvBody.zeroDim (b : ConvBody) : Bool :=
  [b.cin, b.cout, b.h, b.w, b.kh, b.kw, b.sy, b.sx, b.dy, b.dx, b.groups, b.batch].any (· == 0)

/-- A dimension is above R248's range. -/
def ConvBody.overDim (b : ConvBody) : Bool :=
  decide (9 < b.kh) || decide (9 < b.kw) || decide (4 < b.sy) || decide (4 < b.sx) || decide (8 < b.dy) || decide (8 < b.dx)

/-- R236's rules. -/
def ConvBody.shapeOk (b : ConvBody) : Bool :=
  decide (b.pt ≤ b.dy * (b.kh - 1)) && decide (b.pb ≤ b.dy * (b.kh - 1)) && decide (b.pl ≤ b.dx * (b.kw - 1)) &&
    decide (b.pr ≤ b.dx * (b.kw - 1)) && b.hout != 0 && b.wout != 0 && b.cin % b.groups == 0 &&
    b.cout % b.groups == 0 && decide (b.groups ≤ b.cin)

/-- The Winograd tile of an N (R247). -/
def winoTile (n : Nat) : Nat := if intClass n then 2 else 4

/-! ## The results -/

/-- What the forms read: elements by image, channel and position, and the tensors of R239. -/
structure ConvIn where
  b : ConvBody
  n : Nat
  x : Nat → Nat → Nat → Nat → Nat        -- stored element of image, channel, y, x
  wt : Nat → Nat → Nat                   -- stored weight of output channel n, index k of R238
  sa : Nat → Nat → Nat → Val             -- image, group, channel group
  sw : Nat → Nat → Val                   -- channel group, output channel
  za : Int
  zw : Nat → Int
  sumw : Nat → Nat → Int                 -- R199 group, output channel

/-- The entered activation of image, channel, y, x; outside the image a real 0 (R236). -/
def ConvIn.act (c : ConvIn) (i ch : Nat) (y x : Int) : Val × Bool :=
  let b := c.b
  if y < 0 ∨ (b.h : Int) ≤ y ∨ x < 0 ∨ (b.w : Int) ≤ x then
    (if intClass c.n then .ofInt c.za else .zero, false)
  else
    enter b.f.n c.n b.f.x (c.x i ch y.toNat x.toNat)
      (c.sa i (ch / b.Cg) (if b.f.scaled then ch % b.Cg / b.f.G else 0)) c.za

/-- The entered weight of output channel n at index k. -/
def ConvIn.wgt (c : ConvIn) (n k : Nat) : Val × Bool :=
  enter c.b.f.n c.n c.b.f.w (c.wt n k) (c.sw (if c.b.f.scaled then k % c.b.Cp / c.b.f.G else 0) n) (c.zw n)

/-- Combined scale of R199's group g. -/
def ConvIn.scale (c : ConvIn) (i γ n g : Nat) : Val :=
  if c.b.f.scaled then (c.sa i γ (g % c.b.NG)).mul (c.sw (g % c.b.NG) n) else .one

/-- Direct form (R240). -/
def ConvIn.direct (c : ConvIn) (i n oy ox : Nat) : SVal :=
  let b := c.b
  let γ := n / (b.cout / b.groups)
  let real := fun k => decide (k % b.Cp < b.Cg)
  let pos := fun (k : Nat) =>
    let t := k / b.Cp
    (((oy * b.sy + t / b.kw * b.dy : Nat) : Int) - b.pt, ((ox * b.sx + t % b.kw * b.dx : Nat) : Int) - b.pl)
  let a := fun k => if real k then (c.act i (γ * b.Cg + k % b.Cp) (pos k).1 (pos k).2).1 else Val.zero
  let w := fun k => if real k then (c.wgt n k).1 else Val.zero
  let G := b.f.G
  let z : ZTerm := if intClass c.n then
    { za := c.za, zw := c.zw n, sumw := fun g => c.sumw g n
      cnt := fun g => ((List.range (min b.K (g * G + G) - g * G)).filter fun j => real (g * G + j)).length } else {}
  r199 (intClass c.n) G 0 b.K a w (c.scale i γ n) z

/-- Depthwise form (R242). -/
def ConvIn.depthwise (c : ConvIn) (i n oy ox : Nat) : SVal :=
  let b := c.b
  let ch := n / (b.cout / b.cin)
  let taps := (List.range (b.kh * b.kw)).map fun t =>
    ((c.act i ch (((oy * b.sy + t / b.kw * b.dy : Nat) : Int) - b.pt) (((ox * b.sx + t % b.kw * b.dx : Nat) : Int) - b.pl)).1,
      (c.wgt n (t * b.Cp)).1)
  let f : SVal := if intClass c.n then
      .fp (.ofInt ((taps.map fun aw => (aw.1.trunc.getD 0 - c.za) * (aw.2.trunc.getD 0 - c.zw n)).foldl (· + ·) 0)) false
    else taps.foldl (fun f aw => f.add (.fp (aw.1.mul aw.2) false)) (.of .zero)
  .fp (f.v.mul ((c.sa i ch 0).mul (c.sw 0 n))) f.sat

/-! ### Winograd (R244-R247) -/

def wBT : List (List Int) := [[1, 0, -1, 0], [0, 1, 1, 0], [0, -1, 1, 0], [0, 1, 0, -1]]
def wG : List (List Int) := [[2, 0, 0], [1, 1, 1], [1, -1, 1], [0, 0, 2]]
def wAT : List (List Int) := [[1, 1, 1, 0], [0, 1, -1, -1]]

def fBT : List (List Int) :=
  [[4, 0, -5, 0, 1, 0], [0, -4, -4, 1, 1, 0], [0, 4, -4, -1, 1, 0], [0, -2, -1, 2, 1, 0], [0, 2, -1, -2, 1, 0], [0, 4, 0, -5, 0, 1]]
def fAT : List (List Int) := [[1, 1, 1, 1, 1, 0], [0, 1, -1, 2, -2, 0], [0, 1, 1, 4, 4, 0], [0, 1, -1, 8, -8, 1]]
/-- G of R246 as FP32 encodings. -/
def fG : List (List Nat) :=
  [[0x3E800000, 0, 0], [0xBE2AAAAA, 0xBE2AAAAA, 0xBE2AAAAA], [0xBE2AAAAA, 0x3E2AAAAA, 0xBE2AAAAA],
    [0x3D2AAAAA, 0x3DAAAAAA, 0x3E2AAAAA], [0x3D2AAAAA, 0xBDAAAAAA, 0x3E2AAAAA], [0, 0, 0x3F800000]]

/-- The exact sandwich L X Lᵀ of integer matrices. -/
def intSandwich (L X : List (List Int)) : List (List Int) :=
  L.map fun li => L.map fun lj =>
    ((li.zip X).map fun (ax : Int × List Int) =>
      ax.1 * ((ax.2.zip lj).map fun (p : Int × Int) => p.1 * p.2).foldl (· + ·) 0).foldl (· + ·) 0

/-- R246: one element of L X, terms in ascending order, entries of L that are 0 left out. -/
def fpDot (l : List Val) (x : List SVal) : SVal :=
  (l.zip x).foldl (fun (r : SVal) (p : Val × SVal) =>
    if p.1.isZero then r else r.add (.fp (p.1.mul p.2.v) p.2.sat)) (.of .zero)

def column (X : List (List SVal)) (j : Nat) : List SVal := X.map fun r => r.getD j (.of .zero)

/-- (L X) Lᵀ with the roundings of R246. -/
def fpSandwich (L : List (List Val)) (X : List (List SVal)) : List (List SVal) :=
  let w := (X.headD []).length
  let Y := L.map fun li => (List.range w).map fun j => fpDot li (column X j)
  Y.map fun yr => L.map fun lj => fpDot lj yr

def grid {α : Type} (g : List (List α)) (i j : Nat) (d : α) : α := (g.getD i []).getD j d

/-- Integer Winograd: the accumulators of the 2 × 2 tile (ty, tx) of image i, output channel n (R244). -/
def ConvIn.winoInt (c : ConvIn) (i n ty tx : Nat) : List (List SVal) :=
  let b := c.b
  let G := b.f.G
  let zero : List (List SVal) := [[.of .zero, .of .zero], [.of .zero, .of .zero]]
  (List.range (ceilDiv b.cin G)).foldl (fun acc cg =>
    let P := (List.range (min b.cin (cg * G + G) - cg * G)).foldl (fun (P : List (List Int)) j =>
      let ch := cg * G + j
      let d := (List.range 4).map fun (r : Nat) => (List.range 4).map fun (q : Nat) =>
        (c.act i ch ((2 * ty + r : Nat) - (b.pt : Int)) ((2 * tx + q : Nat) - (b.pl : Int))).1.trunc.getD 0
      let g := (List.range 3).map fun r => (List.range 3).map fun q =>
        (c.wgt n ((r * 3 + q) * b.Cp + ch)).1.trunc.getD 0
      let V := intSandwich wBT d
      let U := intSandwich wG g
      (List.range 4).map fun r => (List.range 4).map fun q => grid P r q 0 + grid V r q 0 * grid U r q 0)
      ((List.range 4).map fun _ => [0, 0, 0, 0])
    let Q := intSandwich wAT P
    (List.range 2).map fun r => (List.range 2).map fun q =>
      let f : SVal := .fp (.ofInt (grid Q r q 0 / 4)) false
      (grid acc r q (.of .zero)).add (.fp (f.v.mul (c.scale i 0 n cg)) f.sat)) zero

/-- The transformed input tile of R246 before narrowing. -/
def ConvIn.winoV (c : ConvIn) (i ch ty tx : Nat) : List (List SVal) :=
  let b := c.b
  fpSandwich (fBT.map fun r => r.map Val.ofInt) ((List.range 6).map fun (r : Nat) => (List.range 6).map fun (q : Nat) =>
    let y := (4 * ty + r : Nat) - (b.pt : Int)
    let x := (4 * tx + q : Nat) - (b.pl : Int)
    if y < 0 ∨ (b.h : Int) ≤ y ∨ x < 0 ∨ (b.w : Int) ≤ x then SVal.of .zero
    else .fp ((decElem b.f.x (c.x i ch y.toNat x.toNat)).div (c.sa i 0 (if b.f.scaled then ch / b.f.G else 0))) false)

/-- The transformed kernel of R246 before narrowing. -/
def ConvIn.winoU (c : ConvIn) (n ch : Nat) : List (List SVal) :=
  let b := c.b
  fpSandwich (fG.map fun r => r.map decFP32) ((List.range 3).map fun r => (List.range 3).map fun q =>
    .fp ((decElem b.f.w (c.wt n ((r * 3 + q) * b.Cp + ch))).div (c.sw (if b.f.scaled then ch / b.f.G else 0) n)) false)

/-- The narrowing of a transformed element into N. -/
def winoNarrow (n : Nat) (v : SVal) : Val × Bool := let r := narrow n v.v 0; (decElem n r.1, r.2)

/-- Float Winograd: the 4 × 4 tile of outputs (R246). -/
def ConvIn.winoFloat (c : ConvIn) (V : Nat → List (List SVal)) (U : Nat → List (List SVal)) (i n : Nat) :
    List (List SVal) :=
  let b := c.b
  let vs := ((List.range b.cin).map V).toArray
  let us := ((List.range b.cin).map U).toArray
  let sat := vs.any (fun g => g.any fun r => r.any (·.sat)) || us.any fun g => g.any fun r => r.any (·.sat)
  let M := (List.range 6).map fun r => (List.range 6).map fun q =>
    let y := r199 false b.f.G 0 b.cin (fun k => (winoNarrow c.n (grid (vs.getD k []) r q (.of .zero))).1)
      (fun k => (winoNarrow c.n (grid (us.getD k []) r q (.of .zero))).1) (c.scale i 0 n) {}
    { y with sat := y.sat || sat }
  fpSandwich (fAT.map fun r => r.map Val.ofInt) M

/-- Saturations of a list of transformed tiles. -/
def winoSats (n : Nat) (l : List (List (List SVal))) : Nat :=
  (l.map fun g => (g.map fun r => (r.filter fun v => (winoNarrow n v).2).length).foldl (· + ·) 0).foldl (· + ·) 0

/-- Input positions some output of a windowed form reads, on one axis. -/
def readPos (n out stride dil k pad : Nat) : List Nat :=
  (List.range n).filter fun y => (List.range out).any fun o => (List.range k).any fun t => o * stride + t * dil == y + pad

/-- The results of every output, and the operand elements that saturated (R197, R204). -/
def ConvIn.results (c : ConvIn) : (Nat → Nat → Nat → Nat → SVal) × Nat :=
  let b := c.b
  let m := winoTile c.n
  let ty := ceilDiv b.hout m
  let tx := ceilDiv b.wout m
  let wsat := ((List.range b.cout).flatMap fun n => (List.range b.K).filter fun k =>
    decide (k % b.Cp < b.Cg) && (c.wgt n k).2).length
  let asat := fun ys xs => ((List.range b.batch).flatMap fun i => (List.range b.cin).flatMap fun ch =>
    ys.flatMap fun (y : Nat) => xs.filter fun (x : Nat) => (c.act i ch y x).2).length
  if b.form = 1 then
    if intClass c.n then
      let tiles := ((List.range b.batch).map fun i => ((List.range b.cout).map fun n => ((List.range ty).map fun t =>
        ((List.range tx).map fun u => c.winoInt i n t u).toArray).toArray).toArray).toArray
      (fun i n oy ox => grid ((((tiles.getD i #[]).getD n #[]).getD (oy / 2) #[]).getD (ox / 2) []) (oy % 2) (ox % 2) (.of .zero),
        wsat + asat (readPos b.h ty 2 1 4 b.pt) (readPos b.w tx 2 1 4 b.pl))
    else
      let V := ((List.range b.batch).map fun i => ((List.range ty).map fun t => ((List.range tx).map fun u =>
        ((List.range b.cin).map fun ch => c.winoV i ch t u).toArray).toArray).toArray).toArray
      let U := ((List.range b.cout).map fun n => ((List.range b.cin).map fun ch => c.winoU n ch).toArray).toArray
      let vAt := fun i t u ch => (((V.getD i #[]).getD t #[]).getD u #[]).getD ch []
      let tiles := ((List.range b.batch).map fun i => ((List.range b.cout).map fun n => ((List.range ty).map fun t =>
        ((List.range tx).map fun u => c.winoFloat (vAt i t u) (fun ch => (U.getD n #[]).getD ch []) i n).toArray).toArray).toArray).toArray
      (fun i n oy ox => grid ((((tiles.getD i #[]).getD n #[]).getD (oy / 4) #[]).getD (ox / 4) []) (oy % 4) (ox % 4) (.of .zero),
        winoSats c.n (V.toList.flatMap fun a => a.toList.flatMap fun r => r.toList.flatMap (·.toList)) +
          winoSats c.n (U.toList.flatMap (·.toList)))
  else
    (if b.form = 2 then c.depthwise else c.direct,
      wsat + asat (readPos b.h b.hout b.sy b.dy b.kh b.pt) (readPos b.w b.wout b.sx b.dx b.kw b.pl))

/-- R261: the body of CONV. [DEDUCED: log 113] -/
def convJob (_ : State) (d : List Byte) : Except (Nat × Nat) Job :=
  let e := dExt d
  let b := convBody d
  let f := b.f
  let epi := if 2 ≤ e then d8 d 0x91 else 0
  let hasB := bit epi 0
  let hasR := bit epi 1
  let relu := bit epi 2
  let y := d32 d 0x18
  let X : Img := { codec := b.ic, code := f.x, planes := b.batch * b.cin, H := b.h, W := b.w, rp := d32 d 0x40, pp := d32 d 0x44 }
  let Y : Img := { codec := b.oc, code := f.o, planes := b.batch * b.cout, H := b.hout, W := b.wout, rp := d32 d 0x48, pp := d32 d 0x4C }
  let R : Img := { code := d8 d 0x90, planes := b.batch * b.cout, H := b.hout, W := b.wout, rp := d32 d 0x88, pp := d32 d 0x8C }
  let G := f.G
  let ng := if f.scaled then b.NG else 0
  let sumOn := f.za && b.form != 2
  let ins : List Rect :=
    [X.rect (d32 d 0x10), { handle := d32 d 0x14, rows := b.cout, pitch := d32 d 0x50, bytes := rowBytes f.w b.K },
     optRect (f.sa != 0) { handle := d32 d 0x54, rows := b.batch, pitch := d32 d 0x74, bytes := b.groups * ng },
     optRect (f.sw != 0) { handle := d32 d 0x58, rows := ng, pitch := d32 d 0x6C, bytes := b.cout },
     optRect sumOn { handle := d32 d 0x5C, rows := ceilDiv b.K G, pitch := d32 d 0x70, bytes := 4 * b.cout },
     optRect f.za { handle := d32 d 0x60, rows := 1, bytes := 2 },
     optRect f.zw { handle := d32 d 0x64, rows := 1, bytes := if b.oneWz then 2 else 2 * b.cout },
     optRect b.perCh { handle := d32 d 0x68, rows := 1, bytes := 4 * b.cout },
     optRect hasB { handle := d32 d 0x80, rows := 1, bytes := 4 * b.cout },
     optRect hasR (R.rect (d32 d 0x84))]
  if !([d32 d 0x10, d32 d 0x14, y].all handleOk) || b.zeroDim || !f.ok || b.form == 3 then .error (6, 0)
  else if !b.overDim && !b.shapeOk then .error (6, 0)
  else if !b.formOk || (!b.overDim && (!X.ok || !Y.ok || (hasR && !R.ok))) || !(pitchOk (d32 d 0x50) (rowBytes f.w b.K)) ||
      (b.perCh && d32 d 0x34 != 0) || d16 d 0x3E != 0 || !(dZero d 0x78 0x80) ||
      !(optHandle (f.sa != 0) (d32 d 0x54)) || !(optHandle (f.sw != 0) (d32 d 0x58)) || !(optHandle sumOn (d32 d 0x5C)) ||
      !(optHandle f.za (d32 d 0x60)) || !(optHandle f.zw (d32 d 0x64)) || !(optHandle b.perCh (d32 d 0x68)) ||
      (f.sw != 0 && !(pitchOk (d32 d 0x6C) b.cout)) || (sumOn && !(pitchOk (d32 d 0x70) (4 * b.cout))) ||
      (f.sa != 0 && !(pitchOk (d32 d 0x74) (b.groups * ng))) || !(optHandle hasB (d32 d 0x80)) ||
      !(optHandle hasR (d32 d 0x84)) || decide (8 ≤ epi) || !(dZero d 0x92 0x100) ||
      (dInPlace d && ((ins.filter (·.rows ≠ 0)).any (·.handle == y))) then .error (6, 0)
  else if b.overDim then .error (7, 0)
  else
    let g : Win := { cin := b.cin, cout := b.cout, code := f.x, ocode := f.o, kh := b.kh, kw := b.kw, sy := b.sy
                     sx := b.sx, dy := b.dy, dx := b.dx, wout := b.wout }
    let m := winoTile f.n
    let wt := if b.form = 1 then (if m = 2 then 16 else 36) * (ceilDiv b.cin G * G) * b.cout *
      (if m = 2 then 2 else ceilDiv (fmtBits f.n) 8) else 0
    match g.band with
    | none => .error (7, 0)
    | some wb =>
      if 384 < d16 d 0x3A ∨ d16 d 0x3A < g.minSram wb (if b.form = 1 then m else 1) wt then .error (7, 0)
      else .ok
        { ins := ins, outs := [(y, Y.planes * Y.pp)], sram := d16 d 0x3A, lb := ceilDiv (g.lbNeed wb) 65536, fmtN := f.n
          run := fun n r =>
            let in_ := fun i => r.getD i #[]
            let px := X.data (in_ 0)
            let pr := R.data (in_ 9)
            let za := if f.za then zpAt (in_ 5) true 0 else 0
            let zw := fun c => if f.zw then zpAt (in_ 6) b.oneWz c else 0
            if (f.za && !(zpOk f.x za)) || (f.zw && !((List.range b.cout).all fun c => zpOk f.w (zw c))) then { status := 6 }
            else
              let c : ConvIn :=
                { b := b, n := n, x := fun i ch yy xx => px.1 (i * b.cin + ch) yy xx
                  wt := fun o k => elemAt f.w (in_ 1) o k
                  sa := fun i γ cg => scaleAt f.sa (in_ 2) i (γ * ng + cg)
                  sw := fun cg o => scaleAt f.sw (in_ 3) cg o
                  za := za, zw := zw, sumw := fun gg o => i32 (rowElem 10 ((in_ 4).getD gg 0) o) }
              let res := c.results
              let w := Y.write 0 fun p oy ox =>
                let i := p / b.cout
                let o := p % b.cout
                let v := res.1 i o oy ox
                let v := if hasB then v.add (.of (decFP32 (rowElem 10 ((in_ 8).getD 0 0) o))) else v
                let v := if hasR then v.add (.of (decElem R.code (pr.1 p oy ox))) else v
                let v := if relu then v.max (.of .zero) else v
                quantise f.o v (decFP32 (if b.perCh then rowElem 10 ((in_ 7).getD 0 0) o else d32 d 0x34)) (i16 (d16 d 0x38))
              { runs := w.1, satOperand := res.2, satOutput := w.2, codecBad := px.2 } }

end Sys2Proof.Machine
end

