-- ==== Sys2Proof/Machine/Operators.lean ====
section
/-! DEFINITION. The image operators POOL, CROP_RESIZE, ARGMAX, REGROUP and CODEC: bodies and results
(R253-R266). -/

namespace Sys2Proof.Machine

/-- The SRAM field of the operators without a window lies outside the least of R252 and the most of R222. -/
def operSram (u : Nat) : Option Nat := if 384 < u ∨ u < 8 then some 7 else none

/-- An in-place operator names an output that is none of its inputs (R260). [DEDUCED: log 117] -/
def inPlaceClash (d : List Byte) (ins : List Rect) (y : Nat) : Bool :=
  dInPlace d && (ins.filter (·.rows ≠ 0)).any (·.handle == y)

/-- No extension slot of these bodies is defined (R260). -/
def extZero (d : List Byte) : Bool := dZero d 0x40 0x100

/-! ## POOL (R254, R262) -/

/-- The result of a window: the elements inside the image, and the count of an average. -/
def poolValue (avg : Bool) (count : Nat) (vs : List Val) : SVal :=
  if avg then
    let sum := vs.foldl (fun (a : SVal) v => a.add (.of v)) (.of .zero)
    sum.mul (vRecip (.of (.ofNat count)))
  else match vs with
  | [] => .of .nan
  | v :: rest => .of (rest.foldl Val.max v)

def poolJob (_ : State) (d : List Byte) : Except (Nat × Nat) Job :=
  let xf := bits (d8 d 0x18) 0 4
  let yf := bits (d8 d 0x18) 4 4
  let mode := bits (d8 d 0x19) 0 2
  let pad := bit (d8 d 0x19) 2
  let global := decide (2 ≤ mode)
  let avg := mode % 2 == 1
  let kh := d8 d 0x1A
  let kw := d8 d 0x1B
  let sy := d8 d 0x1C
  let sx := d8 d 0x1D
  let pt := d8 d 0x1E
  let pb := d8 d 0x1F
  let pl := d8 d 0x20
  let pr := d8 d 0x21
  let C := d16 d 0x22
  let H := d16 d 0x24
  let W := d16 d 0x26
  let batch := d16 d 0x38
  let ho := if global then 1 else outSize H pt pb 1 kh sy
  let wo := if global then 1 else outSize W pl pr 1 kw sx
  let X : Img := { codec := bits (d8 d 0x19) 3 2, code := xf, planes := batch * C, H := H, W := W, rp := d32 d 0x28, pp := d32 d 0x2C }
  let Y : Img := { codec := bits (d8 d 0x19) 5 2, code := yf, planes := batch * C, H := ho, W := wo, rp := d32 d 0x30, pp := d32 d 0x34 }
  let y := d32 d 0x14
  let ins : List Rect := [X.rect (d32 d 0x10)]
  let winFields := [kh, kw, sy, sx]
  let beyond := !global && (decide (9 < kh) || decide (9 < kw) || decide (4 < sy) || decide (4 < sx))
  if !([d32 d 0x10, y].all handleOk) || !(fmtOk xf) || !(fmtOk yf) || bit (d8 d 0x19) 7 ||
      [C, H, W, batch].any (· == 0) || (if global then !((winFields ++ [pt, pb, pl, pr]).all (· == 0)) else winFields.any (· == 0)) ||
      (!global && !beyond && (decide (kh ≤ pt) || decide (kh ≤ pb) || decide (kw ≤ pl) || decide (kw ≤ pr) || ho == 0 || wo == 0)) ||
      (!beyond && (!X.ok || !Y.ok)) || !(extZero d) || inPlaceClash d ins y then .error (6, 0)
  else if beyond then .error (7, 0)
  else
    let g : Win := { cin := C, cout := C, code := xf, ocode := yf, kh := if global then 1 else kh, kw := if global then 1 else kw
                     sy := if global then 1 else sy, sx := if global then 1 else sx, dy := 1, dx := 1
                     wout := if global then W else wo }
    match g.band with
    | none => .error (7, 0)
    | some wb =>
      if 384 < d16 d 0x3A ∨ d16 d 0x3A < g.minSram wb 1 0 then .error (7, 0)
      else .ok
        { ins := ins, outs := [(y, Y.planes * Y.pp)], sram := d16 d 0x3A, lb := ceilDiv (g.lbNeed wb) 65536
          run := fun _ r =>
            let px := X.data (r.getD 0 #[])
            let w := Y.write 0 fun p oy ox =>
              let cells : List (Int × Int) :=
                if global then (List.range H).flatMap fun (yy : Nat) => (List.range W).map fun (xx : Nat) => ((yy : Int), (xx : Int))
                else (List.range kh).flatMap fun (i : Nat) => (List.range kw).map fun (j : Nat) =>
                  (((oy * sy + i : Nat) : Int) - (pt : Int), ((ox * sx + j : Nat) : Int) - (pl : Int))
              let inside := fun (c : Int × Int) => decide (0 ≤ c.1) && decide (c.1 < H) && decide (0 ≤ c.2) && decide (c.2 < W)
              let val := fun (c : Int × Int) => if inside c then decElem xf (px.1 p c.1.toNat c.2.toNat) else Val.zero
              let live := cells.filter inside
              let v := if avg && pad then poolValue true cells.length (cells.map val)
                else poolValue avg live.length (live.map val)
              quantise yf v (decFP32 (d32 d 0x3C)) 0
            { runs := w.1, satOutput := w.2, codecBad := px.2 } }

/-! ## CROP_RESIZE (R255-R257, R263) -/

/-- A signed division toward zero. -/
def truncDiv (a b : Int) : Int := a.tdiv b

/-- Sample positions of one axis in 16.16 (R256). -/
def samplePos (p0 p1 : Int) (n j : Nat) : Int :=
  if 1 < n then p0 + j * truncDiv (p1 - p0) ((n : Int) - 1) else truncDiv (p0 + p1) 2

/-- [DEDUCED: log 114] -/
def cropJob (_ : State) (d : List Byte) : Except (Nat × Nat) Job :=
  let xf := bits (d8 d 0x1C) 0 4
  let yf := bits (d8 d 0x1C) 4 4
  let nearest := bit (d8 d 0x1D) 0
  let nb := d16 d 0x1E
  let C := d16 d 0x20
  let H := d16 d 0x22
  let W := d16 d 0x24
  let ow := d8 d 0x26
  let oh := d8 d 0x27
  let batch := d16 d 0x3E
  let X : Img := { code := xf, planes := batch * C, H := H, W := W, rp := d32 d 0x28, pp := d32 d 0x2C }
  let Y : Img := { code := yf, planes := nb * C, H := oh, W := ow, rp := d32 d 0x30, pp := d32 d 0x34 }
  let y := d32 d 0x18
  let ins : List Rect := [X.rect (d32 d 0x10), { handle := d32 d 0x14, rows := nb, pitch := 24, bytes := 24 }]
  let beyond := decide (4096 < nb) || decide (64 < ow) || decide (64 < oh)
  let sr := d16 d 0x3C
  if !([d32 d 0x10, d32 d 0x14, y].all handleOk) || !(fmtOk xf) || !(fmtOk yf) || bits (d8 d 0x1D) 1 7 != 0 ||
      [nb, C, H, W, ow, oh, batch].any (· == 0) || !X.ok || (!beyond && !Y.ok) || !(extZero d) || inPlaceClash d ins y then .error (6, 0)
  else if beyond || (operSram sr).isSome then .error (7, 0)
  else .ok
    { ins := ins, outs := [(y, Y.planes * Y.pp)], sram := sr
      run := fun _ r =>
        let px := (X.data (r.getD 0 #[])).1
        let box := r.getD 1 #[]
        let fld := fun b o n => box.getD b 0 / 2 ^ (8 * o) % 2 ^ (8 * n)
        if (List.range nb).any (fun b => decide (batch ≤ fld b 0x10 2)) then { status := 7 }
        else
          let ext := decFP32 (d32 d 0x38)
          let w := Y.write 0 fun p i j =>
            let b := p / C
            if fld b 0x12 2 % 2 = 1 then (0, false)
            else
              let pl := fld b 0x10 2 * C + p % C
              let x := samplePos (i32 (fld b 0 4)) (i32 (fld b 8 4)) ow j
              let yy := samplePos (i32 (fld b 4 4)) (i32 (fld b 12 4)) oh i
              let xi := x.fdiv 65536
              let yi := yy.fdiv 65536
              let fx := (x.fdiv 256 % 256).toNat
              let fy := (yy.fdiv 256 % 256).toNat
              let tap := fun (ty tx : Int) =>
                if 0 ≤ ty ∧ ty < H ∧ 0 ≤ tx ∧ tx < W then decElem xf (px pl ty.toNat tx.toNat) else ext
              if nearest then narrow yf (tap (yi + (fy / 128 : Nat)) (xi + (fx / 128 : Nat))) 0
              else
                let t := fun (k : Nat) v => (Val.ofNat k).mul v
                let S := (((t ((256 - fx) * (256 - fy)) (tap yi xi)).add (t (fx * (256 - fy)) (tap yi (xi + 1)))).add
                  (t ((256 - fx) * fy) (tap (yi + 1) xi))).add (t (fx * fy) (tap (yi + 1) (xi + 1)))
                narrow yf (S.mul (.fin false 1 1 (-16))) 0
          { runs := w.1, satOutput := w.2 } }

/-! ## ARGMAX (R258, R264) -/

def argmaxJob (_ : State) (d : List Byte) : Except (Nat × Nat) Job :=
  let xf := bits (d8 d 0x1C) 0 4
  let C := d32 d 0x20
  let H := d16 d 0x24
  let W := d16 d 0x26
  let batch := d16 d 0x38
  let X : Img := { code := xf, planes := batch * C, H := H, W := W, rp := d32 d 0x28, pp := d32 d 0x2C }
  let y := d32 d 0x14
  let v := d32 d 0x18
  let yp := d32 d 0x30
  let vp := d32 d 0x34
  let sr := d16 d 0x3A
  let ins : List Rect := [X.rect (d32 d 0x10)]
  if !([d32 d 0x10, y, v].all handleOk) || !(fmtOk xf) || bits (d8 d 0x1C) 4 4 != 0 || !(dZero d 0x1D 0x20) ||
      [C, H, W, batch].any (· == 0) || (decide (C ≤ 65536) && !X.ok) || !(pitchOk yp (2 * W)) ||
      (v != 0 && !(pitchOk vp (rowBytes xf W))) || !(dZero d 0x3C 0x100) || inPlaceClash d ins y ||
      (v != 0 && inPlaceClash d ins v) then .error (6, 0)
  else if 65536 < C ∨ (operSram sr).isSome then .error (7, 0)
  else .ok
    { ins := ins, outs := [(y, batch * H * yp)] ++ (if v = 0 then [] else [(v, batch * H * vp)]), sram := sr
      run := fun _ r =>
        let px := (X.data (r.getD 0 #[])).1
        let best := fun i yy xx => (List.range (C - 1)).foldl (fun b c =>
          if (decElem xf (px (i * C + b) yy xx)).argLt (decElem xf (px (i * C + (c + 1)) yy xx)) then c + 1 else b) 0
        let rows := (List.range batch).flatMap fun i => (List.range H).map fun yy => (i, yy)
        { runs := (rows.map fun iy => ⟨0, (iy.1 * H + iy.2) * yp,
              (List.range W).flatMap fun xx => natLe 2 (best iy.1 iy.2 xx)⟩) ++
            (if v = 0 then [] else rows.map fun iy => ⟨1, (iy.1 * H + iy.2) * vp,
              packRow xf ((List.range W).map fun xx => px (iy.1 * C + best iy.1 iy.2 xx) iy.2 xx)⟩) } }

/-! ## REGROUP (R253, R265) -/

def regroupJob (_ : State) (d : List Byte) : Except (Nat × Nat) Job :=
  let f := bits (d8 d 0x18) 0 4
  let op := d8 d 0x19
  let F := d8 d 0x1A
  let C := d16 d 0x1C
  let batch := d16 d 0x1E
  let H := d16 d 0x20
  let W := d16 d 0x22
  let co := if op = 0 then C * F * F else C / (F * F)
  let ho := if op = 0 then H / F else H * F
  let wo := if op = 0 then W / F else W * F
  let X : Img := { code := f, planes := batch * C, H := H, W := W, rp := d32 d 0x24, pp := d32 d 0x28 }
  let Y : Img := { code := f, planes := batch * co, H := ho, W := wo, rp := d32 d 0x2C, pp := d32 d 0x30 }
  let y := d32 d 0x14
  let sr := d16 d 0x34
  let ins : List Rect := [X.rect (d32 d 0x10)]
  if !([d32 d 0x10, y].all handleOk) || !(fmtOk f) || bits (d8 d 0x18) 4 4 != 0 || d8 d 0x1B != 0 || decide (1 < op) ||
      decide (F < 2) || [C, batch, H, W].any (· == 0) || !X.ok || !(dZero d 0x36 0x100) || inPlaceClash d ins y then .error (6, 0)
  else if 4 < F then .error (7, 0)
  else if (op = 0 ∧ (H % F ≠ 0 ∨ W % F ≠ 0 ∨ 65535 < C * F * F)) ∨ (op = 1 ∧ C % (F * F) ≠ 0) ∨ !Y.ok then .error (6, 0)
  else if (operSram sr).isSome then .error (7, 0)
  else .ok
    { ins := ins, outs := [(y, Y.planes * Y.pp)], sram := sr
      run := fun _ r =>
        let px := (X.data (r.getD 0 #[])).1
        let w := Y.write 0 fun p oy ox =>
          let b := p / co
          let c := p % co
          (if op = 0 then px (b * C + c / (F * F)) (F * oy + c % (F * F) / F) (F * ox + c % F)
           else px (b * C + c * F * F + oy % F * F + ox % F) (oy / F) (ox / F), false)
        { runs := w.1 } }

/-! ## CODEC (R266) -/

def codecJob (_ : State) (d : List Byte) : Except (Nat × Nat) Job :=
  let op := d8 d 0x18
  let f := d8 d 0x19
  let n := d16 d 0x1A
  let H := d16 d 0x1C
  let W := d16 d 0x1E
  let md := op % 2 + 1
  let X : Img := { codec := if op < 2 then 0 else md, code := f, planes := n, H := H, W := W, rp := d32 d 0x20, pp := d32 d 0x24 }
  let Y : Img := { codec := if op < 2 then md else 0, code := f, planes := n, H := H, W := W, rp := d32 d 0x28, pp := d32 d 0x2C }
  let y := d32 d 0x14
  let sr := d16 d 0x30
  let ins : List Rect := [X.rect (d32 d 0x10)]
  if !([d32 d 0x10, y].all handleOk) || decide (3 < op) || (f != 1 && f != 2) || [n, H, W].any (· == 0) || !X.ok || !Y.ok ||
      !(dZero d 0x32 0x100) || inPlaceClash d ins y then .error (6, 0)
  else if (operSram sr).isSome then .error (7, 0)
  else .ok
    { ins := ins, outs := [(y, n * Y.pp)], sram := sr
      run := fun _ r =>
        let px := X.data (r.getD 0 #[])
        let w := Y.write 0 fun p yy xx => (px.1 p yy xx, false)
        { runs := w.1, codecBad := px.2 } }

end Sys2Proof.Machine
end

