-- ==== Sys2Proof/Machine/Attention.lean ====
section
/-! DEFINITION. ATTENTION: its body and validation, masks, the score path through Sinter, merging,
spills, appended records and gradients (R270-R293, R300, R301). -/

namespace Sys2Proof.Machine

/-! ## The body (R275-R277) -/

structure AttBody where
  q : Nat
  k : Nat
  v : Nat
  o : Nat
  len : Nat
  qf : Nat
  nqk : Nat
  npv : Nat
  of_ : Nat
  plain : Bool
  causal : Bool
  back : Bool
  spill : Bool
  adv : Bool
  engines : Nat
  slots : Nat
  headSplit : Bool
  ents : Nat
  qh : Nat
  kh : Nat
  hd : Nat
  layer : Nat
  sinter : Nat
  sram : Nat
  sm : Nat
  factor : Nat
  zp : Nat
  kf : Nat
  vf : Nat
  qp : Nat
  op : Nat
  kp : Nat
  vp : Nat
  newk : Nat
  newv : Nat
  newp : Nat
  newf : Nat
  gcount : Nat
  window : Nat
  global : Nat
  seg : Nat
  segp : Nat
  block : Nat
  blockp : Nat
  stats : Nat
  probs : Nat
  probsp : Nat
  spillH : Nat
  dO : Nat
  dq : Nat
  dk : Nat
  dv : Nat
  dop : Nat
  gscale : Nat
  dof : Nat
  dqp : Nat
  dkvp : Nat
deriving DecidableEq, Repr

def attBody (d : List Byte) : AttBody :=
  { q := d32 d 0x10, k := d32 d 0x14, v := d32 d 0x18, o := d32 d 0x1C, len := d32 d 0x20
    qf := bits (d16 d 0x24) 0 4, nqk := bits (d16 d 0x24) 4 4, npv := bits (d16 d 0x24) 8 4, of_ := bits (d16 d 0x24) 12 4
    plain := bit (d8 d 0x26) 0, causal := bit (d8 d 0x26) 1, back := bit (d8 d 0x26) 2, spill := bit (d8 d 0x26) 3
    adv := bit (d8 d 0x26) 4, engines := bits (d8 d 0x27) 0 3 + 1, slots := bits (d8 d 0x27) 3 2 + 1
    headSplit := bit (d8 d 0x27) 5, ents := d16 d 0x28, qh := d16 d 0x2A, kh := d16 d 0x2C, hd := d16 d 0x2E
    layer := d8 d 0x30, sinter := d8 d 0x31, sram := d16 d 0x32, sm := d32 d 0x34, factor := d32 d 0x38, zp := d16 d 0x3C
    kf := bits (d8 d 0x3E) 0 4, vf := bits (d8 d 0x3E) 4 4, qp := d32 d 0x40, op := d32 d 0x44, kp := d32 d 0x48
    vp := d32 d 0x4C, newk := d32 d 0x50, newv := d32 d 0x54, newp := d32 d 0x58, newf := bits (d8 d 0x5C) 0 4
    gcount := d16 d 0x5E, window := d32 d 0x60, global := d32 d 0x64, seg := d32 d 0x68, segp := d32 d 0x6C
    block := d32 d 0x70, blockp := d32 d 0x74, stats := d32 d 0x78, probs := d32 d 0x80, probsp := d32 d 0x84
    spillH := d32 d 0x88, dO := d32 d 0x8C, dq := d32 d 0x90, dk := d32 d 0x94, dv := d32 d 0x98, dop := d32 d 0x9C
    gscale := d32 d 0xA0, dof := bits (d8 d 0xA4) 0 4, dqp := d32 d 0xA8, dkvp := d32 d 0xAC }

/-- Parts of the command (R291). -/
def AttBody.parts (b : AttBody) : Nat := b.engines * b.slots
def AttBody.group (b : AttBody) : Nat := b.qh / b.kh

/-- A length-table entry with its positions (R278, R279): `L` is the bound length, `total` the keys. -/
structure Ent where
  src : Nat
  qrow : Nat
  nq : Nat
  app : Bool
  L : Nat
  total : Nat
  pos0 : Int
deriving DecidableEq, Repr

/-- The raw entries of a length table. -/
def rawEnts (b : AttBody) (bs : List Byte) : List (Nat × Nat × Nat × Nat × Nat × Nat) :=
  (List.range b.ents).map fun i =>
    let r := bs.drop (16 * i)
    (d32 r 0, d32 r 4, d32 r 8, d16 r 12, d8 r 14, d8 r 15)

/-- Field rules of R275-R278 and R280 that the descriptor alone decides. -/
def AttBody.fieldsOk (b : AttBody) (d : List Byte) : Bool :=
  let e := dExt d
  decide (1 ≤ b.ents) && decide (b.ents ≤ 256) && decide (1 ≤ b.kh) && decide (b.kh ≤ 256) && decide (1 ≤ b.qh) &&
    decide (b.qh ≤ 256) && b.qh % b.kh == 0 && decide (32 ≤ b.hd) && decide (b.hd ≤ 256) && b.hd % 32 == 0 &&
    bits (d8 d 0x26) 5 3 == 0 && bits (d8 d 0x27) 6 2 == 0 && d8 d 0x3F == 0 && bits (d8 d 0x5C) 4 4 == 0 && d8 d 0x5D == 0 &&
    d32 d 0x7C == 0 && bits (d8 d 0xA4) 4 4 == 0 && dZero d 0xA5 0xA8 && dZero d 0xB0 0x100 &&
    decide (1 ≤ b.sinter) && decide (b.sinter ≤ 32) && decide (1 ≤ b.sram) && decide (b.sram ≤ 384) &&
    fmtOk b.qf && fmtOk b.of_ && (classOf b.nqk).isSome && decide (6 ≤ b.npv) && decide (b.npv ≤ 9) &&
    [b.q, b.k, b.v, b.o, b.len, b.newk, b.newv, b.global, b.seg, b.block, b.stats].all handleOk &&
    (if b.plain then b.layer == 0 && fmtOk b.kf && fmtOk b.vf && !b.adv
     else b.k == 0 && b.v == 0 && d8 d 0x3E == 0) &&
    (!(b.spill || b.back) || (decide (2 ≤ e) && [b.probs, b.spillH, b.dO, b.dq, b.dk, b.dv].all handleOk)) &&
    (!b.spill || (b.probs != 0 && b.spillH != 0)) &&
    (!b.spill || b.headSplit || b.parts == 1) &&
    (!b.back || (b.plain && !b.spill && (b.headSplit || b.parts == 1) && (b.nqk == 8 || b.nqk == 9) &&
      (b.npv == 8 || b.npv == 9) && fmtOk b.dof)) &&
    (b.gcount == 0 || b.global != 0) &&
    pitchOk b.qp (rowBytes b.qf (b.qh * b.hd)) && pitchOk b.op (rowBytes b.of_ (b.qh * b.hd)) &&
    (!b.plain || (pitchOk b.kp (rowBytes b.kf (b.kh * b.hd)) && pitchOk b.vp (rowBytes b.vf (b.kh * b.hd)))) &&
    (!b.back || (pitchOk b.dop (rowBytes b.dof (b.qh * b.hd)) && pitchOk b.dqp (rowBytes b.of_ (b.qh * b.hd)) &&
      pitchOk b.dkvp (rowBytes b.of_ (b.kh * b.hd))))

/-- Two half-open ranges meet. -/
def rangesMeet (a n b m : Nat) : Bool := decide (a < b + m) && decide (b < a + n)

/-- Pairs of positions of a list. -/
def anyPair {α : Type} (l : List α) (p : α → α → Bool) : Bool :=
  (l.zipIdx).any fun x => (l.zipIdx).any fun y => decide (x.2 < y.2) && p x.1 y.1

/-- The output handles (R274). -/
def AttBody.outs (b : AttBody) (ents : List Ent) : List Nat :=
  (if b.back then [b.dq, b.dk, b.dv]
   else [b.o] ++ (if b.stats = 0 then [] else [b.stats]) ++ (if b.spill then [b.probs, b.spillH] else [])) ++
    (if b.adv then (ents.filter (·.app)).map (·.src) else [])

/-- The plain input handles. -/
def AttBody.plainIns (b : AttBody) (app : Bool) : List Nat :=
  ([b.q, b.len] ++ (if b.plain then [b.k, b.v] else []) ++ (if app then [b.newk, b.newv] else []) ++
    (if b.gcount = 0 then [] else [b.global]) ++ (if b.seg = 0 then [] else [b.seg]) ++
    (if b.block = 0 then [] else [b.block]) ++ (if b.back then [b.o, b.dO, b.stats] else [])).eraseDups

/-! ## Rows and tiles (R281, R282, R284) -/

/-- The masks of a command as read. -/
structure Masks where
  causal : Bool
  window : Nat
  globals : List Nat
  seg : Nat → Int → Nat              -- entry, position
  segOn : Bool
  blockOn : Bool
  blockbit : Int → Int → Bool

/-- R281. [DEDUCED: log 121] -/
def Masks.visible (m : Masks) (e : Nat) (i k : Int) : Bool :=
  let gl := fun (x : Int) => decide (0 ≤ x) && m.globals.contains x.toNat
  if m.causal && decide (i < k) then false
  else if m.window != 0 && !(gl i) && !(gl k) &&
      (if m.causal then decide ((m.window : Int) ≤ i - k) else decide (m.window ≤ (i - k).natAbs)) then false
  else if m.segOn && m.seg e k != 0xFFFF && m.seg e k != m.seg e i then false
  else if m.blockOn && !(m.blockbit (i.fdiv 64) (k.fdiv 64)) then false
  else true

/-- Tokens of a query block, and the blocks of an entry (R284). -/
def AttBody.blockTokens (b : AttBody) : Nat := 1024 / b.group
def AttBody.blocks (b : AttBody) (e : Ent) : List (Nat × Nat) :=
  (List.range (ceilDiv e.nq b.blockTokens)).map fun i => (i * b.blockTokens, min b.blockTokens (e.nq - i * b.blockTokens))

/-- Tiles of a chunk for a block of `n` tokens; 0 where Bk is below 128 (R284). -/
def AttBody.chunkTiles (b : AttBody) (n : Nat) : Nat := b.sinter * 512 / (n * b.group)

/-- The tiles of 128 keys some row of the block sees (R282). -/
def Masks.listed (m : Masks) (ei : Nat) (e : Ent) (j0 n : Nat) : List Nat :=
  (List.range (ceilDiv e.total 128)).filter fun t => (List.range n).any fun j =>
    (List.range (min 128 (e.total - t * 128))).any fun x => m.visible ei (e.pos0 + (j0 + j : Nat)) ((t * 128 + x : Nat) : Int)

/-- Consecutive runs of at most `n`. -/
def chunksOf {α : Type} (n : Nat) : Nat → List α → List (List α)
  | 0, _ => []
  | fuel + 1, l => if l.isEmpty then [] else l.take n :: chunksOf n fuel (l.drop n)

/-! ## Operands of the score path -/

/-- R271: the UE8M0 exponent for values narrowed into a format, and their narrowed elements. -/
def scaleExp (f : Nat) (xs : List Val) : Int :=
  let M := (xs.filterMap fun x => match x with | .fin _ n d e => some (Val.fin false n d e) | _ => none).foldl
    (fun (a : Val) x => if a.ltNum x then x else a) Val.zero
  let top : Val := match ffmt f with
    | some g => decFloat g g.maxEnc
    | none => .ofInt (intRange f).2
  match M.div top with
  | .fin _ n d e =>
    if n = 0 then -127
    else
      let l := ratLog n d + e
      let exact := decide (n * pow2 e (min e l) = d * pow2 l (min e l))
      max (-127) (min 127 (if exact then l else l + 1))
  | _ => -127

def scaleNarrow (f : Nat) (e : Int) (x : Val) : Nat × Bool := narrow f (x.mul (.fin false 1 1 (-e))) 0

/-- A vector of entered elements with its group scales, and the elements that saturated. -/
structure Vec where
  x : Array Val
  sc : Array Val
  sat : Nat := 0
deriving DecidableEq

/-- The layout of a sequence record or a plain row of keys or values (R270): elements of head h from a
row, with K's group scales or V's head scale. -/
structure KvFmt where
  fk : Nat
  fv : Nat
  scaled : Bool
  G : Nat
  hd : Nat
  kh : Nat
  dataK : Nat
  dataV : Nat
deriving DecidableEq, Repr

/-- Groups along HEAD_DIM. -/
def KvFmt.ng (f : KvFmt) : Nat := ceilDiv f.hd f.G

def KvFmt.key (f : KvFmt) (row h : Nat) : Vec :=
  { x := ((List.range f.hd).map fun d => decElem f.fk (rowElem f.fk row (h * f.hd + d))).toArray
    sc := ((List.range f.ng).map fun g =>
      if f.scaled then decScale 1 (row / 2 ^ (8 * (f.dataK + h * f.ng + g)) % 256) else .one).toArray }

def KvFmt.val (f : KvFmt) (row h : Nat) : Vec :=
  { x := ((List.range f.hd).map fun d => decElem f.fv (rowElem f.fv row (h * f.hd + d))).toArray
    sc := #[if f.scaled then decScale 1 (row / 2 ^ (8 * (f.dataV + h)) % 256) else .one] }

/-- R271, R272: a K or V record from a row of new values, its bytes and its saturations. `gl` is the
group length a scale covers. -/
def makeRecord (f : KvFmt) (code gl bpt newf row : Nat) : Nat × Nat :=
  let per := (List.range f.kh).map fun h =>
    (List.range (ceilDiv f.hd gl)).map fun g =>
      let xs := (List.range (min gl (f.hd - g * gl))).map fun i => decElem newf (rowElem newf row (h * f.hd + g * gl + i))
      let e := if f.scaled then scaleExp code xs else 0
      (xs.map (scaleNarrow code e), (e + 127).toNat)
  let els := per.flatMap fun hs => hs.flatMap (·.1)
  let scs := if f.scaled then per.flatMap fun hs => hs.map (·.2) else []
  let bytes := packRow code (els.map (·.1)) ++ scs.map (BitVec.ofNat 8 ·)
  (leNat (bytes ++ List.replicate (bpt - bytes.length) 0), (els.filter (·.2)).length)

/-- The query vector of a row and head (R285 step 1). -/
def queryVec (b : AttBody) (G row h : Nat) : Vec :=
  let xs := (List.range b.hd).map fun d => decElem b.qf (rowElem b.qf row (h * b.hd + d))
  let acc := match classOf b.nqk with | some c => accepted c b.qf | none => false
  if acc then { x := xs.toArray, sc := #[] }
  else
    let gs := (List.range (ceilDiv b.hd G)).map fun g =>
      let part := (xs.drop (g * G)).take G
      let e := scaleExp b.nqk part
      (part.map (scaleNarrow b.nqk e), Val.fin false 1 1 e)
    { x := ((gs.flatMap (·.1)).map fun r => decElem b.nqk r.1).toArray, sc := (gs.map (·.2)).toArray
      sat := ((gs.flatMap (·.1)).filter (·.2)).length }

/-- One score (R285 step 1). -/
def scoreOf (b : AttBody) (G : Nat) (qv kv : Vec) : SVal :=
  let acc := r199 (intClass b.nqk) G 0 b.hd (fun k => qv.x.getD k .zero) (fun k => kv.x.getD k .zero)
    (fun g => (if qv.sc.isEmpty then Val.one else qv.sc.getD g .one).mul (kv.sc.getD g .one)) {}
  acc.mul (.of (decFP32 b.sm))

/-! ## Softmax partials (R285, R289) -/

/-- A partial (m, l, O). -/
structure Part where
  m : SVal
  l : SVal
  o : List SVal
deriving DecidableEq, Repr

def emptyPart (hd : Nat) : Part := ⟨.of (.inf true), .of .zero, List.replicate hd (.of .zero)⟩

/-- R289. -/
def mergeParts (hd : Nat) (ps : List Part) : Part :=
  let live := ps.filter fun p => !(p.l.v.isZero)
  match live with
  | [] => emptyPart hd
  | p0 :: rest =>
    let m := rest.foldl (fun (a : SVal) p => a.max p.m) p0.m
    let as := ps.map fun p => if p.l.v.isZero then SVal.of .zero else p.l.mul (vExp2 (p.m.sub m))
    let l := as.foldl SVal.add (.of .zero)
    let r := vRecip l
    let o := (ps.zip as).foldl (fun (o : List SVal) pa =>
      let w := pa.2.mul r
      (o.zip pa.1.o).map fun x => x.1.add (w.mul x.2)) (List.replicate hd (.of .zero))
    ⟨m, l, o⟩

/-- What one row's chunk gives: the partial, the probabilities of its keys (none where masked), the
scores, and the probabilities whose narrowing saturated. -/
structure ChunkRow where
  part : Part
  ps : List (Nat × Option SVal)
  ss : List (Nat × Option SVal)
  sat : Nat

/-- Read step and partial of one row over a chunk's keys (R285 steps 2 and 3). [DEDUCED: log 119] -/
def chunkRow (b : AttBody) (tiles : List Nat) (total : Nat) (score : Nat → Option SVal) (v : Nat → Vec) (vscaled : Bool) : ChunkRow :=
  let keys := tiles.flatMap fun t => (List.range (min 128 (total - t * 128))).map fun x => t * 128 + x
  let ss := keys.map fun k => (k, score k)
  match ss.filterMap (·.2) with
  | [] => ⟨emptyPart b.hd, keys.map fun k => (k, none), ss, 0⟩
  | s0 :: rest =>
    let m := rest.foldl (fun (a : SVal) x => a.max x) s0
    let es := ss.map fun ks => (ks.1, ks.2.map fun x => vExp2 (x.sub m))
    let l := es.foldl (fun (a : SVal) ke => match ke.2 with | some e => a.add e | none => a.add (.of .zero)) (.of .zero)
    let r := vRecip l
    let ps := es.map fun ke => (ke.1, ke.2.map fun e => e.mul r)
    let folded := ps.map fun kp => match kp.2 with
      | none => (kp.1, (SVal.of .zero, (0, false)))
      | some p =>
        let p := if vscaled then p.mul (.of ((v kp.1).sc.getD 0 .one)) else p
        (kp.1, (p, narrow b.npv p.v 0))
    -- positions in the chunk are whole tiles, the last one padded
    let slot := fun (i : Nat) => (tiles.getD (i / 128) 0) * 128 + i % 128
    let a := ((List.range (tiles.length * 128)).map fun i =>
      match folded.find? (fun (kp : Nat × (SVal × (Nat × Bool))) => kp.1 == slot i) with
      | some kp => decElem b.npv kp.2.2.1
      | none => Val.zero).toArray
    let vs := ((List.range (tiles.length * 128)).map fun i => if slot i < total then (v (slot i)).x else #[]).toArray
    let sat := folded.any fun kp => kp.2.1.sat
    let o := (List.range b.hd).map fun d =>
      let y := r199 false 128 0 (tiles.length * 128) (fun i => a.getD i .zero) (fun i => (vs.getD i #[]).getD d .zero)
        (fun _ => .one) {}
      { y with sat := y.sat || sat || l.sat }
    ⟨⟨m, l, o⟩, ps, ss, (folded.filter fun kp => kp.2.2.2).length⟩

/-! ## Forward -/

/-- The rows a command has read, entry by entry. -/
structure AttIn where
  masks : Masks
  ents : List Ent
  kv : Nat → KvFmt                   -- by entry
  q : Array (Array Nat)              -- entry, query
  k : Array (Array Nat)              -- entry, key
  v : Array (Array Nat)

/-- Results of one query row and head. -/
structure RowOut where
  part : Part
  probs : List (Nat × Nat)           -- key, byte
deriving DecidableEq

/-- A byte of R290 from an exact scaled probability of key `k`; of a NaN it is a free value. -/
def probByte (k : Nat) (x : SVal) : Nat :=
  if x.v.isNaN then (Config.nanProb k).toNat
  else match (x.mul (.of (.ofNat 256))).v.trunc with
    | some t => min 255 t.toNat
    | none => 255

/-- The spill code of a score of key `k` (R290); of a NaN it is a free value. -/
def spillCode (mc : SVal) (k : Nat) (sc : Option SVal) : Nat :=
  match sc with
  | none => 0
  | some x =>
    let y := (mc.sub x).mul (.of (.ofNat 16))
    if y.v.isNaN then (Config.nanProb k).toNat
    else if !(y.v.ltNum (.ofNat 255)) then 0 else 255 - (y.v.trunc.getD 0).toNat

/-- The PROBS byte from a decoded spill code (R290). -/
def spillByte (k : Nat) (mc m l : SVal) (code : Nat) : Nat :=
  if code = 0 then 0
  else
    let back := SVal.fp (mc.v.sub (.fin false (255 - code) 16 0)) mc.sat
    probByte k ((vExp2 (back.sub m)).mul (vRecip l))

/-- One query block of one KV head: the rows' results in row order, the spilled planes, and the
operand saturations of its probabilities (R284-R290, R292). [DEDUCED: log 122] -/
def AttIn.block (a : AttIn) (b : AttBody) (ei : Nat) (e : Ent) (h j0 n : Nat) : List RowOut × List Byte × Nat :=
  let rows := (List.range n).flatMap fun j => (List.range b.group).map fun g => (j0 + j, h * b.group + g)
  let qs := (rows.map fun jh => queryVec b (a.kv ei).G ((a.q.getD ei #[]).getD jh.1 0) jh.2).toArray
  let ks := ((List.range e.total).map fun k => (a.kv ei).key ((a.k.getD ei #[]).getD k 0) h).toArray
  let vs := ((List.range e.total).map fun k => (a.kv ei).val ((a.v.getD ei #[]).getD k 0) h).toArray
  let score := fun (ri : Nat) (k : Nat) =>
    if a.masks.visible ei (e.pos0 + ((rows.getD ri (0, 0)).1 : Nat)) (k : Int) then
      some (scoreOf b (a.kv ei).G (qs.getD ri ⟨#[], #[], 0⟩) (ks.getD k ⟨#[], #[], 0⟩))
    else none
  let listed := a.masks.listed ei e j0 n
  let P := if b.headSplit then 1 else b.parts
  let per := b.chunkTiles n
  let parts := (List.range P).map fun i =>
    let r := splitRange listed.length P i
    chunksOf per (listed.length + 1) ((listed.drop r.1).take (r.2 - r.1))
  -- every chunk of every row, part by part
  let done := (List.range rows.length).map fun ri => parts.map fun cs => cs.map fun tiles =>
    (tiles, chunkRow b tiles e.total (score ri) (fun k => vs.getD k ⟨#[], #[], 0⟩) (a.kv ei).scaled)
  let finals := done.map fun ps =>
    let one := fun (cs : List (List Nat × ChunkRow)) => match cs with
      | [] => emptyPart b.hd
      | c :: rest => rest.foldl (fun (acc : Part) x => mergeParts b.hd [acc, x.2.part]) c.2.part
    if P = 1 then one (ps.headD []) else mergeParts b.hd (ps.map one)
  let sat := (done.map fun ps => (ps.map fun cs => (cs.map fun c => c.2.sat).foldl (· + ·) 0).foldl (· + ·) 0).foldl (· + ·) 0
  let chunks0 := parts.headD []
  if !b.spill then (finals.map fun p => ⟨p, []⟩, [], sat)
  else if chunks0.length ≤ 1 then
    ((finals.zip done).map fun fd => ⟨fd.1, ((fd.2.headD []).flatMap fun c => c.2.ps).filterMap fun kp =>
      kp.2.map fun p => (kp.1, probByte kp.1 p)⟩, [], sat)
  else
    let bk := per * 128
    let codes := fun (ci ri x : Nat) =>
      match (((done.getD ri []).headD []).getD ci ([], ⟨emptyPart 0, [], [], 0⟩)) with
      | (tiles, c) =>
        if tiles.length * 128 ≤ x then 0
        else
          let k := (tiles.getD (x / 128) 0) * 128 + x % 128
          spillCode c.part.m k ((c.ss.find? (fun (ks : Nat × Option SVal) => ks.1 == k)).bind (·.2))
    let planes := (List.range chunks0.length).map fun ci =>
      encPlane 1 2 rows.length bk (fun y x => codes ci y x)
    let mcs := (List.range chunks0.length).map fun ci => (List.range rows.length).map fun ri =>
      (((done.getD ri []).headD []).getD ci ([], ⟨emptyPart 0, [], [], 0⟩)).2.part.m
    let decoded := planes.map fun p => (decPlane 1 2 rows.length bk (leNat p)).1
    let outRows := (finals.zipIdx).map fun fi => (⟨fi.1, (chunks0.zipIdx).flatMap fun ti =>
      ti.1.flatMap fun t => ((List.range (min 128 (e.total - t * 128))).filter fun x => (score fi.2 (t * 128 + x)).isSome).map fun x =>
        (t * 128 + x, spillByte (t * 128 + x) ((mcs.getD ti.2 []).getD fi.2 (.of .zero)) fi.1.m fi.1.l
          (((decoded.getD ti.2 #[]).getD fi.2 #[]).getD ((ti.1.findIdx (· == t)) * 128 + x) 0))⟩ : RowOut)
    (outRows, (planes.zip mcs).flatMap fun pm => pm.1 ++ pm.2.flatMap fun m => natLe 4 (encFP32 m.v), sat)

/-- Bytes SPILL needs (R290). -/
def AttBody.spillNeed (b : AttBody) (m : Masks) (ents : List Ent) : Nat :=
  ((ents.zipIdx).map fun ei => ((b.blocks ei.1).map fun jn =>
    let per := b.chunkTiles jn.2
    let n := ceilDiv (m.listed ei.2 ei.1 jn.1 jn.2).length per
    let bq := jn.2 * b.group
    if n ≤ 1 then 0 else n * (ceilDiv bq 4 * (per * 32) * 8 + 4 * bq) * b.kh).foldl (· + ·) 0).foldl (· + ·) 0

/-- The writes of a forward command into its outputs, in the order O, STATS, PROBS, SPILL (R285-R290). -/
def AttIn.forward (a : AttIn) (b : AttBody) (qRows probRows : Nat) : JobOut :=
  let all := (a.ents.zipIdx).map fun ei =>
    (ei.1, (List.range b.kh).map fun h => (b.blocks ei.1).map fun jn => (jn, a.block b ei.2 ei.1 h jn.1 jn.2))
  let rowOf := fun (hs : List (List ((Nat × Nat) × (List RowOut × List Byte × Nat)))) (j hq : Nat) =>
    match (hs.getD (hq / b.group) []).find? (fun x => decide (x.1.1 ≤ j) && decide (j < x.1.1 + x.1.2)) with
    | some x => x.2.1.getD ((j - x.1.1) * b.group + hq % b.group) ⟨emptyPart b.hd, []⟩
    | none => ⟨emptyPart b.hd, []⟩
  let outs := all.flatMap fun eh => (List.range eh.1.nq).map fun j =>
    (eh.1.qrow + j, (List.range b.qh).map fun hq => rowOf eh.2 j hq)
  let r := decFP32 b.factor
  let oRows := outs.map fun ro => (ro.1, quantRow b.of_ (ro.2.flatMap fun x => x.part.o.map fun y => quantise b.of_ y r (i16 b.zp)))
  let used := outs.map (·.1)
  let si := 1
  let pi := if b.stats = 0 then 1 else 2
  let statRuns := if b.stats = 0 then [] else
    (outs.flatMap fun ro => (ro.2.zipIdx).map fun xh =>
      (⟨si, (ro.1 * b.qh + xh.2) * 8, natLe 4 (encFP32 xh.1.part.m.v) ++ natLe 4 (encFP32 xh.1.part.l.v)⟩ : OutRun)) ++
    ((List.range qRows).filter fun x => !(used.contains x)).flatMap fun x => (List.range b.qh).map fun h =>
      ⟨si, (x * b.qh + h) * 8, natLe 4 0xFF800000 ++ natLe 4 0⟩
  let probRuns := if !b.spill then [] else
    ((List.range probRows).map fun rh =>
      let x := rh / b.qh
      let line := match outs.find? (fun ro => ro.1 == x) with
        | some ro => (ro.2.getD (rh % b.qh) ⟨emptyPart b.hd, []⟩).probs
        | none => []
      (⟨pi, rh * b.probsp, (List.range b.probsp).map fun k =>
        BitVec.ofNat 8 (((line.find? fun kp => kp.1 == k).map (·.2)).getD 0)⟩ : OutRun)) ++
    [⟨pi + 1, 0, all.flatMap fun eh => eh.2.flatMap fun bs => bs.flatMap fun x => x.2.2.1⟩]
  let qsat := ((a.ents.zipIdx).map fun ei => ((List.range ei.1.nq).map fun j => ((List.range b.qh).map fun h =>
    (queryVec b (a.kv ei.2).G ((a.q.getD ei.2 #[]).getD j 0) h).sat).foldl (· + ·) 0).foldl (· + ·) 0).foldl (· + ·) 0
  { runs := (oRows.map fun x => ⟨0, x.1 * b.op, x.2.1⟩) ++ statRuns ++ probRuns
    satOperand := qsat + (all.map fun eh => (eh.2.map fun bs => (bs.map fun x => x.2.2.2).foldl (· + ·) 0).foldl (· + ·) 0).foldl (· + ·) 0
    satOutput := (oRows.map fun x => x.2.2).foldl (· + ·) 0 }

/-! ## Backward (R300, R301) -/

/-- Narrow an FP32 or stored value into N with a scale of 1.0 where the class does not take it. -/
def intoN (n code : Nat) (v : Val) : Val × Bool :=
  match classOf n with
  | some c => if accepted c code then (v, false) else let r := narrow n v 0; (decElem n r.1, r.2)
  | none => (v, false)

/-- A matrix of FP32 accumulators, row by row. -/
abbrev Mat := Array (Array SVal)

def matAt (m : Mat) (i j : Nat) : SVal := (m.getD i #[]).getD j (.of .zero)

def matAdd (m : Mat) (i : Nat) (f : Nat → SVal) : Mat :=
  m.modify i fun r => (r.toList.zipIdx.map fun x => x.1.add (f x.2)).toArray

/-- Accumulators of a BACKWARD command: dQ by entry-query row and head, dK and dV by row and KV head. -/
structure Grad where
  dq : Mat
  dk : Mat
  dv : Mat
  sat : Nat

/-- A product row of the float branch of R199 with groups of 128. -/
def prod128 (n : Nat) (a w : Nat → Val) : SVal := r199 false 128 0 n a w (fun _ => .one) {}

/-- One query block of R301. `qi` gives the dQ row of a block row, `kr` the row of a key in K and V. [DEDUCED: log 127] -/
def AttIn.backBlock (a : AttIn) (b : AttBody) (dO oR : Nat → Nat → Nat → Nat) (st : Nat → Nat → Nat × Nat)
    (ei : Nat) (e : Ent) (h j0 n : Nat) (g : Grad) (qi : Nat → Nat → Nat) (kr : Nat → Nat) : Grad :=
  let rows := ((List.range n).flatMap fun j => (List.range b.group).map fun x => (j0 + j, h * b.group + x)).toArray
  let R := rows.size
  let row := fun i => rows.getD i (0, 0)
  let qs := (rows.toList.map fun jh => queryVec b 128 ((a.q.getD ei #[]).getD jh.1 0) jh.2).toArray
  let qn := (rows.toList.map fun jh => (List.range b.hd).map fun d =>
    intoN b.npv b.qf (decElem b.qf (rowElem b.qf ((a.q.getD ei #[]).getD jh.1 0) (jh.2 * b.hd + d)))).toArray
  let don := (rows.toList.map fun jh => (List.range b.hd).map fun d =>
    intoN b.npv b.dof (decElem b.dof (dO ei jh.1 (jh.2 * b.hd + d)))).toArray
  let el := fun (m : Array (List (Val × Bool))) i d => ((m.getD i []).getD d (.zero, false)).1
  let D := (rows.toList.map fun jh => (List.range b.hd).foldl (fun (acc : SVal) d =>
    acc.add (.fp ((decElem b.dof (dO ei jh.1 (jh.2 * b.hd + d))).mul (decElem b.of_ (oR ei jh.1 (jh.2 * b.hd + d)))) false)) (.of .zero)).toArray
  let ml := (rows.toList.map fun jh => let x := st (e.qrow + jh.1) jh.2; (SVal.of (decFP32 x.1), vRecip (.of (decFP32 x.2)))).toArray
  let base := (qn.toList.map fun r => (r.filter (·.2)).length).foldl (· + ·) 0 + (don.toList.map fun r => (r.filter (·.2)).length).foldl (· + ·) 0 +
    (qs.toList.map (·.sat)).foldl (· + ·) 0
  (a.masks.listed ei e j0 n).foldl (fun (g : Grad) t =>
    let nk := min 128 (e.total - t * 128)
    let ks := ((List.range nk).map fun x => (a.kv ei).key ((a.k.getD ei #[]).getD (t * 128 + x) 0) h).toArray
    let vs := ((List.range nk).map fun x => (a.kv ei).val ((a.v.getD ei #[]).getD (t * 128 + x) 0) h).toArray
    let kAt := fun x d => ((ks.getD x ⟨#[], #[], 0⟩).x).getD d .zero
    let vAt := fun x d => ((vs.getD x ⟨#[], #[], 0⟩).x).getD d .zero
    let cells := ((List.range R).map fun i => ((List.range nk).map fun x =>
      let mr := ml.getD i (.of .zero, .of .zero)
      let p := if a.masks.visible ei (e.pos0 + ((row i).1 : Nat)) ((t * 128 + x : Nat) : Int) then
          (vExp2 ((scoreOf b 128 (qs.getD i ⟨#[], #[], 0⟩) (ks.getD x ⟨#[], #[], 0⟩)).sub mr.1)).mul mr.2
        else .of .zero
      let dP := prod128 b.hd (el don i) (vAt x)
      let dS := (p.mul (dP.sub (D.getD i (.of .zero)))).mul (.of (decFP32 b.gscale))
      (p, intoN b.npv 10 p.v, dS, intoN b.npv 10 dS.v)).toArray).toArray
    let cell := fun i x => (cells.getD i #[]).getD x (.of .zero, (.zero, false), .of .zero, (.zero, false))
    let tag := fun (y : SVal) (s : Bool) => { y with sat := y.sat || s }
    let dv := (List.range nk).foldl (fun (m : Mat) x =>
      let s := (List.range R).any fun i => (cell i x).1.sat
      matAdd m (kr (t * 128 + x) * b.kh + h) fun d => tag (prod128 R (fun i => (cell i x).2.1.1) (fun i => el don i d)) s) g.dv
    let dk := (List.range nk).foldl (fun (m : Mat) x =>
      let s := (List.range R).any fun i => (cell i x).2.2.1.sat
      matAdd m (kr (t * 128 + x) * b.kh + h) fun d => tag (prod128 R (fun i => (cell i x).2.2.2.1) (fun i => el qn i d)) s) g.dk
    let dq := (List.range R).foldl (fun (m : Mat) i =>
      let s := (List.range nk).any fun x => (cell i x).2.2.1.sat
      matAdd m (qi (row i).1 (row i).2) fun d => tag (prod128 nk (fun x => (cell i x).2.2.2.1) (fun x => kAt x d)) s) g.dq
    let sat := (cells.toList.map fun r => (r.toList.map fun c => b2n c.2.1.2 + b2n c.2.2.2.2).foldl (· + ·) 0).foldl (· + ·) 0
    ⟨dq, dk, dv, g.sat + sat⟩) { g with sat := g.sat + base }

/-- The writes of a BACKWARD command into DQ, DK and DV (R300, R301). -/
def AttIn.backward (a : AttIn) (b : AttBody) (dO oR : Nat → Nat → Nat → Nat) (st : Nat → Nat → Nat × Nat) (kvRows : Nat) : JobOut :=
  let starts := (a.ents.foldl (fun (acc : List Nat × Nat) e => (acc.1 ++ [acc.2], acc.2 + e.nq)) ([], 0))
  let zero := fun n => ((List.range n).map fun _ => (List.replicate b.hd (SVal.of .zero)).toArray).toArray
  let g0 : Grad := ⟨zero (starts.2 * b.qh), zero (kvRows * b.kh), zero (kvRows * b.kh), 0⟩
  let g := (a.ents.zipIdx).foldl (fun g ei => (List.range b.kh).foldl (fun g h => (b.blocks ei.1).foldl (fun g jn =>
    a.backBlock b dO oR st ei.2 ei.1 h jn.1 jn.2 g (fun j hq => (starts.1.getD ei.2 0 + j) * b.qh + hq) (fun k => ei.1.src + k)) g) g) g0
  let rowOut := fun (m : Mat) (heads i : Nat) => quantRow b.of_ ((List.range heads).flatMap fun h => (List.range b.hd).map fun d =>
    quantise b.of_ (matAt m (i * heads + h) d) .one 0)
  let dq := (a.ents.zipIdx).flatMap fun ei => (List.range ei.1.nq).map fun j =>
    ((ei.1.qrow + j) * b.dqp, rowOut g.dq b.qh (starts.1.getD ei.2 0 + j))
  let dk := (List.range kvRows).map fun i => (i * b.dkvp, rowOut g.dk b.kh i)
  let dv := (List.range kvRows).map fun i => (i * b.dkvp, rowOut g.dv b.kh i)
  let runs := fun o (l : List (Nat × (List Byte × Nat))) => l.map fun x => (⟨o, x.1, x.2.1⟩ : OutRun)
  { runs := runs 0 dq ++ runs 1 dk ++ runs 2 dv, satOperand := g.sat
    satOutput := ((dq ++ dk ++ dv).map fun x => x.2.2).foldl (· + ·) 0 }

end Sys2Proof.Machine
end

