-- ==== Sys2Proof/Machine/AttentionStart.lean ====
section
/-! DEFINITION. ATTENTION as a Caldera command: reading its tables, validation in the order of R280,
tails (R273), and assembling what R283-R301 compute with. -/

namespace Sys2Proof.Machine

/-- The committed buffer of a handle. -/
def State.buf (s : State) (ctx h : Nat) : Nat := (s.tensor ctx h).curBuf

/-- The entries of the length table with their lengths and positions (R278, R279). -/
def State.attEnts (s : State) (ctx : Nat) (b : AttBody) (raw : List (Nat × Nat × Nat × Nat × Nat × Nat)) : List Ent :=
  raw.map fun r =>
    let app := bit r.2.2.2.2.1 0
    let nq := r.2.2.2.1
    if b.plain then ⟨r.1, r.2.1, nq, app, 0, r.2.2.1, (r.2.2.1 : Int) - nq⟩
    else
      let L := (s.tensor ctx r.1).length
      ⟨r.1, r.2.1, nq, app, L, L + (if app then nq else 0), L⟩

/-- The layout of keys and values. -/
def State.attKv (s : State) (ctx : Nat) (b : AttBody) (ents : List Ent) : KvFmt :=
  if b.plain then ⟨b.kf, b.vf, false, 128, b.hd, b.kh, 0, 0⟩
  else
    let q := s.seq ctx ((ents.headD ⟨0, 0, 0, false, 0, 0, 0⟩).src)
    ⟨q.fmtK, q.fmtV, q.scale, if q.scale then 32 * 2 ^ q.gcode else 128, b.hd, b.kh, q.dataK, q.dataV⟩

/-- The layout of one entry's sequence. -/
def State.entKv (s : State) (ctx : Nat) (b : AttBody) (e : Ent) : KvFmt := s.attKv ctx b [e]

/-- Rules of R280 on the entries that end with DESCRIPTOR_INVALID. -/
def State.entsOk (s : State) (ctx : Nat) (b : AttBody) (raw : List (Nat × Nat × Nat × Nat × Nat × Nat)) (ents : List Ent) : Bool :=
  let app := ents.any (·.app)
  (raw.all fun r => decide (1 ≤ r.2.2.2.1) && decide (r.2.2.2.2.1 ≤ 1) && r.2.2.2.2.2 == 0 &&
      (if b.plain then decide (1 ≤ r.2.2.1) && r.2.2.2.2.1 == 0 else r.2.2.1 == 0 && handleOk r.1)) &&
    !(anyPair ents fun x y => rangesMeet x.qrow x.nq y.qrow y.nq) &&
    !(anyPair ents fun x y => !b.plain && x.src == y.src && (x.app || y.app)) &&
    (if app then b.newk != 0 && b.newv != 0 && fmtOk b.newf && pitchOk b.newp (rowBytes b.newf (b.kh * b.hd))
     else b.newk == 0 && b.newv == 0) &&
    (if b.plain then storedAs b.nqk b.kf && storedAs b.npv b.vf
     else ents.all fun e =>
      let q := s.seq ctx e.src
      s.handleFree ctx e.src || ((s.tensor ctx e.src).kind == .sequence && q.kvHeads == b.kh && q.headDim == b.hd &&
        decide (b.layer < q.layers) && storedAs b.nqk q.fmtK && storedAs b.npv q.fmtV)) &&
    decide ((b.outs ents).length ≤ 8)
where
  /-- A class takes a stored format unchanged (R196, R280). -/
  storedAs (n f : Nat) : Bool := match classOf n with | some c => accepted c f | none => false

/-- Positions the masks need: past the last query of any entry. -/
def lastPos (ents : List Ent) : Nat :=
  (ents.map fun e => max e.total (e.pos0 + e.nq).toNat).foldl max 0

/-- Bytes of a segment row and of a block-mask row, and its rows. -/
def segBytes (ents : List Ent) : Nat := 2 * lastPos ents
def blockBytesOf (ents : List Ent) : Nat := ceilDiv (ceilDiv ((ents.map (·.total)).foldl max 0) 64) 8
def blockRows (ents : List Ent) : Nat := ceilDiv (lastPos ents) 64

/-- The plain rectangles a command reads besides keys and values. -/
def attRects (b : AttBody) (ents : List Ent) : List Rect :=
  [optRect (b.gcount != 0) { handle := b.global, rows := 1, bytes := 4 * b.gcount },
   optRect (b.seg != 0) { handle := b.seg, rows := b.ents, pitch := b.segp, bytes := segBytes ents },
   optRect (b.block != 0) { handle := b.block, rows := blockRows ents, pitch := b.blockp, bytes := blockBytesOf ents }] ++
  ents.map (fun e => { handle := b.q, off := e.qrow * b.qp, rows := e.nq, pitch := b.qp, bytes := rowBytes b.qf (b.qh * b.hd) }) ++
  (if b.plain then
    (ents.map fun e => { handle := b.k, off := e.src * b.kp, rows := e.total, pitch := b.kp, bytes := rowBytes b.kf (b.kh * b.hd) }) ++
    (ents.map fun e => { handle := b.v, off := e.src * b.vp, rows := e.total, pitch := b.vp, bytes := rowBytes b.vf (b.kh * b.hd) })
   else []) ++
  (if ents.any (·.app) then
    ((ents.filter (·.app)).map fun e => { handle := b.newk, off := e.qrow * b.newp, rows := e.nq, pitch := b.newp, bytes := rowBytes b.newf (b.kh * b.hd) }) ++
    ((ents.filter (·.app)).map fun e => { handle := b.newv, off := e.qrow * b.newp, rows := e.nq, pitch := b.newp, bytes := rowBytes b.newf (b.kh * b.hd) })
   else []) ++
  (if b.back then
    (ents.map fun e => { handle := b.dO, off := e.qrow * b.dop, rows := e.nq, pitch := b.dop, bytes := rowBytes b.dof (b.qh * b.hd) }) ++
    (ents.map fun e => { handle := b.o, off := e.qrow * b.op, rows := e.nq, pitch := b.op, bytes := rowBytes b.of_ (b.qh * b.hd) }) ++
    (ents.map fun e => { handle := b.stats, off := e.qrow * b.qh * 8, rows := e.nq, pitch := b.qh * 8, bytes := b.qh * 8 })
   else [])

/-- Bytes the outputs must hold. -/
def attOutNeeds (b : AttBody) (ents : List Ent) : List (Nat × Nat) :=
  let rows := (ents.map fun e => e.qrow + e.nq).foldl max 0
  let kv := (ents.map fun e => e.src + e.total).foldl max 0
  if b.back then
    [(b.dq, (rows - 1) * b.dqp + rowBytes b.of_ (b.qh * b.hd)), (b.dk, (kv - 1) * b.dkvp + rowBytes b.of_ (b.kh * b.hd)),
      (b.dv, (kv - 1) * b.dkvp + rowBytes b.of_ (b.kh * b.hd))]
  else [(b.o, (rows - 1) * b.op + rowBytes b.of_ (b.qh * b.hd))] ++
    (if b.stats = 0 then [] else [(b.stats, rows * b.qh * 8)]) ++
    (if b.spill then [(b.probs, rows * b.qh * b.probsp)] else [])

/-- The masks, from the rows of the first three rectangles. -/
def attMasks (b : AttBody) (r : Array (Array Nat)) : Masks :=
  let g := (r.getD 0 #[]).getD 0 0
  { causal := b.causal, window := b.window, globals := (List.range b.gcount).map fun i => rowElem 10 g i
    seg := fun e x => rowElem 8 ((r.getD 1 #[]).getD e 0) x.toNat
    segOn := b.seg != 0, blockOn := b.block != 0
    blockbit := fun a c => ((r.getD 2 #[]).getD a.toNat 0).testBit c.toNat }

/-- Rows of one rectangle in a tensor's committed version. -/
def State.rectRows (s : State) (ctx : Nat) (r : Rect) : Except (Nat × Nat) (Array Nat) :=
  match s.loadRows ctx r.bytes (r.rowVAs (s.buf ctx r.handle)) with
  | .error e => .error e
  | .ok l => .ok l.toArray

def State.allRows (s : State) (ctx : Nat) : List Rect → Except (Nat × Nat) (List (Array Nat))
  | [] => .ok []
  | r :: rs => match s.rectRows ctx r with
    | .error e => .error e
    | .ok a => match s.allRows ctx rs with
      | .error e => .error e
      | .ok l => .ok (a :: l)

/-- The cached records of a sequence's layer: region 2l for keys, 2l + 1 for values. -/
def State.records (s : State) (ctx : Nat) (e : Ent) (r : Nat) : Except (Nat × Nat) (List Nat) :=
  let bpt := (s.seq ctx e.src).bpt r
  s.loadRows ctx bpt ((List.range e.L).map fun i => s.regionVA ctx e.src r + i * bpt)

def State.allRecords (s : State) (ctx r : Nat) : List Ent → Except (Nat × Nat) (List (List Nat))
  | [] => .ok []
  | e :: es => match s.records ctx e r with
    | .error x => .error x
    | .ok a => match s.allRecords ctx r es with
      | .error x => .error x
      | .ok l => .ok (a :: l)

/-- The appended records of each entry, as numbers, and their saturations (R272). -/
def appended (b : AttBody) (kvOf : Ent → KvFmt) (bptOf : Ent → Nat) (isK : Bool) (ents : List Ent) (rows : List (Array Nat)) :
    List (List (Nat × Nat)) :=
  ((ents.filter (·.app)).zip rows).map fun er =>
    let f := kvOf er.1
    er.2.toList.map fun row =>
      makeRecord f (if isK then f.fk else f.fv) (if isK then f.G else f.hd) (bptOf er.1) b.newf row

/-- Spread the appended rows over the entries: an entry without APPEND has none. -/
def spread {α : Type} : List Ent → List (List α) → List (List α)
  | [], _ => []
  | e :: es, l => if e.app then l.headD [] :: spread es (l.drop 1) else [] :: spread es l

/-- Everything an ATTENTION computes and writes, from the state in which it starts. -/
def State.attGo (s : State) (ctx : Nat) (b : AttBody) (ents : List Ent) : State × RunOut :=
  let rects := attRects b ents
  let r := 2 * b.layer
  match s.allRows ctx rects with
  | .error e => (s.detect ctx e.2, { status := e.1, addr := e.2 })
  | .ok rows =>
    match (if b.plain then .ok ([], []) else match s.allRecords ctx r ents with
      | .error e => .error e
      | .ok ks => match s.allRecords ctx (r + 1) ents with
        | .error e => .error e
        | .ok vs => .ok (ks, vs) : Except (Nat × Nat) (List (List Nat) × List (List Nat))) with
    | .error e => (s.detect ctx e.2, { status := e.1, addr := e.2 })
    | .ok (kc, vc) =>
      let n := ents.length
      let na := (ents.filter (·.app)).length
      let arr := rows.toArray
      let at_ := fun base i => arr.getD (base + i) #[]
      let kb := 3 + n
      let nb := if b.plain then kb + 2 * n else kb
      let bb := if na = 0 then nb else nb + 2 * na
      let bptOf := fun (isK : Bool) (e : Ent) => (s.seq ctx e.src).bpt (if isK then r else r + 1)
      let newK := spread ents (appended b (s.entKv ctx b) (bptOf true) true ents ((List.range na).map fun i => at_ nb i))
      let newV := spread ents (appended b (s.entKv ctx b) (bptOf false) false ents ((List.range na).map fun i => at_ (nb + na) i))
      let side := fun (base : Nat) (cache : List (List Nat)) (new : List (List (Nat × Nat))) =>
        ((List.range n).map fun i => if b.plain then at_ (kb + base) i
          else (cache.getD i [] ++ (new.getD i []).map (·.1)).toArray).toArray
      let a : AttIn :=
        { masks := attMasks b arr, ents := ents, kv := fun i => s.attKv ctx b (ents.drop i)
          q := ((List.range n).map fun i => at_ 3 i).toArray
          k := side 0 kc newK, v := side n vc newV }
      let qt := s.tensor ctx b.q
      let fit := fun (size pitch row : Nat) => if pitch = 0 ∨ size < row then 0 else (size - row) / pitch + 1
      let out := if b.back then
          a.backward b (fun e j x => rowElem b.dof ((at_ bb e).getD j 0) x) (fun e j x => rowElem b.of_ ((at_ (bb + n) e).getD j 0) x)
            (fun row h => match (ents.zipIdx).find? (fun (ei : Ent × Nat) => decide (ei.1.qrow ≤ row) && decide (row < ei.1.qrow + ei.1.nq)) with
              | some ei => let w := (at_ (bb + 2 * n) ei.2).getD (row - ei.1.qrow) 0; (rowElem 10 w (2 * h), rowElem 10 w (2 * h + 1))
              | none => (0, 0))
            (fit (s.tensor ctx b.dk).bytes b.dkvp (rowBytes b.of_ (b.kh * b.hd)))
        else a.forward b
          (min (fit qt.bytes b.qp (rowBytes b.qf (b.qh * b.hd))) ((s.tensor ctx b.stats).bytes / (8 * b.qh)))
          (fit (s.tensor ctx b.probs).bytes b.probsp b.probsp)
      let outs := b.outs ents
      let appWrites := (ents.zipIdx).flatMap fun ei =>
        let w := fun (new : List (List (Nat × Nat))) (rr bpt : Nat) => ((new.getD ei.2 []).zipIdx).map fun ri =>
          (⟨s.regionVA ctx ei.1.src rr + (ei.1.L + ri.2) * bpt, natLe bpt ri.1.1⟩ : Chunk)
        w newK r (bptOf true ei.1) ++ w newV (r + 1) (bptOf false ei.1)
      let appSat := ((newK ++ newV).map fun l => (l.map (·.2)).foldl (· + ·) 0).foldl (· + ·) 0
      let s' := s.each rects fun s x => s.touchRows ctx x.bytes (x.rowVAs (s.buf ctx x.handle))
      let s' := if b.plain then s' else s'.each ents fun s e => s.each [r, r + 1] fun s rr =>
        s.touchRows ctx (bptOf (rr == r) e) ((List.range e.L).map fun i => s.regionVA ctx e.src rr + i * bptOf (rr == r) e)
      (s', { writes := appWrites ++ out.runs.map fun (x : OutRun) => ⟨s.outVA ctx (outs.getD x.out 0) false + x.off, x.data⟩
             satOperand := out.satOperand, satOutput := out.satOutput + appSat })

/-- Tokens of R273: an appending entry meets another holder of the tail, or its own queue with other
values. -/
def State.tailClash (s : State) (gq : Nat) (e : Ent) : Bool :=
  match (s.seq (gqCtx gq) e.src).tail with
  | some t => t.1 == gq && (t.2.1 != e.L || t.2.2 != e.nq)
  | none => false

def State.tailOther (s : State) (gq : Nat) (e : Ent) : Bool :=
  match (s.seq (gqCtx gq) e.src).tail with
  | some t => t.1 != gq
  | none => false

/-- Validation of ATTENTION (R280). -/
def attCheck (s : State) (gq : Nat) (d : List Byte) : Except (Nat × Nat) CeCmd :=
  let ctx := gqCtx gq
  let b := attBody d
  if !(b.fieldsOk d) then .error (6, 0)
  else match s.conflict gq false { ins := b.plainIns false } with
  | some h => .error (5, h)
  | none =>
    if (s.tensor ctx b.len).bytes < 16 * b.ents then .error (6, 0)
    else match s.ldBytes ctx (s.buf ctx b.len) (16 * b.ents) with
    | .error e => .error e
    | .ok bs =>
      let raw := rawEnts b bs
      let ents := s.attEnts ctx b raw
      let app := ents.any (·.app)
      if !(s.entsOk ctx b raw ents) then .error (6, 0)
      else if b.window > 16384 ∨ b.gcount > 256 ∨ (b.plain ∧ ents.any fun e => decide (1048576 < e.total)) then .error (7, 0)
      else
        let plan : Plan :=
          { ins := (b.plainIns app ++ (if b.plain then [] else (ents.map (·.src)))).eraseDups, outs := (b.outs ents).eraseDups }
        match s.conflict gq false plan with
        | some h => .error (5, h)
        | none =>
          match ents.find? (fun e => e.app && s.tailClash gq e) with
          | some e => .error (5, e.src)
          | none =>
            if !b.plain && ents.any (fun e => (s.tensor ctx e.src).swapped) then .error (0x0C, 0)
            else if s.cesPresent.length < b.engines then .error (0x0A, 0)
            else
              let rects := (attRects b ents).filter (·.rows ≠ 0)
              if !(rects.all fun r => decide (r.extent ≤ (s.tensor ctx r.handle).bytes)) ||
                  !((attOutNeeds b ents).all fun o => decide (o.2 ≤ (s.tensor ctx o.1).bytes)) ||
                  (b.seg != 0 && !(pitchOk b.segp (segBytes ents))) || (b.block != 0 && !(pitchOk b.blockp (blockBytesOf ents))) ||
                  (b.spill && !(pitchOk b.probsp ((ents.map (·.total)).foldl max 0))) then .error (6, 0)
              else if (ents.any fun e => e.app && !(s.growFits ctx e.src e.L e.nq)) ||
                  (ents.any fun e => (b.blocks e).any fun jn => b.chunkTiles jn.2 == 0) then .error (7, 0)
              else match s.allRows ctx ((attRects b ents).take 3) with
              | .error e => .error e
              | .ok mrows =>
                if b.spill ∧ (s.tensor ctx b.spillH).bytes < b.spillNeed (attMasks b mrows.toArray) ents then .error (7, 0)
                else .ok
                  { plan := plan, sram := b.sram, sinter := b.sinter
                    wait := (ents.any fun e => e.app && s.tailOther gq e) || (!b.plain && ents.any fun e => (s.seq ctx e.src).marked)
                    grow := (ents.filter (·.app)).map fun e => (e.src, e.L, e.nq), adv := b.adv
                    go := fun s _ => s.attGo ctx b ents }

/-- At the commit of the holder's ADVANCE command the tail is released (R273). -/
def attAct (s : State) (f : Flight) : State :=
  if (attBody f.desc).adv then
    s.each f.outs fun s h =>
      let q := s.seq (gqCtx f.gq) h
      match q.tail with
      | some t => if t.1 = f.gq then s.setSeq (gqCtx f.gq) h { q with tail := none } else s
      | none => s
  else s

end Sys2Proof.Machine
end

