-- ==== Sys2Proof/Machine/Scheduler.lean ====
section
/-! DEFINITION. The scheduler (R163-R177): which batch step comes next, its members, the Calderas it
may run on, weight residency, pre-emption and the kills of an epoch boundary. -/

namespace Sys2Proof.Machine

/-! ## Ready work (R163-R166) -/

/-- ECLK cycles in one TCLK period (R2). -/
def State.eclk (s : State) : Nat := if s.rd .SYS_ID_PART = 0x648A ∨ s.img.eclkDiv = 8 then 12 else 16

/-- Array cycles of one Caldera in a 100 µs epoch. -/
def State.epochCycles (s : State) : Nat := 10000 * s.eclk

/-- A queue's next command, ready to be placed on a Caldera. -/
def State.readyStep (s : State) (gq : Nat) : Option Cand :=
  match s.candidate gq with
  | some (.ok c) => if ceOp (dOp c.desc) && !c.placed && s.mayStart gq c.slot c.desc then some c else none
  | _ => none

/-- Queues with a ready batch step. -/
def State.readyQueues (s : State) : List Nat :=
  ((s.queues.map (·.1)).filter fun gq => (s.readyStep gq).isSome)

/-- The key of a contender's virtual time in a class. [DEDUCED: log 95] -/
def vKey (t c : Nat) : Nat := t * 8 + c

/-- R164: contenders that become ready take at least the lowest virtual time of the ready ones, and
R163, R166: the time at which each queue's next step became ready is kept. [DEDUCED: log 80] -/
def State.noteReady (s : State) : State :=
  let qs := s.readyQueues
  let now := (qs.map fun gq => vKey (gqCtx gq) (s.queue gq).cls).eraseDups
  let stay := now.filter s.wasReady.contains
  let s := s.each (now.filter fun k => !(s.wasReady.contains k)) fun s k =>
    match (stay.filter fun u => u % 8 = k % 8).map (fun u => s.vtime.get 0 u) with
    | [] => s
    | v :: vs => { s with vtime := s.vtime.set 0 k (max (s.vtime.get 0 k) (vs.foldl min v)) }
  let s : State := { s with
    wasReady := now
    readyAt := s.readyAt.filter fun (kv : Nat × Nat) => qs.contains kv.1
    aged := s.aged.filter fun (kv : Nat × Nat) => qs.contains kv.1 }
  s.each qs fun s gq =>
    if s.readyAt.get 0 gq = 0 then { s with readyAt := s.readyAt.set 0 gq (s.gcnt + 1) } else s

/-- The class a queue's step counts as (R163). -/
def State.effClass (s : State) (gq : Nat) : Nat :=
  let c := (s.queue gq).cls
  if c ≤ 2 then c else max 2 (c - s.aged.get 0 gq)

/-- WEIGHT; 0 acts as 1 (R164). -/
def State.weight (s : State) (t : Nat) : Nat := max 1 (s.rd .SCH_TENANT_WEIGHT t)

/-- R164: the virtual time an attempt of `n` array cycles adds. -/
def State.addVtime (s : State) (gq n : Nat) : State :=
  let k := vKey (gqCtx gq) (s.queue gq).cls
  { s with vtime := s.vtime.set 0 k (s.vtime.get 0 k + n * 256 / s.weight (gqCtx gq)) }

/-! ## Deadlines of class 1 (R163, R402) -/

/-- TCLK periods that `n` lines of a head's plan take (R411). -/
def State.linesTclk (s : State) (h n : Nat) : Nat :=
  let p := s.img.heads.get {} h
  if p.pixclk = 0 then 0 else n * p.hTotal * 100000 / p.pixclk

/-- R402: Deadline(n) of an EQX_FRAME; other class-1 commands come after. [DEDUCED: log 82] -/
def State.deadline (s : State) (d : List Byte) : Nat :=
  if dOp d = 0x38 then
    let st := d8 d 0x10
    if d8 d 0x11 = 1 then d64 d 0x30 - s.rd .EQX_STREAM_GEOM_PERIOD st
    else if s.rd .EQX_STREAM_CTRL_HEAD st = 1 then
      let h := s.rd .EQX_STREAM_CTRL_HEADNUM st
      d64 d 0x28 - s.linesTclk h (s.img.heads.get {} h).warpLead
    else d64 d 0x28
  else 2 ^ 64

/-! ## Reserved shares (R176, R177) -/

def State.partCfg (s : State) (p : Nat) : PartCfg := s.img.parts.get {} p

/-- Calderas in service. -/
def State.inService (s : State) : List Nat := (List.range 6).filter fun e => s.rd .CE_STATUS_STATE e == 1 && !(s.ceJoin.contains e)

/-- Shared Calderas present and in service. -/
def State.sharedCes (s : State) : List Nat := s.inService.filter fun e => s.rd .SCH_CE_STATUS_DEDICATED e = 0

/-- Array cycles of a partition's reserved share in this epoch. -/
def State.shareCycles (s : State) (p : Nat) : Nat :=
  (s.partCfg p).share * s.rd .SCH_RESERVE_SCALE_SCALE * s.epochCycles / 10 ^ 8

/-- The partition is below its reserved share. -/
def State.belowShare (s : State) (p : Nat) : Bool := decide (s.epochUse.get 0 p < s.shareCycles p)

/-- R177: SCALE from the plan. [DEDUCED: log 87] -/
def State.scaleOf (s : State) : Nat :=
  let S := s.sharedCes.length
  let P := s.inService.length
  let q := max 1 P
  let avail := 10000 * S * q - s.class1Sum * S      -- times q
  let resv := (s.img.parts.map fun (kv : Nat × PartCfg) => kv.2.share).foldl (· + ·) 0
  if resv * q ≤ avail then 10000 else 10000 * avail / (q * resv)

/-! ## Slots and eligible Calderas (R168, R172, R176) -/

def State.slotFree (s : State) (e i : Nat) : Bool := s.rd .CE_SLOT_STATE (e * 32 + i) == 0

/-- Free slots of a Caldera, ascending. -/
def State.freeSlotsOf (s : State) (e : Nat) : List Nat := (List.range 32).filter (s.slotFree e)

/-- An in-place command is in a Caldera's slots. -/
def State.ceInPlace (s : State) (e : Nat) : Bool := (List.range 32).any fun i => s.rd .CE_SLOT_IN_PLACE (e * 32 + i) == 1

/-- R176: class-1 work on a dedicated Caldera stays within CLASS1_SHARE over the Calderas present. -/
def State.c1Room (s : State) (e : Nat) : Bool :=
  let n := s.cesPresent.length
  n != 0 && decide (s.epochC1.get 0 e * 10000 * n < s.class1Sum * s.epochCycles)

/-- The Calderas that may run a step of a context and class (R168, R176, R172). -/
def State.eligibleCes (s : State) (ctx cls : Nat) (ip : Bool) : List Nat :=
  let p := s.partOf ctx
  let ded := fun e => s.rd .SCH_CE_STATUS_DEDICATED e == 1
  let mine := s.inService.filter fun e => ded e && s.rd .SCH_CE_STATUS_PARTITION e == p
  let base :=
    if ctx = pf0 ∧ cls = 0 then s.inService
    else if ctx = pf0 ∧ cls = 1 then s.inService.filter fun e => !(ded e) || s.c1Room e
    else if mine.isEmpty then s.sharedCes else mine
  if ip then
    let n := ((List.range 6).filter s.ceInPlace).length
    if 2 ≤ s.cesPresent.length ∧ s.cesPresent.length - 1 ≤ n then []
    else base.filter fun e => !(s.ceInPlace e)
  else base

/-- Calderas and slots on each that a command asks for (R218, R280, R404). -/
def partsOf (d : List Byte) : Nat × Nat :=
  if dOp d = 0x10 then (bits (d8 d 0x1F) 4 3 + 1, 1)
  else if dOp d = 0x20 then ((attBody d).engines, (attBody d).slots)
  else if dOp d = 0x38 then (d8 d 0x12 + 1, 1)
  else (1, 1)

/-- The weight operand of a command, for batch steps and residency. [DEDUCED: log 83] -/
def weightHandle (d : List Byte) : Option Nat := if dOp d = 0x10 ∨ dOp d = 0x18 then some (d32 d 0x14) else none

/-- The 64 KiB frames a command's weights lie in, in address order. -/
def State.weightFrames (s : State) (ctx : Nat) (d : List Byte) : List Nat :=
  match weightHandle d with
  | none => []
  | some h =>
    let t := s.tensor ctx h
    if t.kind = .free ∨ t.bytes = 0 then []
    else
      let lo := t.curBuf / 4096
      let hi := (t.curBuf + t.bytes - 1) / 4096
      ((List.range (hi - lo + 1)).filterMap fun i =>
        match s.translate ctx ((lo + i) * 4096) .r with
        | .ok pa => if pa < 2 ^ 45 then some (pa / 65536) else none
        | .error _ => none).eraseDups

/-- Every frame is partition-owned and mapped without W (R85, R166). -/
def State.ownedFrames (s : State) (ctx : Nat) (d : List Byte) : Bool :=
  match weightHandle d with
  | none => false
  | some h =>
    let t := s.tensor ctx h
    (s.weightFrames ctx d).all (fun n => (s.frame n).st == .owned) &&
      (match s.leaf ctx t.curBuf with | some (_, e) => !(pteW e) | none => false)

/-- A command that can be a member of a batch step with others (R166, R172, R218, R210). -/
def Cand.joins (c : Cand) : Bool :=
  dModel c.desc != 0 && !(dInPlace c.desc) && partsOf c.desc == (1, 1) &&
    (match c.prior with | some f => f.attempt == 0 | none => true)

/-- The members of a step whose first command is `c` of queue `gq` (R166): itself and its partners. -/
def State.stepMembers (s : State) (gq : Nat) (c : Cand) : List (Nat × Cand) :=
  let fr := s.weightFrames (gqCtx gq) c.desc
  if !c.joins || fr.isEmpty || !(s.ownedFrames (gqCtx gq) c.desc) then [(gq, c)]
  else
    ((gq, c) :: (s.readyQueues.filter (· ≠ gq)).filterMap fun g =>
      match s.readyStep g with
      | none => none
      | some k =>
        if k.joins && dModel k.desc == dModel c.desc && (s.queue g).cls == (s.queue gq).cls &&
            s.partOf (gqCtx g) == s.partOf (gqCtx gq) && s.weightFrames (gqCtx g) k.desc == fr &&
            s.ownedFrames (gqCtx g) k.desc then some (g, k) else none).take 32

/-- BATCH_WAIT in TCLK periods. -/
def State.batchWait (s : State) : Nat := min 100 (s.rd .SCH_CTRL_BATCH_WAIT) * 100

/-- A step with few partners still waits for more (R166). -/
def State.stepWaits (s : State) (gq : Nat) (c : Cand) (n : Nat) : Bool :=
  c.joins && decide (n < 32) && decide (s.gcnt + 1 < s.readyAt.get 0 gq + s.batchWait)

/-! ## Order of picks (R163, R164) -/

/-- What orders two ready queues: reserved work, class, deadline, virtual time, contender, rotation. [DEDUCED: log 81] -/
def State.pickKey (s : State) (gq : Nat) : List Nat :=
  let ctx := gqCtx gq
  let c := s.effClass gq
  let own := (s.queue gq).cls
  let last := s.lastQ.get 0 (vKey ctx own)
  let d := match s.readyStep gq with | some k => k.desc | none => []
  let band := if c ≤ 1 then c else if s.belowShare (s.partOf ctx) then 2 else 3
  [band, c, if c = 1 then s.deadline d else 0, if c ≤ 1 then 0 else s.vtime.get 0 (vKey ctx c),
    if c ≤ 1 then 0 else ctx, if gq + 1 ≤ last then 1 else 0, gq]

def leList : List Nat → List Nat → Bool
  | [], _ => true
  | _, [] => false
  | a :: as, b :: bs => decide (a < b) || (a == b && leList as bs)

/-- Ready queues, the next pick first. -/
def State.picks (s : State) : List Nat :=
  sortBy s.readyQueues fun a b => leList (s.pickKey a) (s.pickKey b)

/-! ## Choosing a Caldera (R168) -/

/-- Part of a step's weight tiles is resident on a Caldera. -/
def State.holdsTiles (s : State) (p e : Nat) (fr : List Nat) : Bool :=
  !fr.isEmpty && fr.all fun n => s.resident.any fun r => r.ce == e && r.partition == p && r.tiles.contains n

/-- Eligible Calderas in R168's order. -/
def State.ceOrder (s : State) (cls p : Nat) (fr : List Nat) (es : List Nat) : List Nat :=
  sortBy es fun a b =>
    let k := fun e => [if cls = 0 && s.ceInPlace e then 1 else 0, if s.holdsTiles p e fr then 0 else 1,
      32 - (s.freeSlotsOf e).length, e]
    leList (k a) (k b)

/-- The Calderas that take a step of `P` parts of `k` slots each. -/
def State.chooseCes (s : State) (ctx cls P k : Nat) (ip : Bool) (fr : List Nat) : Option (List Nat) :=
  let es := (s.eligibleCes ctx cls ip).filter fun e => decide (k ≤ (s.freeSlotsOf e).length)
  if es.length < P then none
  else some (sortBy ((s.ceOrder cls (s.partOf ctx) fr es).take P) (fun a b => decide (a ≤ b)))

/-! ## Pre-emption at placement (R173) -/

/-- Killable attempts with a slot on one of some Calderas, of class at least `lo`: lowest class first,
then newest start. -/
def State.victims (s : State) (es : List Nat) (lo : Nat) : List Flight :=
  sortBy (s.flights.filter fun f =>
    f.killable && (f.slots.any fun x => es.contains x.1) && decide (lo ≤ (s.queue f.gq).cls)) fun a b =>
      decide ((s.queue b.gq).cls < (s.queue a.gq).cls) ||
        ((s.queue a.gq).cls == (s.queue b.gq).cls && decide (b.start ≤ a.start))

/-- R173, rows 1 and 2: what class 0 or class 1 kills to start. -/
def State.displace (s : State) (ctx cls : Nat) (ip : Bool) (fr : List Nat) : State :=
  let es := s.eligibleCes ctx cls ip
  if cls = 0 then
    match (s.ceOrder 0 (s.partOf ctx) fr es).head? with
    | none => s
    | some e =>
      if !(s.freeSlotsOf e).isEmpty then s
      else match s.victims [e] 1 with
        | f :: _ => s.preempt f false
        | [] => s
  else if cls = 1 then
    if es.any fun e => !(s.freeSlotsOf e).isEmpty then s
    else match s.victims es 2 with
      | f :: _ => s.preempt f false
      | [] => s
  else s

/-! ## Weight residency (R169, R170) -/

/-- 64 KiB units a Caldera's residency holds. -/
def State.resCap (s : State) (e : Nat) : Nat := min s.wresGroups (s.groupsOf e).length * 48

def State.isHot (s : State) (p m : Nat) : Bool := s.m.hot.any fun h => h.1 == p && h.2.1 == m

/-- Residents of a Caldera in the order R170 evicts them, `keep` apart. -/
def State.evictOrder (s : State) (e : Nat) (keep : Nat × Nat) : List Resident :=
  sortBy (s.resident.filter fun r => r.ce == e && (r.partition, r.model) != keep) fun a b =>
    let k := fun (r : Resident) => [if s.isHot r.partition r.model then 1 else 0, r.started]
    leList (k a) (k b)

/-- Evict whole models until `need` units fit. -/
def State.makeRoom (s : State) (e : Nat) (keep : Nat × Nat) (need : Nat) : Nat → State
  | 0 => s
  | fuel + 1 =>
    let used := ((s.resident.filter fun r => r.ce == e && (r.partition, r.model) != keep).map (·.tiles.length)).foldl (· + ·) 0
    if used + need ≤ s.resCap e then s
    else match s.evictOrder e keep with
      | [] => s
      | r :: _ =>
        let s : State := { s with resident := s.resident.filter fun x => x != r }
        (s.fireIf (s.isHot r.partition r.model) 135).makeRoom e keep need fuel

/-- A step of a model starts on a Caldera: its tiles are made resident as far as they fit. -/
def State.reside (s : State) (e p m : Nat) (fr : List Nat) : State :=
  if m = 0 ∨ fr.isEmpty then s
  else
    let old := ((s.resident.filter fun r => r.ce = e ∧ r.partition = p ∧ r.model = m).map (·.tiles)).flatten
    let all := ((old ++ fr).eraseDups).take (s.resCap e)
    let s := s.makeRoom e (p, m) all.length (s.resident.length + 1)
    { s with resident := (s.resident.filter fun r => ¬ (r.ce = e ∧ r.partition = p ∧ r.model = m)) ++
        [⟨e, p, m, all, s.gcnt⟩] }

/-! ## Placing a step (R166-R168, R224 step 1) -/

/-- Write a slot's register for its new occupant. -/
def State.fillSlot (s : State) (gq e i : Nat) (f : Flight) : State :=
  let u := e * 32 + i
  ((((((((s.wr .CE_SLOT_STATE u 1).wr .CE_SLOT_CLASS u (s.queue gq).cls).wr .CE_SLOT_IN_PLACE u (b2n (dInPlace f.desc))).wr
    .CE_SLOT_N u f.fmt).wr .CE_SLOT_CONTEXT u (ctxCode (gqCtx gq))).wr .CE_SLOT_QUEUE u (gq % 512)).wr
    .CE_SLOT_SEQ u 0x1F).wr .CE_SLOT_KILLS u (min 255 f.kills)).wr .CE_SLOT_RING_SLOT u
      (f.slot % 2 ^ (s.queue gq).sqLog)

/-- One member takes `k` slots on each of its Calderas. -/
def State.placeOne (s : State) (gq : Nat) (c : Cand) (es : List Nat) (k : Nat) : State :=
  let slots := es.flatMap fun e => ((s.freeSlotsOf e).take k).map fun i => (e, i)
  let f := { candFlight s gq c with phase := .placed, slots := slots, step := s.stepNo }
  let s := s.each slots fun s x => s.fillSlot gq x.1 x.2 f
  let s := s.enter gq c f
  { s with
    lastQ := s.lastQ.set 0 (vKey (gqCtx gq) (s.queue gq).cls) (gq + 1)
    readyAt := s.readyAt.set 0 gq 0, aged := s.aged.set 0 gq 0 }

/-- Place the step led by a queue, if it can be placed now. -/
def State.placeStep (s : State) (gq : Nat) (late : Bool) : Option State :=
  match s.readyStep gq with
  | none => none
  | some c =>
    let ms := s.stepMembers gq c
    if s.stepWaits gq c ms.length || (late && !c.joins) then none
    else
      let ctx := gqCtx gq
      let ip := dInPlace c.desc
      let fr := s.weightFrames ctx c.desc
      let pk := partsOf c.desc
      let pk := if 6 < pk.1 ∨ s.cesPresent.length < pk.1 then (1, 1) else pk
      let k := if ms.length = 1 then pk.2 else ms.length
      let s := if (s.chooseCes ctx (s.queue gq).cls pk.1 k ip fr).isSome then s
        else s.displace ctx (s.queue gq).cls ip fr
      (s.chooseCes ctx (s.queue gq).cls pk.1 k ip fr).map fun es =>
        let s : State := { s with stepNo := s.stepNo + 1 }
        let s := s.each ms fun s m => s.placeOne m.1 m.2 es (if ms.length = 1 then pk.2 else 1)
        s.each es fun s e => s.reside e (s.partOf ctx) (dModel c.desc) fr

/-- R168: the first pick that can be placed now is placed. [DESIGN CHOICE: log 79] -/
def execBatchStepPlace (s : State) : Host.Outcome State Fault Refusal :=
  let s := s.noteReady
  .next ((s.picks.findSome? fun gq => s.placeStep gq false).getD s)

/-- R166: BATCH_WAIT has passed for a step, which goes with the partners found so far. -/
def execBatchWaitExpiry (s : State) : Host.Outcome State Fault Refusal :=
  let s := s.noteReady
  .next ((s.picks.findSome? fun gq => s.placeStep gq true).getD s)

/-- R163: a batch step of class 3-7 that has been ready for a further 10 ms counts one class higher. -/
def execAging (s : State) : Host.Outcome State Fault Refusal :=
  let s := s.noteReady
  .next (s.each s.readyQueues fun s gq =>
    let waited := s.gcnt + 1 - s.readyAt.get 0 gq
    if 3 ≤ (s.queue gq).cls ∧ s.readyAt.get 0 gq ≠ 0 then { s with aged := s.aged.set 0 gq (waited / 1000000) } else s)

/-! ## Epoch boundaries (R173, R177) -/

/-- R173, reservation: for each partition below its share with ready work of classes 2-7 and no free
slot, one slot of another partition on a shared Caldera is killed. -/
def State.reserveKills (s : State) : State :=
  let ps := (((s.readyQueues.filter fun gq => 2 ≤ (s.queue gq).cls).map fun gq => s.partOf (gqCtx gq)).eraseDups).filter s.belowShare
  s.each ps fun s p =>
    if s.sharedCes.any fun e => !(s.freeSlotsOf e).isEmpty then s
    else match (s.victims s.sharedCes 2).find? fun f => f.struck < 4 ∧ s.partOf (gqCtx f.gq) ≠ p with
      | some f => s.preempt f true
      | none => s

/-- The fair-share victim for a waiting queue on a Caldera: of class equal or lower, of the tenant
whose virtual time stands furthest above. -/
def State.fairVictim (s : State) (e gq : Nat) : Option Flight :=
  let c := s.effClass gq
  let v := s.vtime.get 0 (vKey (gqCtx gq) c)
  let vt := fun (f : Flight) => s.vtime.get 0 (vKey (gqCtx f.gq) c)
  (sortBy ((s.victims [e] (max 2 c)).filter fun f => f.struck < 4 ∧ gqCtx f.gq ≠ gqCtx gq ∧ v < vt f)
    fun a b => decide (vt b ≤ vt a)).head?

/-- R173, fair share: at most 4 kills on each Caldera without a free slot. [DEDUCED: log 85] -/
def State.fairKills (s : State) : State :=
  s.each s.inService fun s e =>
    if !(s.freeSlotsOf e).isEmpty then s
    else
      let waiting := (s.picks.filter fun gq => decide (2 ≤ s.effClass gq) &&
        (s.eligibleCes (gqCtx gq) (s.queue gq).cls false).contains e).take 4
      s.each waiting fun s gq => match s.fairVictim e gq with
        | some f => s.preempt f true
        | none => s

/-- R177: SCALE is recomputed; source 134 fires when it changes. -/
def State.rescale (s : State) : State :=
  let v := s.scaleOf
  if s.rd .SCH_RESERVE_SCALE_SCALE = v then s else (s.wr .SCH_RESERVE_SCALE_SCALE 0 v).fire 134

/-! ## Charging an attempt -/

/-- What the array cycles of one attempt add to the scheduler's counts (R164, R176, R177) and to the
performance counters. [DESIGN CHOICE: log 109] -/
def State.countAttempt (s : State) (f : Flight) (u : Usage) : State :=
  let s := s.addVtime f.gq u.array
  let ces := (f.slots.map (·.1)).eraseDups
  let shared := ces.any fun e => s.rd .SCH_CE_STATUS_DEDICATED e == 0
  let p := s.partOf (gqCtx f.gq)
  let s : State := if shared ∧ 2 ≤ (s.queue f.gq).cls then
      { s with epochUse := s.epochUse.set 0 p (s.epochUse.get 0 p + u.array) } else s
  let s := if (s.queue f.gq).cls = 1 then
      s.each ces fun s e => { s with epochC1 := s.epochC1.set 0 e (s.epochC1.get 0 e + u.array / max 1 ces.length) } else s
  let s := if dOp f.desc = 0x30 then s.embPerf 4 u.ember else s
  s.each u.perf fun s x =>
    -- counters of Caldera 6 are Ember's
    if x.1 = 6 then s.embPerf (x.2.1 % 8) x.2.2 else
    let v := s.rd .CE_PERF_COUNT (x.1 * 8 + x.2.1) + x.2.2
    (s.wr .CE_PERF_COUNT (x.1 * 8 + x.2.1) v).fireIf (decide (2 ^ 64 ≤ v)) (192 + 16 * x.1 + 10)

end Sys2Proof.Machine
end

