-- ==== Sys2Proof/Machine/CalderaCmds.lean ====
section
/-! DEFINITION. The Caldera commands, the end of an attempt with the saturation policies, and the
errors of a Caldera (R165, R204-R211, R223-R233). -/

namespace Sys2Proof.Machine

/-! ## Starting the operator commands (R224 step 2) -/

/-- R230. -/
def execMatmul (ctx q : Nat) (s : State) : Host.Outcome State Fault Refusal :=
  .next (s.ceStart (qKey ctx q) 0x10 (jobCheck matmulJob))

/-- R231. -/
def execVector (ctx q : Nat) (s : State) : Host.Outcome State Fault Refusal :=
  .next (s.ceStart (qKey ctx q) 0x11 (jobCheck vectorJob))

/-- R261. -/
def execConv (ctx q : Nat) (s : State) : Host.Outcome State Fault Refusal :=
  .next (s.ceStart (qKey ctx q) 0x18 (jobCheck convJob))

/-- R262. -/
def execPool (ctx q : Nat) (s : State) : Host.Outcome State Fault Refusal :=
  .next (s.ceStart (qKey ctx q) 0x19 (jobCheck poolJob))

/-- R263. -/
def execCropResize (ctx q : Nat) (s : State) : Host.Outcome State Fault Refusal :=
  .next (s.ceStart (qKey ctx q) 0x1A (jobCheck cropJob))

/-- R264. -/
def execArgmax (ctx q : Nat) (s : State) : Host.Outcome State Fault Refusal :=
  .next (s.ceStart (qKey ctx q) 0x1B (jobCheck argmaxJob))

/-- R265. -/
def execRegroup (ctx q : Nat) (s : State) : Host.Outcome State Fault Refusal :=
  .next (s.ceStart (qKey ctx q) 0x1C (jobCheck regroupJob))

/-- R266. -/
def execCodec (ctx q : Nat) (s : State) : Host.Outcome State Fault Refusal :=
  .next (s.ceStart (qKey ctx q) 0x1D (jobCheck codecJob))

/-- R275, R280. -/
def execAttention (ctx q : Nat) (s : State) : Host.Outcome State Fault Refusal :=
  .next (s.ceStart (qKey ctx q) 0x20 attCheck)

/-! ## Saturation (R204-R211) -/

/-- R205, R211: the saturation registers of an event, and its source. [DEDUCED: log 101] -/
def State.satEvent (s : State) (f : Flight) (fmtTo action : Nat) : State :=
  let ctx := gqCtx f.gq
  let cap := fun (n : Nat) => min n (2 ^ 32 - 1)
  ((((((((s.wr .VF_SAT_OPERAND ctx (cap f.res.satOperand)).wr .VF_SAT_OUTPUT ctx (cap f.res.satOutput)).wr
    .VF_SAT_WHERE_VALID ctx 1).wr .VF_SAT_WHERE_QUEUE ctx (f.gq % 512)).wr .VF_SAT_WHERE_FROM ctx f.fmt).wr
    .VF_SAT_WHERE_TO ctx fmtTo).wr .VF_SAT_WHERE_ACTION ctx action).wr .VF_SAT_WHERE_SLOT ctx
      (f.slot % 2 ^ (s.queue f.gq).sqLog)).fire (ctxSrc ctx 2)

/-- What R205 and R206 decide of an attempt that ended well. -/
inductive SatDo where
  | quiet
  | commit (action : Nat)
  | rerun (n : Nat)
deriving DecidableEq, Repr

def State.satDecide (s : State) (f : Flight) : SatDo :=
  let t := s.img.satLimit
  if t = 0 ∨ f.res.satOperand + f.res.satOutput < t then .quiet
  else if dInPlace f.desc then .commit 3
  else if !s.img.satRerun then .commit 0
  else match successor f.fmt with
    | some n => if t ≤ f.res.satOperand then .rerun n else .commit 2
    | none => .commit 2

/-! ## The end of an attempt (R144-R148, R183, R205) -/

/-- An attempt ends and waits for its commit: FLAGS SATURATED and WIDENED of R154. -/
def State.endOk (s : State) (f : Flight) (event : Bool) : State :=
  let flags := (if event then setBit f.satFlags 1 else f.satFlags) + (if f.attempt ≠ 0 then 4 else 0)
  (((s.freeEmber f false).freeLane f).slotState f 4).setFlight { f with phase := .ended, endG := s.gcnt, satFlags := flags }

/-- The attempt is killed and runs again with a wider N: it is charged (R183, R206, R209). -/
def State.rerun (s : State) (f : Flight) (n : Nat) : State :=
  let s := (s.satEvent f n 1).chargeUse (gqCtx f.gq) f.usage
  s.killSlots { f with fmt := n, attempt := f.attempt + 1, satFlags := setBit f.satFlags 1 }

/-- R105, R233: codec blocks decoded under the SHIFT rule. -/
def State.codecErrors (s : State) (f : Flight) : State :=
  let e := ((f.slots.map (·.1)).head?).getD 0
  if f.res.codecBad = 0 then s else (s.inc .CE_CODEC_ERR_COUNT e f.res.codecBad).fire (192 + 16 * e + 6)

/-- The attempt's last output write is acknowledged: its bytes are in memory (R224 step 4), its use is
counted, and R205 is applied. -/
def State.finish (s : State) (f : Flight) (u : Usage) : State :=
  let f := { f with usage := u }
  let s := (s.countAttempt f u).codecErrors f
  if f.res.status ≠ 0 then (s.slotState f 4).failFlight f f.res.status f.res.addr
  else match s.stChunks (gqCtx f.gq) f.res.writes with
    | (s, some e) => (s.slotState f 4).failFlight f e.1 e.2
    | (s, none) =>
      match s.satDecide f with
      | .quiet => s.endOk f false
      | .commit a => (s.satEvent f f.fmt a).endOk f true
      | .rerun n => s.rerun f n

/-- Every slot of an attempt is bound to a sequencer, or its program has ended (R224). -/
def State.allBound (s : State) (f : Flight) : Bool :=
  f.slots.all fun x => decide (3 ≤ s.rd .CE_SLOT_STATE (x.1 * 32 + x.2))

/-- The lane of a VISION_RUN has ended its last run (R356). -/
def State.laneDone (s : State) (f : Flight) : Bool :=
  dOp f.desc != 0x28 || (List.range 4).any fun l => (s.lane l).cmd == some (f.gq, f.slot) && (s.lane l).done

/-- R205: the attempt of one command ends. Its host reads have returned; `use` is what was counted. -/
def execAttemptEnd (ctx q slot : Nat) (use : Usage) (s : State) : Host.Outcome State Fault Refusal :=
  let gq := qKey ctx q
  .next (match s.flightIn gq fun f => f.phase == .running && f.slot == slot && dOp f.desc != 0x04 with
    | none => s
    | some f =>
      let waits := s.reqs.any (fun r => r.gq = gq ∧ r.slot = f.slot) || !s.allBound f ||
        (dOp f.desc == 0x30 && s.emb.ph != 3) || !(s.laneDone f)
      if waits then s else s.finish f use)

/-- R148: an in-place command past IN_PLACE_LIMIT is stopped; `written` bytes have reached memory, and
it completes with TIMEOUT. -/
def execInPlaceLimitExpiry (ctx q written : Nat) (s : State) : Host.Outcome State Fault Refusal :=
  let gq := qKey ctx q
  .next (match s.flightIn gq fun f => f.phase == .running && dInPlace f.desc &&
      decide (f.start + s.img.inPlaceLimit * 100 ≤ s.gcnt) with
    | none => s
    | some f =>
      let s := (s.stChunks (gqCtx gq) (takeChunks written f.res.writes)).1
      (s.slotState f 4).failFlight f 9 0)

/-- A command's RUN_LIMIT in TCLK periods; PF0 classes 0 and 1 have none (R165). -/
def State.runLimit (s : State) (gq : Nat) : Nat :=
  if gqCtx gq = pf0 ∧ (s.queue gq).cls ≤ 1 then 0 else s.rd .SCH_TENANT_RUN_LIMIT (gqCtx gq) * 100000

/-- R165: a killable command that has run for RUN_LIMIT is killed and completes with TIMEOUT. [DEDUCED: log 91] -/
def execRunLimitExpiry (ctx q : Nat) (s : State) : Host.Outcome State Fault Refusal :=
  let gq := qKey ctx q
  .next (match s.flightIn gq fun f => (f.phase == .running || f.phase == .ready) && f.killable && dOp f.desc != 0x04 &&
      s.runLimit gq != 0 && decide (f.start + s.runLimit gq ≤ s.gcnt) with
    | none => s
    | some f =>
      let s := s.each f.slots fun s es =>
        (s.inc .SCH_CE_STATUS_PREEMPT_KILLS es.1).wr .CE_PERF_COUNT (es.1 * 8 + 7)
          (s.rd .CE_PERF_COUNT (es.1 * 8 + 7) + 1)
      (s.slotState f 4).failFlight { f with kills := f.kills + 1 } 9 0)

/-! ## Errors of a Caldera (R223, R233) -/

/-- R233 k = 3: the attempt is killed and the Caldera is taken out of service. [DEDUCED: log 108] -/
def execArrayParity (ce slot : Nat) (s : State) : Host.Outcome State Fault Refusal :=
  .next (
    if ce < 6 ∧ s.rd .CE_STATUS_STATE ce ≠ 0 then
      let s := s.fire (192 + 16 * ce + 3)
      let s := match s.inSlot ce slot with
        | some f => s.loseUnit f
        | none => s
      s.ceFault ce
    else s)

/-- A corrected word of a Caldera's memories (R223). -/
def State.sramCorrected (s : State) (ce : Nat) : State := (s.inc .CE_SRAM_ERR_CE_COUNT ce).fire (192 + 16 * ce + 1)

/-- An uncorrectable word (R223): where it lies decides what is lost. A bank in the residency's groups
costs only the reload of a tile from HBM; elsewhere the slot's attempt is lost. [DEDUCED: log 107] -/
def State.sramUncorrectable (s : State) (ce mem bank off slot : Nat) : State :=
  let s := (((s.inc .CE_SRAM_ERR_UE_COUNT ce).wr .CE_SRAM_ERR_MEMORY ce mem).wr .CE_SRAM_ERR_BANK ce bank).wr
    .CE_SRAM_ERR_OFFSET ce off
  let s := s.fire (192 + 16 * ce + 2)
  if mem = 0 ∧ ((s.groupsOf ce).take s.wresGroups).contains (bank / 8) then s
  else match s.inSlot ce slot with
    | none => s
    | some f =>
      if f.killable then s.killSlots f
      else s.stopInPlace f 8

/-- R223: a read of CE_SRAM_ERR. -/
def execCeSramErrRead (ce half : Nat) (s : State) : Host.Outcome State Fault Refusal :=
  .next (s.readBlk .late .CE_SRAM_ERR ce half)

/-- R105: a read of CE_CODEC_ERR. -/
def execCeCodecErrRead (ce : Nat) (s : State) : Host.Outcome State Fault Refusal :=
  .next (s.readBlk .late .CE_CODEC_ERR ce 0)

/-- R173: a read of SCH_CE_STATUS. -/
def execSchCeStatusRead (ce half : Nat) (s : State) : Host.Outcome State Fault Refusal :=
  .next (s.readBlk .late .SCH_CE_STATUS ce half)

end Sys2Proof.Machine
end

