-- ==== Sys2Proof/Machine/Image.lean ====
section
/-! DEFINITION. Parsing and validating a structure image (R41-R56, R58, R59, R593, R4, R8, R37, R336,
R394, R459). -/

namespace Sys2Proof.Machine

/-- The first failure of a validation: its code of R59, and where it lies (R593). -/
abbrev Bad := Nat × Nat × Nat

/-- A section table entry (R43) with its index. -/
structure Sect where
  idx : Nat
  typ : Nat
  rsv : Nat
  off : Nat
  len : Nat
  sum : Nat
deriving DecidableEq, Repr

/-- The header of an image (R42). -/
structure Hdr where
  kind : Nat
  secs : Nat
  total : Nat
  seq : Nat
  base : Nat
  sigOff : Nat
  sigLen : Nat
  minFw : Nat
deriving DecidableEq, Repr

/-- An image that passed steps 1-8 of R58: its known records in offset order. -/
structure SImage where
  hdr : Hdr
  recs : List Rec
deriving DecidableEq, Repr

/-- The first failing check of a list. -/
def firstFail (l : List (Bool × Bad)) : Except Bad Unit :=
  match l.find? (·.1) with
  | some b => .error b.2
  | none => .ok ()

/-- Bit `i` of a floor-plan word (R515). -/
def State.floorBit (s : State) (w i : Nat) : Bool := (s.brg.cur.floor.getD w 0).testBit i

/-- Calderas the floor plan lists. -/
def State.floorCes (s : State) : List Nat := (List.range 6).filter (s.floorBit 0)

/-! ## Header and layout (R41-R44) -/

/-- [DESIGN CHOICE: log 17] -/
def readHdr (b : List Byte) : Hdr :=
  ⟨d8 b 6, d8 b 7, d32 b 0x0C, d64 b 0x10, d64 b 0x18, d32 b 0x20, d32 b 0x24, d32 b 0x28⟩

/-- The kind of load the readiness state takes: 1 a full image, 2 a delta (R57). -/
def State.wantKind (s : State) : Nat := if s.ready then 2 else 1

/-- Step 1 of R58. -/
def State.headerStep (s : State) (b : List Byte) (h : Hdr) : Except Bad Unit :=
  firstFail [
    (decide (b.length < 4) || d32 b 0 != 0x4C525343, (0x01, 0xFF, 0)),
    (d16 b 4 != 1, (0x02, 0xFF, 4)),
    (h.kind != 1 && h.kind != 2, (0x02, 0xFF, 6)),
    (h.kind != s.wantKind, (0x17, 0xFF, 6)),
    (d16 b 8 != s.rd .SYS_ID_PART, (0x03, 0xFF, 8)),
    (decide (h.secs < 1) || decide (16 < h.secs), (0x0D, 0xFF, 7)),
    (d16 b 0x0A != 0, (0x0D, 0xFF, 0x0A)),
    (h.seq == 0, (0x0D, 0xFF, 0x10)),
    (h.kind == 1 && h.base != 0, (0x0D, 0xFF, 0x18)),
    (!(dZero b 0x30 0x40), (0x0D, 0xFF, 0x30))]

def readSects (b : List Byte) (h : Hdr) : List Sect :=
  (List.range h.secs).map fun i =>
    let e := (b.drop (0x40 + 16 * i)).take 16
    ⟨i, d16 e 0, d16 e 2, d32 e 4, d32 e 8, d32 e 12⟩

/-- Sections by rising offset. -/
def byOffset (ss : List Sect) : List Sect :=
  sortBy ss fun a b => decide (a.off < b.off) || (a.off == b.off && decide (a.len ≤ b.len))

/-- The first byte of `[lo, hi)` that is not 0. -/
def nonZeroIn (b : List Byte) (lo hi : Nat) : Option Nat :=
  (((b.drop lo).take (hi - lo)).findIdx? (· != 0)).map (lo + ·)

/-- Overlaps and the bytes between parts, from position `pos` on (R44). [DEDUCED: log 19] -/
def gapStep (b : List Byte) (sigOff : Nat) : Nat → List Sect → Except Bad Unit
  | pos, [] => match nonZeroIn b pos sigOff with
    | some o => .error (0x04, 0xFF, o)
    | none => .ok ()
  | pos, e :: es =>
    if e.off < pos then .error (0x04, e.idx, 0x40 + 16 * e.idx)
    else match nonZeroIn b pos e.off with
      | some o => .error (0x04, 0xFF, o)
      | none => gapStep b sigOff (e.off + e.len) es

/-- Step 2 of R58. -/
def layoutStep (b : List Byte) (h : Hdr) (ss : List Sect) : Except Bad Unit :=
  let table := 0x40 + 16 * h.secs
  match firstFail ([
      (h.total != b.length || decide (2 ^ 24 < b.length) || decide (b.length < 64), (0x04, 0xFF, 0x0C)),
      (h.sigOff % 8 != 0 || decide (h.sigOff < table) || h.sigOff + h.sigLen != b.length, (0x04, 0xFF, h.sigOff))] ++
    ss.map fun e => (e.off % 8 != 0 || e.len % 4 != 0 || decide (e.off < table) || decide (h.sigOff < e.off + e.len),
      (0x04, e.idx, 0x40 + 16 * e.idx))) with
  | .error x => .error x
  | .ok _ => gapStep b h.sigOff table (byOffset ss)

/-- The 32-bit wrapping sum of a section's words (R43). -/
def wordSum : List Byte → Nat
  | a :: b :: c :: d :: r => (leNat [a, b, c, d] + wordSum r) % 2 ^ 32
  | _ => 0

/-- Step 3 of R58. -/
def sumStep (b : List Byte) (ss : List Sect) : Except Bad Unit :=
  firstFail (ss.map fun e => (wordSum ((b.drop e.off).take e.len) != e.sum, (0x05, e.idx, e.off)))

/-- Step 4 of R58. `sig` is what the keys say of the chain and signature: 0 they verify, 7 the chain
ends at no image root, anything else the signature or chain fails (R55, R56). [DESIGN CHOICE: log 14] -/
def sigStep (b : List Byte) (h : Hdr) (sig : Nat) : Except Bad Unit :=
  let k := b.drop h.sigOff
  let chain := d32 k 4
  firstFail [
    (decide (h.sigLen < 8) || d16 k 0 != 1 || decide (d16 k 2 < 1) || decide (3 < d16 k 2) ||
      chain % 8 != 0 || 8 + chain + 96 != h.sigLen, (0x06, 0xFF, h.sigOff)),
    (sig != 0 && sig != 7, (0x06, 0xFF, h.sigOff)),
    (sig == 7, (0x07, 0xFF, h.sigOff))]

/-- Steps 5 and 6 of R58. -/
def State.seqStep (s : State) (h : Hdr) : Except Bad Unit :=
  let act := s.rd .STRUCT_ACTIVE_SEQ_SEQ
  firstFail [
    (h.kind == 1 && decide (h.seq < s.rd .SEC_STRUCT_FLOOR_FLOOR), (0x08, 0xFF, 0x10)),
    (h.kind == 2 && h.base != act, (0x09, 0xFF, 0x18)),
    (h.kind == 2 && decide (h.seq ≤ act), (0x08, 0xFF, 0x10)),
    (decide (s.sec.fwVersion < h.minFw), (0x0A, 0xFF, 0x28))]

/-- Step 7 of R58: section types (R45). -/
def typeStep (h : Hdr) (ss : List Sect) : Except Bad Unit :=
  match firstFail (ss.map fun e =>
    (e.typ == 0 || decide (9 < e.typ) || (h.kind == 2 && decide (e.typ < 3)) ||
      (ss.take e.idx).any (·.typ == e.typ), (0x0B, e.idx, 0x40 + 16 * e.idx))) with
  | .error x => .error x
  | .ok _ => firstFail [(h.kind == 1 && ss.length != 9, (0x0B, 0xFF, 0))]

/-! ## Records (R46-R54) -/

/-- The section and the value length of a known tag. -/
def tagInfo (tag : Nat) : Option (Nat × Nat) :=
  match tag with
  | 0x10 => some (1, 24) | 0x11 => some (1, 4) | 0x20 => some (2, 4)
  | 0x30 => some (3, 32) | 0x31 => some (3, 68) | 0x40 => some (4, 8)
  | 0x50 => some (5, 48) | 0x60 => some (6, 16)
  | 0x70 => some (7, 8) | 0x71 => some (7, 4) | 0x72 => some (7, 4) | 0x73 => some (7, 4) | 0x74 => some (7, 16)
  | 0x80 => some (8, 12) | 0x81 => some (8, 4) | 0x90 => some (9, 16)
  | _ => none

/-- A bitmap of `n` bytes at `o`. -/
def dMap (d : List Byte) (o n : Nat) : Nat := leNat ((d.drop o).take n)

/-- A partition the part has (R6). -/
def State.partExists (s : State) (p : Nat) : Bool := decide (p < if s.is6460 then 15 else 63) || p == 63

/-- The limits R50, R4 and R394 set on the plan of an enabled head. -/
def State.headOk (s : State) (d : List Byte) : Bool :=
  let ha := d16 d 4
  let ht := d16 d 6
  let va := d16 d 8
  let vt := d16 d 10
  let pk := d32 d 12
  let wl := d16 d 16
  let up := d8 d 20
  let m := if up = 2 then 2 else if up = 0 then 1 else 3
  [1, 2, 4].contains (d8 d 2) && decide (d8 d 3 ≤ 6) && wl % 64 == 0 && decide (wl ≤ 512) &&
    decide (d8 d 18 ≤ 15) && decide (1 ≤ d8 d 19) && decide (d8 d 19 ≤ 4) && decide (up ≤ 3) && decide (d8 d 21 ≤ 2) &&
    decide (d16 d 22 < if d8 d 21 = 2 then 8 else 1) &&
    (d16 d 24 == 0xFFFF || decide (d16 d 24 < s.tenants)) && decide (ha ≤ 7680) && decide (va ≤ 4320) &&
    decide (ha < ht) && decide (va < vt) && decide (pk ≤ 4400000) && decide (pk * 1000 ≤ 480 * ht * vt) &&
    ha % m == 0 && va % m == 0

/-- An index a route may name in a class (R49). -/
def routeEnd (cls idx : Nat) : Bool :=
  match cls with
  | 1 => decide (idx < 8) | 2 => decide (idx < 4) | 3 => idx == 0 | 4 => decide (idx < 64) | 5 => decide (idx < 8)
  | _ => false

/-- Field ranges of one record's value, reserved fields included (R47-R54, R459). [DEDUCED: log 23] -/
def State.fieldsOk (s : State) (delta : Bool) (tag : Nat) (d : List Byte) : Bool :=
  let target := fun x => !(decide (525 ≤ x) || (s.is6460 && decide (141 ≤ x)))
  match tag with
  | 0x10 => decide (d8 d 0 < 64) && decide (d8 d 3 < 16) && dZero d 4 8
  | 0x11 => decide (d8 d 0 ≤ 1) && decide (d8 d 1 ≤ 1) && decide (d8 d 2 ≤ 6) && d8 d 3 == 0
  | 0x20 => (d8 d 0 == 6 || d8 d 0 == 8) && decide (d8 d 1 ≤ 1)
  | 0x30 => s.partExists (d8 d 0) && bits (d8 d 1) 1 6 == 0 && (delta || d8 d 1 < 128) && decide (d8 d 2 < 64) && d8 d 3 == 0
  | 0x31 => s.partExists (d8 d 0) && dZero d 1 4 && dMap d 4 64 / 2 ^ s.tenants == 0
  | 0x40 => decide (d8 d 0 < 128) && routeEnd (d8 d 1) (d8 d 2) &&
      ((delta && d8 d 3 == 0) || routeEnd (d8 d 3) (d8 d 4)) && dZero d 5 8
  | 0x50 => decide (d8 d 0 < 8) && dZero d 26 28 && dZero d 34 36 && dZero d 40 48 &&
      (!(bit (d8 d 1) 0) || (decide (d8 d 1 < 8) && s.headOk d))
  | 0x60 => decide (d8 d 0 < 8) && dZero d 14 16 &&
      (!(bit (d8 d 1) 0) || (d8 d 1 == 1 && [1, 2, 4].contains (d8 d 2) && s.partExists (d8 d 3) &&
        decide (80 ≤ d16 d 4) && decide (d16 d 4 ≤ 6500) && [0x2B, 0x2C, 0x1E].contains (d8 d 8) &&
        (decide (d8 d 9 < 4) || d8 d 9 == 0xFF)))
  | 0x70 => decide (d8 d 0 ≤ 1) && dZero d 1 4
  | 0x71 => decide (1 ≤ d32 d 0) && decide (d32 d 0 ≤ 1000)
  | 0x72 => dZero d 1 4
  | 0x73 => decide (1 ≤ d8 d 0) && d8 d 1 == 0 && decide (1 ≤ d16 d 2)
  | 0x74 => decide (d8 d 0 < 64) && decide (d8 d 1 < 4) && dZero d 2 8
  | 0x80 =>
    let e := d16 d 0 + d16 d 2
    decide (e ≤ 8192) && target (d16 d 4) && decide (d8 d 6 < 16) && decide (d8 d 7 < 4) &&
      (d16 d 8 == 0xFFFF || decide (d16 d 8 < 1024)) && dZero d 10 12 &&
      !(s.is6460 && decide (max (d16 d 0) 2048 < min e 5120))
  | 0x81 => target (d16 d 0) && decide (d8 d 2 < 16) && d8 d 3 == 0
  | 0x90 => s.partExists (d8 d 0) && dZero d 1 4 && d64 d 8 % 2 ^ 21 == 0
  | _ => true

/-- A CORE_CLOCKS record asks more than the part allows (R8, R47). -/
def State.clocksExceed (s : State) (d : List Byte) : Bool :=
  (s.rd .SYS_ID_PART == 0x648A && (d8 d 0 == 6 || d8 d 1 == 0)) || decide (s.tdp < d16 d 2)

/-- The key of a record other than SOURCE_RANGE (R61). -/
def recKey (r : Rec) : Nat × Nat :=
  (r.tag, match r.tag with
    | 0x30 | 0x31 | 0x40 | 0x50 | 0x60 | 0x74 => d8 r.val 0
    | 0x81 => d16 r.val 0
    | 0x90 => d8 r.val 0 + d32 r.val 4 * 256
    | _ => 0)

/-- Two records of one image share a key (R61). -/
def sameKey (a b : Rec) : Bool :=
  if a.tag = 0x80 ∧ b.tag = 0x80 then
    decide (max (d16 a.val 0) (d16 b.val 0) < min (d16 a.val 0 + d16 a.val 2) (d16 b.val 0 + d16 b.val 2))
  else recKey a == recKey b

/-- The records of one section from `pos` on, appended to those before it (R46, step 8 of R58). -/
def State.recStep (s : State) (delta : Bool) (e : Sect) (b : List Byte) (done : List Rec) :
    Nat → Nat → Except Bad (List Rec)
  | 0, _ => .ok done
  | fuel + 1, pos =>
    if e.len ≤ pos then .ok done
    else
      let r := (b.drop (e.off + pos)).take (e.len - pos)
      let at_ := e.off + pos
      let tag := d16 r 0
      let n := d16 r 2
      let pad := (4 - n % 4) % 4
      let val := (r.drop 4).take n
      let framed := decide (n ≤ 65532) && decide (4 + n + pad ≤ r.length) && dZero r (4 + n) (4 + n + pad)
      let rec_ : Rec := ⟨tag, val, e.idx, at_⟩
      match (tagInfo tag).bind fun ti => if ti.1 = e.typ then some ti.2 else none with
      | none =>
        if tag < 0x8000 then .error (0x0C, e.idx, at_)
        else if !framed then .error (0x0D, e.idx, at_)
        else s.recStep delta e b done fuel (pos + 4 + n + pad)
      | some len =>
        if !framed || n != len || done.any (sameKey rec_) || !(s.fieldsOk delta tag val) then .error (0x0D, e.idx, at_)
        else if tag = 0x20 ∧ s.clocksExceed val then .error (0x0E, e.idx, at_)
        else s.recStep delta e b (done ++ [rec_]) fuel (pos + 4 + n + pad)

/-- Step 8 of R58 over every section. -/
def State.recSteps (s : State) (delta : Bool) (b : List Byte) : List Sect → List Rec → Except Bad (List Rec)
  | [], done => .ok done
  | e :: es, done =>
    match s.recStep delta e b done (e.len + 1) 0 with
    | .error x => .error x
    | .ok done => s.recSteps delta b es done

/-- The records R47 requires of a full image. -/
def requiredStep (h : Hdr) (ss : List Sect) (rs : List Rec) : Except Bad Unit :=
  let at_ := fun typ => match ss.find? (·.typ == typ) with | some e => (0x0B, e.idx, e.off) | none => (0x0B, 0xFF, 0)
  firstFail ([(0x10, 1), (0x11, 1), (0x20, 2)].map fun (tt : Nat × Nat) =>
    (h.kind == 1 && !(rs.any (·.tag == tt.1)), at_ tt.2))

/-- Steps 1-8 of R58. -/
def State.parseImage (s : State) (b : List Byte) (sig : Nat) : Except Bad SImage := do
  let h := readHdr b
  s.headerStep b h
  let ss := readSects b h
  layoutStep b h ss
  sumStep b ss
  sigStep b h sig
  s.seqStep h
  typeStep h ss
  firstFail (ss.map fun e => (e.rsv != 0, (0x0D, e.idx, 0x40 + 16 * e.idx + 2)))
  let rs ← s.recSteps (h.kind == 2) b (byOffset ss) []
  requiredStep h ss rs
  return ⟨h, rs⟩

/-! ## The resulting record set (R61) -/

/-- A record that removes what its key names. -/
def isRemoval (r : Rec) : Bool :=
  (r.tag == 0x30 && decide (128 ≤ d8 r.val 1)) || (r.tag == 0x40 && d8 r.val 3 == 0) || (r.tag == 0x90 && d64 r.val 8 == 0)

/-- A record is one a delta's deletion of its partition takes with it. -/
def goesWith (dels : List Nat) (r : Rec) : Bool := (r.tag == 0x30 || r.tag == 0x31 || r.tag == 0x90) && dels.contains (d8 r.val 0)

/-- Partitions that an image deletes. -/
def deletesOf (own : List Rec) : List Nat := (own.filter fun r => r.tag == 0x30 && isRemoval r).map fun r => d8 r.val 0

/-- The records in force once an image has been applied: those of `old` it does not replace, then its own. -/
def mergeRecs (old own : List Rec) : List Rec :=
  (old.filter fun r => !(own.any fun o => recKey o == recKey r) && !(goesWith (deletesOf own) r)) ++
    own.filter fun r => !(isRemoval r)

/-! ## Cross-checks (step 9 of R58) -/

/-- A check that failed is located at its record of the loading image with the lowest offset, or at no
record (R593). -/
def crossBad (code : Nat) (found : Bool) (bad : List Rec) : Except Bad Unit :=
  if !found then .ok ()
  else match (sortBy (bad.filter (·.sec != 0xFF)) fun a b => decide (a.off ≤ b.off)).head? with
    | some r => .error (code, r.sec, r.off)
    | none => .error (code, 0xFF, 0)

def crossRecs (code : Nat) (bad : List Rec) : Except Bad Unit := crossBad code (!bad.isEmpty) bad

def tagged (rs : List Rec) (tag : Nat) : List Rec := rs.filter (·.tag == tag)

/-- The record of a key. -/
def recOf (rs : List Rec) (tag k : Nat) : Option Rec := rs.find? fun r => recKey r == (tag, k)

def enabledRec (r : Rec) : Bool := bit (d8 r.val 1) 0

/-- A unit class of R49 is absent at an index. -/
def State.routeAbsent (s : State) (cls idx : Nat) : Bool :=
  match cls with
  | 1 => !(s.floorBit 0 (16 + idx))
  | 2 => !(s.floorBit 0 (24 + idx))
  | 3 => !(s.floorBit 0 28)
  | 5 => !(s.floorBit 0 (8 + idx))
  | _ => false

/-- The pseudo-channels and ways the floor plan lists, as bitmaps. -/
def State.floorPcs (s : State) : Nat := s.brg.cur.floor.getD 1 0 + s.brg.cur.floor.getD 2 0 * 2 ^ 64
def State.floorWays (s : State) : Nat := s.brg.cur.floor.getD 3 0

/-- Every bit of `a` is in `b`. -/
def subBits (a b : Nat) : Bool := Nat.land a b == a

/-- A PARTITION's bitmaps: pseudo-channels, cache ways, dedicated Calderas. -/
def partPcs (r : Rec) : Nat := dMap r.val 8 16
def partWays (r : Rec) : Nat := dMap r.val 24 8
def partCes (r : Rec) : Nat := if enabledRec r then d8 r.val 2 else 0
def partTenants (r : Rec) : Nat := dMap r.val 4 64

/-- A delta's record names an absent unit (UNIT_ABSENT of R59). [DEDUCED: log 21] -/
def State.namesAbsent (s : State) (r : Rec) : Bool :=
  match r.tag with
  | 0x50 => s.routeAbsent 5 (d8 r.val 0) || (enabledRec r && d8 r.val 21 == 2 && s.routeAbsent 1 (d16 r.val 22))
  | 0x60 => s.routeAbsent 1 (d8 r.val 0) || (enabledRec r && d8 r.val 9 != 0xFF && s.routeAbsent 2 (d8 r.val 9))
  | 0x40 => s.routeAbsent (d8 r.val 1) (d8 r.val 2) || s.routeAbsent (d8 r.val 3) (d8 r.val 4)
  | 0x30 => !(isRemoval r) && !(subBits (partPcs r) s.floorPcs && subBits (partWays r) s.floorWays &&
      (bitsOf (partCes r) 8).all (fun e => s.floorCes.contains e))
  | _ => false

/-- A pseudo-channel holds allocations, or is being retired (R59, R523). -/
def State.pcHolds (s : State) (pc : Nat) : Bool :=
  let n := s.rd .MEM_PC_STATUS_ISET pc
  n != 0xFF && (s.rd .MEM_PC_STATUS_STATE pc == 3 ||
    (s.m.frames.keysIn (n * 2 ^ 22) ((n + 1) * 2 ^ 22)).any fun k => (s.frame k).st != .retired)

/-- A tenant's VF has live queues or a tensor table (R59). -/
def State.tenantLive (s : State) (t : Nat) : Bool :=
  s.rd .VF_TT_CAP_TT_CAP t != 0 ||
    (s.queues.any fun (kv : Nat × Queue) => kv.1 / 512 == t && kv.2.st != .disabled)

/-- R59's RESOURCE_IN_USE: the loading image's records that remove what is in use. [DEDUCED: log 20] -/
def State.inUse (s : State) (own res : List Rec) : List Rec :=
  let old := s.img.recs
  let gone := own.filter fun r => r.tag == 0x30 && isRemoval r &&
    (match recOf old 0x31 (d8 r.val 0) with | some o => partTenants o != 0 | none => false)
  let moved := fun (tag n : Nat) (g : Rec → Nat) (busy : Nat → Bool) =>
    (List.range n).flatMap fun u =>
      match (tagged old tag).find? fun o => (g o).testBit u with
      | none => []
      | some o =>
        let p := d8 o.val 0
        let now := (tagged res tag).filter fun r => (g r).testBit u
        if (now.any fun r => d8 r.val 0 == p) || !(busy u) then []
        else own.filter fun r => (r.tag == tag && (now.any fun q => d8 q.val 0 == d8 r.val 0)) ||
          ((r.tag == tag || r.tag == 0x30) && d8 r.val 0 == p)
  gone ++ moved 0x30 128 partPcs s.pcHolds ++ moved 0x31 512 partTenants s.tenantLive

/-- Records of a list that share a bit with an earlier one. -/
def overlaps (g : Rec → Nat) : Nat → List Rec → List Rec
  | _, [] => []
  | seen, r :: rs => if Nat.land seen (g r) = 0 then overlaps g (Nat.lor seen (g r)) rs
      else r :: overlaps g (Nat.lor seen (g r)) rs

/-- RESOURCE_OVERLAP (R48). -/
def overlapBad (res : List Rec) : List Rec :=
  overlaps partPcs 0 (tagged res 0x30) ++ overlaps partWays 0 (tagged res 0x30) ++
    overlaps partCes 0 (tagged res 0x30) ++ overlaps partTenants 0 (tagged res 0x31)

/-- RESOURCE_SHORT (R48): whether it fails, and the records it fails on. [DEDUCED: log 18] -/
def State.shortBad (s : State) (delta : Bool) (old own res : List Rec) : Bool × List Rec :=
  let prt := tagged res 0x30
  let ten := tagged res 0x31
  let has := fun (l : List Rec) (r : Rec) => l.any fun x => d8 x.val 0 == d8 r.val 0
  let no63 := !(prt.any fun r => d8 r.val 0 == 63)
  let few := prt.filter fun r => decide ((bitsOf (partPcs r) 128).length < 2) || partWays r == 0
  let alone := (ten.filter fun r => !(has prt r)) ++ (if delta then [] else prt.filter fun r => !(has ten r))
  let sys := ten.filter fun r => d8 r.val 0 == 63 && partTenants r != 0
  let all := (ten.filter fun r => d8 r.val 0 != 63).foldl (fun a r => Nat.lor a (partTenants r)) 0
  let lost := (List.range s.tenants).filter fun t => !(all.testBit t)
  let lostAt := own.filter fun r => (r.tag == 0x31 || r.tag == 0x30) && ((tagged old 0x31).any fun o =>
    d8 o.val 0 == d8 r.val 0 && lost.any fun t => (partTenants o).testBit t)
  (no63 || !(few ++ alone ++ sys).isEmpty || !lost.isEmpty,
    (if no63 then own.filter fun r => r.tag == 0x30 && d8 r.val 0 == 63 else []) ++ few ++ alone ++ sys ++ lostAt)

/-- Enabled port plans that name a lane, in order. -/
def lanePlans (res : List Rec) : List Rec := (tagged res 0x60).filter fun r => enabledRec r && d8 r.val 9 != 0xFF

/-- The partition of one end of a route; Ember and a stopped port have none (R49, R336, R31). [DEDUCED: log 22] -/
def endPart (res : List Rec) (cls idx : Nat) : Option Nat :=
  match cls with
  | 1 => ((tagged res 0x60).find? fun r => enabledRec r && d8 r.val 0 == idx).map fun r => d8 r.val 3
  | 2 => some (((lanePlans res).find? fun r => d8 r.val 9 == idx).elim 63 fun r => d8 r.val 3)
  | 3 => none
  | _ => some 63

/-- A route's pair of classes is permitted, and so are its two partitions (R49). -/
def routeOk (res : List Rec) (r : Rec) : Bool :=
  [(1, 2), (1, 4), (2, 4), (3, 4), (4, 5)].contains (d8 r.val 1, d8 r.val 3) &&
    (let a := endPart res (d8 r.val 1) (d8 r.val 2)
     let b := endPart res (d8 r.val 3) (d8 r.val 4)
     b == some 63 || (a.isSome && a == b))

/-- Routes to a head that share its head or its stream with an earlier one (R394). -/
def headRouteBad : List Rec → List Rec → List Rec
  | _, [] => []
  | seen, r :: rs =>
    (if seen.any fun x => d8 x.val 2 == d8 r.val 2 || d8 x.val 4 == d8 r.val 4 then [r] else []) ++
      headRouteBad (r :: seen) rs

/-- Port plans whose lane another plan names, or which have no route to their lane (R336). -/
def lanePlanBad (res : List Rec) : List Rec → List Rec → List Rec
  | _, [] => []
  | seen, r :: rs =>
    (if (seen.any fun x => d8 x.val 9 == d8 r.val 9) || !((tagged res 0x40).any fun q =>
        d8 q.val 1 == 1 && d8 q.val 2 == d8 r.val 0 && d8 q.val 3 == 2 && d8 q.val 4 == d8 r.val 9) then [r] else []) ++
      lanePlanBad res (r :: seen) rs

/-- ROUTE_FORBIDDEN. A route whose partitions do not agree also fails through the port plans of the
loading image that give them. -/
def routeBad (own res : List Rec) : List Rec :=
  let routes := tagged res 0x40
  let bad := routes.filter fun r => !(routeOk res r)
  let portsOf := fun (r : Rec) => own.filter fun q => q.tag == 0x60 &&
    ((d8 r.val 1 == 1 && d8 q.val 0 == d8 r.val 2) ||
      (d8 r.val 1 == 2 && enabledRec q && d8 q.val 9 == d8 r.val 2) ||
      (d8 r.val 3 == 2 && enabledRec q && d8 q.val 9 == d8 r.val 4))
  bad ++ bad.flatMap portsOf ++
    headRouteBad [] (routes.filter fun r => d8 r.val 1 == 4 && d8 r.val 3 == 5) ++ lanePlanBad res [] (lanePlans res)

/-- A SOURCE_RANGE reaches a target its sources may not reach (R53, R459). -/
def rangeForbidden (r : Rec) : Bool :=
  let a := d16 r.val 0
  let e := a + d16 r.val 2
  let x := d16 r.val 4
  let lo := max a 1024
  let hi := min e 5120
  (decide (lo < hi) && ((lo - 1024) / 8 != (hi - 1 - 1024) / 8 || x != 13 + (lo - 1024) / 8)) ||
    (decide (a < 1024) && decide (a < e) && decide (12 < x))

/-- SOURCE_RANGE records whose coalescing group has another target in an earlier record or in force (R459). -/
def State.groupBad (s : State) (delta : Bool) (own : List Rec) : List Rec → List Rec → List Rec
  | _, [] => []
  | seen, r :: rs =>
    let g := d16 r.val 8
    let covered := fun src => own.any fun o => decide (d16 o.val 0 ≤ src) && decide (src < d16 o.val 0 + d16 o.val 2)
    let clash := g != 0xFFFF && (seen.any (fun o => d16 o.val 8 == g && d16 o.val 4 != d16 r.val 4) ||
      (delta && (s.unitsOf .GEY_SRC_GROUP).any fun src => s.rd .GEY_SRC_GROUP src == g && !(covered src) &&
        s.rd .GEY_SRC_TARGET src != d16 r.val 4))
    (if clash then [r] else []) ++ s.groupBad delta own (r :: seen) rs

/-- Bytes of a pseudo-channel (R70). -/
def pcBytes : Nat := 18432 * 65536

/-- HOTSET_CAPACITY (R54). -/
def hotBad (own res : List Rec) : List Rec :=
  let hot := tagged res 0x90
  hot.flatMap fun r =>
    let p := d8 r.val 0
    let sum := ((hot.filter fun x => d8 x.val 0 == p).map fun x => d64 x.val 8).foldl (· + ·) 0
    let cap := (recOf res 0x30 p).elim 0 fun q => (bitsOf (partPcs q) 128).length * pcBytes
    if cap < 2 * sum then r :: own.filter fun q => q.tag == 0x30 && d8 q.val 0 == p else []

/-- The last record of a list that belongs to the loading image. -/
def lastOwn (l : List Rec) : List Rec :=
  match (l.filter (·.sec != 0xFF)).getLast? with | some r => [r] | none => []

/-- Step 9 of R58. -/
def State.crossSteps (s : State) (delta : Bool) (own : List Rec) : Except Bad Unit := do
  let old := if delta then s.img.recs else []
  let res := mergeRecs old own
  if delta then
    crossRecs 0x18 (own.filter s.namesAbsent)
    crossRecs 0x19 (s.inUse own res)
  crossRecs 0x0F (overlapBad res)
  let sh := s.shortBad delta old own res
  crossBad 0x10 sh.1 sh.2
  crossRecs 0x13 (routeBad own res)
  let rng := tagged own 0x80
  crossRecs 0x14 (rng.filter rangeForbidden ++ s.groupBad delta rng [] rng)
  crossRecs 0x15 (hotBad own res)
  let heads := (tagged res 0x50).filter enabledRec
  crossBad 0x11 (decide (16000000 < ((heads.map fun r => d32 r.val 12).foldl (· + ·) 0))) (lastOwn heads)
  crossBad 0x12 (decide (10000 * s.floorCes.length <
    ((heads.map fun r => d16 r.val 32).foldl (· + ·) 0) + (if delta then s.streamShares else 0))) (lastOwn heads)

/-- R58: the image that passes validation, or its first failure. -/
def State.validate (s : State) (b : List Byte) (sig : Nat) : Except Bad SImage := do
  let im ← s.parseImage b sig
  s.crossSteps (im.hdr.kind == 2) im.recs
  return im

end Sys2Proof.Machine
end

