-- ==== Sys2Proof/Machine/Float.lean ====
section
/-! DEFINITION. IEEE 754 arithmetic as the Tephra cores do it: rounding under MODE.RM with the float
flags, and the conversions between formats (R308). -/

namespace Sys2Proof.Machine

/-- A result with its float flags: [0] inexact, [1] underflow, [2] overflow, [3] invalid. -/
structure FRes where
  enc : Nat
  flags : Nat := 0
deriving DecidableEq, Repr

/-- The magnitude goes up: the discarded part is `r / d` of the last place kept, `k` is the part kept. -/
def roundUp (rm : Nat) (neg : Bool) (k r d : Nat) : Bool :=
  match rm with
  | 0 => false
  | 1 => decide (d < 2 * r) || (2 * r == d && k % 2 == 1)
  | 2 => neg && r != 0
  | _ => !neg && r != 0

/-- Numerator and denominator of `n / d * 2^e`. -/
def ratOf (n d : Nat) (e : Int) : Nat × Nat :=
  if 0 ≤ e then (n * 2 ^ e.toNat, d) else (n, d * 2 ^ (-e).toNat)

/-- `n / d * 2^e` in units of `2^(x - mb)`, rounded: the integer, and whether it is inexact. -/
def roundAt (rm : Nat) (neg : Bool) (n d : Nat) (e x : Int) (mb : Nat) : Nat × Bool :=
  let q := ratOf n d (e - x + mb)
  let k := q.1 / q.2
  let r := q.1 % q.2
  (if roundUp rm neg k r q.2 then k + 1 else k, r != 0)

/-- An infinity, or the largest finite value, as an overflow gives it under RM. -/
def overEnc (f : FFmt) (rm : Nat) (neg : Bool) : Nat :=
  let toInf := rm == 1 || (rm == 2 && neg) || (rm == 3 && !neg)
  if f.special = 1 ∧ toInf then (2 ^ f.eb - 1) * 2 ^ f.mb else f.maxEnc

/-- Round an exact value into a float format (R308). A format without an infinity saturates, and one
without a NaN takes +0 for it. -/
def roundTo (f : FFmt) (rm : Nat) (v : Val) : FRes :=
  let sg := fun (s : Bool) => b2n s * 2 ^ (f.eb + f.mb)
  match v with
  | .nan => if f.special = 0 then ⟨0, 8⟩ else ⟨f.nanEnc, 0⟩
  | .inf s => if f.special = 1 then ⟨sg s + (2 ^ f.eb - 1) * 2 ^ f.mb, 0⟩ else ⟨sg s + f.maxEnc, 5⟩
  | .fin s n d e =>
    if n = 0 then ⟨sg s, 0⟩
    else
      let lg := ratLog n d + e
      let lo : Int := 1 - (f.bias : Int)
      let x := max lg lo
      let r := roundAt rm s n d e x f.mb
      let enc := if r.1 < 2 ^ f.mb then r.1 else ((x + f.bias).toNat - 1) * 2 ^ f.mb + r.1
      if f.maxEnc < enc then ⟨sg s + overEnc f rm s, 5⟩
      else
        -- R308 does not say whether an underflow is found before or after rounding
        let up := roundAt rm s n d e lg f.mb
        let tiny := decide (lg < lo) && !(Config.tinyAfter && lg == lo - 1 && up.1 == 2 ^ (f.mb + 1))
        ⟨sg s + enc, b2n r.2 + b2n (r.2 && tiny) * 2⟩

def f32 : FFmt := ⟨8, 23, 127, 1⟩

/-- A signalling NaN of FP32. -/
def sNaN (b : Nat) : Bool := bits b 23 8 == 255 && bits b 0 23 != 0 && !(b.testBit 22)

def isInf : Val → Bool | .inf _ => true | _ => false

/-- A zero that a sum of unlike signs gives: -0 only under rounding toward minus infinity. -/
def zeroSum (rm : Nat) (x y v : Val) : Val :=
  match v with
  | .fin _ 0 _ _ => if x.sign = y.sign then v else .fin (rm == 2) 0 1 0
  | v => v

def fAddV (rm : Nat) (x y : Val) : FRes :=
  let r := roundTo f32 rm (zeroSum rm x y (x.add y))
  let inv := isInf x && isInf y && x.sign != y.sign
  { r with flags := r.flags + b2n inv * 8 }

/-- OR two sets of flags. -/
def FRes.or (r : FRes) (fl : Nat) : FRes := { r with flags := Nat.lor r.flags fl }

/-- Invalid for a signalling NaN among the operands. -/
def sInv (l : List Nat) : Nat := b2n (l.any sNaN) * 8

def fAdd (rm a b : Nat) : FRes := (fAddV rm (decFP32 a) (decFP32 b)).or (sInv [a, b])
def fSub (rm a b : Nat) : FRes := (fAddV rm (decFP32 a) (decFP32 b).neg).or (sInv [a, b])

/-- 0 times an infinity. -/
def zeroInf (x y : Val) : Bool := (x.isZero && isInf y) || (isInf x && y.isZero)

def fMul (rm a b : Nat) : FRes :=
  let x := decFP32 a
  let y := decFP32 b
  (roundTo f32 rm (x.mul y)).or (Nat.lor (sInv [a, b]) (b2n (zeroInf x y) * 8))

/-- a * b + c with one rounding. -/
def fFma (rm a b c : Nat) : FRes :=
  let x := decFP32 a
  let y := decFP32 b
  let z := decFP32 c
  if zeroInf x y then
    ⟨f32.nanEnc, Nat.lor (sInv [a, b, c]) (if z.isNaN && !Config.fmaNanInvalid then 0 else 8)⟩
  else
    let p := x.mul y
    let r := roundTo f32 rm (zeroSum rm p z (p.add z))
    r.or (Nat.lor (sInv [a, b, c]) (b2n (isInf p && isInf z && p.sign != z.sign) * 8))

def fDiv (rm a b : Nat) : FRes :=
  let x := decFP32 a
  let y := decFP32 b
  (roundTo f32 rm (x.div y)).or (Nat.lor (sInv [a, b]) (b2n ((x.isZero && y.isZero) || (isInf x && isInf y)) * 8))

/-- The square root of a value, exact or between two neighbours finer than any rounding needs. -/
def sqrtVal : Val → Val
  | .fin s n d e =>
    if n = 0 then .fin s 0 1 0
    else if s then .nan
    else
      let q := scaleFloor n d (e + 512)
      let r := isqrt q
      let exact := r * r == q && (let p := ratOf n d (e + 512); p.1 % p.2 == 0)
      if exact then .fin false r 1 (-256) else .fin false (2 * r + 1) 1 (-257)
  | .inf s => if s then .nan else .inf false
  | .nan => .nan

def fSqrt (rm a : Nat) : FRes :=
  let x := decFP32 a
  (roundTo f32 rm (sqrtVal x)).or (Nat.lor (sInv [a]) (b2n (x.sign && !x.isZero && !x.isNaN) * 8))

/-- IEEE 754 minimum and maximum: a NaN operand gives NaN, and -0 lies below +0. [DEDUCED: log 138] -/
def fMin (a b : Nat) : FRes := ⟨(roundTo f32 0 ((decFP32 a).min (decFP32 b))).enc, sInv [a, b]⟩
def fMax (a b : Nat) : FRes := ⟨(roundTo f32 0 ((decFP32 a).max (decFP32 b))).enc, sInv [a, b]⟩

/-- A conversion between float formats. -/
def fCvt (rm dst src b : Nat) : FRes :=
  match ffmt dst with
  | some f =>
    let b := b % 2 ^ fmtBits src
    (roundTo f rm (decElem src b)).or (if src = fmtFP32 then sInv [b] else 0)
  | none => ⟨0, 0⟩

/-- FTOI: toward zero, saturating, NaN gives 0. -/
def fToInt (dst src b : Nat) : Int × Nat :=
  let r := intRange dst
  let v := decElem src (b % 2 ^ fmtBits src)
  match v with
  | .nan => (0, 8)
  | .inf s => (if s then r.1 else r.2, 8)
  | .fin _ n d e =>
    let q := v.trunc.getD 0
    let p := ratOf n d e
    if q < r.1 then (r.1, 8) else if r.2 < q then (r.2, 8) else (q, b2n (p.1 % p.2 != 0))

/-- ITOF. -/
def fOfInt (rm dst src b : Nat) : FRes :=
  match ffmt dst with
  | some f => roundTo f rm (decElem src (b % 2 ^ fmtBits src))
  | none => ⟨0, 0⟩

/-- Equal as numbers. -/
def Val.eqNum (x y : Val) : Bool := !x.isNaN && !y.isNaN && !(x.ltNum y) && !(y.ltNum x)

/-- The float compares: EQ and UN are quiet, LT and LE signal invalid for any NaN. -/
def fEq (a b : Nat) : Bool × Nat := ((decFP32 a).eqNum (decFP32 b), sInv [a, b])
def fLt (a b : Nat) : Bool × Nat :=
  ((decFP32 a).ltNum (decFP32 b), b2n ((decFP32 a).isNaN || (decFP32 b).isNaN) * 8)
def fLe (a b : Nat) : Bool × Nat :=
  ((decFP32 a).ltNum (decFP32 b) || (decFP32 a).eqNum (decFP32 b), b2n ((decFP32 a).isNaN || (decFP32 b).isNaN) * 8)
def fUn (a b : Nat) : Bool × Nat := ((decFP32 a).isNaN || (decFP32 b).isNaN, sInv [a, b])

/-- 2^x as a value that rounds as the exact power does: exact for an integer x, else between two
neighbours finer than any rounding needs. -/
def exp2Val (x : Val) : Val :=
  match x with
  | .nan => .nan
  | .inf s => if s then .fin false 0 1 0 else .inf false
  | .fin s n d e =>
    if n = 0 then .one
    else if !s && !(x.ltNum (.ofNat 129)) then .fin false 1 1 200
    else if s && x.ltNum (.ofInt (-200)) then .fin false 1 1 (-201)
    else
      let i := x.floor.getD 0
      let q := scaleFloor n d (e + 160)
      let fr := ((if s then -(q : Int) else q) - i * (2 ^ 160 : Nat)).toNat
      let bs := (List.range 160).map fun k => fr.testBit (159 - k)
      if fr = 0 then .fin false 1 1 i
      else .fin false (2 * exp2Frac (2 ^ exp2Prec) (2 ^ (exp2Prec + 1)) bs + 1) 1 (i - exp2Prec - 1)

/-- VEXP2, VRCP and VRSQ (R308): R228's results when RM is 0, else the exact value rounded under RM. -/
def fExp2 (rm a : Nat) : FRes :=
  if rm = 0 then
    let r := vExp2 ⟨decFP32 a, false⟩
    (⟨encFP32 r.v, 0⟩ : FRes).or (Nat.lor (sInv [a]) (roundTo f32 0 (exp2Val (decFP32 a))).flags)
  else (roundTo f32 rm (exp2Val (decFP32 a))).or (sInv [a])

def fRcp (rm a : Nat) : FRes :=
  let x := decFP32 a
  let r := roundTo f32 rm (Val.one.div x)
  if rm = 0 then (⟨encFP32 (vRecip ⟨x, false⟩).v, r.flags⟩ : FRes).or (sInv [a]) else r.or (sInv [a])

def fRsq (rm a : Nat) : FRes :=
  let x := decFP32 a
  let r := roundTo f32 rm (Val.one.div (sqrtVal x))
  let inv := b2n (x.sign && !x.isZero && !x.isNaN) * 8
  if rm = 0 then (⟨encFP32 (vRsqrt ⟨x, false⟩).v, r.flags⟩ : FRes).or (Nat.lor (sInv [a]) inv)
  else r.or (Nat.lor (sInv [a]) inv)

end Sys2Proof.Machine
end

