-- ==== Sys2Proof/Machine/Copy.lean ====
section
/-! DEFINITION. The copy engine (R98-R101). -/

namespace Sys2Proof.Machine

/-- The body of a COPY command (R98). -/
structure CopyBody where
  src : Nat
  dst : Nat
  srcOff : Nat
  dstOff : Nat
  rowB : Nat
  rows : Nat
  planes : Nat
  srp : Int
  drp : Int
  spp : Int
  dpp : Int
  op : Nat
  elem : Nat
  red : Nat
  idxH : Nat
  bagH : Nat
deriving DecidableEq, Repr

def copyBody (d : List Byte) : CopyBody :=
  { src := d32 d 0x10, dst := d32 d 0x14, srcOff := d48 d 0x18, dstOff := d48 d 0x1E, rowB := d32 d 0x24
    rows := d16 d 0x28, planes := d16 d 0x2A, srp := i32 (d32 d 0x2C), drp := i32 (d32 d 0x30)
    spp := i32 (d32 d 0x34) * 16, dpp := i32 (d32 d 0x38) * 16, op := d8 d 0x3C, elem := d8 d 0x3D
    red := d8 d 0x3E, idxH := d32 d 0x34, bagH := d32 d 0x38 }

/-- Bytes of an element of the copy operations. -/
def CopyBody.elemB (b : CopyBody) : Nat := 2 ^ b.elem

/-- Bytes of a gather element: INT8, FP16, BF16, FP32. -/
def CopyBody.elemBytesG (b : CopyBody) : Nat := if b.elem = 0 then 1 else if b.elem = 3 then 4 else 2

/-- Destination bytes of one row. -/
def CopyBody.dstRow (b : CopyBody) : Nat :=
  if b.op = 2 then b.rowB * b.planes else if b.op = 4 then b.rowB / b.elemBytesG * 4 else b.rowB

/-- Source bytes of one row. -/
def CopyBody.srcRow (b : CopyBody) : Nat := if b.op = 3 then b.rowB * b.planes else b.rowB

/-- Byte offsets of the rows of one side: one interleaved plane, or the plane and row pitches. -/
def rowOffs (off : Nat) (rp pp : Int) (rows planes : Nat) : List Int :=
  (List.range planes).flatMap fun (p : Nat) => (List.range rows).map fun (r : Nat) => (off : Int) + (p : Int) * pp + (r : Int) * rp

/-- Offsets of the source rows, plane by plane. -/
def CopyBody.srcOffs (b : CopyBody) : List Int :=
  if b.op = 1 ∨ b.op = 4 then [] else rowOffs b.srcOff b.srp b.spp b.rows (if b.op = 3 then 1 else b.planes)

/-- Offsets of the destination rows. -/
def CopyBody.dstOffs (b : CopyBody) : List Int :=
  rowOffs b.dstOff b.drp b.dpp b.rows (if b.op = 2 ∨ b.op = 4 then 1 else b.planes)

/-- Rows of `n` bytes at these offsets lie inside a tensor. -/
def rowsInside (offs : List Int) (n size : Nat) : Bool :=
  offs.all fun o => decide (0 ≤ o) && decide (o + n ≤ size)

/-- The destination's planes overlap: the rows of two planes share a byte. -/
def planesOverlap (b : CopyBody) : Bool :=
  (List.range b.planes).any fun p => (List.range b.planes).any fun q => decide (p < q) &&
    (List.range b.rows).any fun r => (List.range b.rows).any fun t =>
      let x := (p : Int) * b.dpp + r * b.drp
      let y := (q : Int) * b.dpp + t * b.drp
      decide (x < y + b.dstRow) && decide (y < x + b.dstRow)

/-- The ELEM and REDUCE codes suit the OP. [DEDUCED: log 47] -/
def CopyBody.codesOk (b : CopyBody) : Bool :=
  match b.op with
  | 0 | 1 => decide (b.elem ≤ 2) && b.red == 0
  | 2 | 3 => decide (b.elem ≤ 2) && b.red == 0 && decide (2 ≤ b.planes) && decide (b.planes ≤ 16) &&
      b.rowB % b.elemB == 0
  | 4 => decide (b.elem ≤ 3) && decide (b.red ≤ 2) && b.rowB % b.elemBytesG == 0
  | _ => false

/-- The byte range of rows of `n` bytes: its lowest byte and its end. [DEDUCED: log 44] -/
def rowSpan (offs : List Int) (n : Nat) : Int × Int :=
  (offs.foldl min (offs.headD 0), offs.foldl max (offs.headD 0) + n)

/-- Source and destination overlap (R99): one handle, in place, and byte ranges that intersect. -/
def copyOverlaps (b : CopyBody) (ip : Bool) : Bool :=
  let x := rowSpan b.srcOffs b.srcRow
  let y := rowSpan b.dstOffs b.dstRow
  ip && b.src == b.dst && b.op != 1 && b.op != 4 && decide (x.1 < y.2) && decide (y.1 < x.2)

/-- R98, R99, R101: validation of a COPY. [DEDUCED: log 45] [DEDUCED: log 46] -/
def copyCheck (gq : Nat) (s : State) (d : List Byte) : Except (Nat × Nat) Plan :=
  let b := copyBody d
  let ctx := gqCtx gq
  let size := fun h => (s.tensor ctx h).bytes
  let hs := if b.op = 1 then [b.dst] else if b.op = 4 then [b.src, b.dst, b.idxH, b.bagH] else [b.src, b.dst]
  if d8 d 0x3F != 0 || !b.codesOk || !(hs.all handleOk) || b.rowB == 0 || b.rows == 0 || b.planes == 0 ||
      (decide (1 < b.rows) && decide (b.drp.natAbs < b.rowB)) ||
      (b.op != 4 && decide (1 < b.planes) && b.op != 2 && planesOverlap b) then .error (6, 0)
  else
    let p : Plan :=
      { ins := if b.op = 1 then [] else if b.op = 4 then [b.src, b.idxH, b.bagH].eraseDups else [b.src]
        outs := [b.dst], part := [b.dst] }
    match s.conflict gq (dInPlace d) p with
    | some h => .error (5, h)
    | none =>
      if !(rowsInside b.dstOffs b.dstRow (size b.dst)) || !(rowsInside b.srcOffs b.srcRow (size b.src)) ||
          (b.op == 4 && decide (size b.bagH < 4 * (b.rows + 1))) then .error (6, 0)
      else if (b.op = 4 ∧ 65536 < b.rowB) ∨
          (copyOverlaps b (dInPlace d) ∧ (b.srp ≠ b.drp ∨ b.spp ≠ b.dpp ∨ 65536 < b.rowB)) then .error (7, 0)
      else .ok p

/-- Read rows of bytes at offsets in a buffer. -/
def State.readAt (s : State) (ctx base n : Nat) : List Int → Except (Nat × Nat) (List (List Byte))
  | [] => .ok []
  | o :: os => match s.ldBytes ctx ((base : Int) + o).toNat n with
    | .error e => .error e
    | .ok bs => match s.readAt ctx base n os with
      | .error e => .error e
      | .ok r => .ok (bs :: r)

/-- Bytes `i * w .. i * w + w - 1` of a row. -/
def sliceEl (w i : Nat) (row : List Byte) : List Byte := (row.drop (i * w)).take w

/-- The value of a gather table element (R98's ELEM code). -/
def gatherVal (elem : Nat) (bs : List Byte) : Val :=
  decElem (match elem with | 0 => 1 | 1 => 8 | 2 => 9 | _ => 10) (leNat bs)

/-- One pooled output element (R101). [DEDUCED: log 112] -/
def gatherPool (red : Nat) (vs : List Val) : Val :=
  match vs with
  | [] => .zero
  | v :: rest =>
    if red = 2 then rest.foldl Val.max v
    else
      let sum := vs.foldl (fun (a : SVal) x => a.add (.of x)) (.of .zero)
      if red = 0 then sum.v
      else (sum.mul (.fp (Val.one.div (.ofNat vs.length)) false)).v

/-- R101: the rows of a gather, or its failing status. [DEDUCED: log 48] -/
def State.gather (s : State) (ctx : Nat) (b : CopyBody) : Except (Nat × Nat) (List (List Byte)) :=
  let tb := s.tensor ctx b.src
  let ix := s.tensor ctx b.idxH
  let eb := b.elemBytesG
  let n := b.rowB / eb
  match s.ldBytes ctx (s.tensor ctx b.bagH).curBuf (4 * (b.rows + 1)) with
  | .error e => .error e
  | .ok obs =>
    let off := fun i => leNat ((obs.drop (4 * i)).take 4)
    let total := ix.bytes / 4
    if !((List.range b.rows).all fun i => decide (off i ≤ off (i + 1))) ∨ total < off b.rows ∨ 16777216 < off b.rows then
      .error (7, 0)
    else
      (List.range b.rows).foldl (fun (acc : Except (Nat × Nat) (List (List Byte))) r =>
        match acc with
        | .error e => .error e
        | .ok done =>
          match s.ldBytes ctx (ix.curBuf + 4 * off r) (4 * (off (r + 1) - off r)) with
          | .error e => .error e
          | .ok ibs =>
            let idx := (List.range (off (r + 1) - off r)).map fun i => leNat ((ibs.drop (4 * i)).take 4)
            let at_ := fun (i : Nat) => (b.srcOff : Int) + i * b.srp
            if !(idx.all fun i => decide (0 ≤ at_ i) && decide (at_ i + b.rowB ≤ tb.bytes)) then .error (7, 0)
            else match s.readAt ctx tb.curBuf b.rowB (idx.map at_) with
            | .error e => .error e
            | .ok rows =>
              .ok (done ++ [(List.range n).flatMap fun j =>
                natLe 4 (encFP32 (gatherPool b.red (rows.map fun row => gatherVal b.elem (sliceEl eb j row))))]))
        (.ok [])

/-- The destination rows of a COPY, in the order of their offsets. -/
def State.copyRows (s : State) (ctx : Nat) (b : CopyBody) : Except (Nat × Nat) (List (List Byte)) :=
  let w := b.elemB
  match b.op with
  | 1 =>
    let pat := natLe w b.srcOff
    .ok (b.dstOffs.map fun _ => (List.range b.rowB).map fun i => pat.getD (i % w) 0)
  | 4 => s.gather ctx b
  | _ => match s.readAt ctx (s.tensor ctx b.src).curBuf b.srcRow b.srcOffs with
    | .error e => .error e
    | .ok rows =>
      let n := b.rowB / w
      if b.op = 2 then
        .ok ((List.range b.rows).map fun r => (List.range n).flatMap fun e =>
          (List.range b.planes).flatMap fun c => sliceEl w e (rows.getD (c * b.rows + r) []))
      else if b.op = 3 then
        .ok ((List.range b.planes).flatMap fun c => (List.range b.rows).map fun r =>
          (List.range n).flatMap fun e => sliceEl w (e * b.planes + c) (rows.getD r []))
      else .ok rows

/-- The computation of a COPY from the state in which it starts (R98-R101, R149). Every source byte is
read before any is written, which is the result R100 fixes for an overlapping copy. [DEDUCED: log 43] [DEDUCED: log 111] -/
def copyGo (s : State) (f : Flight) (p : Plan) : State × Flight :=
  let ctx := gqCtx f.gq
  let ip := dInPlace f.desc
  let b := copyBody f.desc
  match s.copyRows ctx b with
  | .error e => (s.detect ctx e.2, { f with res := { status := e.1, addr := e.2 } })
  | .ok rows =>
    let base := s.outVA ctx b.dst ip
    let s' := if b.op = 1 ∨ b.op = 4 then s
      else s.touchRows ctx b.srcRow (b.srcOffs.map fun o => (((s.tensor ctx b.src).curBuf : Int) + o).toNat)
    (s', { f with res :=
      { writes := (if ip then [] else s.carryOver ctx p.part) ++
          (b.dstOffs.zip rows).map fun or_ => ⟨((base : Int) + or_.1).toNat, or_.2⟩ } })

/-- R172: kill the running command that a class-0 or class-1 command may displace on an opcode's units. -/
def State.clearUnit (s : State) (op n cls : Nat) : State :=
  match s.freeUnit op n with
  | some _ => s
  | none => match s.unitVictim op cls with
    | some v => s.kill v
    | none => s

/-- The command must wait: every unit is taken and it may displace none (R172). -/
def State.unitWait (s : State) (op n cls : Nat) : Bool :=
  (s.freeUnit op n).isNone && (s.unitVictim op cls).isNone

/-- R98: COPY starts on a copy channel. -/
def execCopyCmd (ctx q : Nat) (s : State) : Host.Outcome State Fault Refusal :=
  let gq := qKey ctx q
  let cls := (s.queue gq).cls
  .next (s.startCmd gq 0x01 noAct (copyCheck gq) (fun s _ => s.unitWait 0x01 4 cls) (fun s f p =>
    let s := s.clearUnit 0x01 4 cls
    let u := (s.freeUnit 0x01 4).getD 0
    copyGo s { f with unit := u + 1 } p) fun s => s.tryCommit gq 0x01 noAct)

end Sys2Proof.Machine
end

