-- ==== Sys2Proof/Machine/Motion.lean ====
section
/-! DEFINITION. What the three units of a vision lane compute: level 0, the pyramid, the motion search
and its refinement, and the output maps (R337-R348). -/

namespace Sys2Proof.Machine

/-- A plane of samples, row by row. -/
structure Plane where
  w : Nat
  h : Nat
  px : Array Nat
deriving DecidableEq, Repr

/-- Sample (x, y), for positions inside the plane. -/
def Plane.px_ (p : Plane) (x y : Nat) : Nat := p.px.getD (y * p.w + x) 0

/-- `ref()` of R339. -/
def reflect (n : Int) (N : Nat) : Nat :=
  if n < 0 then (-n).toNat else if (N : Int) ≤ n then (2 * ((N : Int) - 1) - n).toNat else n.toNat

/-- A reflected position. -/
def Plane.at_ (p : Plane) (x y : Int) : Nat := p.px_ (reflect x p.w) (reflect y p.h)

/-- A position clamped into the plane. -/
def clampTo (n : Int) (N : Nat) : Nat := min n.toNat (N - 1)

def Plane.clamped (p : Plane) (x y : Int) : Nat := p.px_ (clampTo x p.w) (clampTo y p.h)

/-- A plane from a function of its positions. -/
def Plane.mk' (w h : Nat) (g : Nat → Nat → Nat) : Plane :=
  ⟨w, h, ((List.range (w * h)).map fun i => g (i % w) (i / w)).toArray⟩

/-! ## Level 0 and the pyramid (R337-R340) -/

/-- W0 × H0 of an input format; none for the reserved code and for odd RAW sizes. -/
def level0Size (fmt w h : Nat) : Option (Nat × Nat) :=
  if fmt = 0 then some (w, h)
  else if fmt = 3 ∨ w % 2 = 1 ∨ h % 2 = 1 then none
  else some (w / 2, h / 2)

/-- Bytes of an input row. -/
def visRow (fmt w : Nat) : Nat := if fmt = 0 then w else 2 * w

/-- Level 0 from the input rows, each a little-endian number (R337). -/
def level0 (fmt w h : Nat) (rows : Array Nat) : Plane :=
  let raw := fun (x y : Nat) => rows.getD y 0 / 2 ^ (16 * x) % 2 ^ (if fmt = 1 then 10 else 12)
  match level0Size fmt w h with
  | none => ⟨0, 0, #[]⟩
  | some (w0, h0) =>
    .mk' w0 h0 fun x y =>
      if fmt = 0 then rows.getD y 0 / 256 ^ x % 256
      else (raw (2 * x) (2 * y) + raw (2 * x + 1) (2 * y) + raw (2 * x) (2 * y + 1) + raw (2 * x + 1) (2 * y + 1)) /
        (if fmt = 1 then 16 else 64)

/-- The sizes of the levels (R338). -/
def pyrSizes : Nat → Nat → Nat → List (Nat × Nat)
  | 0, _, _ => []
  | n + 1, w, h => (w, h) :: pyrSizes n ((w + 1) / 2) ((h + 1) / 2)

/-- R338. -/
def pyrOk (levels w h : Nat) : Bool :=
  decide (w ≤ 8192) && decide (h ≤ 8192) &&
    (match (pyrSizes levels w h).getLast? with
     | some wh => decide (32 ≤ wh.1) && decide (32 ≤ wh.2)
     | none => false)

/-- Offsets -2 to 2 with the filter's taps (R339). -/
def taps : List (Int × Nat) := [(-2, 1), (-1, 4), (0, 6), (1, 4), (2, 1)]

/-- R339. -/
def Plane.down (p : Plane) : Plane :=
  .mk' ((p.w + 1) / 2) ((p.h + 1) / 2) fun i j =>
    let v := (taps.map fun (b : Int × Nat) => b.2 *
      (taps.map fun (a : Int × Nat) => a.2 * p.at_ (2 * i + a.1) (2 * j + b.1)).foldl (· + ·) 0).foldl (· + ·) 0
    (v + 128) / 256

/-- The levels above a plane. -/
def Plane.pyramid (p : Plane) : Nat → List Plane
  | 0 => []
  | n + 1 => p :: p.down.pyramid n

def up64 (n : Nat) : Nat := (n + 63) / 64 * 64

/-- Bytes of a pyramid (R340). -/
def pyrBytes (sizes : List (Nat × Nat)) : Nat := (sizes.map fun wh => up64 wh.1 * wh.2).foldl (· + ·) 0

/-- Offset, width and length of each row of a pyramid, level by level. -/
def pyrRows : Nat → List (Nat × Nat) → List (Nat × Nat)
  | _, [] => []
  | off, (w, h) :: ls => ((List.range h).map fun y => (off + y * up64 w, w)) ++ pyrRows (off + up64 w * h) ls

/-- The planes of a stored pyramid from its rows. -/
def pyrPlanes : List (Nat × Nat) → List Nat → List Plane
  | [], _ => []
  | (w, h) :: ls, rows =>
    let mine := (rows.take h).toArray
    .mk' w h (fun x y => mine.getD y 0 / 256 ^ x % 256) :: pyrPlanes ls (rows.drop h)

/-- A row padded to its pitch. The padding's value is not given: free bytes. [DESIGN CHOICE: log 155] -/
def padRow (fresh at_ pitch : Nat) (row : List Byte) : List Byte :=
  row ++ (List.range (pitch - row.length)).map fun i => Config.freeByte fresh (at_ + row.length + i)

/-- Row y of a plane of 8-bit samples. -/
def Plane.rowBytes (p : Plane) (y : Nat) : List Byte := (List.range p.w).map fun x => BitVec.ofNat 8 (p.px_ x y)

/-- A pyramid as bytes at an address. -/
def pyrChunks (fresh base : Nat) (ps : List Plane) : List Chunk :=
  let rows := ps.flatMap fun p => (List.range p.h).map p.rowBytes
  ((pyrRows 0 (ps.map fun p => (p.w, p.h))).zip rows).map fun or_ =>
    ⟨base + or_.1.1, padRow fresh (base + or_.1.1) (up64 or_.1.2) or_.2⟩

/-! ## Cost (R341-R343) -/

/-- The neighbours of R341 in raster order. -/
def ring24 : List (Int × Int) :=
  (([-2, -1, 0, 1, 2] : List Int).flatMap fun dy => ([-2, -1, 0, 1, 2] : List Int).map fun dx => (dx, dy)).filter
    fun d => !(d == ((0, 0) : Int × Int))

/-- R341. -/
def Plane.census (p : Plane) (x y : Nat) : Nat :=
  let c := p.px_ x y
  (ring24.zipIdx.map fun (db : (Int × Int) × Nat) =>
    b2n (decide (p.at_ (x + db.1.1) (y + db.1.2) < c)) * 2 ^ db.2).foldl (· + ·) 0

/-- A plane with its census. -/
structure Level where
  p : Plane
  c : Plane
deriving DecidableEq, Repr

def Plane.level (p : Plane) : Level := ⟨p, .mk' p.w p.h p.census⟩

/-- The positions of a block inside the plane. -/
def blockPos (p : Plane) (B X Y : Nat) : List (Nat × Nat) :=
  ((List.range B).flatMap fun j => (List.range B).map fun i => (X + i, Y + j)).filter
    fun xy => decide (xy.1 < p.w) && decide (xy.2 < p.h)

def popcount (x n : Nat) : Nat := (bitsOf x n).length

def absDiff (a b : Nat) : Nat := (a - b) + (b - a)

/-- The cost of R342, given the reference sample and census of each position. -/
def costBy (cur : Level) (lambda B X Y : Nat) (ref : Nat → Nat → Nat) (cen : Nat → Nat → Nat) : Nat :=
  let ps := blockPos cur.p B X Y
  let sad := (ps.map fun xy => absDiff (cur.p.px_ xy.1 xy.2) (ref xy.1 xy.2)).foldl (· + ·) 0
  let ham := (ps.map fun xy => popcount (Nat.xor (cur.c.px_ xy.1 xy.2) (cen xy.1 xy.2)) 24).foldl (· + ·) 0
  sad + lambda * ham / 16

/-- R342: an integer displacement. -/
def costInt (cur ref : Level) (lambda B X Y : Nat) (dx dy : Int) : Nat :=
  costBy cur lambda B X Y (fun x y => ref.p.clamped (x + dx) (y + dy)) (fun x y => ref.c.clamped (x + dx) (y + dy))

/-- R343: a displacement in quarter pixels. -/
def costQuarter (cur ref : Level) (lambda B X Y : Nat) (qx qy : Int) : Nat :=
  let ix := qx / 4
  let iy := qy / 4
  let fx := (qx % 4).toNat
  let fy := (qy % 4).toNat
  let r := fun (x y : Nat) =>
    let u := (x : Int) + ix
    let w := (y : Int) + iy
    let g := ref.p.clamped
    ((4 - fx) * (4 - fy) * g u w + fx * (4 - fy) * g (u + 1) w + (4 - fx) * fy * g u (w + 1) +
      fx * fy * g (u + 1) (w + 1) + 8) / 16
  costBy cur lambda B X Y r fun x y => ref.c.clamped (x + (qx + 2) / 4) (y + (qy + 2) / 4)

/-! ## Search (R344-R347) -/

/-- Displacements of -n to n in both directions. -/
def square (n : Nat) : List (Int × Int) :=
  let r := (List.range (2 * n + 1)).map fun (i : Nat) => (i : Int) - (n : Int)
  r.flatMap fun dy => r.map fun dx => (dx, dy)

/-- A candidate: its cost and its displacement from the centre. -/
abbrev SearchHit := Nat × Int × Int

/-- The key order of R344: cost, then |dx| + |dy|, then dy, then dx. -/
def hitLt (a b : SearchHit) : Bool :=
  let m := fun (c : SearchHit) => c.2.1.natAbs + c.2.2.natAbs
  decide (a.1 < b.1) || (a.1 == b.1 && (decide (m a < m b) || (m a == m b &&
    (decide (a.2.2 < b.2.2) || (a.2.2 == b.2.2 && decide (a.2.1 < b.2.1))))))

/-- The candidate with the smallest key. -/
def bestHit (l : List SearchHit) : SearchHit := l.foldl (fun b c => if hitLt c b then c else b) (l.headD (0, 0, 0))

/-- R346: the confidence from the chosen cost and the least cost at a distance from it. -/
def confidence (bias c1 : Nat) (others : List Nat) : Nat :=
  match others with
  | [] => 255
  | o :: os =>
    let c2 := os.foldl min o
    if c1 + bias = 0 then 255 else min 255 (256 * (c2 - c1) / (c1 + bias))

/-- The Chebyshev distance of two displacements is at least n. -/
def cheb (n : Nat) (a b : Int × Int) : Bool := decide (n ≤ max (a.1 - b.1).natAbs (a.2 - b.2).natAbs)

/-- The result of a block: its vector in quarter pixels, its cost and its confidence. -/
structure BlockVec where
  dx : Int := 0
  dy : Int := 0
  cost : Nat := 65535
  conf : Nat := 0
deriving DecidableEq, Repr

def gridW (B : Nat) (p : Plane) : Nat := (p.w + B - 1) / B
def gridH (B : Nat) (p : Plane) : Nat := (p.h + B - 1) / B

/-- The integer vectors of one level, block by block, from the centres its parent level gives (R344). -/
def intLevel (cur ref : Level) (lambda B : Nat) (centre : Nat → Nat → Int × Int) : Array (Int × Int) :=
  let gw := gridW B cur.p
  ((List.range (gw * gridH B cur.p)).map fun i =>
    let bx := i % gw
    let by_ := i / gw
    let c := centre bx by_
    let b := bestHit ((square 8).map fun d => (costInt cur ref lambda B (B * bx) (B * by_) (c.1 + d.1) (c.2 + d.2), d.1, d.2))
    (c.1 + b.2.1, c.2 + b.2.2)).toArray

/-- The centre a parent grid gives a block: twice the vector of its parent (R344). -/
def parentCentre (gw gh sh : Nat) (vs : Array (Int × Int)) (bx by_ : Nat) : Int × Int :=
  let v := vs.getD (min (by_ / 2 ^ sh) (gh - 1) * gw + min (bx / 2 ^ sh) (gw - 1)) (0, 0)
  (2 * v.1, 2 * v.2)

/-- The search from the coarsest level down to level 1: the centres it leaves for level 0. The lists
run from the coarsest level. -/
def coarse (lambda : Nat) : List (Level × Level) → (Nat → Nat → Int × Int) → (Nat → Nat → Int × Int)
  | [], centre => centre
  | (cur, ref) :: rest, centre =>
    let vs := intLevel cur ref lambda 16 centre
    coarse lambda rest (parentCentre (gridW 16 cur.p) (gridH 16 cur.p) (if rest.isEmpty then 2 else 1) vs)

/-- R345, R346: a level-0 block. -/
def block0 (cur ref : Level) (lambda bias : Nat) (centre : Int × Int) (bx by_ : Nat) : BlockVec :=
  let X := 8 * bx
  let Y := 8 * by_
  let ints := (square 8).map fun d => (costInt cur ref lambda 8 X Y (centre.1 + d.1) (centre.2 + d.2), d.1, d.2)
  let b := bestHit ints
  let v := (centre.1 + b.2.1, centre.2 + b.2.2)
  let q := bestHit ((square 3).map fun d => (costQuarter cur ref lambda 8 X Y (4 * v.1 + d.1) (4 * v.2 + d.2), d.1, d.2))
  let far := (ints.filter fun c => cheb 2 (c.2.1, c.2.2) (b.2.1, b.2.2)).map (·.1)
  ⟨4 * v.1 + q.2.1, 4 * v.2 + q.2.2, q.1, confidence bias q.1 far⟩

/-- The motion unit's result for every level-0 block, in raster order (R344-R346). -/
def motionBlocks (cur ref : List Plane) (lambda bias : Nat) : Array BlockVec :=
  let ls := (cur.map Plane.level).zip (ref.map Plane.level)
  match ls with
  | [] => #[]
  | (c0, r0) :: rest =>
    let centre := coarse lambda rest.reverse fun _ _ => (0, 0)
    let gw := gridW 8 c0.p
    ((List.range (gw * gridH 8 c0.p)).map fun i => block0 c0 r0 lambda bias (centre (i % gw) (i / gw)) (i % gw) (i / gw)).toArray

/-- R347: one 4 × 4 sub-block of a refined block, or its block's values when it lies outside. -/
def subBlock (cur ref : Level) (lambda bias : Nat) (v : BlockVec) (X Y : Nat) : BlockVec :=
  if cur.p.w ≤ X ∨ cur.p.h ≤ Y then v
  else
    let cs := (square 8).map fun d => (costQuarter cur ref lambda 4 X Y (v.dx + d.1) (v.dy + d.2), d.1, d.2)
    let b := bestHit cs
    let far := (cs.filter fun c => cheb 4 (c.2.1, c.2.2) (b.2.1, b.2.2)).map (·.1)
    ⟨v.dx + b.2.1, v.dy + b.2.2, b.1, confidence bias b.1 far⟩

/-- The refined sub-blocks: entry position and value, and how many blocks were refined (R347). -/
def refineBlocks (cur ref : Plane) (lambda bias thresh : Nat) (bs : Array BlockVec) :
    Nat × List ((Nat × Nat) × BlockVec) :=
  let c := cur.level
  let r := ref.level
  let gw := gridW 8 cur
  let low := (List.range bs.size).filter fun i => decide ((bs.getD i {}).conf < thresh)
  (low.length, low.flatMap fun i =>
    ([(0, 0), (1, 0), (0, 1), (1, 1)] : List (Nat × Nat)).map fun o =>
      let x := 2 * (i % gw) + o.1
      let y := 2 * (i / gw) + o.2
      ((x, y), subBlock c r lambda bias (bs.getD i {}) (4 * x) (4 * y)))

/-! ## The maps (R348) -/

/-- MW and MH. -/
def mapW (w0 : Nat) : Nat := 2 * ((w0 + 7) / 8)
def mapH (h0 : Nat) : Nat := 2 * ((h0 + 7) / 8)

/-- Entry bytes and row pitch of map m: 0 motion, 1 cost, 2 confidence. -/
def mapEntry (m : Nat) : Nat := if m = 0 then 4 else if m = 1 then 2 else 1
def mapPitch (m w0 : Nat) : Nat := up64 (mapW w0 * mapEntry m)
def mapBytes (m w0 h0 : Nat) : Nat := mapPitch m w0 * mapH h0

/-- A signed value in 16 bits. -/
def enc16 (z : Int) : Nat := (z % 65536).toNat

/-- The bytes of an entry. -/
def BlockVec.entry (v : BlockVec) (m : Nat) : List Byte :=
  if m = 0 then natLe 2 (enc16 v.dx) ++ natLe 2 (enc16 v.dy)
  else if m = 1 then natLe 2 (min 65535 v.cost) else natLe 1 v.conf

/-- A whole map at an address, each block's values in its four entries. -/
def mapChunks (fresh base m w0 h0 : Nat) (bs : Array BlockVec) : List Chunk :=
  (List.range (mapH h0)).map fun y =>
    let at_ := base + y * mapPitch m w0
    ⟨at_, padRow fresh at_ (mapPitch m w0)
      ((List.range (mapW w0)).flatMap fun x => (bs.getD (y / 2 * (mapW w0 / 2) + x / 2) {}).entry m)⟩

/-- The refined entries of a map at an address. -/
def fineChunks (base m w0 : Nat) (l : List ((Nat × Nat) × BlockVec)) : List Chunk :=
  l.map fun e => ⟨base + e.1.2 * mapPitch m w0 + e.1.1 * mapEntry m, e.2.entry m⟩

/-- The blocks of a frame with no previous one (R350). -/
def noBlocks (w0 h0 : Nat) : Array BlockVec := ((List.range ((w0 + 7) / 8 * ((h0 + 7) / 8))).map fun _ => {}).toArray

end Sys2Proof.Machine
end

