-- ==== Sys2Proof/Machine/Vision.lean ====
section
/-! DEFINITION. The vision lanes: route mode, command mode and their registers (R335, R336, R349-R359). -/

namespace Sys2Proof.Machine

/-! ## Accesses by physical address (R353, R455) -/

/-- The first address of a range that lies outside the interleave sets of a partition. -/
def State.strayPa (s : State) (part pa n : Nat) : Option Nat :=
  if n = 0 then none
  else ((List.range ((pa + n - 1) / 65536 - pa / 65536 + 1)).map fun i => max pa ((pa / 65536 + i) * 65536)).find?
    fun a => !(decide (a < 2 ^ 45) && s.hbmOk a && s.setPart (a / 2 ^ 38 % 128) == some part)

def State.paBytes (s : State) (pa n : Nat) : List Byte := (List.range n).map fun i => s.getByte (pa + i)

/-- A line of a range is poisoned or holds an uncorrectable error (R73). [DEDUCED: log 159] -/
def State.paBad (s : State) (pa n : Nat) : Bool :=
  !(s.m.poison.keysIn (pa / 64) ((pa + n + 63) / 64)).isEmpty || !(s.m.latent.keysIn (pa / 64) ((pa + n + 63) / 64)).isEmpty

/-- First detections on a range read by physical address. -/
def State.paDetect (s : State) (pa n : Nat) : State := s.each (s.m.latent.keysIn (pa / 64) ((pa + n + 63) / 64)) State.firstUE

/-- Write bytes at a physical address, line by line: a full line replaces a poisoned one, a part of one
is discarded (R73). -/
def State.paWrite (s : State) (pa : Nat) (bs : List Byte) : Nat → State
  | 0 => s
  | fuel + 1 =>
    if bs.isEmpty then s
    else
      let n := min bs.length (64 - pa % 64)
      let line := pa / 64
      let s :=
        if n = 64 then
          ({ s with m := { s.m with poison := s.m.poison.set 0 line 0, latent := s.m.latent.set 0 line 0 } } : State).putBytes
            pa (bs.take n)
        else if s.lineBad pa then (if s.m.latent.get 0 line = 1 then s.firstUE line else s)
        else s.putBytes pa (bs.take n)
      (s.dropTiles (pa / 65536)).paWrite (pa + n) (bs.drop n) fuel

def State.paChunks (s : State) (cs : List Chunk) : State := s.each cs fun s c => s.paWrite c.va c.data (c.data.length + 1)

/-! ## Route-mode geometry (R337, R338, R352, R353) -/

structure VisGeom where
  fmt : Nat
  w : Nat
  h : Nat
  pitch : Nat
  w0 : Nat
  h0 : Nat
  sizes : List (Nat × Nat)
deriving DecidableEq, Repr

/-- LEVELS; values other than 1-8 act as 8. -/
def State.visLevels (s : State) (l : Nat) : Nat :=
  let n := s.rd .VIS_PARAM_LEVELS l
  if 1 ≤ n ∧ n ≤ 8 then n else 8

/-- The geometry of a lane's input registers; none when it breaks R337 or R338. -/
def State.visGeom (s : State) (l : Nat) : Option VisGeom :=
  let fmt := s.rd .VIS_IN_GEOM_FORMAT l
  let w := s.rd .VIS_IN_GEOM_W l
  let h := s.rd .VIS_IN_GEOM_H l
  match level0Size fmt w h with
  | none => none
  | some (w0, h0) =>
    if pyrOk (s.visLevels l) w0 h0 then
      some ⟨fmt, w, h, s.rd .VIS_IN_GEOM_PITCH l * 64, w0, h0, pyrSizes (s.visLevels l) w0 h0⟩
    else none

/-- A depth field: what a value outside its range does is not given, and is free. [DESIGN CHOICE: log 156] -/
def depthIn (lo hi d : Nat) : Nat := if lo ≤ d ∧ d ≤ hi then d else lo + Config.freeNat d 353 % (hi - lo + 1)

def up64k (n : Nat) : Nat := (n + 65535) / 65536 * 65536

/-- The address of input entry k mod IN_DEPTH (R350, R351). -/
def State.visIn (s : State) (l k : Nat) : Nat :=
  s.rd .VIS_IN_BASE_ADDR l * 65536 + k % depthIn 2 16 (s.rd .VIS_IN_BASE_IN_DEPTH l) * (s.rd .VIS_IN_GEOM_ENTRY l * 65536)

/-- The address of pyramid entry k mod 3 (R353). -/
def State.visPyr (s : State) (l k : Nat) (g : VisGeom) : Nat :=
  s.rd .VIS_RING_BASE_ADDR l * 65536 + k % 3 * up64k (pyrBytes g.sizes)

/-- The offset of map m in an output entry (R352). -/
def VisGeom.mapOff (g : VisGeom) (m : Nat) : Nat := 64 + ((List.range m).map fun i => mapBytes i g.w0 g.h0).foldl (· + ·) 0

/-- Bytes of an output entry. -/
def VisGeom.outBytes (g : VisGeom) : Nat := g.mapOff 3

/-- The address of output entry k mod OUT_DEPTH. -/
def State.visOut (s : State) (l k : Nat) (g : VisGeom) : Nat :=
  s.rd .VIS_RING_BASE_ADDR l * 65536 + 3 * up64k (pyrBytes g.sizes) +
    k % depthIn 2 8 (s.rd .VIS_RING_BASE_OUT_DEPTH l) * up64k g.outBytes

/-- Bytes of the input plane from its first row. -/
def VisGeom.planeBytes (g : VisGeom) : Nat := (g.h - 1) * g.pitch + visRow g.fmt g.w

/-! ## Counters, runs and faults (R349, R353, R358) -/

def State.visFire (s : State) (l k : Nat) : State := s.fire (288 + 16 * l + k)

/-- R349 steps 2 and 3: events added to a counter. -/
def State.visAdd (s : State) (l : Nat) (trg ovf : Fld) (n : Nat) : State :=
  let v := s.rd trg l + n
  if 255 < v then ((s.wr trg l 255).wr ovf l 1).visFire l 3 else s.wr trg l v

/-- A unit takes a count and is busy: bit 0 pyramid, 1 motion, 2 refine. -/
def State.visTake (s : State) (l : Nat) (trg : Fld) : State := s.wr trg l (s.rd trg l - 1)

/-- The lane's counters count: it is in route mode, or a route fault holds it (R353). [DEDUCED: log 158] -/
def State.visCounts (s : State) (l : Nat) : Bool :=
  s.rd .VIS_STATUS_STATE l == 2 || (s.rd .VIS_STATUS_STATE l == 4 && s.rd .VIS_CTRL_ENABLE l == 1)

def State.visBusy (s : State) (l b : Nat) : Bool := (s.rd .VIS_STATUS_BUSY l).testBit b

def State.visSetBusy (s : State) (l b : Nat) (on : Bool) : State :=
  let w := s.rd .VIS_STATUS_BUSY l
  s.wr .VIS_STATUS_BUSY l (if on then setBit w b else clrBit w b)

/-- R359: a partition reset stops a lane at once. -/
def State.visStop (s : State) (l : Nat) : State :=
  let s := s.each [Fld.VIS_STATUS_BUSY, .VIS_TRIG_PYR, .VIS_TRIG_MOT, .VIS_TRIG_REF, .VIS_CTRL_ENABLE] fun s f => s.wr f l 0
  let s := s.setLane l { s.lane l with frames := [], unbind := false }
  if s.rd .VIS_STATUS_STATE l = 2 ∨ (s.rd .VIS_STATUS_STATE l = 4 ∧ ¬ s.testFailed 3 l) then (s.visState l 1).laneSettle l else s.laneSettle l

/-- R353: an access outside the lane's partition. -/
def State.visFault (s : State) (l pa : Nat) : State :=
  let s := (((s.wr .VIS_ERR_VALID l 1).wr .VIS_ERR_PA l pa).visFire l 5).visState l 4
  if (s.lane l).unbind then s.visStop l else s

/-- The first stray address of a list of ranges. -/
def State.visStray (s : State) (l : Nat) (rs : List (Nat × Nat)) : Option Nat :=
  rs.findSome? fun r => s.strayPa (s.rd .VIS_STATUS_PARTITION l) r.1 r.2

/-- Units may start: the lane is enabled in route mode, or its command runs. -/
def State.visGoes (s : State) (l : Nat) : Bool :=
  (s.rd .VIS_STATUS_STATE l == 2 && s.rd .VIS_CTRL_ENABLE l == 1) || s.rd .VIS_STATUS_STATE l == 3

/-- The attempt a lane runs. -/
def State.laneFlight (s : State) (l : Nat) : Option Flight :=
  match (s.lane l).cmd with
  | some c => s.flights.find? fun f => f.gq == c.1 && f.slot == c.2
  | none => none

/-- R354, R356: a run of a command ends; an uncorrectable word kills the attempt. -/
def State.visCmdEnd (s : State) (l : Nat) (ecc : Bool) (next : State → State) : State :=
  match s.laneFlight l with
  | some f => if ecc then s.kill f else next s
  | none => s

/-- The command's last run has ended. -/
def State.visCmdDone (s : State) (l : Nat) : State := s.setLane l { s.lane l with done := true }

/-! ## Registers (R349, R350) -/

/-- R350, R351: VIS_CTRL.ENABLE is written 1. Runs of an earlier enable that are still going are dropped. [DEDUCED: log 157] -/
def execVisEnable (lane : Nat) (s : State) : Host.Outcome State Fault Refusal :=
  .next (s.accessed .late fun s =>
    let st := s.rd .VIS_STATUS_STATE lane
    if 4 ≤ lane ∨ s.rd .VIS_CTRL_ENABLE lane = 1 ∨ st = 0 ∨ st = 3 ∨ (s.visGeom lane).isNone ∨ s.testing 3 lane ∨ s.testFailed 3 lane then s
    else
      let s := s.each [Fld.VIS_STATUS_BUSY, .VIS_TRIG_PYR, .VIS_TRIG_MOT, .VIS_TRIG_REF, .VIS_TRIG_OVF_PYR, .VIS_TRIG_OVF_MOT,
        .VIS_TRIG_OVF_REF, .VIS_FRAME_NEXT, .VIS_FRAME_DONE] fun s f => s.resetUnit f lane
      let v := s.lane lane
      ((s.wr .VIS_CTRL_ENABLE lane 1).setLane lane { v with kP := 0, kM := 0, kR := 0, frames := [] }).visState lane 2)

/-- R350: VIS_CTRL.ENABLE is written 0; the units stop at their next run boundary. -/
def execVisDisable (lane : Nat) (s : State) : Host.Outcome State Fault Refusal :=
  .next (s.accessed .late fun s =>
    if 4 ≤ lane ∨ s.rd .VIS_STATUS_STATE lane = 3 then s
    else
      let s := s.wr .VIS_CTRL_ENABLE lane 0
      if s.rd .VIS_STATUS_STATE lane = 4 ∧ ¬ s.testFailed 3 lane then (s.wr .VIS_STATUS_BUSY lane 0).visState lane 1 else s.laneSettle lane)

/-- R349: a write of VIS_TRIG_ADD. -/
def execVisTrigAdd (lane val : Nat) (s : State) : Host.Outcome State Fault Refusal :=
  .next (s.accessed .late fun s =>
    if lane < 4 ∧ s.visCounts lane then s.visAdd lane .VIS_TRIG_PYR .VIS_TRIG_OVF_PYR (val % 256) else s)

/-! ## Runs in route mode (R350-R353) -/

/-- R351: a pyramid run takes its count and reads FRAME. [DESIGN CHOICE: log 154] -/
def State.pyrStart (s : State) (l : Nat) (g : VisGeom) : State :=
  let k := (s.lane l).kP
  let s := s.visTake l .VIS_TRIG_PYR
  let e := s.visIn l k
  match s.visStray l [(e, 64)] with
  | some pa => s.visFault l pa
  | none =>
    if s.paBad e 16 then ((s.paDetect e 16).visFire l 7).laneSettle l
    else if leNat (s.paBytes e 8) ≠ k then (s.visFire l 4).laneSettle l
    else match s.visStray l [(e + 64, g.planeBytes), (s.visPyr l k g, pyrBytes g.sizes)] with
    | some pa => s.visFault l pa
    | none => s.visSetBusy l 0 true

/-- R349-R351: an idle pyramid unit with a count. -/
def execPyramidRunStart (lane : Nat) (s : State) : Host.Outcome State Fault Refusal :=
  .next (
    let v := s.lane lane
    if 4 ≤ lane ∨ ¬ s.visGoes lane ∨ s.visBusy lane 0 ∨ s.rd .VIS_TRIG_PYR lane = 0 then s
    else if s.rd .VIS_STATUS_STATE lane = 3 then (s.visTake lane .VIS_TRIG_PYR).visSetBusy lane 0 true
    else if 2 ≤ v.kP ∧ v.kM < v.kP - 1 then s
    else match s.visGeom lane with
    | some g => s.pyrStart lane g
    | none => s)

/-- The rows of an input plane. -/
def State.visRows (s : State) (l k : Nat) (g : VisGeom) : Array Nat :=
  ((List.range g.h).map fun y => leNat (s.paBytes (s.visIn l k + 64 + y * g.pitch) (visRow g.fmt g.w))).toArray

/-- The end of pyramid run k: its pyramid is stored and its input entry released. -/
def State.pyrEnd (s : State) (l : Nat) (ecc : Bool) (g : VisGeom) : State :=
  let v := s.lane l
  let k := v.kP
  let bad := ecc || s.paBad (s.visIn l k) (64 + g.planeBytes)
  let gcnt := leNat (s.paBytes (s.visIn l k + 8) 8)
  let ps := (level0 g.fmt g.w g.h (s.visRows l k g)).pyramid g.sizes.length
  let s := if bad then s.paDetect (s.visIn l k) (64 + g.planeBytes)
    else ({ s with fresh := s.fresh + 1 } : State).paChunks (pyrChunks s.fresh (s.visPyr l k g) ps)
  let s := s.setLane l { v with kP := k + 1, frames := v.frames ++ [⟨k, bad, gcnt, 0, []⟩] }
  let s := ((s.wr .VIS_FRAME_NEXT l (k + 1)).visSetBusy l 0 false).visAdd l .VIS_TRIG_MOT .VIS_TRIG_OVF_MOT 1
  let s := if bad then s.visFire l 7 else s
  (s.visFire l 0).laneSettle l

/-- R350, R354, R356: a pyramid run ends; `ecc` says that an uncorrectable word ended it. -/
def execPyrDone (lane : Nat) (ecc : Bool) (s : State) : Host.Outcome State Fault Refusal :=
  .next (
    if 4 ≤ lane ∨ ¬ s.visBusy lane 0 then s
    else if s.rd .VIS_STATUS_STATE lane = 3 then
      s.visCmdEnd lane ecc fun s =>
        let s := s.visSetBusy lane 0 false
        if (s.laneFlight lane).elim false (fun f => bit (d8 f.desc 0x30) 2) then s.visCmdDone lane
        else s.wr .VIS_TRIG_MOT lane (s.rd .VIS_TRIG_MOT lane + 1)
    else match s.visGeom lane with
    | some g => s.pyrEnd lane ecc g
    | none => s)

/-- R349, R350: an idle motion unit with a count; it marks its output entry as unfinished (R352). -/
def execMotionRunStart (lane : Nat) (s : State) : Host.Outcome State Fault Refusal :=
  .next (
    if 4 ≤ lane ∨ ¬ s.visGoes lane ∨ s.visBusy lane 1 ∨ s.rd .VIS_TRIG_MOT lane = 0 then s
    else
      let s := s.visTake lane .VIS_TRIG_MOT
      if s.rd .VIS_STATUS_STATE lane = 3 then s.visSetBusy lane 1 true
      else match s.visGeom lane with
      | none => s
      | some g =>
        let k := (s.lane lane).kM
        match s.visStray lane [(s.visPyr lane k g, pyrBytes g.sizes), (s.visPyr lane (k + 2) g, pyrBytes g.sizes),
            (s.visOut lane k g, g.outBytes)] with
        | some pa => s.visFault lane pa
        | none => (s.paWrite (s.visOut lane k g) (natLe 8 (2 ^ 64 - 1)) 9).visSetBusy lane 1 true)

/-- The planes of a stored pyramid entry. -/
def State.visPlanes (s : State) (l k : Nat) (g : VisGeom) : List Plane :=
  pyrPlanes g.sizes ((pyrRows 0 g.sizes).map fun ow => leNat (s.paBytes (s.visPyr l k g + ow.1) ow.2))

/-- The maps of frame k, the entries its refine run will write, and how many blocks it refines. -/
def State.visSearch (s : State) (l k : Nat) (g : VisGeom) : Array BlockVec × Nat × List ((Nat × Nat) × BlockVec) :=
  if k = 0 then (noBlocks g.w0 g.h0, 0, [])
  else
    let cur := s.visPlanes l k g
    let ref := s.visPlanes l (k - 1) g
    let la := s.rd .VIS_PARAM_LAMBDA l
    let bi := s.rd .VIS_PARAM_CONF_BIAS l
    let bs := motionBlocks cur ref la bi
    let r := refineBlocks (cur.headD ⟨0, 0, #[]⟩) (ref.headD ⟨0, 0, #[]⟩) la bi (s.rd .VIS_PARAM_REFINE_THRESH l) bs
    (bs, r.1, r.2)

/-- The end of motion run k (R350, R352). -/
def State.motEnd (s : State) (l : Nat) (ecc : Bool) (g : VisGeom) : State :=
  let v := s.lane l
  let k := v.kM
  let fr := (v.frames.find? (·.k == k)).getD ⟨k, true, 0, 0, []⟩
  let n := pyrBytes g.sizes
  let bad := ecc || fr.bad || s.paBad (s.visPyr l k g) n || (k != 0 && s.paBad (s.visPyr l (k - 1) g) n)
  let e := s.visOut l k g
  let r := s.visSearch l k g
  let fine := (List.range 3).flatMap fun m => fineChunks (e + g.mapOff m) m g.w0 r.2.2
  let s := if bad then (s.paDetect (s.visPyr l k g) n).paDetect (s.visPyr l (k - 1) g) n
    else
      let fresh := s.fresh
      let s : State := { s with fresh := fresh + 1 }
      let s := s.paWrite (e + 8) (natLe 8 fr.gcnt ++ natLe 4 (b2n (k == 0)) ++ natLe 44 0) 57
      s.paChunks ((List.range 3).flatMap fun m => mapChunks fresh (e + g.mapOff m) m g.w0 g.h0 r.1)
  let fr := { fr with bad := bad, refined := r.2.1, fine := if bad then [] else fine }
  let s := s.setLane l { v with kM := k + 1, frames := (v.frames.filter (·.k ≠ k)) ++ [fr] }
  let s := (s.visSetBusy l 1 false).visAdd l .VIS_TRIG_REF .VIS_TRIG_OVF_REF 1
  let s := if bad then s.visFire l 7 else s
  (s.visFire l 1).laneSettle l

/-- R350, R354, R356: a motion run ends. -/
def execMotDone (lane : Nat) (ecc : Bool) (s : State) : Host.Outcome State Fault Refusal :=
  .next (
    if 4 ≤ lane ∨ ¬ s.visBusy lane 1 then s
    else if s.rd .VIS_STATUS_STATE lane = 3 then
      s.visCmdEnd lane ecc fun s => (s.visSetBusy lane 1 false).wr .VIS_TRIG_REF lane (s.rd .VIS_TRIG_REF lane + 1)
    else match s.visGeom lane with
    | some g => s.motEnd lane ecc g
    | none => s)

/-- R349: an idle refine unit with a count. -/
def execRefineRunStart (lane : Nat) (s : State) : Host.Outcome State Fault Refusal :=
  .next (
    if 4 ≤ lane ∨ ¬ s.visGoes lane ∨ s.visBusy lane 2 ∨ s.rd .VIS_TRIG_REF lane = 0 then s
    else (s.visTake lane .VIS_TRIG_REF).visSetBusy lane 2 true)

/-- The source a lane's frame gives a stream: for a host-fed lane the colour plane that follows the luma
plane in the input entry (R397). -/
def State.visSource (s : State) (l i : Nat) (fr : VisFrame) (g : VisGeom) : Source :=
  { id := fr.k, g := fr.gcnt
    plane := if (s.stream i).par.srcKind = 1 then
        some (513, s.visIn l fr.k + 64 + g.pitch * g.h, up64 (g.w * 4), 2, g.w, g.h)
      else none }

/-- The end of refine run k: its output entry is whole, and the routed streams count it (R350, R352). -/
def State.refEnd (s : State) (l : Nat) (ecc : Bool) (g : VisGeom) : State :=
  let v := s.lane l
  let k := v.kR
  let fr := (v.frames.find? (·.k == k)).getD ⟨k, true, 0, 0, []⟩
  let bad := ecc || fr.bad
  let e := s.visOut l k g
  let s := if bad then s
    else ((s.paChunks fr.fine).paWrite (e + 20) (natLe 4 fr.refined) 5).paWrite e (natLe 8 k) 9
  let s := s.setLane l { v with kR := k + 1, frames := v.frames.filter (·.k ≠ k) }
  let s := (s.wr .VIS_FRAME_DONE l k).visSetBusy l 2 false
  let s := s.each ((s.routedStreams 2 l).filter fun i => (s.stream i).par.srcKind != 0) fun s i =>
    s.eqxTrigger i (if bad then none else some (s.visSource l i fr g))
  let s := if ecc then s.visFire l 7 else s
  (s.visFire l 2).laneSettle l

/-- R350, R354, R356: a refine run ends. -/
def execFrameDone (lane : Nat) (ecc : Bool) (s : State) : Host.Outcome State Fault Refusal :=
  .next (
    if 4 ≤ lane ∨ ¬ s.visBusy lane 2 then s
    else if s.rd .VIS_STATUS_STATE lane = 3 then
      s.visCmdEnd lane ecc fun s => (s.visSetBusy lane 2 false).visCmdDone lane
    else match s.visGeom lane with
    | some g => s.refEnd lane ecc g
    | none => s)

/-! ## VISION_RUN (R355, R356) -/

structure VisBody where
  cur : Nat
  prev : Nat
  pyr : Nat
  maps : List Nat          -- MV, COST, CONF
  w : Nat
  h : Nat
  pitch : Nat
  fmt : Nat
  pyrOnly : Bool
  levels : Nat
  lambda : Nat
  thresh : Nat
  bias : Nat
deriving DecidableEq, Repr

def visBody (d : List Byte) : VisBody :=
  { cur := d32 d 0x10, prev := d32 d 0x14, pyr := d32 d 0x18, maps := [d32 d 0x1C, d32 d 0x20, d32 d 0x24]
    w := d16 d 0x28, h := d16 d 0x2A, pitch := d32 d 0x2C, fmt := bits (d8 d 0x30) 0 2, pyrOnly := bit (d8 d 0x30) 2
    levels := d8 d 0x31, lambda := d8 d 0x32, thresh := d8 d 0x33, bias := d16 d 0x34 }

/-- W0 × H0. -/
def VisBody.size0 (b : VisBody) : Nat × Nat := (level0Size b.fmt b.w b.h).getD (0, 0)

def VisBody.sizes (b : VisBody) : List (Nat × Nat) := pyrSizes b.levels b.size0.1 b.size0.2

/-- Bytes each output needs. -/
def VisBody.outNeeds (b : VisBody) : List (Nat × Nat) :=
  (b.pyr, pyrBytes b.sizes) ::
    (if b.pyrOnly then [] else b.maps.zipIdx.map fun (hm : Nat × Nat) => (hm.1, mapBytes hm.2 b.size0.1 b.size0.2))

/-- Every present lane is bound to a port. -/
def State.lanesBound (s : State) : Bool :=
  (List.range 4).all fun l => s.rd .VIS_STATUS_STATE l == 0 || s.rd .VIS_STATUS_PORT l != 0xFF

/-- R355, R356: validation. [DEDUCED: log 161] -/
def visCheck (gq : Nat) (s : State) (d : List Byte) : Except (Nat × Nat) Plan :=
  let b := visBody d
  let coarsest := b.sizes.getLast?.getD (0, 0)
  let others := b.prev :: b.maps
  if (level0Size b.fmt b.w b.h).isNone || bits (d8 d 0x30) 3 5 != 0 || b.levels == 0 || decide (8 < b.levels) ||
      b.pitch % 64 != 0 || !(dZero d 0x36 0x40) || !(dZero d 0x40 d.length) || decide (coarsest.1 < 32) ||
      decide (coarsest.2 < 32) || !(handleOk b.cur) || !(handleOk b.pyr) ||
      !(if b.pyrOnly then others.all (· == 0) else others.all handleOk) then .error (6, 0)
  else
    let p : Plan :=
      { ins := (b.cur :: (if b.pyrOnly then [] else [b.prev])).eraseDups, outs := (b.outNeeds.map (·.1)).eraseDups }
    let size := fun h => (s.tensor (gqCtx gq) h).bytes
    match s.conflict gq false p with
    | some h => .error (5, h)
    | none =>
      if (!b.pyrOnly && decide (size b.prev < pyrBytes b.sizes)) || b.outNeeds.any (fun o => decide (size o.1 < o.2)) then
        .error (6, 0)
      else if 8192 < b.size0.1 ∨ 8192 < b.size0.2 then .error (7, 0)
      else if s.lanesBound then .error (0x0A, 0)
      else .ok p

/-- Lanes that can take a command now. [DEDUCED: log 162] -/
def State.freeVisLane (s : State) : Option Nat :=
  (List.range 4).find? fun l =>
    s.rd .VIS_STATUS_STATE l == 1 && s.rd .VIS_STATUS_PORT l == 0xFF && !(s.lane l).unbind && !(s.unitBusy 0x28 l) && !(s.testing 3 l)

/-- Read spans of a buffer, each as a little-endian number. -/
def State.loadSpans (s : State) (ctx base : Nat) : List (Nat × Nat) → Except (Nat × Nat) (List Nat)
  | [] => .ok []
  | ow :: l => match s.ldBytes ctx (base + ow.1) ow.2 with
    | .error e => .error e
    | .ok bs => match s.loadSpans ctx base l with
      | .error e => .error e
      | .ok rs => .ok (leNat bs :: rs)

/-- What a VISION_RUN writes, from the state in which it starts. -/
def visGo (s : State) (f : Flight) (_ : Plan) : State × Flight :=
  let ctx := gqCtx f.gq
  let b := visBody f.desc
  let buf := fun h => (s.tensor ctx h).curBuf
  let inVAs := (List.range b.h).map fun y => buf b.cur + y * b.pitch
  let rows := pyrRows 0 b.sizes
  let fail := fun (e : Nat × Nat) => (s.detect ctx e.2, { f with res := { status := e.1, addr := e.2 } })
  match s.loadRows ctx (visRow b.fmt b.w) inVAs with
  | .error e => fail e
  | .ok ins =>
    match (if b.pyrOnly then .ok [] else s.loadSpans ctx (buf b.prev) rows) with
    | .error e => fail e
    | .ok prevRows =>
      let n := s.fresh
      let s : State := { s with fresh := n + 1 }
      let cur := (level0 b.fmt b.w b.h ins.toArray).pyramid b.levels
      let out := fun h => s.outVA ctx h false
      let pyr := pyrChunks n (out b.pyr) cur
      let maps :=
        if b.pyrOnly then []
        else
          let ref := pyrPlanes b.sizes prevRows
          let bs := motionBlocks cur ref b.lambda b.bias
          let fine := (refineBlocks (cur.headD ⟨0, 0, #[]⟩) (ref.headD ⟨0, 0, #[]⟩) b.lambda b.bias b.thresh bs).2
          b.maps.zipIdx.flatMap fun (hm : Nat × Nat) =>
            mapChunks n (out hm.1) hm.2 b.size0.1 b.size0.2 bs ++ fineChunks (out hm.1) hm.2 b.size0.1 fine
      let s := s.touchRows ctx (visRow b.fmt b.w) inVAs
      let s := if b.pyrOnly then s else s.touchRows ctx (pyrBytes b.sizes) [buf b.prev]
      (s, { f with res := { writes := pyr ++ maps } })

/-- R356: the command takes its lane, with TRG_PYR at 1. [DEDUCED: log 160] -/
def State.visBegin (s : State) (f : Flight) (p : Plan) : State × Flight :=
  let l := s.freeVisLane.getD 0
  let s := ((s.wr .VIS_STATUS_STATE l 3).wr .VIS_TRIG_PYR l 1).wr .VIS_TRIG_MOT l 0
  let s := (s.wr .VIS_TRIG_REF l 0).setLane l { s.lane l with cmd := some (f.gq, f.slot), done := false }
  visGo s { f with unit := l + 1 } p

/-- R172: kill the command on a lane that this class may displace. -/
def State.visClear (s : State) (cls : Nat) : State :=
  if s.freeVisLane.isSome then s
  else match s.unitVictim 0x28 cls with
    | some v => s.kill v
    | none => s

/-- R355, R356: VISION_RUN starts on an idle lane in command mode. -/
def execVisionRun (ctx q : Nat) (s : State) : Host.Outcome State Fault Refusal :=
  let gq := qKey ctx q
  let cls := (s.queue gq).cls
  .next (s.startCmd gq 0x28 noAct (visCheck gq)
    (fun s _ => s.freeVisLane.isNone && (s.unitVictim 0x28 cls).isNone) (fun s f p =>
      (s.visClear cls).visBegin f p) fun s => s.tryCommit gq 0x28 noAct)

/-- R359: the binding of a lane changes; the port and partition are taken once its runs or its command
have ended. -/
def State.visRebind (s : State) (l port part : Nat) : State :=
  let bound := s.rd .VIS_STATUS_PORT l != 0xFF
  let s := if bound && s.rd .VIS_STATUS_STATE l == 4 then s.visStop l else s
  (s.setLane l { s.lane l with
    unbind := bound && s.rd .VIS_STATUS_STATE l == 2, bind := some (port, part) }).laneSettle l

end Sys2Proof.Machine
end

