-- ==== Sys2Proof/Machine/Warp.lean ====
section
/-! DEFINITION. The warp stage: frame-ring slots in memory, the warp of a stripe, sampling, the
protected layers and the stripe ring (R406-R415, R418-R420, R442). -/

namespace Sys2Proof.Machine

/-- A pixel: 10-bit R, G and B. -/
abbrev Rgb := Nat × Nat × Nat

/-! ## Timing of a head (R399, R401, R411) -/

/-- The output period of a head in TCLK (R401). -/
def HeadPlan.period (p : HeadPlan) : Nat := p.hTotal * p.vTotal * 100000 / p.pixclk

/-- P of a stream. -/
def State.streamP (s : State) (i : Nat) : Nat :=
  match (s.stream i).par.head with
  | some h => (s.plan h).period
  | none => (s.stream i).par.period

/-- The GCNT at which line 0 of refresh n is scanned, from the last line 0 (R399). [DESIGN CHOICE: log 176] -/
def State.lineZero (s : State) (h n : Nat) : Nat :=
  let p := s.plan h
  let x := s.head h
  if x.r0 ≤ n then x.g0 + (n - x.r0) * p.hTotal * p.vTotal * 100000 / p.pixclk
  else x.g0 - (x.r0 - n) * p.hTotal * p.vTotal * 100000 / p.pixclk

/-- Stripes of a head (R409). -/
def HeadPlan.stripes (p : HeadPlan) : Nat := (p.vActive + 63) / 64

/-- The line `64i - back` modulo V_TOTAL (R409). -/
def HeadPlan.lineOf (p : HeadPlan) (i back : Nat) : Nat := (((64 * i : Nat) - (back : Nat) : Int) % (p.vTotal : Int)).toNat

/-- The stripe and refresh after one (R409). -/
def HeadPlan.nextStripe (p : HeadPlan) (i r : Nat) : Nat × Nat := if i + 1 < p.stripes then (i + 1, r) else (0, r + 1)

/-! ## Frame-ring slots in memory (R407) -/

/-- F and R of R407. -/
def StreamPar.fieldBytes (p : StreamPar) : Nat := (p.w + 15) / 16 * ((p.h + 15) / 16) * 8
def StreamPar.pixPitch (p : StreamPar) : Nat := up64 (p.w * 4)
def StreamPar.pixBytes (p : StreamPar) : Nat := p.h * p.pixPitch

/-- The address of slot k. -/
def StreamPar.slotVA (p : StreamPar) (k : Nat) : Nat := p.va + k * up64k (64 + p.fieldBytes + p.pixBytes)

/-- The address of a slot's pixel plane. -/
def StreamPar.pixVA (p : StreamPar) (k : Nat) : Nat := p.slotVA k + up64 (64 + p.fieldBytes)

/-- The 64-byte header of a slot. -/
def slotHeader (fmt : Nat) (r : RingSlot) : List Byte :=
  natLe 8 r.frame ++ natLe 8 r.scene ++ natLe 1 r.kind ++ natLe 1 fmt ++ natLe 2 0 ++ natLe 4 r.source ++ natLe 8 r.ref ++
    natLe 32 0

/-- Bytes of a context, or of physical memory for context 513; one that cannot be read is free. -/
def State.anyBytes (s : State) (ctx va n : Nat) : List Byte :=
  if ctx = 513 then s.paBytes va n
  else (List.range n).map fun i => match s.ldByte ctx (va + i) with
    | .ok b => b
    | .error _ => Config.freeByte s.fresh (va + i)

/-! ## Sampling (R414) -/

/-- 8-bit codes widened to 10 bits. -/
def wide10 (c : Nat) : Nat := c * 4 + c / 64

/-- A texel of R376 formats 2, 3 and 4 as 10-bit channels; what another format would give is free. -/
def texel10 (fmt px : Nat) : Rgb :=
  match fmt with
  | 2 => (wide10 (bits px 0 8), wide10 (bits px 8 8), wide10 (bits px 16 8))
  | 3 => (bits px 0 10, bits px 10 10, bits px 20 10)
  | 4 =>
    let ch := fun (lo : Nat) =>
      let v := decElem 8 (bits px lo 16)
      if v.isNaN || v.lt .zero then 0
      else if Val.one.lt v then 1023
      else ((v.mul (.ofNat 1023)).trunc.getD 0).toNat
    (ch 0, ch 16, ch 32)
  | _ => (Config.freeNat px 414 % 1024, Config.freeNat px 415 % 1024, Config.freeNat px 416 % 1024)

/-- Bytes of a texel. -/
def texBytes (fmt : Nat) : Nat := if fmt = 4 then 8 else 4

/-- A plane to sample: context, address, pitch, format, columns, rows. -/
abbrev PlaneRef := Nat × Nat × Nat × Nat × Nat × Nat

/-- The texel at a position clamped to the plane. -/
def State.texelAt (s : State) (p : PlaneRef) (i j : Int) : Rgb :=
  let (ctx, va, pitch, fmt, w, h) := p
  texel10 fmt (leNat (s.anyBytes ctx (va + clampTo j h * pitch + clampTo i w * texBytes fmt) (texBytes fmt)))

/-- The bilinear sum at a position in eighths of a pixel. -/
def State.bilinear (s : State) (p : PlaneRef) (px8 py8 : Int) : Rgb :=
  let i := px8 / 8
  let j := py8 / 8
  let fx := (px8 % 8).toNat
  let fy := (py8 % 8).toNat
  let a := s.texelAt p i j
  let b := s.texelAt p (i + 1) j
  let c := s.texelAt p i (j + 1)
  let e := s.texelAt p (i + 1) (j + 1)
  let mix := fun (g : Rgb → Nat) =>
    ((8 - fx) * (8 - fy) * g a + fx * (8 - fy) * g b + (8 - fx) * fy * g c + fx * fy * g e) / 64
  (mix (·.1), mix (·.2.1), mix (·.2.2))

/-- num and den of an UPSCALE code. -/
def scaleOf2 (up : Nat) : Int × Int := match up with | 1 => (3, 2) | 2 => (2, 1) | 3 => (3, 1) | _ => (1, 1)

/-- What a slot's KIND lets the stage sample: nothing for BLANK, the plane it references otherwise. A
DIRECT plane of unknown layout gives free values. -/
inductive SlotPlane where
  | blank
  | own (p : PlaneRef)
  | direct (p : PlaneRef)
  | unknown
deriving DecidableEq, Repr

/-- The plane slot k samples; RE_PRESENT follows its reference. -/
def Stream.slotPlane (x : Stream) : Nat → Nat → SlotPlane
  | 0, _ => .blank
  | fuel + 1, k =>
    let r := x.ring.getD k {}
    match r.kind with
    | 0 => .own (pf0, x.par.pixVA k, x.par.pixPitch, x.par.fmt, x.par.w, x.par.h)
    | 1 => match r.plane with | some p => .direct p | none => .unknown
    | 3 => x.slotPlane fuel r.ref
    | _ => .blank

/-- R414: the sample of a slot at a position in eighths of an output pixel. -/
def State.sampleSlot (s : State) (x : Stream) (k : Nat) (px8 py8 : Int) : Rgb :=
  match x.slotPlane 17 k with
  | .blank => (0, 0, 0)
  | .own p => s.bilinear p px8 py8
  | .direct p =>
    let nd := scaleOf2 x.par.upscale
    let m := fun (v : Int) => (v + 4) * nd.2 / nd.1 - 4
    s.bilinear p (m px8) (m py8)
  | .unknown =>
    let f := fun (i : Nat) => Config.freeNat (s.fresh + px8.toNat * 65536 + py8.toNat) i % 1024
    (f 1, f 2, f 3)

/-! ## The warp (R411-R413) -/

/-- R411: t of a stripe from G_B and the slot's SCENE_GCNT. -/
def State.warpT (s : State) (h gB scene : Nat) : Nat :=
  let p := s.plan h
  let mid := gB + (p.warpLead + 32) * p.hTotal * 100000 / p.pixclk
  min 4095 (256 * (mid - scene) / p.period)

/-- A signed 16-bit value. -/
def s16 (n : Nat) : Int := if n < 32768 then (n : Int) else (n : Int) - 65536

/-- A tile's vector and depth in slot k: zero for slots without a field of their own (R407). -/
def State.tileVec (s : State) (x : Stream) (k tx ty : Nat) : Int × Int × Nat :=
  if (x.ring.getD k {}).kind ≠ 0 then (0, 0, 0)
  else
    let w := leNat (s.anyBytes pf0 (x.par.slotVA k + 64 + (ty * ((x.par.w + 15) / 16) + tx) * 8) 8)
    (s16 (bits w 0 16), s16 (bits w 16 16), bits w 32 16)

/-- R412: where output pixel (x, y) samples in motion-field mode. [DEDUCED: log 183] -/
def State.motionPos (s : State) (st : Stream) (k t : Nat) (near1 : Bool) (x y : Nat) : Int × Int :=
  let tw := (st.par.w + 15) / 16
  let th := (st.par.h + 15) / 16
  let around := ([-1, 0, 1] : List Int).flatMap fun dy => ([-1, 0, 1] : List Int).map fun dx => (dx, dy)
  let tiles := (around.map fun (d : Int × Int) => (((x / 16 : Nat) : Int) + d.1, ((y / 16 : Nat) : Int) + d.2)).filter
    fun (q : Int × Int) => decide (0 ≤ q.1) && decide (q.1 < tw) && decide (0 ≤ q.2) && decide (q.2 < th)
  let cand := tiles.map fun q =>
    let v := s.tileVec st k q.1.toNat q.2.toNat
    let dx := (v.1 * t).tdiv 256
    let dy := (v.2.1 * t).tdiv 256
    let valid := decide ((8 * (x : Int) + 4 - dx) / 8 / 16 = q.1) && decide ((8 * (y : Int) + 4 - dy) / 8 / 16 = q.2)
    (valid, v.2.2, dx, dy, q)
  let better := fun (a b : Bool × Nat × Int × Int × Int × Int) => if near1 then decide (b.2.1 < a.2.1) else decide (a.2.1 < b.2.1)
  let pick := match cand.filter (·.1) with
    | [] => (cand.find? fun (c : Bool × Nat × Int × Int × Int × Int) => c.2.2.2.2 == (((x / 16 : Nat) : Int), ((y / 16 : Nat) : Int))).getD (false, 0, 0, 0, 0, 0)
    | c :: cs => cs.foldl (fun b c => if better c b then c else b) c
  (8 * (x : Int) - pick.2.2.1, 8 * (y : Int) - pick.2.2.2.1)

/-- FP32, rounding toward zero. -/
def rtz (v : Val) : Val := (fp32 v).1

/-- He of R413 from the nine FP32 words of H. -/
def warpMatrix (hm : List Nat) (t : Nat) : List Val :=
  let tau := rtz ((Val.ofNat t).div (.ofNat 256))
  (List.range 9).map fun i =>
    let id := if i % 4 = 0 then Val.one else .zero
    rtz (id.add (rtz (tau.mul (rtz ((decFP32 (hm.getD i 0)).sub id)))))

/-- R413: where an output pixel samples in homography mode; none for a pixel that is transparent black.
A position that is no number is free. [DESIGN CHOICE: log 182] -/
def homogPos (fresh : Nat) (he : List Val) (x y : Nat) : Option (Int × Int) :=
  let vx := (Val.ofNat (2 * x + 1)).div (.ofNat 2)
  let vy := (Val.ofNat (2 * y + 1)).div (.ofNat 2)
  let row := fun (i : Nat) =>
    let e := fun (j : Nat) => he.getD (3 * i + j) .zero
    rtz ((rtz ((rtz ((e 0).mul vx)).add (rtz ((e 1).mul vy)))).add (e 2))
  let u := row 0
  let v := row 1
  let w := row 2
  if w.isNaN || !(Val.zero.lt w) then none
  else
    let pos := fun (n : Val) (lab : Nat) =>
      match ((rtz ((rtz (n.div w)).sub ((Val.one).div (.ofNat 2)))).mul (.ofNat 8)).trunc with
      | some z => z
      | none => (Config.freeNat (fresh + x * 65536 + y) lab : Int)
    some (pos u 1, pos v 2)

/-- One warped pixel, before the layers. -/
def State.warpPixel (s : State) (st : Stream) (k t : Nat) (w : Warp) (near1 : Bool) (x y : Nat) : Rgb :=
  if w.mode = 1 then
    match homogPos s.fresh (warpMatrix w.homog t) x y with
    | some p => s.sampleSlot st k p.1 p.2
    | none => (0, 0, 0)
  else
    let p := s.motionPos st k t near1 x y
    s.sampleSlot st k p.1 p.2

/-! ## Premultiplied layers and planes (R419, R441) -/

/-- One channel under a layer. -/
def over10 (l8 a8 c : Nat) : Nat := min 1023 (wide10 l8 + c * (1023 - wide10 a8) / 1023)

/-- A pixel under an RGBA8 layer pixel. -/
def overPixel (px : Nat) (c : Rgb) : Rgb :=
  let a := bits px 24 8
  (over10 (bits px 0 8) a c.1, over10 (bits px 8 8) a c.2.1, over10 (bits px 16 8) a c.2.2)

/-- The columns of an active rectangle in line y of an active area `wa` wide; none when it does not touch it. -/
def PlaneSt.span (l : PlaneSt) (refresh wa y : Nat) : Option (Nat × Nat) :=
  let x1 := min (l.x + l.w) wa
  if !l.on || l.fault == some refresh || decide (y < l.y) || decide (l.y + l.h ≤ y) || decide (x1 ≤ l.x) then none
  else some (l.x, x1 - l.x)

/-- Composite one layer over a line; `none` where a read of it faults. -/
def State.overLine (s : State) (l : PlaneSt) (refresh wa y : Nat) (line : List Rgb) : Option (List Rgb) :=
  match l.span refresh wa y with
  | none => some line
  | some (x0, n) =>
    match s.ldBytes pf0 (l.va + (y - l.y) * (l.pitch * 64)) (4 * n) with
    | .error _ => none
    | .ok bs =>
      some (line.zipIdx.map fun (cx : Rgb × Nat) =>
        if x0 ≤ cx.2 ∧ cx.2 < x0 + n then overPixel (leNat ((bs.drop (4 * (cx.2 - x0))).take 4)) cx.1 else cx.1)

/-- The word of a stripe-ring pixel: RGB10A2 with alpha 3 (R442). -/
def ringWord (c : Rgb) : Nat := c.1 + c.2.1 * 2 ^ 10 + c.2.2 * 2 ^ 20 + 3 * 2 ^ 30

/-! ## The stripe ring (R410, R442) -/

/-- The address of stripe-ring entry e: the plane's VA and the entry's stride. -/
def State.entryVA (s : State) (h e : Nat) : Nat :=
  ((s.head h).planes.getD 0 {}).va + e * up64k (64 * up64 ((s.plan h).hActive * 4))

/-- The lines of stripe i. -/
def HeadPlan.stripeLines (p : HeadPlan) (i : Nat) : List Nat := (List.range (min 64 (p.vActive - 64 * i))).map (64 * i + ·)

/-- Protected layers over one line, in ascending order; a layer that faults is transparent for the rest
of the refresh, and LAYER_FAULT fires (R419). [DEDUCED: log 198] -/
def State.layerLine (s : State) (h refresh wa y : Nat) (line : List Rgb) : State × List Rgb :=
  (List.range 8).foldl (fun (acc : State × List Rgb) j =>
    let s := acc.1
    let x := s.head h
    match s.overLine (x.layers.getD j {}) refresh wa y acc.2 with
    | some l => (s, l)
    | none => ((s.setHead h { x with layers := x.layers.set j { x.layers.getD j {} with fault := some refresh } }).eqxFire 7 (8 * h + j),
        acc.2)) (s, line)

/-- The warp and composite of a stripe, written into its entry (R410). -/
def State.writeStripe (s : State) (h i : Nat) (w : Warp) (k : Nat) : State :=
  let p := s.plan h
  let st := s.stream i
  let t := s.warpT h w.gB (st.ring.getD k {}).scene
  s.each (p.stripeLines w.stripe) fun s y =>
    let line := (List.range p.hActive).map fun x => s.warpPixel st k t w st.par.near1 x y
    let r := s.layerLine h w.refresh p.hActive y line
    let va := r.1.entryVA h (w.stripe % 4) + y % 64 * up64 (p.hActive * 4)
    (r.1.stBytes pf0 va (r.2.flatMap fun c => natLe 4 (ringWord c)) (p.hActive * 4 + 1)).1

/-- Start the first stripe that waits, when it has its slot and its entry is free. -/
def State.tryWarp (s : State) (h : Nat) : State :=
  let x := s.head h
  match x.warps with
  | w :: ws =>
    if !w.on && w.slot.isSome && (x.ents.getD (w.stripe % 4) none).isNone then
      s.setHead h { x with
        warps := { w with on := true } :: ws, ents := x.ents.set (w.stripe % 4) (some ⟨w.stripe, w.refresh, false⟩) }
    else s
  | [] => s

/-- A slot is held by a stripe that is being warped, or that waits for its entry (R406). [DEDUCED: log 181] -/
def State.slotHeld (s : State) (i k : Nat) : Bool :=
  match (s.stream i).par.head with
  | some h => (s.head h).warps.any fun w => w.slot == some k
  | none => false

/-- The age of a slot's frame does not exceed MAX_AGE at refresh r (R410). -/
def Stream.young (x : Stream) (r : Nat) (q : RingSlot) : Bool :=
  q.st == .published && decide (r ≤ q.frame + x.par.maxAge)

/-- The published slot with the largest frame, and of those the latest publication. -/
def newestSlot (ring : List RingSlot) (ok : RingSlot → Bool) : Option Nat :=
  ((ring.zipIdx.filter fun (rk : RingSlot × Nat) => rk.1.st == .published && ok rk.1).foldl
    (fun (b : Option (RingSlot × Nat)) rk =>
      match b with
      | none => some rk
      | some c => if c.1.frame < rk.1.frame ∨ (c.1.frame = rk.1.frame ∧ c.1.pub < rk.1.pub) then some rk else b) none).map (·.2)

/-- R410: the slot a stripe of refresh r selects. -/
def Stream.select (x : Stream) (r : Nat) : Option Nat := newestSlot x.ring (x.young r)

/-- R418: waiting stripes of a stream's head take the first publication that qualifies. -/
def State.fillWaits (s : State) (i : Nat) : State :=
  match (s.stream i).par.head with
  | none => s
  | some h =>
    let x := s.head h
    let hit := x.warps.any fun w => w.slot.isNone && ((s.stream i).select w.refresh).isSome
    if !hit then s
    else
      let s := s.setHead h { x with
        warps := x.warps.map fun w => if w.slot.isNone then { w with slot := (s.stream i).select w.refresh } else w }
      (s.eqxFire 3 i).tryWarp h

end Sys2Proof.Machine
end

