-- ==== Sys2Proof/Machine/Equinox.lean ====
section
/-! DEFINITION. Equinox: the start and stop of a stream, its cadence, the EQX_FRAME and COMPOSE
commands, their commit, and the stream registers (R394-R408, R416, R417, R421-R423). -/

namespace Sys2Proof.Machine

/-! ## Starting and stopping a stream (R396, R422) -/

/-- The lowest FREE handle of PF0 (R396: FC9 creates the feature sequence in PF0's table). -/
def State.freeHandle (s : State) : Option Nat :=
  (List.range (s.rd .VF_TT_CAP_TT_CAP pf0)).find? fun h => (s.tensor pf0 h).kind == .free

/-- The layout a network image declares. Its contents are not given: free values in R268's ranges. [DESIGN CHOICE: log 175] -/
def netSeq (fresh g : Nat) : Seq :=
  let f := fun (i n : Nat) => Config.freeNat fresh i % n
  { layers := 1 + f 1 128, kvHeads := 1 + f 2 256, headDim := 32 * (1 + f 3 8), fmtK := 3 + f 4 7, fmtV := 3 + f 5 7
    scale := f 6 2 == 1, gcode := f 7 3, created := g }

/-- Pages that n tokens of a sequence occupy (R269). -/
def Seq.pages (q : Seq) (n : Nat) : Nat := ((List.range (2 * q.layers)).map fun r => ceilDiv (n * q.bpt r) 65536).foldl (· + ·) 0

/-- Pages a sequence has mapped. -/
def State.seqPages (s : State) (h : Nat) : Nat := (s.windowPages pf0 (s.tensor pf0 h).window).length

/-- The class-1 queue of a stream is fit for it (R395). -/
def State.eqxQueueOk (s : State) (m : Nat) : Bool :=
  let q := s.queue (qKey pf0 m)
  m != 0 && q.st != .disabled && q.cls == 1 && q.cont

/-- The fields of a stream are in their ranges, and what it needs has been provided (R396, R406). -/
def State.eqxFieldsOk (s : State) (p : StreamPar) : Bool :=
  decide (1 ≤ p.history) && decide (p.history ≤ 8) && decide (p.srcKind ≤ 2) && decide (1 ≤ p.mult) && decide (p.mult ≤ 4) &&
    decide (p.srcIndex < 8) && (decide (p.lane < 4) || p.lane == 0xFF) && (p.fmt == 2 || p.fmt == 3) && p.w != 0 && p.h != 0 &&
    decide (p.mult + 3 ≤ p.depth) && decide (p.depth ≤ 16) && !(s.handleFree pf0 p.net) &&
    (s.tensor pf0 p.scratch).kind == .plain && !(s.handleFree pf0 p.scratch) &&
    (p.head.isSome || decide (100000 ≤ p.period))

/-- The registers a stream takes at its start. -/
def State.eqxRegs (s : State) (i : Nat) : StreamPar :=
  let lat := s.rd .EQX_STREAM_CTRL_LATENCY i
  let off := s.rd .EQX_STREAM_TIME_SRC_OFFSET i
  { queue := s.rd .EQX_STREAM_CTRL_QUEUE i, history := s.rd .EQX_STREAM_CTRL_HISTORY i
    latency := if lat = 2 then 2 else 1, near1 := s.rd .EQX_STREAM_CTRL_DEPTH_NEAR i == 1
    srcKind := s.rd .EQX_STREAM_SRC_SRC_KIND i, srcIndex := s.rd .EQX_STREAM_SRC_SRC_INDEX i
    lane := s.rd .EQX_STREAM_SRC_LANE i, handle := s.rd .EQX_STREAM_SRC_SRC_HANDLE i
    upscale := s.rd .EQX_STREAM_SRC_UPSCALE i, mult := s.rd .EQX_STREAM_SRC_MULT i
    net := s.rd .EQX_STREAM_NET_NET i, scratch := s.rd .EQX_STREAM_NET_SCRATCH i
    va := s.rd .EQX_STREAM_RING_VA i * 65536, fmt := s.rd .EQX_STREAM_RING_FORMAT i, depth := s.rd .EQX_STREAM_RING_DEPTH i
    w := s.rd .EQX_STREAM_GEOM_OUT_W i, h := s.rd .EQX_STREAM_GEOM_OUT_H i, period := s.rd .EQX_STREAM_GEOM_PERIOD i
    off := if off < 2 ^ 31 then (off : Int) else (off : Int) - 2 ^ 32 }

/-- A head stream's parameters come from the head's plan (R394). -/
def State.headPar (s : State) (i h : Nat) : StreamPar :=
  let p := s.plan h
  { s.eqxRegs i with
    head := some h, srcKind := p.srcKind, srcIndex := p.srcIndex, tenant := p.bindTenant, handle := p.bindHandle
    lane := (s.streamLane i).getD 0xFF, upscale := p.upscale, mult := p.mult, maxAge := p.maxAge
    w := p.hActive, h := p.vActive, period := p.period }

/-- R396: FC9 creates the feature sequence and reserves its pages; none where there is no room. -/
def State.eqxSeq (s : State) (i : Nat) (p : StreamPar) : Option State :=
  match s.freeHandle, s.freeWindow pf0 with
  | some h, some _ =>
    let n := s.fresh
    let q := netSeq n s.gcnt
    let tok := 1 + Config.freeNat n 405 % 65535
    let need := q.pages (2 * (p.history + 1) * tok)
    if s.freeFrames 63 < need then none
    else
      let s : State := { s with fresh := n + 1 }
      let s := s.newSeq pf0 h q 0
      some (s.setStream i { s.stream i with seqH := h, seq2 := 0, rot := 0, tokens := tok, resv := need, resvAll := need })
  | _, _ => none

/-- A stream starts with its parameters (R395, R413, R422). -/
def State.eqxBegin (s : State) (i : Nat) (p : StreamPar) : Option State :=
  let x : Stream := { par := p, ring := (List.range p.depth).map fun _ => {} }
  (( s.setStream i x).eqxSeq i p).map fun s =>
    let start := s.rd .EQX_STREAM_TIME_START i
    let g := if start = 0 then (s.gcnt / p.period + 1) * p.period else s.gcnt + start
    let s := s.setStream i { s.stream i with startG := g }
    let s := s.each [Fld.EQX_STREAM_TRIG_COUNT, .EQX_STREAM_NEWEST_FRAME, .EQX_STREAM_NEWEST_NEXT, .EQX_MEM_READ_CONSUMED]
      fun s f => s.resetUnit f i
    s.eqxState i 2

/-- The end of a stop: the feature sequences and reserved pages are free (R422). -/
def State.eqxEnd (s : State) (i : Nat) : State :=
  let x := s.stream i
  let s := s.freeSeq pf0 x.seqH
  let s := if x.seq2 = 0 then s else s.freeSeq pf0 (x.seq2 - 1)
  let s := s.setStream i { x with
    seqH := 0, seq2 := 0, rot := 0, resv := 0, resvAll := 0, stopping := false, again := none, src := none, used := none }
  let s := (s.wr .EQX_STREAM_TRIG_COUNT i 0).eqxState i 1
  if s.rd .EQX_STREAM_CTRL_RESULT i = 1 then s.wr .EQX_STREAM_CTRL_RESULT i 0 else s

/-- A stop waits for the commands in flight; a restart follows it, with the published slots where they are
kept (R422). A restart that finds no pages leaves the stream stopped. -/
def State.eqxSettle (s : State) (i : Nat) : State :=
  let x := s.stream i
  if !(x.stopping && x.out == 0) then s
  else
    let s := s.eqxEnd i
    match x.again with
    | none => s
    | some (keep, p) =>
      match s.eqxBegin i p with
      | none => s
      | some s =>
        let old := (x.ring.take p.depth).map fun r => if r.st = .published then r else {}
        if keep then s.setStream i { s.stream i with
          ring := old ++ List.replicate (p.depth - old.length) {}, pubs := x.pubs } else s

/-- R422: a running or faulted stream stops. -/
def State.eqxStopNow (s : State) (i : Nat) : State :=
  let st := s.rd .EQX_STREAM_CTRL_STATE i
  if st = 2 ∨ st = 3 then (s.setStream i { s.stream i with stopping := true, again := none }).eqxSettle i else s

/-- R422: a stream stops and starts again with new parameters. [DEDUCED: log 185] -/
def State.eqxRestart (s : State) (i : Nat) (keep : Bool) (p : StreamPar) : State :=
  let st := s.rd .EQX_STREAM_CTRL_STATE i
  if st = 2 ∨ st = 3 then (s.setStream i { s.stream i with stopping := true, again := some (keep, p) }).eqxSettle i
  else (s.eqxBegin i p).getD s

/-- The RW fields of an EQX_STREAM_CTRL write; CLASS1_SHARE of a head stream is read-only (R421). -/
def State.eqxCtrlFields (s : State) (i val : Nat) : State :=
  let s := ((((s.wr .EQX_STREAM_CTRL_QUEUE i (bits val 42 6)).wr .EQX_STREAM_CTRL_WARP_MODE i (bits val 40 1)).wr
    .EQX_STREAM_CTRL_HISTORY i (bits val 36 4)).wr .EQX_STREAM_CTRL_LATENCY i (bits val 34 2)).wr
    .EQX_STREAM_CTRL_DEPTH_NEAR i (bits val 33 1)
  if s.rd .EQX_STREAM_CTRL_HEAD i = 1 then s else s.wr .EQX_STREAM_CTRL_CLASS1_SHARE i (bits val 16 16)

/-- Class-1 shares of the enabled heads and of the other running memory streams (R37, R422). -/
def State.otherShares (s : State) (i : Nat) : Nat :=
  let heads := ((tagged s.img.recs 0x50).filter enabledRec).map fun r => d16 r.val 32
  let mem := ((List.range 64).filter fun j => j ≠ i ∧ s.rd .EQX_STREAM_CTRL_STATE j ≠ 0 ∧ s.rd .EQX_STREAM_CTRL_HEAD j = 0).map
    fun j => s.rd .EQX_STREAM_CTRL_CLASS1_SHARE j
  (heads ++ mem).foldl (· + ·) 0

/-- R422: OP = START. The whole 64-bit register is written. [DEDUCED: log 184] -/
def execEqxStart (stream val : Nat) (s : State) : Host.Outcome State Fault Refusal :=
  .next (s.accessed .late fun s =>
    if 64 ≤ stream then s
    else
      let s := s.eqxCtrlFields stream val
      let st := s.rd .EQX_STREAM_CTRL_STATE stream
      let p := s.eqxRegs stream
      let done := fun (s : State) (r : Nat) => s.wr .EQX_STREAM_CTRL_RESULT stream r
      if s.rd .EQX_STREAM_CTRL_RESULT stream = 1 then s
      else if s.rd .EQX_STREAM_CTRL_HEAD stream = 1 ∨ ¬ s.eqxQueueOk p.queue ∨
          10000 * s.floorCes.length < s.otherShares stream + s.rd .EQX_STREAM_CTRL_CLASS1_SHARE stream then done s 3
      else if st = 2 ∨ st = 3 then done s 2
      else if !(s.eqxFieldsOk p) then done s 5
      else match s.eqxBegin stream p with
      | some s => done s 0
      | none => done s 4)

/-- R422: OP = STOP. -/
def execEqxStop (stream val : Nat) (s : State) : Host.Outcome State Fault Refusal :=
  .next (s.accessed .late fun s =>
    if 64 ≤ stream then s
    else
      let s := s.eqxCtrlFields stream val
      let st := s.rd .EQX_STREAM_CTRL_STATE stream
      if s.rd .EQX_STREAM_CTRL_RESULT stream = 1 then s
      else if s.rd .EQX_STREAM_CTRL_HEAD stream = 1 then s.wr .EQX_STREAM_CTRL_RESULT stream 3
      else if st ≠ 2 ∧ st ≠ 3 then s.wr .EQX_STREAM_CTRL_RESULT stream 2
      else (s.wr .EQX_STREAM_CTRL_RESULT stream 1).eqxStopNow stream)

/-! ## Times (R399-R401) -/

/-- Deadlines of stripe 0 that have passed on a stream's head: event B of refreshes below this (R399). -/
def Head.bPassed (x : Head) : Nat := if x.bS = 0 then x.bR else x.bR + 1

/-- G(n). -/
def State.sceneOf (s : State) (i n : Nat) : Nat :=
  match (s.stream i).par.head with
  | some h => s.lineZero h n
  | none => (s.stream i).startG + n * (s.stream i).par.period

/-- Deadline(n) as a GCNT. -/
def State.deadlineOf (s : State) (i n : Nat) : Nat :=
  match (s.stream i).par.head with
  | some h => s.lineZero h n - s.linesTclk h (s.plan h).warpLead
  | none => s.sceneOf i n

/-- Issue point n has come. One that falls before the stream's start comes with the start. -/
def State.issueDue (s : State) (i n : Nat) : Bool :=
  let p := (s.stream i).par
  match p.head with
  | some h => decide (n < (s.head h).bPassed + p.latency)
  | none => decide ((s.stream i).startG + n * p.period ≤ s.gcnt + p.latency * p.period)

/-- Deadline(n) has passed: a publication now is late. -/
def State.isLate (s : State) (i n : Nat) : Bool :=
  match (s.stream i).par.head with
  | some h => decide (n < (s.head h).bPassed)
  | none => decide ((s.stream i).startG + n * (s.stream i).par.period < s.gcnt)

/-- Δ of R401. -/
def State.deltaOf (s : State) (i n gsrc : Nat) : Nat := min 1023 (256 * (s.sceneOf i n - gsrc) / s.streamP i)

/-! ## The cadence (R400, R402, R405) -/

/-- The 64 bytes of an EQX_FRAME. What FC9 puts into IRQ, TAG and MODEL is not given: free values. -/
def eqxDesc (fresh i kind overlap split : Nat) (p : StreamPar) (seq seq2 n scene drop delta source : Nat) : List Byte :=
  natLe 1 0x38 ++ natLe 1 (overlap * 2 + Config.freeNat fresh 1 % 2 * 4) ++ natLe 2 0 ++ natLe 4 (Config.freeNat fresh 2) ++
    natLe 4 0 ++ natLe 4 (Config.freeNat fresh 3) ++ natLe 1 i ++ natLe 1 kind ++ natLe 1 split ++ natLe 1 0 ++ natLe 4 p.net ++
    natLe 4 seq ++ natLe 4 seq2 ++ natLe 4 p.scratch ++ natLe 4 n ++ natLe 8 scene ++ natLe 8 drop ++ natLe 2 delta ++
    natLe 2 0 ++ natLe 4 source

/-- FC9 writes a descriptor into a stream's queue and rings its doorbell; nothing where the ring is full. [DEDUCED: log 180] -/
def State.eqxSubmit (s : State) (i : Nat) (desc : List Byte) : State :=
  let gq := qKey pf0 (s.stream i).par.queue
  let q := s.queue gq
  if q.st = .disabled ∨ 2 ^ q.sqLog ≤ sub32 q.sqTail q.sqNext then s
  else
    let s := (s.stBytes pf0 (slotVA q q.sqTail) desc 65).1
    let s := s.setQueue gq { s.queue gq with sqTail := m32 (q.sqTail + 1) }
    s.setStream i { s.stream i with out := (s.stream i).out + 1 }

/-- R405 step 1: FC9 starts a rotation when an append would pass the sequence's bounds. -/
def State.eqxRotate (s : State) (i : Nat) : State :=
  let x := s.stream i
  if x.seq2 ≠ 0 ∨ s.growFits pf0 x.seqH (s.tensor pf0 x.seqH).length x.tokens then s
  else match s.freeHandle, s.freeWindow pf0 with
  | some h, some _ =>
    let s := s.newSeq pf0 h { s.seq pf0 x.seqH with created := s.gcnt, tail := none } 0
    s.setStream i { x with seq2 := h + 1, rot := x.par.history }
  | _, _ => s

/-- Issue one command for frame n: KIND 0 UPSCALE, 1 GENERATE, from a source. -/
def State.eqxIssue (s : State) (i n kind : Nat) (src : Source) : State :=
  let s := if kind = 0 then s.eqxRotate i else s
  let x := s.stream i
  let f := s.fresh
  let s : State := { s with fresh := f + 1 }
  let drop := if kind = 0 then 2 ^ 64 - 1 else s.deadlineOf i n + s.streamP i
  let split := Config.freeNat f 404 % max 1 (min 6 s.inService.length)
  let seq2 := if kind = 0 ∧ x.seq2 ≠ 0 then x.seq2 - 1 else 0
  let d := eqxDesc f i kind (b2n (kind == 1 && x.gens != 0)) split x.par x.seqH seq2 (m32 n) (s.sceneOf i n) drop
    (s.deltaOf i n src.g) (m32 src.id)
  (s.setStream i { x with used := some src, gens := if kind = 0 then 0 else x.gens + 1 }).eqxSubmit i d

/-- R400, R425: FC9 decides a frame at its issue point. -/
def State.issuePoint (s : State) (i : Nat) : State :=
  let x := s.stream i
  let n := s.rd .EQX_STREAM_NEWEST_NEXT i
  let c := s.rd .EQX_STREAM_TRIG_COUNT i
  let s := (s.wr .EQX_STREAM_NEWEST_NEXT i (n + 1)).wr .EQX_STREAM_TRIG_COUNT i 0
  let newer := match x.src, x.used with
    | some a, some b => a.id != b.id
    | some _, none => true
    | none, _ => false
  let up := decide (1 ≤ c) && newer
  let beyond := if up then c - 1 else c
  let s := (s.inc .EQX_STREAM_STAT2_SUPERSEDED i beyond).each (List.range beyond) fun s _ => s.eqxTenantLate i
  match x.src, x.used with
  | some a, u =>
    if up then s.eqxIssue i n 0 a
    else match u with
      | some b => if x.gens + 1 < x.par.mult then s.eqxIssue i n 1 b else s
      | none => s
  | none, some b => if x.gens + 1 < x.par.mult then s.eqxIssue i n 1 b else s
  | none, none => s

/-- R400: the next issue point of a stream. While FC9 restarts, nothing is issued (R526). -/
def execIssuePoint (stream : Nat) (s : State) : Host.Outcome State Fault Refusal :=
  .next (
    if 64 ≤ stream ∨ ¬ s.eqxRuns stream ∨ (s.stream stream).stopping ∨ s.brg.fcDown.contains 9 ∨
        ¬ s.issueDue stream (s.rd .EQX_STREAM_NEWEST_NEXT stream) then s
    else s.issuePoint stream)

/-! ## Frame-ring slots (R406, R421) -/

/-- A memory stream's slot has been consumed by the host (R421). -/
def State.slotConsumed (s : State) (i : Nat) (r : RingSlot) : Bool :=
  let x := s.stream i
  x.par.head.isSome || decide (r.pub < x.pubs - sub32 (m32 x.pubs) (s.rd .EQX_MEM_READ_CONSUMED i))

/-- R406: the slot a command acquires. -/
def State.acquirable (s : State) (i : Nat) : Option Nat :=
  let x := s.stream i
  match x.ring.zipIdx.find? fun (rk : RingSlot × Nat) => rk.1.st == .free with
  | some rk => some rk.2
  | none =>
    let newest := newestSlot x.ring fun _ => true
    ((x.ring.zipIdx.filter fun (rk : RingSlot × Nat) => rk.1.st == .published && some rk.2 != newest &&
        !(s.slotHeld i rk.2) && s.slotConsumed i rk.1).foldl
      (fun (b : Option (RingSlot × Nat)) rk =>
        match b with
        | none => some rk
        | some c => if rk.1.frame < c.1.frame ∨ (rk.1.frame = c.1.frame ∧ rk.1.pub < c.1.pub) then some rk else b) none).map (·.2)

/-- The command that is about to start takes its slot. -/
def State.takeSlot (s : State) (i gq op : Nat) (r : RingSlot) : State :=
  match s.acquirable i, s.flightIn gq (fun f => f.phase == .placed && dOp f.desc == op) with
  | some k, some f =>
    let x := s.stream i
    s.setStream i { x with ring := x.ring.set k { r with st := .pending, owner := (gq, f.slot) } }
  | _, _ => s

/-! ## EQX_FRAME (R402-R405) -/

/-- Free bytes at an address, as a chunk. -/
def freeChunk (fresh va n : Nat) : Chunk := ⟨va, (List.range n).map fun k => Config.freeByte fresh (va + k)⟩

/-- What the network gives: a tile field, a plane and SCRATCH of free bytes, and free saturation counts.
The program and its weights are Rolyo's and are not given. [DESIGN CHOICE: log 177] -/
def State.eqxGo (s : State) (i gq : Nat) (d : List Byte) : State × RunOut :=
  let x := s.stream i
  let k := (s.acquirable i).getD 0
  let n := s.fresh
  let s : State := { s with fresh := n + 1 }
  let t := s.tensor pf0 x.par.scratch
  let r : RingSlot := { frame := d32 d 0x24, scene := d64 d 0x28 }
  (s.takeSlot i gq 0x38 r,
    { writes := [freeChunk n (x.par.slotVA k + 64) x.par.fieldBytes, freeChunk n (x.par.pixVA k) x.par.pixBytes,
        freeChunk n (s.outVA pf0 x.par.scratch false) t.bytes]
      satOperand := Config.freeNat n 204, satOutput := Config.freeNat n 205 })

/-- The source's committed version, bound as an input (R397). -/
def State.eqxBind (s : State) (i : Nat) : List Bind :=
  let p := (s.stream i).par
  if p.srcKind = 0 then [s.bindOf (if p.tenant = 0xFFFF then pf0 else p.tenant) p.handle] else []

/-- R404: the body's rules. `fits` says that the source has the render size and a format the network
image accepts. [DEDUCED: log 178] -/
def eqxCheck (fits : Bool) (s : State) (gq : Nat) (d : List Byte) : Except (Nat × Nat) CeCmd :=
  let i := d8 d 0x10
  let kind := d8 d 0x11
  let hs := [d32 d 0x14, d32 d 0x18, d32 d 0x1C, d32 d 0x20]
  let x := s.stream i
  let st := s.rd .EQX_STREAM_CTRL_STATE i
  if 63 < i ∨ 1 < kind ∨ 5 < d8 d 0x12 ∨ d8 d 0x13 ≠ 0 ∨ d16 d 0x3A ≠ 0 ∨ !(hs.all handleOk) ∨ st < 2 ∨
      qKey pf0 x.par.queue ≠ gq ∨ !fits then .error (6, 0)
  else
    let seqs := if kind = 0 then (d32 d 0x18) :: (if d32 d 0x1C = 0 then [] else [d32 d 0x1C]) else []
    let plan : Plan := { ins := [d32 d 0x14, d32 d 0x18], outs := d32 d 0x20 :: seqs }
    match s.conflict gq false plan with
    | some h => .error (5, h)
    | none =>
      if s.cesPresent.length < d8 d 0x12 + 1 then .error (0x0A, 0)
      else .ok
        { plan := plan, extra := s.eqxBind i, fmtN := Config.freeNat s.fresh 210 % 10
          wait := (s.acquirable i).isNone || seqs.any (fun h => (s.seq pf0 h).marked)
          grow := seqs.map fun h => (h, (s.tensor pf0 h).length, x.tokens), adv := true
          go := fun s _ => s.eqxGo i gq d }

/-- R403: a GENERATE whose start falls after DROP_GCNT ends OK with no outputs. -/
def State.eqxDropped (s : State) (f : Flight) : State :=
  let i := d8 f.desc 0x10
  (((s.slotState f 4).setFlight { f with phase := .ended, endG := s.gcnt }).inc .EQX_STREAM_STAT_DROPPED i).eqxFire 1 i

/-- A start that finds no slot in a memory stream's ring fires MEM_RING_FULL once (R421). -/
def State.eqxNoSlot (s : State) (f : Flight) : State :=
  let i := d8 f.desc 0x10
  let x := s.stream i
  if x.par.head.isNone ∧ (s.acquirable i).isNone ∧ x.ringFull ≠ f.slot + 1 then
    (s.setStream i { x with ringFull := f.slot + 1 }).eqxFire 8 i
  else s

/-- A start with the stream's reserved pages at hand; what it maps leaves the reservation (R396). -/
def State.eqxReserved (s : State) (i : Nat) (go : State → State) : State :=
  let r := (s.stream i).resv
  let u := s.used pf0
  let s := go (s.setStream i { s.stream i with resv := 0 })
  s.setStream i { s.stream i with resv := r - (s.used pf0 - u) }

/-- R403, R404: a placed EQX_FRAME starts, waits for a slot, or is dropped. -/
def execEqxFrame (ctx q : Nat) (fits : Bool) (s : State) : Host.Outcome State Fault Refusal :=
  let gq := qKey ctx q
  .next (match s.flightIn gq fun f => f.phase == .placed && dOp f.desc == 0x38 with
    | none => s
    | some f =>
      let i := d8 f.desc 0x10
      if f.bound then s.tryRegion f
      else if headerOk gq f.desc ∧ d8 f.desc 0x11 = 1 ∧ d64 f.desc 0x30 < s.gcnt then s.eqxDropped f
      else if i < 64 ∧ 2 ≤ s.rd .EQX_STREAM_CTRL_STATE i then
        (s.eqxNoSlot f).eqxReserved i fun s => s.ceStart gq 0x38 (eqxCheck fits)
      else s.ceStart gq 0x38 (eqxCheck fits))

/-! ## COMPOSE (R408, R416, R417) -/

/-- The KIND COMPOSE publishes for a stream now (R417). -/
def State.composeMode (s : State) (i : Nat) : Nat :=
  let x := s.stream i
  if x.src.isNone ∨ x.lost then 2 else if x.par.srcKind = 2 then 3 else 1

/-- The 64 bytes of a COMPOSE. -/
def composeDesc (fresh i mode n source : Nat) : List Byte :=
  natLe 1 0x39 ++ natLe 1 (Config.freeNat fresh 1 % 2 * 4) ++ natLe 2 0 ++ natLe 4 (Config.freeNat fresh 2) ++ natLe 4 0 ++
    natLe 4 (Config.freeNat fresh 3) ++ natLe 1 i ++ natLe 1 mode ++ natLe 2 0 ++ natLe 4 (m32 n) ++ natLe 4 (m32 source) ++ natLe 36 0

/-- R416: FC10 writes a COMPOSE for frame n into M0 and rings its doorbell. [DESIGN CHOICE: log 173] -/
def State.writeCompose (s : State) (i n : Nat) : State :=
  let q := s.queue qM0
  let x := s.stream i
  let f := s.fresh
  let d := composeDesc f i (s.composeMode i) n (x.src.elim 0 (·.id))
  let s : State := { s with fresh := f + 1, eqx := { s.eqx with m0 := s.eqx.m0.set [] q.sqTail d } }
  let s := s.setQueue qM0 { q with sqTail := m32 (q.sqTail + 1) }
  ((s.setStream i { s.stream i with composing := true }).eqxFire 2 i).eqxTenantLate i

/-- R407, R417: the slot a COMPOSE publishes. The PF0 address of a tenant's plane is not given: the REF of
a DIRECT slot on one is free. [DESIGN CHOICE: log 179] -/
def State.composeSlot (s : State) (i : Nat) (d : List Byte) : RingSlot :=
  let x := s.stream i
  let r : RingSlot := { frame := d32 d 0x14, scene := s.sceneOf i (d32 d 0x14), kind := d8 d 0x11 }
  match d8 d 0x11, x.src with
  | 1, some a =>
    let ctx := if x.par.tenant = 0xFFFF then pf0 else x.par.tenant
    let t := s.tensor ctx x.par.handle
    if x.par.srcKind = 0 then
      { r with
        source := t.version, bind := some (s.bindOf ctx x.par.handle)
        ref := if ctx = pf0 then t.curBuf else Config.freeNat s.fresh 407 % 2 ^ 48
        plane := a.plane.map fun p => (ctx, t.curBuf, p.2.2) }
    else { r with source := a.id, ref := Config.freeNat s.fresh 407 % 2 ^ 48, plane := a.plane }
  | 3, _ => { r with ref := (newestSlot x.ring fun _ => true).getD 0 }
  | _, _ => r

/-- R417: the body's rules. -/
def composeCheck (s : State) (gq : Nat) (d : List Byte) : Except (Nat × Nat) CeCmd :=
  let i := d8 d 0x10
  if 63 < i ∨ d8 d 0x11 = 0 ∨ 3 < d8 d 0x11 ∨ !(dZero d 0x12 0x14) ∨ !(dZero d 0x1C 0x40) ∨ s.rd .EQX_STREAM_CTRL_STATE i < 2 then
    .error (6, 0)
  else .ok
    { plan := {}, wait := (s.acquirable i).isNone
      go := fun s _ => (({ s with fresh := s.fresh + 1 } : State).takeSlot i gq 0x39 (s.composeSlot i d), {}) }

/-- R417: a placed COMPOSE starts. -/
def execCompose (ctx q : Nat) (s : State) : Host.Outcome State Fault Refusal :=
  .next (s.ceStart (qKey ctx q) 0x39 composeCheck)

/-! ## Commits (R405-R407, R423, R425) -/

/-- The slot of a command becomes PUBLISHED with its header; the newest frame and waiting stripes follow. -/
def State.publish (s : State) (i : Nat) (f : Flight) : State :=
  let x := s.stream i
  match x.ring.zipIdx.find? fun (rk : RingSlot × Nat) => rk.1.st == .pending && rk.1.owner == (f.gq, f.slot) with
  | none => s
  | some (r, k) =>
    let r := { r with st := .published, pub := x.pubs }
    let x := { x with ring := x.ring.set k r, pubs := x.pubs + 1 }
    let s := (s.setStream i x).stBytes pf0 (x.par.slotVA k) (slotHeader x.par.fmt r) 65 |>.1
    let newest := (newestSlot x.ring fun _ => true).elim 0xFFFFFFFF fun j => (x.ring.getD j {}).frame
    (s.wr .EQX_STREAM_NEWEST_FRAME i newest).fillWaits i

/-- R405: an UPSCALE of a rotation has committed; the last one makes the second sequence the stream's. -/
def State.eqxRotated (s : State) (i : Nat) : State :=
  let x := s.stream i
  if x.seq2 = 0 then s
  else if 1 < x.rot then s.setStream i { x with rot := x.rot - 1 }
  else
    let h := x.seq2 - 1
    let s := (s.freeSeq pf0 x.seqH).setStream i { x with seqH := h, seq2 := 0, rot := 0, resv := x.resvAll - s.seqPages h }
    s.eqxFire 9 i

/-- The tails an UPSCALE held are released at its commit (R273). -/
def State.freeTails (s : State) (f : Flight) : State :=
  s.each f.outs fun s h =>
    let q := s.seq pf0 h
    if q.tail.any (·.1 == f.gq) then s.setSeq pf0 h { q with tail := none } else s

/-- An EQX_FRAME commits (R399, R406, R425). A stream that is FAULTED or stopped publishes nothing. -/
def eqxAct (s : State) (f : Flight) : State :=
  let i := d8 f.desc 0x10
  if !f.bound then s
  else
    let s := s.freeTails f
    let s := if d8 f.desc 0x11 = 0 ∧ d32 f.desc 0x1C ≠ 0 then s.eqxRotated i else s
    if !(s.eqxRuns i) || (s.stream i).stopping then s.freeRingSlot f
    else
      let late := s.isLate i (d32 f.desc 0x24)
      let s := (s.publish i f).inc .EQX_STREAM_STAT_PUBLISHED i
      if late then
        let s := (s.inc .EQX_STREAM_STAT_LATE i).eqxFire 0 i
        if d8 f.desc 0x11 = 0 then s.eqxTenantLate i else s
      else s

/-- A COMPOSE commits (R417). -/
def composeAct (s : State) (f : Flight) : State :=
  let i := d8 f.desc 0x10
  if s.rd .EQX_STREAM_CTRL_STATE i < 2 then s.freeRingSlot f
  else (s.publish i f).inc .EQX_STREAM_STAT_COMPOSED i

/-- The firmware core that filled a queue consumes its records. [DESIGN CHOICE: log 174] -/
def State.consume (s : State) (gq : Nat) : State := s.setQueue gq { s.queue gq with cqHead := (s.queue gq).cqTail }

/-- What follows the record of an EQX_FRAME or COMPOSE: FC9 and FC10 take it, three failures in a row fault
the stream (R423), and a stop that waited ends. -/
def State.eqxRecorded (s : State) (f : Flight) (st : Nat) : State :=
  let i := d8 f.desc 0x10
  if dOp f.desc = 0x39 then
    let s : State := { s with eqx := { s.eqx with m0 := s.eqx.m0.set [] f.slot [] } }
    if i < 64 ∧ (s.stream i).composing then (s.setStream i { s.stream i with composing := false }).consume f.gq else s.consume f.gq
  else if dOp f.desc = 0x38 ∧ i < 64 ∧ (s.stream i).par.queue = f.gq % 512 then
    let x := s.stream i
    let bad := failing st
    let s := s.setStream i { x with out := x.out - 1, fails := if bad then x.fails + 1 else 0 }
    let s := if bad then s.inc .EQX_STREAM_STAT2_FAILED i else s
    let s := if bad ∧ x.fails = 2 ∧ s.eqxRuns i then (s.eqxFire 5 i).eqxState i 3 else s
    (s.consume f.gq).eqxSettle i
  else s

/-! ## Stream registers (R403, R413, R418, R421) -/

/-- R413: a write of EQX_HOMOG_CTRL. -/
def execHomogCommit (stream val : Nat) (s : State) : Host.Outcome State Fault Refusal :=
  .next (s.accessed .late fun s =>
    if 64 ≤ stream ∨ val % 2 = 0 then s
    else s.setStream stream { s.stream stream with
      homog := (List.range 9).map fun k => s.rd .EQX_HOMOG_STAGE_VALUE (stream * 9 + k) })

/-- R421: a write of CONSUMED that lowers it or passes the published count is ignored. -/
def execEqxMemReadWrite (stream val : Nat) (s : State) : Host.Outcome State Fault Refusal :=
  .next (s.accessed .late fun s =>
    let c := s.rd .EQX_MEM_READ_CONSUMED stream
    if 64 ≤ stream ∨ sub32 (m32 (s.stream stream).pubs) c < sub32 val c then s
    else s.wr .EQX_MEM_READ_CONSUMED stream val)

/-- R403: a read of EQX_STREAM_STAT. -/
def execEqxStreamStatRead (stream half : Nat) (s : State) : Host.Outcome State Fault Refusal :=
  .next (s.readBlk .late .EQX_STREAM_STAT stream half)

/-- R418: a read of EQX_STREAM_STAT2. -/
def execEqxStreamStat2Read (stream half : Nat) (s : State) : Host.Outcome State Fault Refusal :=
  .next (s.readBlk .late .EQX_STREAM_STAT2 stream half)

end Sys2Proof.Machine
end

