-- ==== Sys2Proof/Machine/VideoIn.lean ====
section
/-! DEFINITION. The video input ports: packets, frames, entries and the port's states (R451-R457). -/

namespace Sys2Proof.Machine

/-- Source k of port n fires (R457). -/
def State.vinFire (s : State) (n k : Nat) : State := s.fire (512 + 8 * n + k)

/-- VIN_STATUS.STATE changes. -/
def State.vinState (s : State) (n st : Nat) : State :=
  if s.rd .VIN_STATUS_STATE n = st then s else (s.wr .VIN_STATUS_STATE n st).vinFire n 7

def State.vport (s : State) (n : Nat) : VinPort := s.ports.get {} n

def State.setVport (s : State) (n : Nat) (x : VinPort) : State := { s with ports := s.ports.set {} n x }

/-- The PORT_PLAN of a port in force (R51). -/
def State.portPlan (s : State) (n : Nat) : List Byte :=
  ((tagged s.img.recs 0x60).find? fun r => d8 r.val 0 == n).elim [] (·.val)

/-- Its data type, lines and columns. -/
def planDt (v : List Byte) : Nat := d8 v 8
def planW (v : List Byte) : Nat := d16 v 10
def planH (v : List Byte) : Nat := d16 v 12

/-- The lane of a port that a channel feeds: the lowest channel of the mask (R455). -/
def State.fedLane (s : State) (n vc : Nat) : Option Nat :=
  let l := s.rd .VIN_STATUS_LANE n
  if l < 4 ∧ (bitsOf (s.rd .VIN_STATUS_VC_MASK n) 16).head? = some vc then some l else none

/-! ## Entries (R453-R455) -/

/-- Bytes of a line on the wire. -/
def lineBytes (dt w : Nat) : Nat := if dt = 0x2B then w * 10 / 8 else if dt = 0x2C then w * 12 / 8 else 2 * w

/-- The planes of an entry: pitch of each. -/
def planPitches (dt w : Nat) : List Nat := if dt = 0x1E then [up64 w, up64 (w / 2), up64 (w / 2)] else [up64 (2 * w)]

/-- Bytes of an entry. -/
def entryBytes (dt w h : Nat) : Nat := 64 + ((planPitches dt w).map (· * h)).foldl (· + ·) 0

/-- The samples of a line: RAW10 packs four samples in five bytes, RAW12 two in three, YUV carries U, Y, V, Y.
PRESUMED: the packings of CSI-2. The result is one row of bytes for each plane. [PRESUMED: log 200] -/
def lineRows (dt w : Nat) (bs : List Byte) : List (List Byte) :=
  if dt = 0x2B then
    [(List.range w).flatMap fun x => natLe 2 (d8 bs (x / 4 * 5 + x % 4) * 4 + bits (d8 bs (x / 4 * 5 + 4)) (x % 4 * 2) 2)]
  else if dt = 0x2C then
    [(List.range w).flatMap fun x => natLe 2 (d8 bs (x / 2 * 3 + x % 2) * 16 + bits (d8 bs (x / 2 * 3 + 2)) (x % 2 * 4) 4)]
  else
    [(List.range w).map fun x => bs.getD (2 * x + 1) 0, (List.range (w / 2)).map fun x => bs.getD (4 * x) 0,
      (List.range (w / 2)).map fun x => bs.getD (4 * x + 2) 0]

/-- The address of the entry of a channel's frame k: in its lane's input ring, or in its own ring as
PORT_START took it. -/
def State.vinEntry (s : State) (n vc k : Nat) : Nat :=
  match s.fedLane n vc with
  | some l => s.visIn l k
  | none =>
    let r := (s.vport n).rings.get (0, 0, 0) vc
    r.2.1 * 65536 + k % depthIn 2 16 r.2.2 * (r.1 * 65536)

/-- The entry of frame k is released (R351, R455). -/
def State.vinFree (s : State) (n vc k : Nat) : Bool :=
  match s.fedLane n vc with
  | some l => decide (k < (s.lane l).kP + depthIn 2 16 (s.rd .VIS_IN_BASE_IN_DEPTH l))
  | none =>
    decide (sub32 (m32 k) (s.rd .VIN_VC_REL_RELEASED (n * 16 + vc)) < depthIn 2 16 ((s.vport n).rings.get (0, 0, 0) vc).2.2)

/-- A channel has a frame in progress, or none (VIN_STATUS.ACTIVE_VC). -/
def State.setVinFrame (s : State) (n vc : Nat) (f : Option VinFrame) : State :=
  let x := s.vport n
  let a := s.rd .VIN_STATUS_ACTIVE_VC n
  match f with
  | some f => (s.setVport n { x with cur := x.cur.set ⟨0, 0⟩ vc f }).wr .VIN_STATUS_ACTIVE_VC n (setBit a vc)
  | none => (s.setVport n { x with cur := x.cur.set ⟨0, 0⟩ vc ⟨0, 0⟩ }).wr .VIN_STATUS_ACTIVE_VC n (clrBit a vc)

def State.vinFrame (s : State) (n vc : Nat) : Option VinFrame :=
  if (s.rd .VIN_STATUS_ACTIVE_VC n).testBit vc then some ((s.vport n).cur.get ⟨0, 0⟩ vc) else none

/-- A frame in progress is dropped as damaged (R453). [DEDUCED: log 199] -/
def State.vinDamage (s : State) (n vc : Nat) : State :=
  if (s.vinFrame n vc).isSome then ((s.setVinFrame n vc none).inc .VIN_ERR_DAMAGED n).vinFire n 3 else s

/-- Every frame in progress is given up. -/
def State.vinDropAll (s : State) (n : Nat) : State :=
  (s.setVport n { s.vport n with cur := [] }).wr .VIN_STATUS_ACTIVE_VC n 0

/-- R455: a write outside the partition's sets: the port stops. -/
def State.vinFault (s : State) (n : Nat) : State := ((s.vinDropAll n).vinFire n 6).vinState n 4

/-- Write chunks of an entry; the first that leaves the port's partition is not performed and faults it. -/
def State.vinWrite (s : State) (n : Nat) : List Chunk → State
  | [] => s
  | c :: cs =>
    match s.strayPa (s.rd .VIN_STATUS_PARTITION n) c.va c.data.length with
    | some _ => s.vinFault n
    | none => (s.paWrite c.va c.data (c.data.length + 1)).vinWrite n cs

/-- The chunks of line y of an entry. -/
def lineChunks (dt w h entry y : Nat) (bs : List Byte) : List Chunk :=
  let ps := planPitches dt w
  (lineRows dt w bs).zipIdx.map fun (rp : List Byte × Nat) =>
    ⟨entry + 64 + ((ps.take rp.2).map (· * h)).foldl (· + ·) 0 + y * ps.getD rp.2 0, rp.1⟩

/-! ## Packets (R451-R454) -/

/-- The port's receivers are on. -/
def State.vinOn (s : State) (n : Nat) : Bool := decide (n < 8) && (s.rd .VIN_STATUS_STATE n == 2 || s.rd .VIN_STATUS_STATE n == 3)

/-- A packet of another data type or of a channel outside the mask (R452). -/
def State.vinDiscard (s : State) (n : Nat) : State := (s.inc .VIN_ERR_OTHER n).vinFire n 4

def State.inMask (s : State) (n vc : Nat) : Bool := decide (vc < 16) && (s.rd .VIN_STATUS_VC_MASK n).testBit vc

/-- What a header's ECC reports; the frame of the channel it names is damaged by one that cannot be read. -/
def State.vinHeader (s : State) (n vc : Nat) (ecc : EccResult) : State :=
  match ecc with
  | .clean => s
  | .corrected => s.inc .VIN_ERR_ECC_CORRECTED n
  | .uncorrectable => ((s.inc .VIN_ERR_ECC_FAIL n).vinFire n 4).vinDamage n vc

/-- R453: a Frame Start. A port that is stopping begins no frame. -/
def State.frameStart (s : State) (n vc : Nat) : State :=
  if !(s.inMask n vc) then s.vinDiscard n
  else
    let s := s.vinDamage n vc
    if s.rd .VIN_STATUS_STATE n = 3 then s
    else if s.vinFree n vc ((s.vport n).k.get 0 vc) then (s.setVinFrame n vc (some ⟨s.gcnt, 0⟩)).vinFire n 0
    else (s.inc .VIN_ERR_DROPPED n).vinFire n 2

/-- R453: a long packet. Lines past the frame's last are counted and not written. -/
def State.longPacket (s : State) (n vc dt : Nat) (payload : List Byte) (ecc : EccResult) (crcOk : Bool) : State :=
  let s := s.vinHeader n vc ecc
  let v := s.portPlan n
  if ecc = .uncorrectable then s
  else if !(s.inMask n vc) || dt != planDt v then s.vinDiscard n
  else
    let s := if crcOk then s else s.inc .VIN_ERR_CRC n
    match s.vinFrame n vc with
    | none => s
    | some f =>
      if !crcOk || payload.length != lineBytes dt (planW v) then s.vinDamage n vc
      else
        let s := s.setVinFrame n vc (some { f with lines := f.lines + 1 })
        if planH v ≤ f.lines then s
        else s.vinWrite n (lineChunks dt (planW v) (planH v) (s.vinEntry n vc ((s.vport n).k.get 0 vc)) f.lines payload)

/-- The header of an entry but for FRAME (R454). -/
def vinHeaderBytes (f : VinFrame) (vc dt g : Nat) : List Byte :=
  natLe 8 f.gcnt ++ natLe 1 vc ++ natLe 1 dt ++ natLe 2 0 ++ natLe 4 f.lines ++ natLe 8 g ++ natLe 32 0

/-- R454: a frame is published: its header, FRAME last, and the lane's trigger. -/
def State.vinPublish (s : State) (n vc : Nat) (f : VinFrame) : State :=
  let k := (s.vport n).k.get 0 vc
  let e := s.vinEntry n vc k
  let s := s.vinWrite n [⟨e + 8, vinHeaderBytes f vc (planDt (s.portPlan n)) s.gcnt⟩, ⟨e, natLe 8 k⟩]
  if s.rd .VIN_STATUS_STATE n = 4 then s
  else
    let s := s.setVinFrame n vc none
    let s := (s.setVport n { s.vport n with k := (s.vport n).k.set 0 vc (k + 1) }).wr .VIN_VC_REL_PUBLISHED (n * 16 + vc) (k + 1)
    let s := s.vinFire n 1
    match s.fedLane n vc with
    | some l => if s.visCounts l ∧ ¬ (s.lane l).unbind then s.visAdd l .VIS_TRIG_PYR .VIS_TRIG_OVF_PYR 1 else s
    | none => s

/-- R453, R454: a Frame End. -/
def State.frameEnd (s : State) (n vc : Nat) : State :=
  if !(s.inMask n vc) then s.vinDiscard n
  else match s.vinFrame n vc with
  | none => s
  | some f => if f.lines ≠ planH (s.portPlan n) then s.vinDamage n vc else s.vinPublish n vc f

/-! ## Starting and stopping (R452, R455, R456) -/

/-- The geometry rules of PORT_START. -/
def State.portGeomOk (s : State) (n : Nat) : Bool :=
  let v := s.portPlan n
  let dt := planDt v
  let w := planW v
  let h := planH v
  let odd := if dt = 0x2B then w % 4 != 0 else if dt = 0x2C then w % 2 != 0 || h % 2 != 0 else w % 2 != 0
  let need := entryBytes dt w h
  let fmt := if dt = 0x2B then 1 else if dt = 0x2C then 2 else 0
  !odd && (bitsOf (s.rd .VIN_STATUS_VC_MASK n) 16).all fun vc =>
    match s.fedLane n vc with
    | some l =>
      s.rd .VIS_IN_GEOM_FORMAT l == fmt && s.rd .VIS_IN_GEOM_W l == w && s.rd .VIS_IN_GEOM_H l == h &&
        s.rd .VIS_IN_GEOM_PITCH l * 64 == (planPitches dt w).headD 0 && decide (need ≤ s.rd .VIS_IN_GEOM_ENTRY l * 65536)
    | none => decide (need ≤ s.rd .VIN_VC_RING_ENTRY (n * 16 + vc) * 65536)

/-- HEAD_START and the other commands of heads and ports: a number at 0x10, the rest reserved. -/
def unitBody (d : List Byte) : Option Nat := if d8 d 0x10 < 8 ∧ dZero d 0x11 0x40 then some (d8 d 0x10) else none

/-- The command that waits at a head or port still runs. -/
def State.waits (s : State) (w : Option (Nat × Nat)) : Option Flight :=
  match w with
  | some (gq, k) => s.flights.find? fun f => f.gq == gq && f.slot == k && f.phase == .running
  | none => none

/-- R456: validation of PORT_START. [DEDUCED: log 201] -/
def portStartCheck (s : State) (d : List Byte) : Except (Nat × Nat) Plan :=
  match unitBody d with
  | none => .error (6, 0)
  | some n =>
    let st := s.rd .VIN_STATUS_STATE n
    if st = 0 ∨ s.testing 5 n ∨ s.testFailed 5 n then .error (0x0A, 0)
    else if !(bit (d8 (s.portPlan n) 1) 0) || !(s.portGeomOk n) then .error (6, 0)
    else if st = 2 ∨ st = 3 then .error (5, 0)
    else .ok {}

/-- R456: k is 0 on every channel and the port leaves reset. -/
def State.portBegin (s : State) (n : Nat) : State :=
  let s := s.each (List.range 16) fun s vc => (s.wr .VIN_VC_REL_PUBLISHED (n * 16 + vc) 0).wr .VIN_VC_REL_RELEASED (n * 16 + vc) 0
  let rings := (List.range 16).map fun vc =>
    let u := n * 16 + vc
    (vc, (s.rd .VIN_VC_RING_ENTRY u, s.rd .VIN_VC_RING_ADDR u, s.rd .VIN_VC_RING_DEPTH u))
  ((s.setVport n { rings := rings.foldl (fun m r => Sparse.set (0, 0, 0) m r.1 r.2) [] }).vinDropAll n).vinState n 2

/-- The port returns to reset, and the PORT_STOP that waits for it is over. -/
def State.portReset (s : State) (n : Nat) : State :=
  let w := s.waits (s.vport n).stop
  let s := ((s.vinDropAll n).setVport n {}).vinState n 1
  match w with
  | some f => (s.setFlight { f with phase := .ended, endG := s.gcnt }).tryCommit f.gq 0x3F noAct
  | none => s

/-- A stopping port with no frame in progress returns to reset. -/
def State.portSettle (s : State) (n : Nat) : State :=
  if s.rd .VIN_STATUS_STATE n = 3 ∧ s.rd .VIN_STATUS_ACTIVE_VC n = 0 then s.portReset n
  else if s.rd .VIN_STATUS_STATE n = 4 ∧ (s.vport n).stop.isSome then s.portReset n
  else s

/-- R456: PORT_START. -/
def execPortStart (ctx q : Nat) (s : State) : Host.Outcome State Fault Refusal :=
  let gq := qKey ctx q
  .next (s.startCmd gq 0x3E noAct portStartCheck notBlocked (fun s f _ =>
    (s.portBegin (d8 f.desc 0x10), { f with phase := .ended, endG := s.gcnt })) fun s => s.tryCommit gq 0x3E noAct)

/-- R456, R162: validation of PORT_STOP. A port that has faulted has stopped. -/
def portStopCheck (s : State) (d : List Byte) : Except (Nat × Nat) Plan :=
  match unitBody d with
  | none => .error (6, 0)
  | some n => if s.vinOn n then .ok {} else .error (5, 0)

/-- R456: PORT_STOP acts at once where no frame is in progress; a second one waits for the first. -/
def execPortStop (ctx q : Nat) (s : State) : Host.Outcome State Fault Refusal :=
  let gq := qKey ctx q
  .next (s.startCmd gq 0x3F noAct portStopCheck (fun s d => (s.waits (s.vport (d8 d 0x10)).stop).isSome) (fun s f _ =>
    let n := d8 f.desc 0x10
    ((s.setVport n { s.vport n with stop := some (gq, f.slot) }).vinState n 3, f))
    fun s => s.each (List.range 8) State.portSettle)

/-- R455, R587: a write of VIN_VC_REL. -/
def execVinVcRelWrite (port vc half val : Nat) (s : State) : Host.Outcome State Fault Refusal :=
  .next (s.accessed .late fun s =>
    let u := port * 16 + vc
    let r := s.rd .VIN_VC_REL_RELEASED u
    let v := val % 2 ^ 32
    if 8 ≤ port ∨ 16 ≤ vc ∨ half = 2 ∨ sub32 (s.rd .VIN_VC_REL_PUBLISHED u) r < sub32 v r then s
    else s.wr .VIN_VC_REL_RELEASED u v)

/-- R457: a start-of-transmission, deskew or lane synchronisation error. -/
def execPhyError (port : Nat) (s : State) : Host.Outcome State Fault Refusal :=
  .next (if s.vinOn port then s.vinFire port 5 else s)

/-- R453: a read of VIN_ERR. -/
def execVinErrRead (port half : Nat) (s : State) : Host.Outcome State Fault Refusal :=
  .next (s.readBlk .late .VIN_ERR port half)

end Sys2Proof.Machine
end

