-- ==== Sys2Proof/Machine/Display.lean ====
section
/-! DEFINITION. A display head: its link and its training, AUX, the warp stage's events, the fetch, the
frame lock, and the starting and stopping of a head (R409, R410, R416, R426-R450). -/

namespace Sys2Proof.Machine

/-- Source k of head h fires (R439). -/
def State.dspFire (s : State) (h k : Nat) : State := s.fire (448 + 8 * h + k)

/-! ## The link (R427-R433) -/

/-- What DSP_STATUS.STATE and DSP_LINK hold. -/
def State.linkNow (s : State) (h : Nat) : List Nat :=
  [s.rd .DSP_STATUS_STATE h, s.rd .DSP_LINK_RETRAINS h, s.rd .DSP_LINK_FALLBACK h, s.rd .DSP_LINK_LTTPRS h,
    s.rd .DSP_LINK_ASYNC h, s.rd .DSP_LINK_DSC h, s.rd .DSP_LINK_RATE h, s.rd .DSP_LINK_LANES h]

/-- A change of a head's link: HPD fires for `sure` reasons and when the state or the link changes (R439).
A host AUX transaction that waited for the training's end starts when the head leaves TRAINING (R435). -/
def State.linked (s : State) (h : Nat) (sure : Bool) (g : State → State) : State :=
  let t := g s
  let t := if t.rd .DSP_STATUS_STATE h = 3 then t else t.setHead h { t.head h with auxWait := false }
  t.fireIf (sure || t.linkNow h != s.linkNow h) (448 + 8 * h + 7)

/-- Set DSP_STATUS.STATE and REASON. -/
def State.linkState (s : State) (h st reason : Nat) : State := (s.wr .DSP_STATUS_STATE h st).wr .DSP_STATUS_REASON h reason

/-- DSP_LINK reads no link; RETRAINS is kept. -/
def State.linkDown (s : State) (h : Nat) : State :=
  s.each [Fld.DSP_LINK_FALLBACK, .DSP_LINK_LTTPRS, .DSP_LINK_ASYNC, .DSP_LINK_DSC, .DSP_LINK_RATE, .DSP_LINK_LANES]
    fun s f => s.resetUnit f h

/-- Lane rates by code, in units of 10 Mbit/s (R50, R426). -/
def laneRate (r : Nat) : Nat := [162, 270, 540, 810, 1000, 1350, 2000].getD r 0

/-- BPC: 8 or 10; other values act as 8 (R427). -/
def State.bpc (s : State) (h : Nat) : Nat := if s.rd .DSP_LINK_CFG_BPC h = 10 then 10 else 8

/-- Bits per pixel on the link, in 1/16 (R427). -/
def State.linkBpp (s : State) (h : Nat) : Nat :=
  if (s.plan h).dsc then s.rd .DSP_LINK_CFG_DSC_BPP h else 48 * s.bpc h

/-- R427: a mode fits `lanes` lanes at rate code `r`, with `bpp` sixteenths of a bit per pixel. -/
def HeadPlan.fits (p : HeadPlan) (bpp lanes r : Nat) : Bool :=
  let eff := if 4 ≤ r then (128, 132) else if p.dsc then (78, 100) else (80, 100)
  decide (p.pixclk * 100000 * bpp * eff.2 ≤ lanes * laneRate r * 10 ^ 7 * eff.1 * 97 * 16)

/-- Slices per line; what a value that is not listed does is not given: it acts as one that is. [DESIGN CHOICE: log 190] -/
def State.slices (s : State) (h : Nat) : Nat :=
  let n := s.rd .DSP_LINK_CFG_DSC_SLICES h
  if [1, 2, 4, 8, 16].contains n then n else 2 ^ (Config.freeNat n 426 % 5)

/-- R430: the sink cannot take the compression the plan asks for. -/
def State.dscBad (s : State) (h : Nat) (k : Sink) : Bool :=
  (s.plan h).dsc && (!k.dsc || decide (k.slice < ceilDiv (s.plan h).hActive (s.slices h)))

/-- The ladder at (L, r): an attempt, or no link where the mode does not fit (R430). -/
def State.ladder (s : State) (h lanes r : Nat) : State :=
  let x := s.head h
  let s := (s.setHead h { x with lanes := lanes, rate := r }).linkDown h
  if (s.plan h).fits x.bpp lanes r then s.linkState h 3 0 else s.linkState h 5 1

/-- A training begins (R428, R430): from the plan, or from (L, r). -/
def State.train (s : State) (h : Nat) (start : Option (Nat × Nat)) : State :=
  let x := s.head h
  let p := s.plan h
  match x.sink with
  | none => (s.linkDown h).linkState h 2 0
  | some k =>
    let s := if x.trains = 0 then s else s.inc .DSP_LINK_RETRAINS h
    let s := (s.setHead h { x with bpp := s.linkBpp h, trains := x.trains + 1 }).linkDown h
    if s.dscBad h k then s.linkState h 5 2
    else
      let lr := start.getD (min p.lanes k.lanes, min p.rate k.rate)
      s.ladder h lr.1 lr.2

/-- The link carries the picture (R430, R431). -/
def State.linkUp (s : State) (h : Nat) : State :=
  let x := s.head h
  let p := s.plan h
  let k := x.sink.getD ⟨0, 0, false, 0, false, 0⟩
  let low := decide (x.lanes < p.lanes) || decide (x.rate < p.rate)
  let s := (((s.linkState h 4 0).wr .DSP_LINK_LANES h x.lanes).wr .DSP_LINK_RATE h x.rate).wr .DSP_LINK_DSC h (b2n p.dsc)
  ((s.wr .DSP_LINK_ASYNC h (b2n (p.async && k.async))).wr .DSP_LINK_LTTPRS h k.lttprs).wr .DSP_LINK_FALLBACK h (b2n low)

/-- An IRQ_HPD's status is acted on (R434): a lost link trains again, from the trained (L, r) where there is
one (R431). [DEDUCED: log 191] -/
def State.irqAct (s : State) (h : Nat) (lost : Bool) : State :=
  let x := s.head h
  if !lost || !x.on then s
  else if s.rd .DSP_STATUS_STATE h = 4 then s.train h (some (x.lanes, x.rate))
  else if s.rd .DSP_STATUS_STATE h = 5 then s.train h none
  else s

/-- A training attempt has failed; `held` says that clock recovery held on lane 0 only (1) or on lanes 0
and 1 only (2). -/
def State.ladderDown (s : State) (h held : Nat) : State :=
  let x := s.head h
  if held = 1 ∧ 1 < x.lanes then s.ladder h 1 x.rate
  else if held = 2 ∧ 2 < x.lanes then s.ladder h 2 x.rate
  else if x.rate = 0 then (s.linkDown h).linkState h 5 3
  else s.ladder h x.lanes (x.rate - 1)

/-- R434: HPD rises after 0.25-2 ms; `lost` is what the link status reports. -/
def execHpdRise (head : Nat) (lost : Bool) (s : State) : Host.Outcome State Fault Refusal :=
  .next (
    if 8 ≤ head ∨ (s.head head).sink.isNone ∨ s.rd .DSP_STATUS_STATE head = 0 then s
    else s.linked head true fun s =>
      let s := s.wr .DSP_STATUS_IRQ_HPD head 1
      if s.rd .DSP_STATUS_STATE head = 3 then s.setHead head { s.head head with irqLost := some lost } else s.irqAct head lost)

/-- R430, R434: HPD has been low for 2 ms. -/
def execUnplug (head : Nat) (s : State) : Host.Outcome State Fault Refusal :=
  .next (
    if 8 ≤ head ∨ (s.head head).sink.isNone then s
    else
      let s := s.setHead head { s.head head with sink := none, irqLost := none }
      if s.rd .DSP_STATUS_STATE head = 0 then s
      else s.linked head true fun s => if (s.head head).on then (s.linkDown head).linkState head 2 0 else s)

/-- R429, R434: HPD has been high for 2 ms, with a sink on the connector. [DESIGN CHOICE: log 189] -/
def execPlug (head : Nat) (sink : Sink) (s : State) : Host.Outcome State Fault Refusal :=
  .next (
    if 8 ≤ head ∨ (s.head head).sink.isSome then s
    else
      let s := s.setHead head { s.head head with sink := some sink }
      if s.rd .DSP_STATUS_STATE head = 0 then s
      else s.linked head true fun s => if (s.head head).on then s.train head none else s)

/-- R430: a training attempt ends. -/
def execTrainingAttemptEnd (head : Nat) (ok : Bool) (held : Nat) (s : State) : Host.Outcome State Fault Refusal :=
  .next (
    if 8 ≤ head ∨ s.rd .DSP_STATUS_STATE head ≠ 3 then s
    else s.linked head false fun s =>
      let s := if ok then s.linkUp head else s.ladderDown head held
      match (s.head head).irqLost with
      | some lost => (s.setHead head { s.head head with irqLost := none }).irqAct head lost
      | none => s)

/-! ## AUX (R435) -/

/-- R435: a write of DSP_AUX_CTRL. [DEDUCED: log 192] -/
def execAuxStart (head val : Nat) (s : State) : Host.Outcome State Fault Refusal :=
  .next (s.accessed .late fun s =>
    if 8 ≤ head then s
    else
      let s := ((s.wr .DSP_AUX_CTRL_CMD head (bits val 52 4)).wr .DSP_AUX_CTRL_LEN head (bits val 40 4)).wr
        .DSP_AUX_CTRL_ADDR head (bits val 20 20)
      if bits val 60 4 ≠ 1 ∨ s.rd .DSP_AUX_CTRL_RESULT head = 1 then s
      else
        let s := s.wr .DSP_AUX_CTRL_REPLY_LEN head 0
        if (s.head head).sink.isNone ∨ s.rd .DSP_STATUS_STATE head = 0 then s.wr .DSP_AUX_CTRL_RESULT head 5
        else (s.wr .DSP_AUX_CTRL_RESULT head 1).setHead head { s.head head with auxWait := s.rd .DSP_STATUS_STATE head == 3 })

/-- R435: a transaction ends with RESULT code `res`; the bytes of a reply to a read are stored. -/
def execAuxDone (head res : Nat) (reply : List Byte) (s : State) : Host.Outcome State Fault Refusal :=
  .next (
    if 8 ≤ head ∨ s.rd .DSP_AUX_CTRL_RESULT head ≠ 1 ∨ (s.head head).auxWait ∨ ¬ [0, 2, 3, 4].contains res then s
    else
      let s := s.wr .DSP_AUX_CTRL_RESULT head res
      if res ≠ 0 ∨ s.rd .DSP_AUX_CTRL_CMD head % 2 = 0 then s
      else
        let bs := reply.take (s.rd .DSP_AUX_CTRL_LEN head + 1)
        let s := s.wr .DSP_AUX_CTRL_REPLY_LEN head bs.length
        s.each bs.zipIdx fun s bi =>
          let u := head * 4 + bi.2 / 4
          let sh := 2 ^ (8 * (bi.2 % 4))
          let w := s.rd .DSP_AUX_DATA_DATA u
          s.wr .DSP_AUX_DATA_DATA u (w - bits w (8 * (bi.2 % 4)) 8 * sh + bi.1.toNat * sh))

/-! ## The warp stage's events (R408-R410, R416, R418) -/

/-- The stream that warps for a running head. -/
def State.warping (s : State) (h : Nat) : Option Nat :=
  if !(s.head h).on then none
  else (s.headStream h).filter fun i => (s.stream i).par.head == some h && decide (2 ≤ s.rd .EQX_STREAM_CTRL_STATE i)

/-- R439: LINE_A and LINE_B name the warp stage's next events. -/
def State.warpLines (s : State) (h : Nat) : State :=
  let x := s.head h
  let p := s.plan h
  if (s.warping h).isSome then
    (s.wr .DSP_LINEMATCH_LINE_A h (p.lineOf x.aS (p.warpLead + 32))).wr .DSP_LINEMATCH_LINE_B h (p.lineOf x.bS p.warpLead)
  else (s.wr .DSP_LINEMATCH_LINE_A h 0xFFFF).wr .DSP_LINEMATCH_LINE_B h 0xFFFF

/-- R408: DIRECT slots whose age has reached MAX_AGE + 1 at refresh r are reclaimed. -/
def State.dropDirect (s : State) (i r : Nat) : State :=
  let x := s.stream i
  s.setStream i { x with ring := x.ring.zipIdx.map fun (rk : RingSlot × Nat) =>
    if rk.1.st = .published ∧ rk.1.kind = 1 ∧ rk.1.frame + x.par.maxAge < r ∧ ¬ s.slotHeld i rk.2 then {} else rk.1 }

/-- R416: event A of the next stripe. -/
def State.eventA (s : State) (h i : Nat) : State :=
  let x := s.head h
  let s := s.dspFire h 1
  let s := if x.aS = 0 then s.dropDirect i x.aR else s
  let st := s.stream i
  let s := if ((st.select x.aR).isNone && !st.composing && !(s.brg.fcDown.contains 10)) then s.writeCompose i x.aR else s
  let n := (s.plan h).nextStripe x.aS x.aR
  (s.setHead h { s.head h with aS := n.1, aR := n.2 }).warpLines h

/-- R416: the line of LINE_A is reached. -/
def execLineMatchA (head : Nat) (s : State) : Host.Outcome State Fault Refusal :=
  .next (match s.warping head with
    | some i => if 8 ≤ head then s else s.eventA head i
    | none => s)

/-- R410, R418: event B of the next stripe selects a slot and starts the warp, or waits. -/
def State.eventB (s : State) (h i : Nat) : State :=
  let x := s.head h
  let s := s.dspFire h 2
  let st := s.stream i
  let w : Warp :=
    { stripe := x.bS, refresh := x.bR, slot := st.select x.bR, gB := s.gcnt, mode := s.rd .EQX_STREAM_CTRL_WARP_MODE i
      homog := st.homog }
  let s := if w.slot.isNone then s.inc .EQX_STREAM_STAT2_STALE_WAITS i else s
  let n := (s.plan h).nextStripe x.bS x.bR
  ((s.setHead h { s.head h with bS := n.1, bR := n.2, warps := x.warps ++ [w] }).warpLines h).tryWarp h

/-- R410: the line of LINE_B is reached. -/
def execLineMatchB (head : Nat) (s : State) : Host.Outcome State Fault Refusal :=
  .next (match s.warping head with
    | some i => if 8 ≤ head then s else s.eventB head i
    | none => s)

/-- R410: the stripe that is being warped is complete in its entry. -/
def execStripeWarpDone (head : Nat) (s : State) : Host.Outcome State Fault Refusal :=
  .next (match s.warping head, (s.head head).warps with
    | some i, w :: ws =>
      match w.on, w.slot with
      | true, some k =>
        let s := s.writeStripe head i w k
        let x := s.head head
        (s.setHead head { x with
          warps := ws, ents := x.ents.set (w.stripe % 4) (some ⟨w.stripe, w.refresh, true⟩) }).tryWarp head
      | _, _ => s
    | _, _ => s)

/-! ## The fetch (R441-R443) -/

/-- The fetch takes plane 0 from the stripe ring: a stream is routed to the head and plane 0 is in STREAM
mode. -/
def State.fetchesRing (s : State) (h : Nat) : Bool :=
  (s.headStream h).isSome && ((s.head h).planes.getD 0 {}).mode == 0

/-- Line y of plane 0; a fault gives the pixel. A disabled plane, or one whose MODE disagrees with the
routing, is black. -/
def State.baseLine (s : State) (h y : Nat) : Except Nat (List Rgb) :=
  let p := s.plan h
  let l := (s.head h).planes.getD 0 {}
  let black := List.replicate p.hActive ((0, 0, 0) : Rgb)
  let ring := s.fetchesRing h
  if !l.on || (!ring && ((s.headStream h).isSome || l.mode == 0)) then .ok black
  else
    let va := if ring then s.entryVA h (y / 64 % 4) + y % 64 * up64 (p.hActive * 4) else l.va + y * (l.pitch * 64)
    match s.ldBytes pf0 va (p.hActive * 4) with
    | .error e => .error ((e.2 - va) / 4)
    | .ok bs =>
      .ok ((List.range p.hActive).map fun x => texel10 (if ring || l.fmt == 1 then 3 else 2) (leNat ((bs.drop (4 * x)).take 4)))

/-- Planes 1-3 over a line, in ascending order; a plane that faults is transparent for the rest of the
refresh. -/
def State.planeLine (s : State) (h refresh wa y : Nat) (line : List Rgb) : State × List Rgb :=
  [1, 2, 3].foldl (fun (acc : State × List Rgb) j =>
    let s := acc.1
    let x := s.head h
    match s.overLine (x.planes.getD j {}) refresh wa y acc.2 with
    | some l => (s, l)
    | none => (s.setHead h { x with planes := x.planes.set j { x.planes.getD j {} with fault := some refresh } }, acc.2)) (s, line)

/-- A pixel's 30 bits. -/
def rgbWord (c : Rgb) : Nat := c.1 + c.2.1 * 2 ^ 10 + c.2.2 * 2 ^ 20

/-- The active lines of a refresh after an underrun at a line and pixel: black from there (R445). -/
def cutLines (p : HeadPlan) (out : List (List Nat)) (line pixel : Nat) : List (List Nat) :=
  (List.range p.vActive).map fun y =>
    let l := out.getD y []
    let keep := if y < line then l else if y = line then l.take pixel else []
    keep ++ List.replicate (p.hActive - keep.length) 0

/-- R445, R446: the head declares underrun. -/
def State.underrun (s : State) (h line pixel : Nat) : State :=
  let x := s.head h
  let r := x.refs - 1
  let next := fun (a b : Nat) => if b ≤ r then ((0 : Nat), r + 1) else (a, b)
  let a := next x.aS x.aR
  let b := next x.bS x.bR
  let s := (s.dspFire h 6).inc .DSP_UNDERRUN_COUNT h
  let s := ((s.inc .DSP_UNDERRUN_CONSECUTIVE h).wr .DSP_UNDERRUN_LAST_LINE h line).wr .DSP_UNDERRUN_LAST_PIXEL h pixel
  let limit := s.img.underrunLimit != 0 && decide (s.img.underrunLimit ≤ s.rd .DSP_UNDERRUN_CONSECUTIVE h)
  let s := s.setHead h { x with
    under := true, limit := x.limit || limit, out := cutLines (s.plan h) x.out line pixel
    ents := x.ents.map fun e => e.filter fun q => decide (r < q.refresh)
    warps := x.warps.filter fun w => decide (r < w.refresh)
    aS := a.1, aR := a.2, bS := b.1, bR := b.2 }
  (s.warpLines h).tryWarp h

/-- Fetch lines one after another; a fault of plane 0 is an underrun at its pixel (R441). -/
def State.fetchLines (s : State) (h refresh : Nat) : List Nat → State
  | [] => s
  | y :: ys =>
    if (s.head h).under then s
    else match s.baseLine h y with
    | .error x => if s.rd .DSP_STATUS_STATE h = 4 then s.underrun h y x
      else s.setHead h { s.head h with under := true, out := cutLines (s.plan h) (s.head h).out y x }
    | .ok l =>
      let r := s.planeLine h refresh (s.plan h).hActive y l
      (r.1.setHead h { r.1.head h with out := (r.1.head h).out ++ [r.2.map rgbWord] }).fetchLines h refresh ys

/-- R442: the fetch's last read of a stripe frees its entry. -/
def execStripeEntryFreed (head : Nat) (s : State) : Host.Outcome State Fault Refusal :=
  .next (
    let x := s.head head
    match x.ents.getD (x.fS % 4) none with
    | some e =>
      if 8 ≤ head ∨ ¬ x.on ∨ x.under ∨ ¬ e.done ∨ e.stripe ≠ x.fS then s
      else
        let s := if s.fetchesRing head then s.fetchLines head e.refresh ((s.plan head).stripeLines e.stripe) else s
        let x := s.head head
        (s.setHead head { x with ents := x.ents.set (e.stripe % 4) none, fS := x.fS + 1 }).tryWarp head
    | none => s)

/-- R445: the pixel pipe needs an active pixel and the FIFO holds none. Lines that the fetch had read from a
complete entry it has not freed are in the picture up to that pixel. -/
def execUnderrun (head line pixel : Nat) (s : State) : Host.Outcome State Fault Refusal :=
  .next (
    let x := s.head head
    let p := s.plan head
    if 8 ≤ head ∨ ¬ x.on ∨ x.under ∨ s.rd .DSP_STATUS_STATE head ≠ 4 ∨ x.refs = 0 ∨ p.vActive ≤ line ∨ p.hActive ≤ pixel then s
    else
      let more := (List.range (line + 1)).filter fun y =>
        decide (x.out.length ≤ y) && x.ents.any fun e => e.elim false fun q => q.done && q.stripe == y / 64 && decide (q.refresh < x.refs)
      let s := s.fetchLines head (x.refs - 1) more
      if (s.head head).under then s else s.underrun head line pixel)

/-- R439, R446: the last active pixel of a refresh leaves the pixel pipe, with the two low bits of each
channel dropped at 8 bits per component (R443). -/
def execHeadFrameDone (head : Nat) (s : State) : Host.Outcome State Fault Refusal :=
  .next (
    let x := s.head head
    if 8 ≤ head ∨ ¬ x.on then s
    else
      let s := (s.dspFire head 5).setHead head { x with
        shown := if s.rd .DSP_STATUS_STATE head ≠ 4 ∨ x.refs = 0 then x.shown
          else if s.bpc head = 10 then x.out
          else x.out.map fun l => l.map fun c =>
            bits c 2 8 * 4 + bits c 12 8 * 2 ^ 12 + bits c 22 8 * 2 ^ 22 }
      if x.under then s else s.wr .DSP_UNDERRUN_CONSECUTIVE head 0)

/-! ## Line 0 and the frame lock (R436, R447, R448) -/

/-- e: GCNT minus the nearest target. -/
def lockError (g target period : Nat) : Int :=
  let d := (g : Int) - (target : Int)
  if period = 0 then d else d - (2 * d + period) / (2 * period) * period

/-- V_TOTAL + d within VT_MIN to VT_MAX. -/
def State.vtClamp (s : State) (h : Nat) (v : Int) : Int :=
  let vt := (s.plan h).vTotal
  let lo := if s.rd .DSP_ASYNC_VT_MIN h = 0 then vt else s.rd .DSP_ASYNC_VT_MIN h
  let hi := if s.rd .DSP_ASYNC_VT_MAX h = 0 then vt else s.rd .DSP_ASYNC_VT_MAX h
  max (lo : Int) (min (hi : Int) v)

/-- The correction of a locked head at line 0. With PERIOD 0 the trim is not given: free. [DEDUCED: log 194] -/
def State.lockStep (s : State) (h : Nat) : State :=
  let x := s.head h
  let p := s.plan h
  let per := s.rd .DSP_LOCK_CTRL_PERIOD h
  let e := lockError s.gcnt (s.rd .DSP_LOCK_GCNT_GCNT h) per
  let sat := max (-(2 : Int) ^ 31) (min ((2 : Int) ^ 31 - 1) e)
  let s := s.wr .DSP_LOCK_ERR_ERROR h (sat % (2 : Int) ^ 32).toNat
  let inside := decide (e.natAbs * p.pixclk ≤ p.hTotal * 100000)
  let n := if inside then x.inLock + 1 else 0
  let s := (s.setHead h { x with inLock := n }).wr .DSP_LOCK_CTRL_LOCKED h (b2n (decide (8 ≤ n)))
  if s.rd .DSP_LINK_ASYNC h = 1 then
    let d := -((e * p.pixclk).tdiv (p.hTotal * 100000))
    s.setHead h { s.head h with d := s.vtClamp h ((p.vTotal : Int) + d) - p.vTotal }
  else
    let f := s.fresh
    let t := if per = 0 then (Config.freeNat f 448 % 1001 : Int) - 500 else max (-500) (min 500 (-((e * 500000).tdiv per)))
    let s : State := if per = 0 then { s with fresh := f + 1 } else s
    (s.setHead h { s.head h with d := 0 }).wr .DSP_LOCK_CTRL_TRIM h (t % 1024).toNat

/-- R436, R448: line 0 of the next refresh. A picture that does not come from the stripe ring is fetched.
[DESIGN CHOICE: log 196] -/
def State.line0 (s : State) (h : Nat) : State :=
  let x := s.head h
  let r := x.refs
  let s := (s.setHead h { x with
      refs := r + 1, r0 := r, g0 := s.gcnt, line := 0, lineG := s.gcnt, lockOn := s.rd .DSP_LOCK_CTRL_ENABLE h == 1, d := 0 }).wr
    .DSP_STATUS_REFRESH h (r + 1)
  let s := if (s.head h).lockOn then s.lockStep h
    else ((s.setHead h { s.head h with inLock := 0 }).wr .DSP_LOCK_CTRL_LOCKED h 0).wr .DSP_LOCK_CTRL_TRIM h 0
  if s.fetchesRing h then s else s.fetchLines h r (List.range (s.plan h).vActive)

/-- R448: line 0 begins. -/
def execLine0 (head : Nat) (s : State) : Host.Outcome State Fault Refusal :=
  .next (if 8 ≤ head ∨ ¬ (s.head head).on then s else s.line0 head)

/-- R439: a line equals comparator C, or D. -/
def execLineMatch (head : Nat) (d : Bool) (s : State) : Host.Outcome State Fault Refusal :=
  .next (
    let x := s.head head
    let c := if d then x.lineD else x.lineC
    if 8 ≤ head ∨ ¬ x.on ∨ (s.plan head).vTotal ≤ c then s else s.dspFire head (if d then 4 else 3))

/-! ## Flips (R420, R438, R444) -/

/-- R420: a write of EQX_LAYER_FLIP. -/
def execLayerFlip (head val : Nat) (s : State) : Host.Outcome State Fault Refusal :=
  .next (s.accessed .late fun s =>
    if 8 ≤ head ∨ val % 256 = 0 then s
    else (s.setHead head { s.head head with layerFlip := Nat.lor (s.head head).layerFlip (val % 256) }).wr
      .EQX_LAYER_FLIP_PENDING head 1)

/-- R444: a write of DSP_PLANE_FLIP. -/
def execPlaneFlip (head val : Nat) (s : State) : Host.Outcome State Fault Refusal :=
  .next (s.accessed .late fun s =>
    if 8 ≤ head ∨ val % 16 = 0 then s
    else (s.setHead head { s.head head with planeFlip := Nat.lor (s.head head).planeFlip (val % 16) }).wr
      .DSP_PLANE_FLIP_PENDING head 1)

/-- The staged state of layer j of a head. -/
def State.stagedLayer (s : State) (h j : Nat) : PlaneSt :=
  let u := h * 8 + j
  { va := s.rd .EQX_LAYER_ADDR_VA u * 64, x := s.rd .EQX_LAYER_GEOM_X u, y := s.rd .EQX_LAYER_GEOM_Y u
    w := s.rd .EQX_LAYER_GEOM_W u, h := s.rd .EQX_LAYER_GEOM_H u, pitch := s.rd .EQX_LAYER_CTRL_PITCH u, fmt := 2
    on := s.rd .EQX_LAYER_CTRL_ENABLE u == 1 }

/-- The staged state of plane j of a head. -/
def State.stagedPlane (s : State) (h j : Nat) : PlaneSt :=
  let u := h * 4 + j
  { va := s.rd .DSP_PLANE_ADDR_VA u * 64, x := s.rd .DSP_PLANE_GEOM_X u, y := s.rd .DSP_PLANE_GEOM_Y u
    w := s.rd .DSP_PLANE_GEOM_W u, h := s.rd .DSP_PLANE_GEOM_H u, pitch := s.rd .DSP_PLANE_CTRL_PITCH u
    fmt := s.rd .DSP_PLANE_CTRL_FORMAT u, mode := s.rd .DSP_PLANE_CTRL_MODE u, on := s.rd .DSP_PLANE_CTRL_ENABLE u == 1 }

/-- Pending flips take effect. -/
def State.takeFlips (s : State) (h : Nat) : State :=
  let x := s.head h
  let s := s.setHead h { x with
    layers := (List.range 8).map fun j => if x.layerFlip.testBit j then s.stagedLayer h j else x.layers.getD j {}
    planes := (List.range 4).map fun j => if x.planeFlip.testBit j then s.stagedPlane h j else x.planes.getD j {}
    layerFlip := 0, planeFlip := 0 }
  let s := (s.wr .EQX_LAYER_FLIP_PENDING h 0).wr .DSP_PLANE_FLIP_PENDING h 0
  s.each (bitsOf x.layerFlip 8) fun s j =>
    (s.wr .EQX_LAYER_CTRL_ACTIVE (h * 8 + j) (b2n ((s.head h).layers.getD j {}).on)).eqxFire 6 (8 * h + j)

/-! ## Starting and stopping (R437, R449, R450) -/

/-- The staged DSP_SYNC: VPOL, HPOL, VSW, VFP, HSW, HFP. -/
def State.stagedSync (s : State) (h : Nat) : List Nat :=
  [s.rd .DSP_SYNC_VPOL h, s.rd .DSP_SYNC_HPOL h, s.rd .DSP_SYNC_VSW h, s.rd .DSP_SYNC_VFP h, s.rd .DSP_SYNC_HSW h, s.rd .DSP_SYNC_HFP h]

/-- R437: the bounds on sync values. -/
def HeadPlan.syncOk (p : HeadPlan) (y : List Nat) : Bool :=
  decide (y.getD 5 0 + y.getD 4 0 ≤ p.hTotal - p.hActive) && decide (y.getD 3 0 + y.getD 2 0 ≤ p.vTotal - p.vActive)

/-- The reset values, each reduced until the bounds hold. -/
def HeadPlan.syncReset (p : HeadPlan) : List Nat :=
  let hb := p.hTotal - p.hActive
  let vb := p.vTotal - p.vActive
  [0, 1, min 8 (vb - min 8 vb), min 8 vb, min 32 (hb - min 8 hb), min 8 hb]

/-- The line at which a started head's timing begins (R449). -/
def HeadPlan.startLine (p : HeadPlan) : Nat := (((p.vTotal : Int) - p.warpLead - 33) % (p.vTotal : Int)).toNat

/-- TCLK from the start of the timing to line 0. -/
def State.startSpan (s : State) (h : Nat) : Nat := s.linesTclk h ((s.plan h).vTotal - (s.plan h).startLine)

/-- The head is running, or its start waits for LOCK_GCNT (R162). -/
def State.headBusy (s : State) (h : Nat) : Bool := (s.head h).on || (s.waits (s.head h).wait).isSome

/-- The stream of a starting head: 6 for a field, 7 where its pages do not fit (R396, R406). -/
def State.headStreamBad (s : State) (h : Nat) : Option Nat :=
  match s.headStream h with
  | none => none
  | some i =>
    let p := s.headPar i h
    if !(s.eqxQueueOk p.queue) || !(s.eqxFieldsOk p) then some 6 else if (s.eqxBegin i p).isNone then some 7 else none

/-- R449: the start waits for a LOCK_GCNT that lies in the future. -/
def State.lockWaits (s : State) (h : Nat) : Bool :=
  s.rd .DSP_LOCK_CTRL_ENABLE h == 1 && decide (s.gcnt + s.startSpan h < s.rd .DSP_LOCK_GCNT_GCNT h)

/-- R449: the timing generator starts, with the stream and the link. [DEDUCED: log 188] [DEDUCED: log 193] -/
def State.headBegin (s : State) (h : Nat) : State :=
  let p := s.plan h
  let x := s.head h
  let y := s.stagedSync h
  let s := s.setHead h { x with
    on := true, wait := none, stop := none, limit := false, refs := 0, line := p.startLine, lineG := s.gcnt
    g0 := s.gcnt + s.startSpan h, r0 := 0, d := 0, aS := 0, aR := 0, bS := 0, bR := 0, ents := [none, none, none, none]
    warps := [], fS := 0, under := false, sync := if p.syncOk y then y else p.syncReset
    lineC := s.rd .DSP_LINEMATCH_LINE_C h, lineD := s.rd .DSP_LINEMATCH_LINE_D h, lockOn := false, inLock := 0
    lanes := 0, rate := 0, trains := 0, irqLost := none, out := [] }
  let s := s.each [Fld.DSP_STATUS_REFRESH, .DSP_LINK_RETRAINS, .DSP_LOCK_CTRL_LOCKED, .DSP_LOCK_CTRL_TRIM, .DSP_UNDERRUN_CONSECUTIVE]
    fun s f => s.wr f h 0
  let s := match s.headStream h with
    | some i => (s.eqxBegin i (s.headPar i h)).getD s
    | none => s
  (s.linked h false fun s => s.train h none).warpLines h

/-- R449: validation of HEAD_START. -/
def headStartCheck (s : State) (d : List Byte) : Except (Nat × Nat) Plan :=
  match unitBody d with
  | none => .error (6, 0)
  | some h =>
    if s.rd .DSP_STATUS_STATE h = 0 ∨ s.testing 4 h ∨ s.testFailed 4 h then .error (0x0A, 0)
    else if !(s.plan h).enabled then .error (6, 0)
    else if s.headBusy h then .error (5, 0)
    else match s.headStreamBad h with
    | some e => .error (e, 0)
    | none => .ok {}

/-- R449: HEAD_START. -/
def execHeadStart (ctx q : Nat) (s : State) : Host.Outcome State Fault Refusal :=
  let gq := qKey ctx q
  .next (s.startCmd gq 0x3C noAct headStartCheck notBlocked (fun s f _ =>
    let h := d8 f.desc 0x10
    if s.lockWaits h then (s.setHead h { s.head h with wait := some (gq, f.slot) }, f)
    else (s.headBegin h, { f with phase := .ended, endG := s.gcnt })) fun s => s.tryCommit gq 0x3C noAct)

/-- R449: line 0 will fall on LOCK_GCNT. -/
def execTimingGeneratorStart (head : Nat) (s : State) : Host.Outcome State Fault Refusal :=
  .next (match s.waits (s.head head).wait with
    | none => s
    | some f =>
      if 8 ≤ head ∨ s.lockWaits head then s
      else
        let s := match (if s.testing 4 head || s.testFailed 4 head then some 0x0A else s.headStreamBad head) with
          | some e => (s.setHead head { s.head head with wait := none }).failFlight f e 0
          | none => (s.headBegin head).setFlight { f with phase := .ended, endG := s.gcnt }
        s.tryCommit f.gq 0x3C noAct)

/-- The timing and the warp stage stop, the main link is down, and the stream stops (R450). -/
def State.headEnd (s : State) (h reason : Nat) : State :=
  let i := s.warping h
  let x := s.head h
  let s := s.setHead h { x with
    on := false, stop := none, limit := false, warps := [], ents := [none, none, none, none], irqLost := none, d := 0 }
  let s := match i with | some i => s.eqxStopNow i | none => s
  (s.linked h false fun s => (s.linkDown h).linkState h 1 reason).warpLines h

/-- R450: validation of HEAD_STOP. -/
def headStopCheck (s : State) (d : List Byte) : Except (Nat × Nat) Plan :=
  match unitBody d with
  | none => .error (6, 0)
  | some h => if (s.head h).on then .ok {} else .error (5, 0)

/-- R450: HEAD_STOP waits for the head's next VBLANK_START; a second one waits for the first. [DEDUCED: log 197] -/
def execHeadStop (ctx q : Nat) (s : State) : Host.Outcome State Fault Refusal :=
  let gq := qKey ctx q
  .next (s.startCmd gq 0x3D noAct headStopCheck (fun s d => (s.waits (s.head (d8 d 0x10)).stop).isSome) (fun s f _ =>
    let h := d8 f.desc 0x10
    (s.setHead h { s.head h with stop := some (gq, f.slot) }, f)) id)

/-- Stops that act at a VBLANK_START: HEAD_STOP, and the underrun limit (R446, R450). -/
def State.headStops (s : State) (h : Nat) : State :=
  let x := s.head h
  match s.waits x.stop with
  | some f => ((s.headEnd h 0).setFlight { f with phase := .ended, endG := s.gcnt }).tryCommit f.gq 0x3D noAct
  | none => if x.limit then s.headEnd h 4 else s.setHead h { x with stop := none }

/-- What a VBLANK_START does once the plan in force is settled (R438, R440, R443). -/
def State.vblank (s : State) (h : Nat) : State :=
  let p := s.plan h
  let x := s.head h
  let y := s.stagedSync h
  let s := (s.setHead h { x with
    line := p.vActive, lineG := s.gcnt, sync := if p.syncOk y then y else x.sync
    lineC := s.rd .DSP_LINEMATCH_LINE_C h, lineD := s.rd .DSP_LINEMATCH_LINE_D h, fS := 0, under := false, out := [] }).takeFlips h
  ((s.warpLines h).dspFire h 0).headStops h

/-- R431: a read of DSP_LINK. -/
def execDspLinkRead (head half : Nat) (s : State) : Host.Outcome State Fault Refusal :=
  .next (s.readBlk .late .DSP_LINK head half)

/-- R445: a read of DSP_UNDERRUN. -/
def execDspUnderrunRead (head half : Nat) (s : State) : Host.Outcome State Fault Refusal :=
  .next (s.readBlk .late .DSP_UNDERRUN head half)

end Sys2Proof.Machine
end

