-- ==== Sys2Proof/Machine/Sha.lean ====
section
/-! DEFINITION. SHA-384, which the measurements and key digests use (R536, R541). The specification names the
algorithm; its definition is PRESUMED from FIPS 180-4. -/

namespace Sys2Proof.Machine

/-- The largest `r` below `2 ^ n` with `r ^ k ≤ x`. -/
def rootBelow (k x : Nat) : Nat → Nat → Nat
  | 0, r => r
  | n + 1, r => rootBelow k x n (if (r + 2 ^ n) ^ k ≤ x then r + 2 ^ n else r)

/-- The first primes. -/
def shaPrimes : List Nat := (List.range 410).filter fun p => decide (2 ≤ p) && (List.range p).all fun d => d < 2 || p % d != 0

/-- The 64 fraction bits of the `k`-th root of a prime. -/
def rootFrac (k p : Nat) : Nat := rootBelow k (p * 2 ^ (64 * k)) 70 0 % 2 ^ 64

/-- The 80 round constants. -/
def shaK : List Nat := shaPrimes.map (rootFrac 3)

/-- The initial hash value of SHA-384. -/
def shaInit : List Nat := ((shaPrimes.drop 8).take 8).map (rootFrac 2)

def add64 (a b : Nat) : Nat := (a + b) % 2 ^ 64
def rotr64 (x n : Nat) : Nat := x / 2 ^ n + x % 2 ^ n * 2 ^ (64 - n)
def not64 (x : Nat) : Nat := 2 ^ 64 - 1 - x

/-- A big-endian number. -/
def beNat (bs : List Byte) : Nat := bs.foldl (fun a b => a * 256 + b.toNat) 0

/-- `n` big-endian bytes of a number. -/
def natBe (n x : Nat) : List Byte := ((List.range n).map fun i => BitVec.ofNat 8 (x / 256 ^ i)).reverse

/-- The message schedule of a block of 16 words, newest first. -/
def shaSchedule (w : List Nat) : List Nat :=
  (List.range 64).foldl (fun (r : List Nat) _ =>
    let a := r.getD 1 0
    let b := r.getD 14 0
    let s1 := Nat.xor (Nat.xor (rotr64 a 19) (rotr64 a 61)) (a / 64)
    let s0 := Nat.xor (Nat.xor (rotr64 b 1) (rotr64 b 8)) (b / 128)
    add64 (add64 s1 (r.getD 6 0)) (add64 s0 (r.getD 15 0)) :: r) w.reverse

/-- One round. -/
def shaRound (h : List Nat) (kw : Nat × Nat) : List Nat :=
  match h with
  | [a, b, c, d, e, f, g, x] =>
    let s1 := Nat.xor (Nat.xor (rotr64 e 14) (rotr64 e 18)) (rotr64 e 41)
    let ch := Nat.xor (Nat.land e f) (Nat.land (not64 e) g)
    let t1 := add64 (add64 x s1) (add64 ch (add64 kw.1 kw.2))
    let s0 := Nat.xor (Nat.xor (rotr64 a 28) (rotr64 a 34)) (rotr64 a 39)
    let mj := Nat.xor (Nat.xor (Nat.land a b) (Nat.land a c)) (Nat.land b c)
    [add64 t1 (add64 s0 mj), a, b, c, add64 d t1, e, f, g]
  | h => h

/-- One block of 128 bytes. -/
def shaBlock (h : List Nat) (b : List Byte) : List Nat :=
  let w := (List.range 16).map fun i => beNat ((b.drop (8 * i)).take 8)
  let r := (shaK.zip (shaSchedule w).reverse).foldl shaRound h
  (h.zip r).map fun (xy : Nat × Nat) => add64 xy.1 xy.2

/-- The padded message. -/
def shaPad (b : List Byte) : List Byte :=
  b ++ [0x80] ++ List.replicate ((239 - b.length % 128) % 128) 0 ++ natBe 16 (b.length * 8)

/-- SHA-384 of a byte string, as a big-endian number of 48 bytes. [PRESUMED: log 231] -/
def sha384 (b : List Byte) : Nat :=
  let m := shaPad b
  let h := (List.range (m.length / 128)).foldl (fun h i => shaBlock h ((m.drop (128 * i)).take 128)) shaInit
  (h.take 6).foldl (fun a x => a * 2 ^ 64 + x) 0

end Sys2Proof.Machine
end

