-- ==== Sys2Proof/Machine/Links.lean ====
section
/-! DEFINITION. Host links and functions: training, completions, failover, moves, the hold rule and
configuration writes (R106-R128). -/

namespace Sys2Proof.Machine

/-! ## Reachability (R118, R124) -/

/-- Every context. -/
def State.contexts (s : State) : List Nat := List.range s.tenants ++ [pf0]

/-- A function is reachable again: its held requests go out, its killed commands may run again, and
the messages its PBA holds are sent (R121, R124, R472). -/
def State.readmit (s : State) (ctx : Nat) : State :=
  if s.reachable ctx then
    { s with
      reqs := s.reqs.map fun r => if r.ctx = ctx ∧ r.held then { r with held := false, port := s.home ctx, since := s.gcnt } else r
      flights := s.flights.map fun f => if gqCtx f.gq = ctx then { f with unreachable := false } else f }
  else s

/-- Every function whose home port may have come back. -/
def State.readmitPort (s : State) (p : Nat) : State :=
  (s.each (s.contexts.filter fun c => s.home c = p) State.readmit).deliver

/-- Requests of the functions homed on a port are held there from now on (R121, R124). -/
def State.holdPort (s : State) (p : Nat) : State :=
  { s with reqs := s.reqs.map fun r => if r.port = p ∧ !r.held then { r with held := true, since := s.gcnt } else r }

/-! ## Training (R107) -/

/-- Port B does not exist on KTV-6460. -/
def State.portDead (s : State) (p : Nat) : Bool := decide (2 ≤ p) || (s.is6460 && p == 1)

/-- A port reads L0 (R124). -/
def State.linkL0 (s : State) (p : Nat) : State := (s.wr .HOST_PORT_STATUS_LINK p 3).readmitPort p

/-- R107: the end of a training or retraining. A port that can only form two lanes trains at x1. [DESIGN CHOICE: log 50] -/
def execLinkTrained (port rate width bus : Nat) (flit : Bool) (s : State) : Host.Outcome State Fault Refusal :=
  .next (
    if s.portDead port || s.inReset then s
    else
      let w := if width = 16 ∨ width = 8 ∨ width = 4 then width else 1
      let bad := decide (w < 16) || decide (rate < 6)
      let was := s.rd .HOST_PORT_STATUS_DEGRADED port
      let last := s.lastLink.get 0 port
      let s := ((((s.wr .HOST_PORT_STATUS_WIDTH port w).wr .HOST_PORT_STATUS_RATE port rate).wr .HOST_PORT_STATUS_BUS
        port bus).wr .HOST_PORT_STATUS_FLIT port (b2n flit)).wr .HOST_PORT_STATUS_DEGRADED port (b2n bad)
      let report := (bad && last != w * 16 + rate) || (!bad && was == 1)
      let s : State := { s with lastLink := s.lastLink.set 0 port (w * 16 + rate) }
      (s.fireIf report (19 + port)).linkL0 port)

/-- R124: a port returns to L0. -/
def execLinkUp (port : Nat) (s : State) : Host.Outcome State Fault Refusal :=
  .next (if s.portDead port || s.rd .HOST_PORT_STATUS_LINK port == 0 then s else s.linkL0 port)

/-- R120: a read of HOST_PORT_STATUS. -/
def execHostPortStatusRead (port half : Nat) (s : State) : Host.Outcome State Fault Refusal :=
  .next (s.readBlk .island .HOST_PORT_STATUS port half)

/-! ## Completions (R108) -/

def State.dropReq (s : State) (id : Nat) : State := { s with reqs := s.reqs.filter fun r => r.id ≠ id }

/-- The command that waits for a request fails with a status. -/
def State.failReq (s : State) (r : HostReq) (st : Nat) : State :=
  match s.flights.find? fun f => f.gq == r.gq && f.slot == r.slot with
  | some f => (s.slotState f 4).failFlight f st r.va
  | none => s

/-- R108: 50 ms without a completion. -/
def execCompletionTimeout (id : Nat) (s : State) : Host.Outcome State Fault Refusal :=
  .next (match s.reqs.find? fun r => r.id == id && !r.held && decide (r.since + 5000000 ≤ s.gcnt) with
    | some r => (s.dropReq id).failReq r 9
    | none => s)

/-- R108: a completion for a read Lenane issued. -/
def execReadCompletion (id : Nat) (st : CplStatus) (s : State) : Host.Outcome State Fault Refusal :=
  .next (match s.reqs.find? fun r => r.id == id && !r.held with
    | some r =>
      let s := s.dropReq id
      match st with
      | .success => s
      | .poisoned => s.failReq r 8
      | .unsupported | .abort => s.failReq r 3
    | none => s)

/-- R108: a poisoned write that the host sends to Lenane is discarded. -/
def execPoisonedWrite (_port _addr _val : Nat) (s : State) : Host.Outcome State Fault Refusal := .next s

/-- R117: what a standby function decodes, by BAR offset: its MSI-X table and PBA, and for PF0 the
first 4 KiB of the HOST block. -/
def standbyDecodes (ctx addr size : Nat) : Bool :=
  let hb := 0x00070000
  let inside := fun (lo hi : Nat) => decide (lo ≤ addr) && decide (addr + size ≤ hi)
  if ctx = pf0 then inside hb (hb + 0x1000) || inside (hb + 0x8000) (hb + 0x8400) || inside (hb + 0x9000) (hb + 0x9008)
  else inside 0x6000 0x6080 || inside 0x7000 0x7008

/-- R117: a memory request to a standby function; outside its decoded ranges it completes with
Unsupported Request. -/
def execStandbyRequest (port ctx addr size : Nat) (s : State) : Host.Outcome State Fault Refusal :=
  .next (if port = s.home ctx then s
    else { s with lastCpl := if standbyDecodes ctx addr size then .success else .unsupported })

/-! ## Failover (R120, R121) -/

/-- R121 steps 3-6 for one function: its home changes, its lost and held requests go out on the new
port, its pending messages are sent, and the move is reported. [DEDUCED: log 59] -/
def State.moveFn (s : State) (ctx port : Nat) : State :=
  let s := s.setHome ctx port
  let s : State := { s with
    reqs := s.reqs.map fun r => if r.ctx = ctx then { r with held := false, port := port, since := s.gcnt } else r
    flights := s.flights.map fun f => if gqCtx f.gq = ctx then { f with unreachable := false } else f }
  let s := s.deliver
  if ctx = pf0 then s else ((s.wr .VF_HOME_MOVED ctx 1).inc .VF_HOME_MOVES ctx).fire (ctxSrc ctx 1)

/-- R120: a port is declared down; with AUTO_FAILOVER the functions that are eligible on the other
port begin to move, and the rest are held. Loss of a link wakes the device (R559). -/
def State.declareDown (s : State) (p : Nat) : State :=
  if s.portDead p || s.rd .HOST_PORT_STATUS_LINK p == 0 || s.rd .HOST_PORT_STATUS_LINK p == 5 then s
  else
    let s := (s.wr .HOST_PORT_STATUS_LINK p 5).inc .HOST_PORT_STATUS_DOWNS p
    let s := (s.holdPort p).wake true
    let go := if s.rd .HOST_CTRL_AUTO_FAILOVER = 1 then
        s.contexts.filter fun c => s.home c == p && s.eligiblePort (1 - p) c && !(s.foMoves.contains c)
      else []
    ({ s with foMoves := s.foMoves ++ go } : State).fireIsland (16 + p)

/-- R120: a Data Link Layer down event. [DESIGN CHOICE: log 52] -/
def execDlDown (port : Nat) (s : State) : Host.Outcome State Fault Refusal := .next (s.declareDown port)

/-- R120: 1 ms without a DLLP while LINK reads L0 or RECOVERY. -/
def execDllpTimeout (port : Nat) (s : State) : Host.Outcome State Fault Refusal :=
  .next (if s.rd .HOST_PORT_STATUS_LINK port = 3 ∨ s.rd .HOST_PORT_STATUS_LINK port = 4 then s.declareDown port else s)

/-- R121: the moves after a declaration complete; source 18 fires once on the new port. [DESIGN CHOICE: log 53] -/
def execFailoverDone (s : State) : Host.Outcome State Fault Refusal :=
  .next (
    let go := s.foMoves.filter fun c => s.eligiblePort (1 - s.home c) c
    let s : State := { s with foMoves := [] }
    if go.isEmpty then s
    else (s.each go fun s c => s.moveFn c (1 - s.home c)).fire 18)

/-! ## Planned moves (R121, R125) -/

/-- R125: start, or refuse, a planned move of some functions. [DEDUCED: log 54] -/
def State.startMove (s : State) (scope tenant target : Nat) (fns : List Nat) : State :=
  if s.rd .HOST_MOVE_STATUS = 1 then
    { s with move := s.move.map fun m => { m with busySeen := true } }
  else
    let s := (s.wr .HOST_MOVE_TENANT 0 tenant).wr .HOST_MOVE_TARGET 0 target
    if s.rd .HOST_PORT_STATUS_LINK target ≠ 3 then s.wr .HOST_MOVE_STATUS 0 3
    else if scope ≠ 2 ∧ ¬ fns.all (s.eligiblePort target) then s.wr .HOST_MOVE_STATUS 0 4
    else
      let go := fns.filter fun c => s.home c ≠ target ∧ s.eligiblePort target c
      if go.isEmpty then s.wr .HOST_MOVE_STATUS 0 2
      else { s.wr .HOST_MOVE_STATUS 0 1 with move := some ⟨scope, tenant, target, go, false⟩ }

/-- R125, SCOPE 1. -/
def execMoveOneTenant (tenant target : Nat) (s : State) : Host.Outcome State Fault Refusal :=
  .next (s.accessed .island fun s => s.startMove 1 (tenant % 512) (target % 2) [tenant % 512])

/-- R125, SCOPE 2: every function homed on the other port that is eligible on the target. -/
def execMoveOtherPort (target : Nat) (s : State) : Host.Outcome State Fault Refusal :=
  .next (s.accessed .island fun s =>
    s.startMove 2 (s.rd .HOST_MOVE_TENANT) (target % 2) (s.contexts.filter fun c => s.home c ≠ target % 2))

/-- R125, SCOPE 3. -/
def execMovePf0 (target : Nat) (s : State) : Host.Outcome State Fault Refusal :=
  .next (s.accessed .island fun s => s.startMove 3 (s.rd .HOST_MOVE_TENANT) (target % 2) [pf0])

/-- R121: a planned move completes once nothing of its functions is outstanding on the old port. -/
def execMoveDone (s : State) : Host.Outcome State Fault Refusal :=
  .next (match s.move with
    | none => s
    | some m =>
      if s.reqs.any fun r => m.fns.contains r.ctx && !r.held then s
      else
        let s : State := { s with move := none }
        let s := s.each m.fns fun s c => s.moveFn c m.target
        (s.fireIf (m.fns.contains pf0) 18).wr .HOST_MOVE_STATUS 0 (if m.busySeen then 5 else 2))

/-! ## The hold rule (R124) -/

/-- HOLD_MS in TCLK periods; 0 acts as 1. -/
def State.holdTime (s : State) : Nat := max 1 (s.rd .HOST_CTRL_HOLD_MS) * 100000

/-- R124: the function's killable commands that wait on a held request are killed and wait until it is
reachable; an in-place command completes with TIMEOUT, its record written then. -/
def execHoldExpiry (ctx : Nat) (s : State) : Host.Outcome State Fault Refusal :=
  .next (
    let due := s.reqs.filter fun r => r.ctx == ctx && r.held && decide (r.since + s.holdTime ≤ s.gcnt)
    s.each (s.flights.filter fun f => due.any fun r => r.gq == f.gq && r.slot == f.slot) fun s f =>
      if f.killable then (s.killSlots { f with unreachable := true })
      else (s.slotState f 4).failFlight { f with unreachable := true } 9 0)

/-! ## Configuration writes (R115, R118, R124, R472) -/

/-- A configuration write: until TRAINING it gets Configuration Request Retry Status (R129). [DEDUCED: log 57] -/
def State.cfgAccessed (s : State) (g : State → State) : State :=
  if s.rd .RDY_STATUS_STATE < 3 then s else s.accessed .island g

/-- R124: a configuration write of Bus Master Enable. -/
def execBusMasterEnableWrite (port ctx : Nat) (on : Bool) (s : State) : Host.Outcome State Fault Refusal :=
  .next (s.cfgAccessed fun s =>
    if s.portDead port then s
    else
      let s := s.setCfg port ctx { s.cfg port ctx with bme := on }
      if port = s.home ctx then (s.readmit ctx).deliver else s)

/-- R472: a write of the Function Mask (`vec` none) or of one vector's mask bit. -/
def execMsixMaskWrite (port ctx : Nat) (vec : Option Nat) (masked : Bool) (s : State) :
    Host.Outcome State Fault Refusal :=
  .next (s.cfgAccessed fun s =>
    if s.portDead port then s
    else
      let s : State := match vec with
        | none => s.setCfg port ctx { s.cfg port ctx with fnMask := masked }
        | some v =>
          let k := msixKey port ctx (v % (if ctx = pf0 then 64 else 8))
          { s with msix := s.msix.set {} k { s.msix.get {} k with masked := masked } }
      s.deliver)

/-- R128: a function enters D3hot on a port. -/
def execD3hot (port ctx : Nat) (s : State) : Host.Outcome State Fault Refusal :=
  .next (s.cfgAccessed fun s =>
    if s.portDead port then s else s.setCfg port ctx { s.cfg port ctx with d3hot := true })

/-! ## Resets of a port and of a standby function (R126, R127) -/

/-- The configuration state of every function on a port returns to reset. -/
def State.clearPort (s : State) (p : Nat) : State :=
  { s with fn := Sparse.clear s.fn (fnKey p 0) (fnKey (p + 1) 0) }

/-- R126: PERST of a port. For the home port of some function it is a link down under R120. [DEDUCED: log 61] -/
def execPerst (port : Nat) (s : State) : Host.Outcome State Fault Refusal :=
  .next (
    if s.portDead port then s
    else
      let home := s.contexts.any fun c => s.home c == port
      let s := if home then s.declareDown port
        else if s.rd .HOST_PORT_STATUS_LINK port = 0 then s else (s.holdPort port).wr .HOST_PORT_STATUS_LINK port 1
      s.clearPort port)

/-- R127: an FLR on a standby port resets that port's configuration state for the function. -/
def execStandbyFlr (port ctx : Nat) (s : State) : Host.Outcome State Fault Refusal :=
  .next (s.cfgAccessed fun s =>
    if port = s.home ctx || s.portDead port then s else (s.setCfg port ctx {}).endConn ctx)

end Sys2Proof.Machine
end

