-- ==== Sys2Proof/Machine/Teardown.lean ====
section
/-! DEFINITION. Tenant teardown and the function resets that cause it (R127, R180, R181). -/

namespace Sys2Proof.Machine

/-! ## Teardown (R180) -/

/-- Registers of a VF that a teardown returns to reset; R181 keeps the others. [DEDUCED: log 89] -/
def tornFields : List Fld :=
  [.VF_MAP_VA_VA, .VF_MAP_SRC_VA_VA, .VF_MAP_CTRL_PAGES, .VF_MAP_CTRL_STATUS, .VF_MAP_CTRL_OP,
    .VF_MAP_CTRL_SIZE, .VF_MAP_CTRL_CACHE, .VF_MAP_CTRL_XWR, .VF_SWAP_BASE_ADDR, .VF_SWAP_BASE_ENABLE,
    .VF_SWAP_SIZE_USED, .VF_SWAP_SIZE_SIZE, .VF_QSEL_QUEUE, .VF_QSQ_VA, .VF_QCQ_VA,
    .VF_QCTRL_OP, .VF_QCTRL_RESULT, .VF_QCTRL_STATE, .VF_QCTRL_BAD_DOORBELLS, .VF_QCTRL_SQ_LOG2,
    .VF_QCTRL_CQ_LOG2, .VF_QCTRL_CLASS, .VF_QCTRL_CONTINUE_ON_ERROR, .VF_QPOS_CQ_TAIL, .VF_QPOS_SQ_NEXT,
    .VF_FAULT_STATUS, .VF_FAULT_QUEUE, .VF_FAULT_SLOT, .VF_FAULT_VALID, .VF_FAULT_ADDR_ADDR,
    .VF_TT_CAP_TT_CAP, .VF_TT_READ_HANDLE, .VF_SAT_OPERAND, .VF_SAT_OUTPUT, .VF_SAT_WHERE_VALID,
    .VF_SAT_WHERE_QUEUE, .VF_SAT_WHERE_FROM, .VF_SAT_WHERE_TO, .VF_SAT_WHERE_ACTION, .VF_SAT_WHERE_SLOT,
    .VF_PARK_VALID, .VF_PARK_OUTCOME, .VF_PARK_QUEUE, .VF_PARK_VICTIMS, .VF_PARK_SLOT,
    .VF_PARK_NEED]

/-- R180 steps 1 and 2: doorbells are ignored from here; every command of the context is killed, a
running in-place command is stopped at once. -/
def State.killContext (s : State) (ctx : Nat) : State :=
  s.each (s.flights.filter fun f => gqCtx f.gq = ctx) fun s f =>
    let s := if dInPlace f.desc ∧ f.phase = .running then s.stopInPlace f 0x0A else s
    ((s.abortOuts f).freeSlots f |>.dropReqs f).dropFlight f

/-- [DESIGN CHOICE: log 88] -/
def State.startTeardown (s : State) (t : Nat) : State :=
  if s.rd .VF_STATUS_STATE t = 2 then s else (s.wr .VF_STATUS_STATE t 2).killContext t

/-- The FENCE_SIGNAL commands of a queue from slot count `k` on: fence and value (R161). -/
def State.signalsFrom (s : State) (gq k : Nat) : Nat → List (Nat × Nat)
  | 0 => []
  | fuel + 1 => match s.fetchDesc gq k with
    | some (.ok d) =>
      let rest := s.signalsFrom gq (m32 (k + slotsOf d)) fuel
      if dOp d = 0x05 ∧ headerOk gq d then (d64 d 0x10, d64 d 0x18 % 2 ^ 63) :: rest else rest
    | _ => []

/-- R161: ERROR and the intended value go to every fence the context would have signalled, and each
wait on it completes with FENCE_ERROR. [DEDUCED: log 90] -/
def State.fenceErrors (s : State) (ctx : Nat) : State :=
  s.each ((s.queues.map (·.1)).filter fun gq => gqCtx gq = ctx ∧ (s.queue gq).st ≠ .disabled) fun s gq =>
    s.each (s.signalsFrom gq (s.queue gq).sqNext 65536) fun s fv =>
      let line := s.lineOf ctx fv.1
      let s := (s.stBytes ctx fv.1 (natLe 8 (fv.2 + 2 ^ 63)) 9).1
      s.each (s.flights.filter fun w => dOp w.desc == 0x04 && w.phase == .running && line.isSome &&
          s.lineOf (gqCtx w.gq) (d64 w.desc 0x10) == line) State.pollFence

/-- Remove every mapping of a context; each mapped unit loses one reference (R89). -/
def State.unmapAll (s : State) (ctx : Nat) : State :=
  let s := s.each [1, 2, 3] fun s lvl =>
    s.each ((s.m.pte.keysIn (pteKey ctx lvl 0) (pteKey ctx lvl 0 + 2 ^ 36)).map fun k =>
      k % 2 ^ 36 * 2 ^ lvlShift lvl) fun s va => s.unmapUnit ctx va
  { s with m := { s.m with hostMap := s.m.hostMap.filter fun r => r.1 ≠ ctx } }

/-- R180 step 4: versions, tensors and sequences go, and the table's frames return to the pool. -/
def State.dropTensors (s : State) (ctx : Nat) : State :=
  let tt := s.m.ttFrames.get 0 ctx
  let s : State := { s with
    tensors := Sparse.clear s.tensors (tKey ctx 0) (tKey (ctx + 1) 0)
    seqs := Sparse.clear s.seqs (tKey ctx 0) (tKey (ctx + 1) 0)
    m := { s.m with ttFrames := s.m.ttFrames.set 0 ctx 0, swapUsed := s.m.swapUsed.set 0 ctx 0 } }
  s.charge ctx (-(tt : Int))

/-- R180 step 7: commands of other contexts bound to the tenant's objects complete with
TENANT_TEARDOWN, and streams bound to its render targets lose their source. -/
def State.dropBound (s : State) (t : Nat) : State :=
  (s.eqxLose t).each (s.flights.filter fun f => gqCtx f.gq ≠ t ∧ (f.binds.any fun b => b.ctx == t) ∧ f.phase ≠ .ended) fun s f =>
    (s.slotState f 4).failFlight f 0x0D 0

/-- R473: a target loses its ACTIVE mask and PBA bits, and its threshold returns to the image value. -/
def State.geyTarget0 (s : State) (x : Nat) : State :=
  let ctx := tgtCtx x
  let s := (s.wr .GEY_TGT_ACTIVE x 0).wr .GEY_TGT_THRESHOLD x (s.img.thr.get 0 x)
  { s with pba := Sparse.clear s.pba (ctx * 64) (ctx * 64 + 64) }

/-- R473 for tenant `t`: pending bits, HELD flags and group states of its sources, and target 13 + t. -/
def State.geyTear (s : State) (t : Nat) : State :=
  let s := s.each (List.range 8) fun s k =>
    let src := 1024 + 8 * t + k
    let g := s.rd .GEY_SRC_GROUP src
    let s := (s.clrPend src).wr .GEY_SRC_HELD src 0
    if g < 1024 then ((s.wr .GEY_GRP_STATE g 0).wr .GEY_GRP_ACC g 0).wr .GEY_GRP_ELAPSED g 0 else s
  s.geyTarget0 (13 + t)

/-- R180 step 6: the queues become DISABLED, the tenant's sources lose their pending bits, and what is
left of the tenant in the scheduler and its registers goes (R181). -/
def State.dropQueues (s : State) (t : Nat) : State :=
  let s : State := { s with
    queues := Sparse.clear s.queues (qKey t 0) (qKey (t + 1) 0)
    vtime := Sparse.clear s.vtime (t * 8) (t * 8 + 8)
    lastQ := Sparse.clear s.lastQ (t * 8) (t * 8 + 8)
    wasReady := s.wasReady.filter fun k => k / 8 ≠ t
    readyAt := Sparse.clear s.readyAt (qKey t 0) (qKey (t + 1) 0)
    aged := Sparse.clear s.aged (qKey t 0) (qKey (t + 1) 0)
    m := { s.m with mapBusy := s.m.mapBusy.set 0 t 0 } }
  let s := s.each tornFields fun s f => s.resetUnit f t
  let s := s.each (List.range 4) fun s i => s.resetUnit .VF_TT_ENTRY_WORD (t * 4 + i)
  (s.geyTear t).deliver

/-- R180 steps 3-8. -/
def State.endTeardown (s : State) (t : Nat) : State :=
  let s := ((((s.fenceErrors t).dropTensors t).unmapAll t).dropQueues t).dropBound t
  let on := s.vfOn (s.home t) t && !(s.unconfigured (s.partOf t))
  ((s.wr .VF_STATUS_STATE t (b2n on)).wr .SCH_TENANT_RESULT t 0).fire 133

/-- R180, R164: a write of SCH_TENANT with OP = TEARDOWN. Entry 512 is PF0's, and its OP is ignored
(R165). -/
def execTeardown (tenant val : Nat) (s : State) : Host.Outcome State Fault Refusal :=
  .next (s.accessed .late fun s =>
    if 512 < tenant ∨ (s.tenants ≤ tenant ∧ tenant ≠ 512) then s
    else
      let s := (s.wr .SCH_TENANT_RUN_LIMIT tenant (bits val 16 16)).wr .SCH_TENANT_WEIGHT tenant (bits val 0 8)
      if tenant = 512 ∨ s.rd .SCH_TENANT_RESULT tenant = 1 then s
      else if s.rd .VF_STATUS_STATE tenant ≠ 1 then s.wr .SCH_TENANT_RESULT tenant 2
      else (s.wr .SCH_TENANT_RESULT tenant 1).startTeardown tenant)

/-- R180 step 8. -/
def execTeardownDone (tenant : Nat) (s : State) : Host.Outcome State Fault Refusal :=
  .next (if tenant < 512 ∧ s.rd .VF_STATUS_STATE tenant = 2 then s.endTeardown tenant else s)

/-! ## Function resets (R127) and VF Enable (R115) -/

/-- R127: VF FLR on the home port. [DEDUCED: log 55] -/
def execVfFlr (tenant : Nat) (s : State) : Host.Outcome State Fault Refusal :=
  .next (s.cfgAccessed fun s =>
    if s.tenants ≤ tenant then s
    else
      let s := (s.setCfg (s.home tenant) tenant {}).endConn tenant
      if s.rd .VF_STATUS_STATE tenant = 1 then s.startTeardown tenant else s)

/-- M0-M63 are emptied: their commands go, the queues stay. What FC9 and FC10 had written goes too. -/
def State.emptyPf0 (s : State) : State :=
  let s := s.killContext pf0
  let s : State := { s with eqx := { s.eqx with m0 := [] } }
  let s := s.each (s.eqx.streams.map (·.1)) fun s i => s.setStream i { s.stream i with out := 0, composing := false }
  s.each ((s.queues.keysIn (qKey pf0 0) (qKey pf0 0 + 64))) fun s gq =>
    let s := (s.abortDeferred gq).releaseTails gq
    let q := s.queue gq
    s.setQueue gq { q with sqNext := q.sqTail, sqStart := q.sqTail }

/-- Tenants whose VF is in use. -/
def State.activeTenants (s : State) : List Nat := (s.unitsOf .VF_STATUS_STATE).filter fun t => s.rd .VF_STATUS_STATE t == 1 && decide (t < 512)

/-- R127: PF0 FLR on its home port. -/
def execPf0Flr (s : State) : Host.Outcome State Fault Refusal :=
  .next (s.cfgAccessed fun s =>
    let p := s.home pf0
    let s := s.each s.activeTenants State.startTeardown
    let s := (s.each (List.range s.tenants) State.geyTear).geyTarget0 12
    ((s.emptyPf0).setCfg p pf0 {}).endConn pf0)

/-- R115, R180: a configuration write of NumVFs and VF Enable on a port. [DEDUCED: log 60] -/
def execVfEnable (port numVFs : Nat) (enable : Bool) (s : State) : Host.Outcome State Fault Refusal :=
  .next (s.cfgAccessed fun s =>
    if s.portDead port then s
    else
      let c := s.cfg port pf0
      let n := if c.vfEnable then c.numVFs else min numVFs s.tenants
      if enable && !s.ready then (s.setCfg port pf0 { c with numVFs := n, vfEnable := false }).inc .RDY_STATUS_VF_REFUSALS 0
      else
        let s := s.setCfg port pf0 { c with numVFs := n, vfEnable := enable }
        if enable && !c.vfEnable then
          (s.each (List.range n) State.issueKey).each ((List.range n).filter fun t => s.home t == port && s.rd .VF_STATUS_STATE t == 0 &&
              !(s.unconfigured (s.partOf t))) fun s t =>
            (s.wr .VF_STATUS_STATE t 1).wr .VF_HOME_MOVES t 0
        else if !enable && c.vfEnable then
          s.each (s.activeTenants.filter fun t => s.home t = port) State.startTeardown
        else s)

end Sys2Proof.Machine
end

