-- ==== Sys2Proof/Machine/Apply.lean ====
section
/-! DEFINITION. Loading a structure image and putting its records in force: full images, delta images and
their switch points, the topology check, and partition resets (R57-R68, R70, R79, R460, R516-R518, R528,
R592-R594). -/

namespace Sys2Proof.Machine

/-! ## Geyser records (R53, R67, R460, R468, R471) -/

/-- The level and the other fields of one source, at its switch (R67). [DEDUCED: log 204] -/
def State.routeSource (s : State) (src target prio level enable group : Nat) : State :=
  let old := s.rd .GEY_SRC_LEVEL src
  let s := (((s.wr .GEY_SRC_TARGET src target).wr .GEY_SRC_PRIORITY src prio).wr .GEY_SRC_LEVEL src level).wr .GEY_SRC_ENABLE src enable
  let s := s.wr .GEY_SRC_GROUP src (if group = 0xFFFF then 0x7FF else group)
  let vec := if target = 12 then prio else if 13 ≤ target then src % 8 else 0
  let s := s.wr .GEY_SRC_VECTOR src vec
  let s := if old = level then s else s.wr .GEY_SRC_HELD src 0
  if old = 0 ∧ level = 1 ∧ enable = 1 ∧ s.rd .GEY_SRC_INPUT src = 1 ∧ ¬ s.srcDead src then s.setPend src else s

/-- A SOURCE_RANGE record. -/
def State.applyRange (s : State) (v : List Byte) : State :=
  s.each ((List.range (d16 v 2)).map (d16 v 0 + ·)) fun s src =>
    s.routeSource src (d16 v 4) (d8 v 6) (b2n (bit (d8 v 7) 0)) (b2n (bit (d8 v 7) 1)) (d16 v 8)

/-- A TARGET_THRESHOLD record. -/
def State.applyThreshold (s : State) (v : List Byte) : State :=
  let x := d16 v 0
  (({ s with img := { s.img with thr := s.img.thr.set 0 x (d8 v 2) } } : State)).wr .GEY_TGT_THRESHOLD x (d8 v 2)

/-- Every group takes a COUNT and a TIME (R468). -/
def State.applyCoalesce (s : State) (count time : Nat) : State :=
  s.each (List.range 1024) fun s g => (s.wr .GEY_GRP_COUNT g count).wr .GEY_GRP_TIME g time

/-- A TIMER_PLAN record (R65, R490). [DEDUCED: log 25] -/
def State.applyTimer (s : State) (v : List Byte) : State :=
  let c := d8 v 0
  let on := s.rd .TIM_CMP_CTRL_ENABLE c
  let s := (s.wr .TIM_CMP_RELOAD_RELOAD c (d64 v 8)).wr .TIM_CMP_CTRL_PERIODIC c (b2n (bit (d8 v 1) 0))
  if !(bit (d8 v 1) 1) then s.wr .TIM_CMP_CTRL_ENABLE c 0
  else if on = 1 then s
  else (s.wr .TIM_CMP_TARGET_TARGET c (s.gcnt + max 1 (d64 v 8))).wr .TIM_CMP_CTRL_ENABLE c 1

/-- A record of POLICIES, GEYSER or CLOCKS (R47, R52, R53). -/
def State.applyPolicy (s : State) (r : Rec) : State :=
  let v := r.val
  match r.tag with
  | 0x20 => { s.wr .PWR_LIMIT_LIMIT_W 0 (d16 v 2) with
      img := { s.img with eclkDiv := d8 v 0, hbmRate := d8 v 1 }, pw := { s.pw with imageLimit := d16 v 2 } }
  | 0x70 => { s with img := { s.img with satRerun := d8 v 0 == 1, satLimit := d32 v 4 } }
  | 0x71 => { s with img := { s.img with inPlaceLimit := d32 v 0 } }
  | 0x72 => { s with img := { s.img with underrunLimit := d8 v 0 } }
  | 0x73 => s.applyCoalesce (d8 v 0) (d16 v 2)
  | 0x74 => s.applyTimer v
  | 0x80 => s.applyRange v
  | 0x81 => s.applyThreshold v
  | _ => s

/-! ## Streams, lanes, ports and heads (R49-R51, R66, R359, R394, R421, R422, R432) -/

/-- A HEAD_PLAN's fields. WARP_LEAD 0 is 128 and MAX_AGE 0 is 3. -/
def headPlanOf (v : List Byte) : HeadPlan :=
  if !(bit (d8 v 1) 0) then {}
  else
    { enabled := true, async := bit (d8 v 1) 1, dsc := bit (d8 v 1) 2, lanes := d8 v 2, rate := d8 v 3
      hActive := d16 v 4, hTotal := d16 v 6, vActive := d16 v 8, vTotal := d16 v 10, pixclk := d32 v 12
      warpLead := if d16 v 16 = 0 then 128 else d16 v 16, maxAge := if d8 v 18 = 0 then 3 else d8 v 18
      mult := d8 v 19, upscale := d8 v 20, srcKind := d8 v 21, srcIndex := d16 v 22, bindTenant := d16 v 24
      bindHandle := d32 v 28, share := d16 v 32, lineC := d16 v 36, lineD := d16 v 38 }

/-- The plan in force at a head, from the records. -/
def State.planRec (s : State) (h : Nat) : HeadPlan := ((tagged s.img.recs 0x50).find? fun r => d8 r.val 0 == h).elim {} fun r => headPlanOf r.val

/-- The registers of every stream follow its route and its head's plan (R421, R422). -/
def State.showStreams (s : State) : State :=
  s.each (List.range 64) fun s i =>
    match s.streamHead i with
    | some h =>
      let p := s.plan h
      let s := ((s.wr .EQX_STREAM_CTRL_HEAD i 1).wr .EQX_STREAM_CTRL_HEADNUM i h).wr .EQX_STREAM_CTRL_CLASS1_SHARE i p.share
      let s := ((s.wr .EQX_STREAM_SRC_SRC_KIND i p.srcKind).wr .EQX_STREAM_SRC_UPSCALE i p.upscale).wr .EQX_STREAM_SRC_MULT i p.mult
      let s := (s.wr .EQX_STREAM_SRC_SRC_INDEX i p.srcIndex).wr .EQX_STREAM_SRC_LANE i ((s.streamLane i).getD 0xFF)
      let s := (s.wr .EQX_STREAM_SRC_SRC_HANDLE i p.bindHandle).wr .EQX_STREAM_GEOM_OUT_W i p.hActive
      (s.wr .EQX_STREAM_GEOM_OUT_H i p.vActive).wr .EQX_STREAM_GEOM_PERIOD i p.period
    | none =>
      if s.rd .EQX_STREAM_CTRL_HEAD i = 0 then s
      else s.each [Fld.EQX_STREAM_CTRL_HEAD, .EQX_STREAM_CTRL_HEADNUM, .EQX_STREAM_CTRL_CLASS1_SHARE, .EQX_STREAM_SRC_SRC_KIND,
          .EQX_STREAM_SRC_UPSCALE, .EQX_STREAM_SRC_MULT, .EQX_STREAM_SRC_SRC_INDEX, .EQX_STREAM_SRC_LANE,
          .EQX_STREAM_SRC_SRC_HANDLE, .EQX_STREAM_GEOM_OUT_W, .EQX_STREAM_GEOM_OUT_H, .EQX_STREAM_GEOM_PERIOD]
        fun s f => s.resetUnit f i

/-- The sum of the class-1 shares of the enabled heads. -/
def State.sumShares (s : State) : State :=
  { s with img := { s.img with
      class1 := (((tagged s.img.recs 0x50).filter enabledRec).map fun r => d16 r.val 32).foldl (· + ·) 0 } }

/-- A head's plan and timing registers follow its record; LINE_C and LINE_D start from it. -/
def State.showHead (s : State) (h : Nat) : State :=
  let p := s.planRec h
  let s : State := { s with img := { s.img with heads := s.img.heads.set {} h p } }
  let s := ((s.wr .DSP_TIMING_H_H_TOTAL h p.hTotal).wr .DSP_TIMING_H_H_ACTIVE h p.hActive).wr .DSP_TIMING_V_PIXCLK h p.pixclk
  let s := (s.wr .DSP_TIMING_V_V_TOTAL h p.vTotal).wr .DSP_TIMING_V_V_ACTIVE h p.vActive
  (s.wr .DSP_LINEMATCH_LINE_C h p.lineC).wr .DSP_LINEMATCH_LINE_D h p.lineD

/-- A port's registers follow its record (R51). -/
def State.showPort (s : State) (n : Nat) : State :=
  let v := s.portPlan n
  if bit (d8 v 1) 0 then
    ((s.wr .VIN_STATUS_PARTITION n (d8 v 3)).wr .VIN_STATUS_LANE n (d8 v 9)).wr .VIN_STATUS_VC_MASK n (d16 v 6)
  else ((s.wr .VIN_STATUS_PARTITION n 0).wr .VIN_STATUS_LANE n 0xFF).wr .VIN_STATUS_VC_MASK n 0

/-- Lanes whose binding the plans have changed take the new one (R359). -/
def State.showLanes (s : State) : State :=
  s.each (List.range 4) fun s l =>
    let now := match (lanePlans s.img.recs).find? fun r => d8 r.val 9 == l with
      | some r => (d8 r.val 0, d8 r.val 3)
      | none => (0xFF, 63)
    let was := (s.lane l).bind.getD (s.rd .VIS_STATUS_PORT l, s.rd .VIS_STATUS_PARTITION l)
    if now = was then s else s.visRebind l now.1 now.2

/-- Records take effect among those in force. -/
def State.putRecs (s : State) (rs : List Rec) : State :=
  { s with img := { s.img with recs := mergeRecs s.img.recs (rs.map fun r => { r with sec := 0xFF, off := 0 }) } }

/-- Records whose unit the floor plan lacks are ignored (R516). [DEDUCED: log 26] -/
def State.ignored (s : State) (r : Rec) : Bool := (r.tag == 0x40 || r.tag == 0x50 || r.tag == 0x60) && s.namesAbsent r

/-- R432: the new plan keeps the trained link. -/
def State.keepsLink (s : State) (h : Nat) (old : HeadPlan) : Bool :=
  let p := s.plan h
  let x := s.head h
  s.rd .DSP_STATUS_STATE h == 4 && p.lanes == old.lanes && p.rate == old.rate && p.dsc == old.dsc && p.async == old.async &&
    p.fits x.bpp x.lanes x.rate

/-- The switch of a head's plan and routes (R66, R422, R432). -/
def State.headSwitch (s : State) (h : Nat) (rs : List Rec) : State :=
  let old := s.plan h
  let i0 := s.headStream h
  let planned := rs.any (·.tag == 0x50)
  let s := s.putRecs rs
  let s := (if planned then s.showHead h else s).sumShares.showStreams
  let p := s.plan h
  let i1 := s.headStream h
  if !(s.head h).on then s
  else if !p.enabled then (match i0 with | some i => s.eqxStopNow i | none => s).headEnd h 0
  else
    let s := if !planned || s.keepsLink h old then s else s.linked h false fun s => s.train h none
    let same := old.hActive == p.hActive && old.vActive == p.vActive
    let x := s.head h
    let s := if same && i0 == i1 then s
      else s.setHead h { x with
        warps := [], ents := [none, none, none, none], aS := 0, aR := x.refs, bS := 0, bR := x.refs }
    let src := fun (q : HeadPlan) => (q.srcKind, q.srcIndex, q.bindTenant, q.bindHandle)
    let s :=
      if i0 == i1 then
        match i1 with
        | some i => if planned then
            s.eqxRestart i (same && old.upscale == p.upscale && src old == src p) (s.headPar i h) else s
        | none => s
      else
        let s := match i0 with | some i => s.eqxStopNow i | none => s
        match i1 with | some i => s.eqxRestart i false (s.headPar i h) | none => s
    s.warpLines h

/-- The switch of a port's plan and routes (R61, R62, R457): a plan that is not enabled stops the port. -/
def State.portSwitch (s : State) (n : Nat) (rs : List Rec) : State :=
  let s := ((s.putRecs rs).showPort n).showLanes.showStreams
  if s.vinOn n && !(bit (d8 (s.portPlan n) 1) 0) then s.portReset n else s

/-! ## Partitions (R48, R70, R79, R95, R170, R176, R517) -/

/-- The PARTITION record of a partition in force. -/
def State.partRec (s : State) (p : Nat) : Option Rec := recOf s.img.recs 0x30 p

/-- The channels a PARTITION record lists. -/
def partChanList (r : Rec) : List Nat := bitsOf (partPcs r) 128

/-- Every channel and way a record lists is present: the partition can be configured (R516, R517). -/
def State.partWhole (s : State) (r : Rec) : Bool := subBits (partPcs r) s.floorPcs && subBits (partWays r) s.floorWays

/-- Function keys whose inputs have changed are issued again (R532): those of PF0 and of enabled VFs. -/
def State.reissueKeys (s : State) (ctxs : List Nat) : State :=
  let l := ctxs.filter fun c => s.ready && (c == pf0 || s.vfOn (s.home c) c) && !(s.sec.reissue.contains c)
  { s with sec := { s.sec with reissue := s.sec.reissue ++ l } }

/-- Contexts of a partition. -/
def State.ctxsOf (s : State) (p : Nat) : List Nat :=
  if p = 63 then [pf0] else (List.range s.tenants).filter fun t => s.rd .VF_STATUS_PARTITION t == p

/-- A new key for a partition (R95, R532). [DEDUCED: log 30] -/
def State.newKey (s : State) (p : Nat) : State :=
  ({ s with m := { s.m with keyEpoch := s.m.keyEpoch.set 0 p (s.m.keyEpoch.get 0 p + 1) } } : State).reissueKeys (s.ctxsOf p)

def State.setPartCfg (s : State) (p : Nat) (c : PartCfg) : State :=
  { s with img := { s.img with parts := s.img.parts.set {} p c } }

/-- Free channels that a configured partition's record lists join it; those its record no longer lists
leave it (R62, R70). `changed` says that its record is the one that switches. -/
def State.settleChans (s : State) (p : Nat) (changed : Bool) : State :=
  let mine := if (s.partCfg p).used then ((s.partRec p).map partChanList).getD [] else []
  let held := (List.range 128).filter fun pc =>
    s.rd .MEM_PC_STATUS_PARTITION pc == p && s.rd .MEM_PC_STATUS_ISET pc != 0xFF
  let gone := held.filter fun pc => !(mine.contains pc)
  let add := mine.filter fun pc => s.rd .MEM_PC_STATUS_STATE pc == 2
  if gone.isEmpty && add.isEmpty && !changed then s
  else (s.regroup p add gone).each gone fun s pc => (s.pcState pc 2).wr .MEM_PC_STATUS_PARTITION pc 0

/-- Who holds unit u of a mask: the present holder while its record lists the unit, else a configured
partition that lists it. -/
def State.holder (s : State) (mask : Rec → Nat) (now : Option Nat) (u : Nat) : Option Nat :=
  let lists := fun (p : Nat) => (s.partCfg p).used && (s.partRec p).elim false fun r => (mask r).testBit u
  match now with
  | some p => if lists p then some p else (List.range 64).find? lists
  | none => (List.range 64).find? lists

/-- Ways and dedicated Calderas move to their holders (R62, R79, R176). [DESIGN CHOICE: log 34] -/
def State.settleUnits (s : State) : State :=
  let s := s.each (List.range 64) fun s w =>
    let now := match s.m.wayOwner.get 0 w with | 0 => none | n + 1 => some n
    let o := s.holder partWays now w
    { s with m := { s.m with wayOwner := s.m.wayOwner.set 0 w (match o with | some p => p + 1 | none => 0) } }
  let s := s.each (List.range 6) fun s e =>
    let now := if s.rd .SCH_CE_STATUS_DEDICATED e = 1 then some (s.rd .SCH_CE_STATUS_PARTITION e) else none
    match s.holder partCes now e with
    | some p => (s.wr .SCH_CE_STATUS_DEDICATED e 1).wr .SCH_CE_STATUS_PARTITION e p
    | none => (s.wr .SCH_CE_STATUS_DEDICATED e 0).wr .SCH_CE_STATUS_PARTITION e 0
  s.each (s.img.parts.map (·.1)) fun s p =>
    let ded := ((List.range 6).map fun e =>
      b2n (s.rd .SCH_CE_STATUS_DEDICATED e == 1 && s.rd .SCH_CE_STATUS_PARTITION e == p) * 2 ^ e).foldl (· + ·) 0
    s.setPartCfg p { s.partCfg p with dedicated := ded, share := (s.partRec p).elim 0 fun r => d16 r.val 4 }

/-- The hot reservations of configured partitions (R54, R170, R517). -/
def State.settleHot (s : State) : State :=
  { s with m := { s.m with
      hot := ((tagged s.img.recs 0x90).filter fun r => (s.partCfg (d8 r.val 0)).used).map fun r =>
        (d8 r.val 0, d32 r.val 4, d64 r.val 8 / 65536) } }

/-- Tenants a PARTITION_TENANTS record lists belong to its partition from here on (R48, R532). -/
def State.settleTenants (s : State) (r : Rec) : State :=
  let p := d8 r.val 0
  let moved := (bitsOf (partTenants r) 512).filter fun t => s.rd .VF_STATUS_PARTITION t != p
  (s.each moved fun s t => s.wr .VF_STATUS_PARTITION t p).reissueKeys moved

/-- VF_STATUS.STATE of the tenants follows whether their partition is configured (R517). -/
def State.settleVfs (s : State) : State :=
  s.each (List.range s.tenants) fun s t =>
    let st := s.rd .VF_STATUS_STATE t
    let conf := !(s.unconfigured (s.partOf t))
    if st = 0 ∧ conf ∧ s.vfOn (s.home t) t then s.wr .VF_STATUS_STATE t 1
    else if st = 1 ∧ ¬ conf then s.wr .VF_STATUS_STATE t 0
    else s

/-- A partition is configured, or removed, as its record says. -/
def State.settlePart (s : State) (p : Nat) : State :=
  let c := s.partCfg p
  match s.partRec p with
  | some r => if c.used || !(s.partWhole r) then s else (s.setPartCfg p { c with used := true }).newKey p
  | none => if c.used then s.setPartCfg p {} else s

/-- Partition, tenant and hot-set records take effect for a partition (R62). -/
def State.partSwitch (s : State) (p : Nat) (rs : List Rec) : State :=
  let s := (s.putRecs rs).settlePart p
  let s := s.each ((tagged rs 0x31)) State.settleTenants
  let s := s.settleChans p (rs.any (·.tag == 0x30))
  let s := s.each ((s.img.parts.map (·.1)).filter (· ≠ p)) fun s q => s.settleChans q false
  let s := (s.settleUnits.settleHot).settleVfs
  { s with img := { s.img with draining := s.img.draining.filter (· ≠ p) } }

/-! ## The topology check (R516, R517) -/

/-- A partition that a record lists stands unconfigured. -/
def State.anyShort (s : State) : Bool := (tagged s.img.recs 0x30).any fun r => !(s.partCfg (d8 r.val 0)).used

/-- A unit that EXPECT_UNITS lists is absent. -/
def State.anyAbsent (s : State) : Bool :=
  match (tagged s.img.recs 0x10).head? with
  | none => false
  | some r =>
    let v := r.val
    let want := d8 v 0 + d8 v 1 * 2 ^ 8 + d8 v 2 * 2 ^ 16 + d8 v 3 * 2 ^ 24
    !(subBits want (s.brg.cur.floor.getD 0 0 % 2 ^ 28)) || !(subBits (dMap v 8 16) s.floorPcs)

/-- Where R516 takes the device: state and reason. [DEDUCED: log 29] -/
def State.topology (s : State) : Nat × Nat :=
  let pol := ((tagged s.img.recs 0x11).head?).elim [] (·.val)
  if !(s.partCfg 63).used then (9, 4)
  else if s.floorCes.length < d8 pol 2 then (9, 5)
  else if s.anyShort && d8 pol 1 == 1 then (9, 6)
  else if s.anyAbsent && d8 pol 0 == 1 then (9, 7)
  else if s.anyShort then (8, 6)
  else if s.anyAbsent then (8, 7)
  else (7, 0)

/-- R517: FAIL_REASON of a device in DEGRADED_READY is the first that still holds. -/
def State.recheck (s : State) : State :=
  if s.rd .RDY_STATUS_STATE = 8 then s.setReadiness 8 (if s.anyShort then 6 else if s.anyAbsent then 7 else 0) else s

/-! ## Full images (R57, R460, R516, R518) -/

/-- Everything an earlier full image defined goes (R518). -/
def State.unapply (s : State) : State :=
  let timers := (tagged s.img.recs 0x74).map fun r => d8 r.val 0
  let s := s.each timers fun s c => s.wr .TIM_CMP_CTRL_ENABLE c 0
  let s := if (s.partCfg 63).used then (s.dropTensors pf0).unmapAll pf0 else s
  let keep := s.retiredFrames ++ s.brg.keep
  let s := s.each (List.range 128) fun s n => if (s.members n).isEmpty then s
    else
      let ms := s.members n
      (s.dropSet n).each ms fun s pc => if s.rd .MEM_PC_STATUS_STATE pc = 1 then (s.pcState pc 2).wr .MEM_PC_STATUS_PARTITION pc 0 else s
  { s with
    img := { load := s.img.load }
    brg := { s.brg with keep := keep }
    m := { s.m with wayOwner := [], hot := [], hotTaken := [], swapUsed := [], used := [] } }

/-- Routing of the sources and targets that a full image does not cover (R460). -/
def State.defaultRouting (s : State) : State :=
  let s := s.each (List.range 704) State.firmwareRoute
  let s := s.each [Fld.GEY_SRC_PRIORITY, .GEY_SRC_LEVEL, .GEY_SRC_ENABLE, .GEY_SRC_GROUP, .GEY_SRC_TARGET, .GEY_SRC_VECTOR] fun s f =>
    s.each ((s.unitsOf f).filter (704 ≤ ·)) fun s u => s.resetUnit f u
  (s.resetFld .GEY_TGT_THRESHOLD).applyCoalesce 1 1

/-- A full image takes effect (R57, R516). -/
def State.applyFull (s : State) (own : List Rec) (seq digest : Nat) : State :=
  let s := s.unapply
  let s : State := { s with img := { s.img with recs := own.filter fun r => !(s.ignored r) && r.tag != 0x80 && r.tag != 0x81 } }
  let s := s.putRecs []
  let parts := (tagged s.img.recs 0x30).map fun r => d8 r.val 0
  let s := s.each (tagged s.img.recs 0x31) State.settleTenants
  let s := s.each parts State.settlePart
  let s := s.each parts fun s p => s.settleChans p true
  let s := (s.settleUnits.settleHot).settleVfs
  let s := s.each (List.range 8) State.showHead
  let s := (s.each (List.range 8) State.showPort).sumShares
  let s := s.showLanes.showStreams
  let s := s.each (own.filter fun r => r.tag != 0x80 && r.tag != 0x81) fun s r => if r.tag = 0x73 then s else s.applyPolicy r
  let s := s.defaultRouting
  let s := s.each (own.filter fun r => r.tag == 0x73 || r.tag == 0x80 || r.tag == 0x81) State.applyPolicy
  let s := s.deliver
  let s : State := { s with sec := { s.sec with chain := some digest } }
  let s := ((s.wr .STRUCT_ACTIVE_SEQ_SEQ 0 seq).wr .STRUCT_PENDING_TYPES 0 0).wr .STRUCT_STATUS_STATE 0 4
  let s := s.fire 9
  s.setReadiness s.topology.1 s.topology.2

/-! ## Delta images (R61-R64) -/

/-- Where a record takes effect. -/
inductive SwitchPt where
  | head (h : Nat)
  | port (n : Nat)
  | part (p : Nat)
  | epoch
deriving DecidableEq, Repr

/-- R62: a ROUTE's switch point, from the route it makes or removes and the one it replaces. -/
def State.routePoint (s : State) (r : Rec) : SwitchPt :=
  let old := recOf s.img.recs 0x40 (d8 r.val 0)
  let ends := (if d8 r.val 3 = 0 then [] else [r]) ++ old.toList
  match ends.find? fun q => d8 q.val 3 == 5 with
  | some q => .head (d8 q.val 4)
  | none => match ends.find? fun q => d8 q.val 1 == 1 with
    | some q => .port (d8 q.val 2)
    | none => .epoch

def State.switchPoint (s : State) (r : Rec) : SwitchPt :=
  match r.tag with
  | 0x50 => .head (d8 r.val 0)
  | 0x60 => .port (d8 r.val 0)
  | 0x30 | 0x31 | 0x90 => .part (d8 r.val 0)
  | 0x40 => s.routePoint r
  | _ => .epoch

/-- STRUCT_PENDING shows the section types that wait; the last one in force ends the delta (R64, R540). -/
def State.deltaSettle (s : State) : State :=
  let types := (s.img.wait.map (·.1)).eraseDups
  let s := s.wr .STRUCT_PENDING_TYPES 0 ((types.map fun t => 2 ^ (t - 3)).foldl (· + ·) 0)
  if s.rd .STRUCT_STATUS_STATE ≠ 3 ∨ ¬ s.img.wait.isEmpty then s
  else
    let s : State := { s with
      img := { s.img with draining := [] }
      sec := { s.sec with chain := s.sec.chain.map fun v => sha384 (natBe 48 v ++ natBe 48 s.img.digest) } }
    ((s.wr .STRUCT_ACTIVE_SEQ_SEQ 0 s.img.seqNew).wr .STRUCT_STATUS_STATE 0 4).fire 9

/-- The waiting records of a switch point take effect together (R62). -/
def State.switchAt (s : State) (pt : SwitchPt) : State :=
  let now := s.img.wait.filter fun w => s.switchPoint w.2 == pt
  if now.isEmpty then s
  else
    let rs := now.map (·.2)
    let s : State := { s with img := { s.img with wait := s.img.wait.filter fun w => !(now.contains w) } }
    let s := match pt with
      | .head h => s.headSwitch h rs
      | .port n => s.portSwitch n rs
      | .part p => s.partSwitch p rs
      | .epoch =>
        let s := (s.putRecs (rs.filter fun r => r.tag != 0x80 && r.tag != 0x81)).showStreams
        (s.each rs State.applyPolicy).deliver
    s.recheck.deltaSettle

/-- The switch points of a delta that lie at once: stopped heads, idle ports, and partitions with nothing to
drain (R62, R517). -/
def State.dueNow (s : State) : List SwitchPt :=
  ((s.img.wait.map fun w => s.switchPoint w.2).filter fun pt => match pt with
    | .head h => !(s.head h).on && !(s.testing 4 h)
    | .port n => s.rd .VIN_STATUS_ACTIVE_VC n == 0 && !(s.testing 5 n)
    | .part p => !(s.partCfg p).used
    | .epoch => false).eraseDups

/-- A delta enters APPLYING (R58, R62, R63). -/
def State.startDelta (s : State) (own : List Rec) (seq digest : Nat) : State :=
  let wait := own.map fun r => (((tagInfo r.tag).elim 0 (·.1)), r)
  let parts := (own.filter fun r => r.tag == 0x30 || r.tag == 0x31 || r.tag == 0x90).map fun r => d8 r.val 0
  let s : State := { s with img := { s.img with
    wait := wait, seqNew := seq, digest := digest, applyG := s.gcnt
    draining := (parts.filter fun p => (s.partCfg p).used).eraseDups } }
  let s := (s.wr .STRUCT_STATUS_STATE 0 3).deltaSettle
  s.each s.dueNow State.switchAt

/-! ## Loading (R57, R58, R60, R592-R594) -/

/-- A failed load: REJECTED with the first failure; a device that R518 brought back returns to FAILED. -/
def State.reject (s : State) (b : Bad) : State :=
  let s := ((s.wr .STRUCT_STATUS_STATE 0 5).wr .STRUCT_STATUS_ERROR 0 b.1).wr .STRUCT_STATUS_ERR_SECTION 0 b.2.1
  let s := (s.wr .STRUCT_ERR_OFFSET_OFFSET 0 b.2.2).fire 9
  let r := s.img.failedAs
  let s : State := { s with img := { s.img with load := none, failedAs := 0 } }
  if r = 0 then s else s.setReadiness 9 r

/-- An image that has been judged: it takes effect, or is rejected. -/
def State.judge (s : State) (b : List Byte) (sig : Nat) : State :=
  match s.validate b sig with
  | .error e => s.reject e
  | .ok im =>
    let digest := sha384 (b.take im.hdr.sigOff)
    let s : State := { s with img := { s.img with load := none, failedAs := 0 } }
    if im.hdr.kind = 1 then s.applyFull im.recs im.hdr.seq digest else s.startDelta im.recs im.hdr.seq digest

/-- R60: a CANCEL. [DEDUCED: log 28] -/
def State.cancelLoad (s : State) : State :=
  let st := s.rd .STRUCT_STATUS_STATE
  if st ≠ 1 ∧ st ≠ 2 then s
  else
    let s := ((s.wr .STRUCT_STATUS_STATE 0 0).wr .STRUCT_STATUS_ERROR 0 0).wr .STRUCT_STATUS_ERR_SECTION 0 0xFF
    let s := (s.wr .STRUCT_ERR_OFFSET_OFFSET 0 0).fire 9
    let r := s.img.failedAs
    let s : State := { s with img := { s.img with load := none, failedAs := 0 } }
    if r = 0 then s else s.setReadiness 9 r

/-- R57, R60, R592: a LOAD. -/
def State.startLoad (s : State) : State :=
  let st := s.rd .STRUCT_STATUS_STATE
  let r := s.rd .RDY_STATUS_STATE
  let why := s.rd .BRG_STATE_FAIL_REASON
  if st = 1 ∨ st = 2 ∨ st = 3 then (s.wr .STRUCT_STATUS_REFUSED 0 0x16).fire 9
  else if r < 6 ∨ (r = 9 ∧ ¬ [5, 6, 7].contains why) then s.reject (0x17, 0xFF, 0)
  else
    let s := ((s.wr .STRUCT_STATUS_STATE 0 1).wr .STRUCT_STATUS_ERROR 0 0).wr .STRUCT_STATUS_ERR_SECTION 0 0xFF
    let s := s.wr .STRUCT_ERR_OFFSET_OFFSET 0 0
    let ld : ImageLoad := { addr := s.rd .STRUCT_SRC_ADDR_ADDR * 8, len := s.rd .STRUCT_SRC_LEN_LEN }
    let s : State := { s with img := { s.img with load := some ld, failedAs := if r = 9 then why else 0 } }
    if r = 9 then s.setReadiness 6 0 else s

/-- A write of STRUCT_CTRL: the CANCEL acts before the LOAD (R60). -/
def State.structCtrl (s : State) (val : Nat) : State :=
  let s := if bit val 1 then s.cancelLoad else s
  if bit val 0 then s.startLoad else s

/-- R592: a write of STRUCT_CTRL with LOAD set. -/
def execStructLoad (val : Nat) (s : State) : Host.Outcome State Fault Refusal :=
  .next (s.accessed .early fun s => s.structCtrl val)

/-- R60: a write of STRUCT_CTRL with CANCEL set. -/
def execStructCancel (val : Nat) (s : State) : Host.Outcome State Fault Refusal :=
  .next (s.accessed .early fun s => s.structCtrl val)

/-- R592, R594: the fetch ends; the copy holds the bytes as they stand now. Where a read failed, the offset
the registers report is not given: free. [DESIGN CHOICE: log 15] [DESIGN CHOICE: log 16] -/
def execFetchEnd (ok : Bool) (s : State) : Host.Outcome State Fault Refusal :=
  .next (match s.img.load with
    | none => s
    | some ld =>
      if s.rd .STRUCT_STATUS_STATE ≠ 1 then s
      else if !ok then ({ s with fresh := s.fresh + 1 } : State).reject (0x04, 0xFF, Config.freeNat s.fresh 594 % 2 ^ 32)
      else
        let p := s.home pf0
        let bs := (List.range ld.len).map fun i => s.getByte (hostKey p (ld.addr + i))
        ({ s with img := { s.img with load := some { ld with bytes := bs } } } : State).wr .STRUCT_STATUS_STATE 0 2)

/-- R58: validation ends; `sig` is what the keys say of the signature and chain (R55, R56). -/
def execValidationEnd (sig : Nat) (s : State) : Host.Outcome State Fault Refusal :=
  .next (match s.img.load with
    | none => s
    | some ld => if s.rd .STRUCT_STATUS_STATE = 2 then s.judge ld.bytes sig else s)

/-- A slot's bytes. -/
def slotBytes (l : List Nat) : List Byte := l.map fun n => BitVec.ofNat 8 n

/-- R57, R504: FC0 reads the structure image slots, the valid one of higher SEQ first. When neither
validates, each is rejected in turn. [DESIGN CHOICE: log 24] -/
def execFlashImageLoad (slots : List (List Nat × Nat)) (s : State) : Host.Outcome State Fault Refusal :=
  .next (
    if !(s.inState 6) || s.img.load.isSome || s.rd .STRUCT_STATUS_STATE == 4 then s
    else
      let two := (slots.take 2).map fun (x : List Nat × Nat) => (slotBytes x.1, x.2)
      let best := two.foldl (fun (b : Option (Nat × List Byte × Nat)) x =>
        match s.validate x.1 x.2 with
        | .error _ => b
        | .ok im => match b with
          | none => some (im.hdr.seq, x)
          | some o => if o.1 < im.hdr.seq then some (im.hdr.seq, x) else b) none
      match best with
      | some o => s.judge o.2.1 o.2.2
      | none => s.each two fun s x => s.judge x.1 x.2)

/-! ## Draining (R63) -/

/-- Attempts of a partition that are in flight. [DEDUCED: log 27] -/
def State.partFlights (s : State) (p : Nat) : List Flight :=
  s.flights.filter fun f => s.partOf (gqCtx f.gq) == p && f.phase != .waiting

/-- R63: the drain limit of a draining partition passes. -/
def execDrainLimitExpiry (partition : Nat) (s : State) : Host.Outcome State Fault Refusal :=
  .next (
    let us := (s.partRec partition).elim 0 fun r => d16 r.val 6
    if ¬ s.img.draining.contains partition ∨ s.gcnt < s.img.applyG + (if us = 0 then 1000 else us) * 100 then s
    else s.each ((s.partFlights partition).filter Flight.killable) State.kill)

/-- R63: the last command in flight of a draining partition has gone. -/
def execPartitionDrained (partition : Nat) (s : State) : Host.Outcome State Fault Refusal :=
  .next (
    if s.img.draining.contains partition ∧ (s.partFlights partition).isEmpty then s.switchAt (.part partition) else s)

/-! ## Partition reset (R97, R528) -/

/-- Steps 1 and 2: the tenants are torn down, the lanes stop and the ports return to reset. -/
def State.resetPart (s : State) (p : Nat) : State :=
  let s : State := { s with brg := { s.brg with resetting := s.brg.resetting ++ [p] } }
  let s := s.each ((s.ctxsOf p).filter fun t => s.rd .VF_STATUS_STATE t == 1) State.startTeardown
  let s := s.each ((List.range 4).filter fun l => s.rd .VIS_STATUS_PARTITION l == p) State.visStop
  s.each ((List.range 8).filter fun n => s.rd .VIN_STATUS_PARTITION n == p && decide (2 ≤ s.rd .VIN_STATUS_STATE n)) State.portReset

/-- R528: a write of BRG_PART_RESET. -/
def execPartitionReset (val : Nat) (s : State) : Host.Outcome State Fault Refusal :=
  .next (s.accessed .early fun s =>
    let p := bits val 8 6
    let s := s.wr .BRG_PART_RESET_PARTITION 0 p
    if bits val 28 4 ≠ 1 ∨ s.rd .BRG_PART_RESET_RESULT = 1 then s
    else if p = 63 then s.wr .BRG_PART_RESET_RESULT 0 3
    else if s.unconfigured p ∨ s.brg.resetting.contains p then s.wr .BRG_PART_RESET_RESULT 0 2
    else ({ (s.wr .BRG_PART_RESET_RESULT 0 1) with brg := { s.brg with partOp := p } } : State).resetPart p)

/-- Steps 3 and 4: every frame of the partition but the retired ones is FREE, its data is gone, its key is new
and its sets are formed again; a channel that was retiring is RETIRED (R523). -/
def State.wipePart (s : State) (p : Nat) : State :=
  let s := s.each ((s.ctxsOf p).filter fun t => s.rd .VF_STATUS_STATE t == 2) State.endTeardown
  let s := s.each (s.setsOf p) fun s n => { s with
    mem := Sparse.clear s.mem (n * 2 ^ 38) ((n + 1) * 2 ^ 38)
    m := { s.m with
      frames := s.m.frames.filter fun (kv : Nat × Nat) => !(decide (n * 2 ^ 22 ≤ kv.1) && decide (kv.1 < (n + 1) * 2 ^ 22)) || bits kv.2 60 4 == 2
      hotTaken := s.m.hotTaken.clear (n * 2 ^ 22) ((n + 1) * 2 ^ 22) } }
  let s := s.each ((List.range 128).filter fun pc => s.rd .MEM_PC_STATUS_PARTITION pc == p && s.rd .MEM_PC_STATUS_STATE pc == 3)
    State.retireEnd
  (s.regroup p [] []).newKey p

/-- R528 step 5: the reset of the partition that is being reset completes; a waiting delta section of it
takes effect. -/
def State.partResetDone (s : State) (p : Nat) : State :=
  let s := s.wipePart p
  let s : State := { s with brg := { s.brg with resetting := s.brg.resetting.filter (· ≠ p) } }
  let s := if s.rd .BRG_PART_RESET_RESULT = 1 ∧ s.brg.partOp = p then s.wr .BRG_PART_RESET_RESULT 0 0 else s
  (s.fire 6).switchAt (.part p)

/-- R60: a read of STRUCT_STATUS. -/
def execStructStatusRead (half : Nat) (s : State) : Host.Outcome State Fault Refusal :=
  .next (s.readBlk .early .STRUCT_STATUS 0 half)

/-! ## Head and port events with a switch point (R62, R440) -/

/-- R440: line V_ACTIVE begins. A waiting plan takes effect before the line is compared. -/
def execVblankStart (head : Nat) (s : State) : Host.Outcome State Fault Refusal :=
  .next (
    if 8 ≤ head ∨ ¬ (s.head head).on then s
    else
      let s := s.switchAt (.head head)
      if (s.head head).on then s.vblank head else s.dspFire head 0)

/-- A port's frame may have ended: a stop completes, and a waiting plan takes effect (R62, R456). -/
def State.portEvent (s : State) (n : Nat) : State :=
  let s := s.portSettle n
  if s.rd .VIN_STATUS_ACTIVE_VC n = 0 then s.switchAt (.port n) else s

/-- R453: a Frame Start. -/
def execFrameStart (port vc : Nat) (s : State) : Host.Outcome State Fault Refusal :=
  .next (if s.vinOn port then (s.frameStart port vc).portEvent port else s)

/-- R453: a long packet. -/
def execLongPacket (port vc dt : Nat) (payload : List Byte) (ecc : EccResult) (crcOk : Bool) (s : State) :
    Host.Outcome State Fault Refusal :=
  .next (if s.vinOn port then (s.longPacket port vc dt payload ecc crcOk).portEvent port else s)

/-- R454: a Frame End. -/
def execFrameEnd (port vc : Nat) (s : State) : Host.Outcome State Fault Refusal :=
  .next (if s.vinOn port then (s.frameEnd port vc).portEvent port else s)

/-- R451-R453: a Line Start, Line End or generic short packet is ignored, one of another type is
discarded, and one whose header cannot be read damages its frame. -/
def execShortPacket (port vc dt : Nat) (ecc : EccResult) (s : State) : Host.Outcome State Fault Refusal :=
  .next (
    if !(s.vinOn port) then s
    else
      let s := s.vinHeader port vc ecc
      let s := if ecc = .uncorrectable ∨ (2 ≤ dt ∧ dt < 16 ∧ s.inMask port vc) then s else s.vinDiscard port
      s.portEvent port)

end Sys2Proof.Machine
end

