-- ==== Sys2Proof/Machine/Tephra.lean ====
section
/-! DEFINITION. How a Tephra core executes one instruction: registers, when a core runs, memory spaces,
the checks in rank order, completion with loops, delay slots and the mode shadow, and taking an
exception (R302-R326, R329). -/

namespace Sys2Proof.Machine

/-! ## Cores and registers (R302, R303) -/

/-- The profile of a core: 0 sequencer, 1 shader, 2 Fumarole. -/
def profile (id : Nat) : Nat := if id < 12 then 2 else if id < 108 then 0 else 1

/-- The Caldera and number of a sequencer's core. -/
def seqCe (id : Nat) : Nat := (id - 12) / 16
def seqNo (id : Nat) : Nat := (id - 12) % 16

/-- All ones in 64 bits. -/
def ones64 : Nat := 2 ^ 64 - 1

/-- Scalar registers: g0 reads as 0 and discards writes. -/
def Core.reg (c : Core) (n : Nat) : Nat := if n = 0 then 0 else c.g.get 0 n

def Core.setReg (c : Core) (n v : Nat) : Core := if n = 0 then c else { c with g := c.g.set 0 n (v % 2 ^ 64) }

/-- Predicates: p0 reads as all ones and discards writes; without lanes, every bit copies bit 0. -/
def Core.predVal (c : Core) (id n : Nat) : Nat :=
  if n = 0 then ones64
  else if profile id = 1 then c.p.get 0 n
  else if (c.p.get 0 n).testBit 0 then ones64 else 0

def Core.setPred (c : Core) (n v : Nat) : Core := if n = 0 then c else { c with p := c.p.set 0 n (v % 2 ^ 64) }

/-- PRED, inverted when PN is 1, as a mask. -/
def Core.predMask (c : Core) (i : TI) : Nat :=
  let v := c.predVal i.core i.pred
  if i.pn then ones64 - v else v

/-- The predicate condition (R309). -/
def Core.cond (c : Core) (i : TI) : Bool := (c.predMask i).testBit 0

/-- Fields of MODE. -/
def Core.rm (c : Core) : Nat := bits c.mode 0 2
def Core.ie (c : Core) : Bool := c.mode.testBit 2
def Core.super (c : Core) : Bool := c.mode.testBit 3
def Core.exl (c : Core) : Bool := c.mode.testBit 4

def Core.orFlags (c : Core) (fl : Nat) : Core := { c with fflags := Nat.lor c.fflags fl % 16 }

/-! ## When a core runs -/

/-- The slot a sequencer is bound to. -/
def State.seqSlot (s : State) (id : Nat) : Option Nat :=
  (List.range 32).find? fun sl =>
    s.rd .CE_SLOT_STATE (seqCe id * 32 + sl) == 3 && s.rd .CE_SLOT_SEQ (seqCe id * 32 + sl) == seqNo id

/-- The command a core works for. -/
def State.coreFlight (s : State) (id : Nat) : Option Flight :=
  match profile id with
  | 0 => (s.seqSlot id).bind fun sl => s.inSlot (seqCe id) sl
  | 1 => if s.emb.on && (s.emb.run.any fun r => r.1 == id - 108) then
      s.flights.find? fun f => f.gq == s.emb.gq && f.slot == s.emb.slot else none
  | _ => none

/-- The MMU context of a core: the command's, PF0's on a Fumarole. [DEDUCED: log 130] -/
def State.coreCtx (s : State) (id : Nat) : Nat := ((s.coreFlight id).map fun f => gqCtx f.gq).getD pf0

/-- R7: on KTV-6460 an FC3-FC8 that the floor plan reports absent is held in reset. -/
def State.fusedOff (s : State) (id : Nat) : Bool :=
  s.is6460 && decide (3 ≤ id) && decide (id < 9) && !(s.brg.cur.floor.isEmpty) &&
    !((s.brg.cur.floor.getD 0 0).testBit (48 + id))

/-- The core can execute an instruction now. -/
def State.coreOn (s : State) (id : Nat) : Bool :=
  let c := s.core id
  let has := if profile id = 2 then decide (2 ≤ s.rd .RDY_STATUS_STATE) && !(s.brg.fcDown.contains id)
    else (s.coreFlight id).isSome
  decide (id < 132) && has && !(s.brg.deadCores.contains id) && !(s.fusedOff id) && !s.inReset && !s.pw.tripHeld &&
    s.rd .PWR_STATUS_STATE != 4 && !c.dead && (!c.halted || c.step) && !(c.asleep && (s.eligibleList id).isEmpty)

/-! ## Exceptions (R318-R327) -/

/-- What an instruction raises: cause, EVA and the MMU's status. For an uncorrectable word that R223 or
R363 acts on, `region` is its offset in the slot region, and `st` Ember's memory code. -/
structure Raise where
  cause : Nat
  eva : Nat := 0
  st : Nat := 0
  region : Option Nat := none
deriving DecidableEq, Repr

def causeIllegal : Raise := { cause := 0x01 }
def causePrivileged : Raise := { cause := 0x02 }

/-- The instruction lies at LE of an active loop. -/
def Core.atLE (c : Core) : Bool := (List.range 4).any fun n => c.lact.testBit n && c.le.get 0 n == c.pc

/-- Causes that write EVA (R303). -/
def evaCause (cause : Nat) : Bool := (decide (3 ≤ cause) && decide (cause ≤ 8)) || cause == 0x0C

/-- Exception entry (R320, R322-R324). -/
def Core.enter (c : Core) (cause eva : Nat) : Core :=
  let intr := cause == 0x80
  let ds := c.slot.isSome
  let left := match c.shadow with | some (n, _) => n + b2n ds | none => 0
  { c with
    epc := match c.slot with | some (b, _, _) => b | none => c.pc
    ebt := match c.slot with | some (_, nx, tk) => if tk then nx else c.pc + 8 | none => 0
    ecause := cause
    eva := if evaCause cause then eva else 0
    eflags := b2n (!intr && c.atLE) * 256 + c.lact * 16 + left % 4 * 4 + b2n c.shadow.isSome * 2 + b2n ds
    emode := c.mode
    epmode := match c.shadow with | some (_, m) => c.mode / 16 * 16 + m | none => c.mode
    mode := 24 + c.rm
    shadow := none, slot := none, lact := 0, asleep := false
    pc := c.evec }

/-- R227: a sequencer's command is killed and placed again, and its Caldera is taken out of service. -/
def State.seqLost (s : State) (id : Nat) : State :=
  (match s.coreFlight id with
    | some f => s.loseUnit f
    | none => s).ceFault (seqCe id)

/-- R227: an exception that a sequencer's program does not handle. -/
def State.seqUnhandled (s : State) (id cause pc : Nat) : State :=
  let e := seqCe id
  let s := s.fire (192 + 16 * e + 4)
  let s := if s.rd .CE_SEQ_EXC_VALID e = 1 then s
    else (((s.wr .CE_SEQ_EXC_VALID e 1).wr .CE_SEQ_EXC_SEQ e (seqNo id)).wr .CE_SEQ_EXC_CAUSE e cause).wr
      .CE_SEQ_EXC_PC e pc
  s.seqLost id

/-- R326: the status an exception on a shader core ends its pass with. -/
def shaderStatus (r : Raise) : Nat :=
  match r.cause with
  | 0x03 | 0x04 | 0x05 => r.st
  | 0x08 => 8
  | 0x0D => 9
  | _ => 6

/-- The pass on Ember fails. -/
def State.failPass (s : State) (st addr : Nat) : State :=
  match s.flights.find? fun f => s.emb.on && f.gq == s.emb.gq && f.slot == s.emb.slot with
  | some f => s.failFlight f st addr
  | none => s

/-- R363: an uncorrectable word in one of Ember's memories kills the pass, which runs again. -/
def State.emberUE (s : State) (mem : Nat) : State :=
  let s := ((s.inc .EMB_ERR_UE_COUNT 0).wr .EMB_ERR_MEMORY 0 mem).fire 354
  match s.flights.find? fun f => s.emb.on && f.gq == s.emb.gq && f.slot == s.emb.slot with
  | some f => s.kill f
  | none => s

/-- A corrected word of a core's local memories (R223, R363). -/
def State.wordCorrected (s : State) (id : Nat) : State :=
  match profile id with
  | 0 => s.sramCorrected (seqCe id)
  | 1 => (s.inc .EMB_ERR_CE_COUNT 0).fire 353
  | _ => s

/-- An exception by profile, with the double fault of R325 (R326). [DEDUCED: log 150] -/
def State.raise (s : State) (i : TI) (c : Core) (r : Raise) : State :=
  let id := i.core
  match profile id with
  | 0 =>
    match r.region, s.seqSlot id with
    | some off, some sl =>
      -- R223 acts on an uncorrectable word of a slot region
      let u := ((s.region.filter fun (kv : Nat × RegionUnit) =>
        kv.1 / 512 = seqCe id ∧ kv.2.slot = sl ∧ kv.2.st = .used).map fun kv => kv.1 % 512).getD (off / 65536) 0
      let o := (u * 65536 + off % 65536) % 3145728
      s.sramUncorrectable (seqCe id) 0 (8 * (u / 48) + (Nat.xor (o / 64) (o / 512)) % 8) (o / 512 * 64 + o % 64) sl
    | _, _ =>
      if r.cause = 0x0C ∧ ¬ c.exl then s.setCore id (c.enter r.cause r.eva)
      else s.seqUnhandled id r.cause c.pc
  | 1 =>
    if r.region.isSome then s.emberUE r.st
    else (s.fireIf (r.cause == 0x0D) 357).failPass (shaderStatus r) r.eva
  | _ =>
    if c.exl then (s.setCore id { c with dead := true }).fumaroleHalt id i.ok
    else s.setCore id (c.enter r.cause r.eva)

/-! ## One instruction -/

/-- What an instruction does once it may act: complete with a next address of its own or the next one,
leave the core as the state has it, raise, or stall. -/
inductive TRes where
  | done (s : State) (c : Core) (next : Option Nat)
  | raw (s : State)
  | err (s : State) (r : Raise)
  | stall

/-- What an instruction's form asks of the core: profiles, no delay slot, no loop end, an encoding that
is illegal, supervisor mode, and that its predicate does not gate it. -/
structure TChk where
  prof : List Nat := [0, 1, 2]
  noSlot : Bool := false
  noLE : Bool := false
  bad : Bool := false
  priv : Bool := false
  always : Bool := false
deriving DecidableEq, Repr

/-- The fetch's own causes (R305, R319). [DEDUCED: log 131] -/
def State.fetchRaise (s : State) (i : TI) (c : Core) : Option Raise :=
  let x := if profile i.core = 1 then s.translate (s.coreCtx i.core) c.pc .x else .ok (2 ^ 46)
  match x with
  | .error e => some { cause := 0x03, eva := c.pc, st := e }
  | .ok pa =>
    if i.ecc || s.lineBad pa then some { cause := 0x08, eva := c.pc }
    else if c.pc % 8 ≠ 0 then some { cause := 0x06, eva := c.pc }
    else none

/-- R314: the loops that end at the instruction act, the lowest first; a jump gives the next address. -/
def Core.loopStep (c : Core) (a : Nat) : List Nat → Core × Option Nat
  | [] => (c, none)
  | n :: ns =>
    if c.lact.testBit n && c.le.get 0 n == a then
      let lc := c.lc.get 0 n - 1
      let c := { c with lc := c.lc.set 0 n lc }
      if lc ≠ 0 then (c, some (c.ls.get 0 n))
      else ({ c with lact := clrBit c.lact n } : Core).loopStep a ns
    else c.loopStep a ns

/-- R316: an instruction that completes in a shadow brings the pending mode nearer. -/
def Core.shadowStep (c : Core) (old : Option (Nat × Nat)) : Core :=
  match old with
  | none => c
  | some (n, m) =>
    if n ≤ 1 then { c with mode := c.mode / 16 * 16 + m, shadow := none } else { c with shadow := some (n - 1, m) }

/-- Completion of the instruction at `old.pc`, which has left the core as `c`. -/
def Core.complete (old c : Core) (next : Option Nat) : Core :=
  let lp := c.loopStep old.pc [0, 1, 2, 3]
  let c := lp.1.shadowStep old.shadow
  match old.slot with
  | some (_, nx, _) => { c with slot := none, pc := (lp.2.getD nx) % 2 ^ 64 }
  | none => { c with pc := (lp.2.getD (next.getD (old.pc + 8))) % 2 ^ 64 }

/-- One instruction at a core, its causes in rank order (R309, R318, R319). -/
def State.tephra (s : State) (i : TI) (k : TChk) (body : State → Core → TRes) : State :=
  let c := s.core i.core
  if !(s.coreOn i.core) then s
  else
    let c := { c with asleep := false, step := false }
    match s.fetchRaise i c with
    | some r => s.raise i c r
    | none =>
      if !(k.prof.contains (profile i.core)) || k.bad || i.zero != 0 || decide (8 ≤ i.pred) ||
          (c.slot.isSome && (k.noSlot || c.atLE)) || (k.noLE && c.atLE) then s.raise i c causeIllegal
      else if k.priv && !c.super then s.raise i c causePrivileged
      else if !k.always && !(c.cond i) then s.setCore i.core (c.complete c none)
      else match body (if i.word = .corrected then s.wordCorrected i.core else s) c with
        | .done s' c' nx => s'.setCore i.core (c.complete c' nx)
        | .raw s' => s'
        | .err s' r => s'.raise i c r
        | .stall => s

/-- Register fields name g0-g31 (R305). [DEDUCED: log 133] -/
def gOk (l : List Nat) : Bool := l.all fun n => decide (n < 32)

/-! ## Memory spaces (R304, R305) -/

/-- Bytes of a core's SPACE 1. -/
def State.localSize (s : State) (id : Nat) : Nat :=
  if profile id = 0 then ((s.coreFlight id).map (·.sram)).getD 0 * 65536 else 65536

/-- A byte of a sparse local memory. -/
def seedByte (m : Sparse Nat) (seed a : Nat) : Byte :=
  match m.get 0 a with
  | 0 => if seed = 0 then 0 else Config.freeByte seed a
  | n + 1 => BitVec.ofNat 8 n

def putSeed (m : Sparse Nat) (a : Nat) : List Byte → Sparse Nat
  | [] => m
  | b :: bs => putSeed (m.set 0 a (b.toNat + 1)) (a + 1) bs

def Core.locBytes (c : Core) (a n : Nat) : List Byte := (List.range n).map fun k => seedByte c.loc c.locSeed (a + k)
def Core.ctlBytes (c : Core) (a n : Nat) : List Byte := (List.range n).map fun k => seedByte c.ctl c.ctlSeed (a + k)
def Core.putLoc (c : Core) (a : Nat) (bs : List Byte) : Core := { c with loc := putSeed c.loc a bs }
def Core.putCtl (c : Core) (a : Nat) (bs : List Byte) : Core := { c with ctl := putSeed c.ctl a bs }

/-- Bytes of a slot's control store (R224). -/
def ctlSize : Nat := 16384

/-- The memory form is legal for a profile: SPACE 3 is reserved, SPACE 2 is for sequencers (R305). -/
def memBad (i : TI) (m : TMem) : Bool :=
  !(gOk [m.data, m.base]) || decide (3 ≤ m.space) || (m.space == 2 && profile i.core != 0) || decide (4 ≤ m.size)

/-- The address BASE + OFF. -/
def Core.memAddr (c : Core) (m : TMem) : Nat := ofSigned 64 ((c.reg m.base : Int) + m.off)

/-- Checks of a local access: alignment, then the region (R319). -/
def localRaise (a n size : Nat) : Option Raise :=
  if a % n ≠ 0 then some { cause := 0x06, eva := a } else if size < a + n then some { cause := 0x07, eva := a } else none

/-- Read `n` bytes at an address of a space. [DEDUCED: log 132] -/
def State.coreLoad (s : State) (i : TI) (c : Core) (space a n : Nat) : State × Except Raise Nat :=
  match space with
  | 0 =>
    if a % n ≠ 0 then (s, .error { cause := 0x06, eva := a })
    else
      let ctx := s.coreCtx i.core
      match s.ldBytes ctx a n with
      | .ok bs => (s.touch ctx a false, .ok (leNat bs))
      | .error (8, va) => (s.detect ctx va, .error { cause := 0x08, eva := a })
      | .error (e, _) => (s, .error { cause := 0x04, eva := a, st := e })
  | 1 => match localRaise a n (s.localSize i.core) with
    | some r => (s, .error r)
    | none => if i.word = .uncorrectable then (s, .error { cause := 0x08, eva := a, st := 3, region := some a })
      else (s, .ok (leNat (c.locBytes a n)))
  | _ => match localRaise a n ctlSize with
    | some r => (s, .error r)
    | none => if i.word = .uncorrectable then (s, .error { cause := 0x08, eva := a }) else (s, .ok (leNat (c.ctlBytes a n)))

/-- Write `n` bytes at an address of a space. -/
def State.coreStore (s : State) (i : TI) (c : Core) (space a n v : Nat) : State × Except Raise Core :=
  match space with
  | 0 =>
    if a % n ≠ 0 then (s, .error { cause := 0x06, eva := a })
    else match s.stBytes (s.coreCtx i.core) a (natLe n v) (n + 1) with
      | (s', none) => (s', .ok c)
      | (s', some (8, _)) => (s', .error { cause := 0x08, eva := a })
      | (s', some (e, _)) => (s', .error { cause := 0x05, eva := a, st := e })
  | 1 => match localRaise a n (s.localSize i.core) with
    | some r => (s, .error r)
    | none => (s, .ok (c.putLoc a (natLe n v)))
  | _ => match localRaise a n ctlSize with
    | some r => (s, .error r)
    | none => (s, .ok (c.putCtl a (natLe n v)))

/-- A value of `w` bits whose bits above are not given: free values (R308). [DESIGN CHOICE: log 134] -/
def State.freeHigh (s : State) (w v : Nat) : State × Nat :=
  ({ s with fresh := s.fresh + 1 }, v % 2 ^ w + Config.freeNat s.fresh 308 % 2 ^ (64 - w) * 2 ^ w)

end Sys2Proof.Machine
end

