-- ==== Sys2Proof/Machine/EmberPass.lean ====
section
/-! DEFINITION. An Ember pass: the EMBER_PASS body and its validation, primitives, coverage, tests,
blending, and what a pass stores (R362-R381, R388-R391). -/

namespace Sys2Proof.Machine

/-! ## Formats of targets and textures (R376, R377) -/

/-- A channel's kind in a format: bits at a position as UNORM, or FP16 or FP32. -/
inductive Chan where
  | unorm (lo w : Nat)
  | f16 (lo : Nat)
  | f32 (lo : Nat)
deriving DecidableEq, Repr

/-- R376: bytes and channels of a format code. -/
def emFmt (code : Nat) : Option (Nat × List Chan) :=
  match code with
  | 0 => some (1, [.unorm 0 8])
  | 1 => some (2, [.unorm 0 8, .unorm 8 8])
  | 2 => some (4, [.unorm 0 8, .unorm 8 8, .unorm 16 8, .unorm 24 8])
  | 3 => some (4, [.unorm 0 10, .unorm 10 10, .unorm 20 10, .unorm 30 2])
  | 4 => some (8, [.f16 0, .f16 16, .f16 32, .f16 48])
  | 5 => some (4, [.f32 0])
  | 6 => some (16, [.f32 0, .f32 32, .f32 64, .f32 96])
  | _ => none

def emBytes (code : Nat) : Nat := ((emFmt code).map (·.1)).getD 0

/-- A UNORM format: its exports are clamped before blending. -/
def emUnorm (code : Nat) : Bool := decide (code < 4)

/-- The FP32 value of a channel. -/
def Chan.dec (c : Chan) (px : Nat) : Val :=
  match c with
  | .unorm lo w => (fp32 ((Val.ofNat (bits px lo w)).div (.ofNat (2 ^ w - 1)))).1
  | .f16 lo => decElem 8 (bits px lo 16)
  | .f32 lo => decFP32 (bits px lo 32)

/-- x clamped to 0-1; NaN stays. -/
def clamp01 (x : Val) : Val := if x.isNaN then x else if x.lt .zero then .zero else if Val.one.lt x then .one else x

/-- The bits of a channel at its place. -/
def Chan.enc (c : Chan) (x : Val) : Nat :=
  match c with
  | .unorm lo w => (match ((clamp01 x).mul (.ofNat (2 ^ w - 1))).trunc with | some z => z.toNat | none => 0) * 2 ^ lo
  | .f16 lo => (narrow 8 x 0).1 * 2 ^ lo
  | .f32 lo => encFP32 x * 2 ^ lo

def Chan.mask : Chan → Nat
  | .unorm lo w => (2 ^ w - 1) * 2 ^ lo
  | .f16 lo => 0xFFFF * 2 ^ lo
  | .f32 lo => 0xFFFFFFFF * 2 ^ lo

/-- R, G, B and A of a pixel; a missing channel is 0, or 1 for alpha. -/
def emDec (code px : Nat) : List Val :=
  let cs := ((emFmt code).map (·.2)).getD []
  (List.range 4).map fun k => match cs[k]? with | some c => c.dec px | none => if k = 3 then .one else .zero

/-- Write the channels of a mask into a pixel. -/
def emEnc (code wmask old : Nat) (x : List Val) : Nat :=
  let cs := ((emFmt code).map (·.2)).getD []
  cs.zipIdx.foldl (fun px (ck : Chan × Nat) =>
    if wmask.testBit ck.2 then px - Nat.land px ck.1.mask + ck.1.enc (x.getD ck.2 .zero) else px) old

/-! ## The body (R388-R390) -/

/-- Fields of an EMBER_PASS descriptor. -/
def epW (d : List Byte) : Nat := d16 d 0x16
def epH (d : List Byte) : Nat := d16 d 0x18
def epSamples (d : List Byte) : Nat := d8 d 0x1A
def epTargets (d : List Byte) : Nat := d8 d 0x1B
def epScratch (d : List Byte) : Nat := d32 d 0x30
def tgtHandle (d : List Byte) (k : Nat) : Nat := d32 d (0x40 + 8 * k)
def tgtPitch (d : List Byte) (k : Nat) : Nat := d16 d (0x44 + 8 * k) * 64
def tgtFmt (d : List Byte) (k : Nat) : Nat := d8 d (0x46 + 8 * k)
def tgtFlags (d : List Byte) (k : Nat) : Nat := d8 d (0x47 + 8 * k)
def tgtLoad (d : List Byte) (k : Nat) : Nat := tgtFlags d k % 4
def tgtStore (d : List Byte) (k : Nat) : Bool := (tgtFlags d k).testBit 2
def blendOn (d : List Byte) (k : Nat) : Bool := (d8 d (0x85 + 8 * k)).testBit 7

/-- WRITE_MASK of a target; without slot 2 every channel is written. [DEDUCED: log 167] -/
def writeMask (d : List Byte) (k : Nat) : Nat := if dExt d < 2 then 15 else d8 d (0x85 + 8 * k) % 16

def stencilOn (d : List Byte) : Bool := (d8 d 0xC0).testBit 3
def mvOut (d : List Byte) : Bool := (d8 d 0x27).testBit 0
def zOut (d : List Byte) : Bool := (d8 d 0x27).testBit 1

/-- A factor or a load of the pass uses CONSTANT. -/
def usesConst (d : List Byte) : Bool :=
  (List.range (epTargets d)).any fun k =>
    tgtLoad d k == 2 ||
      (blendOn d k && (List.range 4).any fun j => let x := d8 d (0x80 + 8 * k + j); x == 10 || x == 11)

/-- R373: tile memory bytes a pixel needs. -/
def tileNeed (d : List Byte) : Nat :=
  epSamples d * (5 + ((List.range (epTargets d)).map fun k => emBytes (tgtFmt d k)).foldl (· + ·) 0) + 4 * b2n (mvOut d)

/-- The last byte of a plane of rows, plus 1. -/
def planeEnd (h pitch row : Nat) : Nat := (h - 1) * pitch + row

/-- A target's record is legal. -/
def tgtOk (s : State) (ctx : Nat) (d : List Byte) (k : Nat) : Bool :=
  let h := tgtHandle d k
  let row := epW d * emBytes (tgtFmt d k)
  let mem := tgtStore d k || tgtLoad d k == 1
  (emFmt (tgtFmt d k)).isSome && tgtLoad d k != 3 && decide (tgtFlags d k < 8) && handleOk h && ((h != 0) == mem) &&
    (!mem || (decide (row ≤ tgtPitch d k) &&
      (s.handleFree ctx h || decide (planeEnd (epH d) (tgtPitch d k) row ≤ (s.tensor ctx h).bytes))))

/-- A blend record is legal (R378, R389). -/
def blendOk (d : List Byte) (k : Nat) : Bool :=
  let o := 0x80 + 8 * k
  ((List.range 4).all fun j => decide (d8 d (o + j) ≤ 12)) && decide (d8 d (o + 4) < 64) &&
    decide (d8 d (o + 4) % 8 ≤ 4) && decide (d8 d (o + 4) / 8 ≤ 4) && bits (d8 d (o + 5)) 4 3 == 0 && dZero d (o + 6) (o + 8)

/-- A plane output: its handle, pitch and extent. -/
def planeOk (s : State) (ctx : Nat) (d : List Byte) (on : Bool) (ho po row : Nat) : Bool :=
  let h := d32 d ho
  let p := d32 d po
  handleOk h && ((h != 0) == on) && p % 64 == 0 &&
    (!on || (decide (row ≤ p) && (s.handleFree ctx h || decide (planeEnd (epH d) p row ≤ (s.tensor ctx h).bytes))))

/-- The handles a pass writes: SCRATCH, stored targets, the planes. -/
def passOuts (d : List Byte) : List Nat :=
  epScratch d :: (((List.range (epTargets d)).filter (tgtStore d)).map (tgtHandle d)) ++
    (if mvOut d then [d32 d 0x34] else []) ++ (if zOut d then [d32 d 0x38] else [])

/-- R388, R389, R391: the body's own rules. -/
def passBodyOk (s : State) (ctx : Nat) (d : List Byte) : Bool :=
  decide (1 ≤ d16 d 0x14) && decide (1 ≤ epW d) && decide (epW d ≤ 16384) && decide (1 ≤ epH d) && decide (epH d ≤ 16384) &&
    (epSamples d == 1 || epSamples d == 4) && decide (1 ≤ epTargets d) && decide (epTargets d ≤ 8) &&
    handleOk (d32 d 0x10) && handleOk (d32 d 0x1C) && handleOk (d32 d 0x20) && handleOk (epScratch d) &&
    decide (d16 d 0x24 ≤ 4096) && (d32 d 0x20 != 0 || d16 d 0x24 == 0) && decide (d8 d 0x26 < 32) && decide (d8 d 0x27 < 4) &&
    dZero d 0x2D 0x30 && dZero d 0x3C 0x40 &&
    ((List.range (epTargets d)).all (tgtOk s ctx d)) && dZero d (0x40 + 8 * epTargets d) 0x80 &&
    (dExt d < 2 || (List.range 8).all (blendOk d)) &&
    (decide (3 ≤ dExt d) || !(stencilOn d || d8 d 0x27 != 0 || usesConst d)) &&
    decide (d8 d 0xC0 < 16) && decide (d8 d 0xC4 < 8) && decide (d8 d 0xC5 < 8) && decide (d8 d 0xC6 < 8) &&
    dZero d 0xC7 0xC8 && dZero d 0xE0 0x100 &&
    planeOk s ctx d (mvOut d) 0x34 0xD8 (4 * epW d) && planeOk s ctx d (zOut d) 0x38 0xDC (2 * epW d) &&
    decide ((passOuts d).length ≤ 8)

/-- R390: a draw record is legal. -/
def drawOk (r : List Byte) : Bool :=
  handleOk (d32 r 0) && handleOk (d32 r 4) && handleOk (d32 r 8) && decide (1 ≤ d32 r 0xC) && decide (d32 r 0xC ≤ 16777216) &&
    d32 r 0x14 % 8 == 0 && decide (d8 r 0x1C < 32) && bits (d8 r 0x1C) 2 2 != 3 && decide (d8 r 0x1D ≤ 15) && dZero r 0x1E 0x20

/-- R382: a texture descriptor is legal. [DEDUCED: log 168] -/
def texOk (r : List Byte) : Bool :=
  let lin := (d8 r 4).testBit 2
  if d8 r 4 % 4 = 1 then d32 r 0 == 0 && decide (d8 r 4 < 8) && decide (d8 r 5 < 8)
  else
    handleOk (d32 r 0) && d8 r 4 % 4 == 0 && decide (d8 r 4 < 8) && (emFmt (d8 r 5)).isSome &&
      decide (1 ≤ d16 r 6) && decide (d16 r 6 ≤ 16384) && decide (1 ≤ d16 r 8) && decide (d16 r 8 ≤ 16384) &&
      decide (1 ≤ d16 r 0xA) && decide (d16 r 0xA ≤ 2048) && decide (1 ≤ d8 r 0xC) && decide (d8 r 0xC ≤ 15) &&
      (!lin || d8 r 0xC == 1) && [1, 2, 4, 8, 16].contains (d8 r 0xD) && decide (d8 r 0xE < 16) &&
      bits (d8 r 0xE) 2 2 != 3 && decide (d8 r 0xF < 16) && (if lin then d32 r 0x18 % 64 == 0 else d32 r 0x18 == 0)

/-- Map a list through a function that can fail; the first failure ends it. -/
def mapE {α β : Type} (g : α → Except (Nat × Nat) β) : List α → Except (Nat × Nat) (List β)
  | [] => .ok []
  | a :: l => match g a with
    | .error e => .error e
    | .ok b => match mapE g l with
      | .error e => .error e
      | .ok bs => .ok (b :: bs)

/-- Records of `w` bytes read from a tensor's committed version. -/
def State.readRecords (s : State) (ctx h n w : Nat) : Except (Nat × Nat) (List (List Byte)) :=
  let base := (s.tensor ctx h).curBuf
  mapE (fun i => s.ldBytes ctx (base + i * w) w) (List.range n)

/-- The draw list and the descriptor table. -/
def State.passTables (s : State) (ctx : Nat) (d : List Byte) : Except (Nat × Nat) (List (List Byte) × List (List Byte)) :=
  match s.readRecords ctx (d32 d 0x10) (d16 d 0x14) 32 with
  | .error e => .error e
  | .ok ds => match s.readRecords ctx (d32 d 0x20) (d16 d 0x24) 32 with
    | .error e => .error e
    | .ok ts => .ok (ds, ts)

/-- The input handles of a pass (R362). -/
def passIns (d : List Byte) (ds ts : List (List Byte)) : List Nat :=
  ([d32 d 0x10, d32 d 0x1C] ++ (if d16 d 0x24 = 0 then [] else [d32 d 0x20]) ++
    (((List.range (epTargets d)).filter fun k => tgtLoad d k = 1).map (tgtHandle d)) ++
    (ds.flatMap fun r => d32 r 0 :: (if d32 r 4 = 0 then [] else [d32 r 4]) ++ (if d32 r 8 = 0 then [] else [d32 r 8])) ++
    ((ts.filter fun r => d8 r 4 % 4 = 0).map fun r => d32 r 0)).eraseDups

/-- R361, R388-R391: the validation of an EMBER_PASS. -/
def passCheck (gq : Nat) (s : State) (d : List Byte) : Except (Nat × Nat) Plan :=
  let ctx := gqCtx gq
  if s.rd .EMB_STATUS_STATE = 0 then .error (0x0A, 0)
  else if !(passBodyOk s ctx d) then .error (6, 0)
  else if 128 < tileNeed d then .error (7, 0)
  else
    let first := d32 d 0x10 :: (if d16 d 0x24 = 0 then [] else [d32 d 0x20])
    match first.find? (s.handleFree ctx) with
    | some h => .error (5, h)
    | none =>
      if (s.tensor ctx (d32 d 0x10)).bytes < 32 * d16 d 0x14 ∨
          (d16 d 0x24 ≠ 0 ∧ (s.tensor ctx (d32 d 0x20)).bytes < 32 * d16 d 0x24) then .error (6, 0)
      else match s.passTables ctx d with
      | .error e => .error e
      | .ok (ds, ts) =>
        if ds.all drawOk && ts.all texOk then .ok { ins := passIns d ds ts, outs := (passOuts d).eraseDups }
        else .error (6, 0)

/-! ## Draws -/

def drCount (r : List Byte) : Nat := d32 r 0xC
def drFirst (r : List Byte) : Nat := d32 r 0x10
def drStrip (r : List Byte) : Bool := (d8 r 0x1C).testBit 0
def drCull (r : List Byte) : Nat := bits (d8 r 0x1C) 2 2
def drCW (r : List Byte) : Bool := (d8 r 0x1C).testBit 4
/-- Bytes of an output record of a draw (R364). -/
def drRec (r : List Byte) : Nat := 16 * (1 + d8 r 0x1D)

/-- Byte offset of a draw's records in SCRATCH: the draws' records lie one after another. [DESIGN CHOICE: log 163] -/
def recBase (ds : List (List Byte)) (i : Nat) : Nat := ((ds.take i).map fun r => drCount r * drRec r).foldl (· + ·) 0

/-- Address of SCRATCH's pending buffer. -/
def State.scratchVA (s : State) (f : Flight) : Nat := s.outVA (gqCtx f.gq) (epScratch f.desc) false

/-- The vertex index at a position (R364). -/
def State.vertexIndex (s : State) (ctx : Nat) (r : List Byte) (i : Nat) : Except (Nat × Nat) Nat :=
  if d32 r 4 = 0 then .ok ((drFirst r + i) % 2 ^ 32)
  else
    let w := if (d8 r 0x1C).testBit 1 then 4 else 2
    match s.ldBytes ctx ((s.tensor ctx (d32 r 4)).curBuf + (drFirst r + i) * w) w with
    | .error e => .error e
    | .ok b => .ok (leNat b)

/-- The vertex groups of one draw, 64 positions each. -/
def State.vertexGroups (s : State) (f : Flight) (ds : List (List Byte)) (di : Nat) (r : List Byte) :
    Except (Nat × Nat) (List EmbGroup) :=
  let ctx := gqCtx f.gq
  let buf := fun h => if h = 0 then 0 else (s.tensor ctx h).curBuf
  mapE (fun gi =>
      let n := min 64 (drCount r - gi * 64)
      match mapE (fun l => s.vertexIndex ctx r (gi * 64 + l)) (List.range n) with
      | .error e => .error e
      | .ok vs => .ok {
          draw := di, frag := false, live := 2 ^ n - 1
          g := [buf (d32 r 0), 0, di, buf (d32 r 8), s.scratchVA f + recBase ds di, 0]
          v := [vs, (List.range n).map fun l => (gi * 64 + l) * drRec r] }) (List.range (ceilDiv (drCount r) 64))

/-! ## Primitives (R365-R367) -/

/-- A vertex: clip-space position, varyings, and the offset of its record in SCRATCH. -/
structure Vert where
  pos : List Val
  var : List Val
  off : Nat
deriving DecidableEq, Repr

def Vert.c (v : Vert) (i : Nat) : Val := v.pos.getD i .zero

def fAdd0 (a b : Val) : Val := (fp32 (a.add b)).1
def fSub0 (a b : Val) : Val := (fp32 (a.sub b)).1
def fMul0 (a b : Val) : Val := (fp32 (a.mul b)).1
def fDiv0 (a b : Val) : Val := (fp32 (a.div b)).1

/-- x ≤ y for FP32 values. -/
def leVal (x y : Val) : Bool := x.ltNum y || x.eqNum y

/-- Inside each of the six planes (R366). -/
def Vert.inside (v : Vert) : List Bool :=
  let w := v.c 3
  [leVal w.neg (v.c 0), leVal (v.c 0) w, leVal w.neg (v.c 1), leVal (v.c 1) w, leVal .zero (v.c 2), leVal (v.c 2) w]

/-- Signed distances from the clip planes: z = 0, z = w, then the guard planes at 65,536 pixels. [DEDUCED: log 164] -/
def clipDist (W H : Nat) (plane : Nat) (v : Vert) : Val :=
  let w := v.c 3
  let g := fMul0 w (.ofNat 65536)
  let sc := fun (x : Val) (n : Nat) => fMul0 (fAdd0 x w) (fDiv0 (.ofNat n) (.ofNat 2))
  match plane with
  | 0 => v.c 2
  | 1 => fSub0 w (v.c 2)
  | 2 => fAdd0 (sc (v.c 0) W) g
  | 3 => fSub0 g (sc (v.c 0) W)
  | 4 => fAdd0 (sc (v.c 1) H) g
  | _ => fSub0 g (sc (v.c 1) H)

/-- The new vertex on an edge; its record is the next one in SCRATCH. -/
def clipEdge (da db : Val) (a b : Vert) (off : Nat) : Vert :=
  let t := fDiv0 da (fSub0 da db)
  let mix := fun (x y : Val) => fAdd0 x (fMul0 t (fSub0 y x))
  { pos := List.zipWith mix a.pos b.pos, var := List.zipWith mix a.var b.var, off := off }

/-- Clip a polygon against one plane; new vertices take records from `off` on. -/
def clipPlane (W H plane rec_ : Nat) (poly : List Vert) (off : Nat) : List Vert × Nat :=
  let n := poly.length
  (List.range n).foldl (fun (acc : List Vert × Nat) i =>
    match poly[i]?, poly[(i + 1) % n]? with
    | some a, some b =>
      let da := clipDist W H plane a
      let db := clipDist W H plane b
      let ia := leVal .zero da
      let ib := leVal .zero db
      let l := if ia then acc.1 ++ [a] else acc.1
      if ia == ib then (l, acc.2) else (l ++ [clipEdge da db a b acc.2], acc.2 + rec_)
    | _, _ => acc) ([], off)

/-- A triangle on the screen: fixed-point corners, depths, clip w and record offsets. -/
structure Tri where
  xs : List Int
  ys : List Int
  zs : List Val
  ws : List Val
  offs : List Nat
deriving DecidableEq, Repr

/-- R367: a vertex on the screen in 1/256 pixel, or none where a coordinate is no number. [DESIGN CHOICE: log 165] -/
def projectXY (v : Vert) (W H : Nat) : Option (Int × Int) :=
  let xs := fDiv0 (fMul0 (fAdd0 (fDiv0 (v.c 0) (v.c 3)) .one) (.ofNat W)) (.ofNat 2)
  let ys := fDiv0 (fMul0 (fAdd0 (fDiv0 (v.c 1) (v.c 3)) .one) (.ofNat H)) (.ofNat 2)
  match (xs.mul (.ofNat 256)).trunc, (ys.mul (.ofNat 256)).trunc with
  | some x, some y => some (x, y)
  | _, _ => none

/-- Twice the signed area (R367). -/
def triArea (t : Tri) : Int :=
  let x := fun i => t.xs.getD i 0
  let y := fun i => t.ys.getD i 0
  (x 1 - x 0) * (y 2 - y 0) - (x 2 - x 0) * (y 1 - y 0)

/-- One fan triangle set up, unless its area or facing discards it. -/
def setupTri (r : List Byte) (W H : Nat) (vs : List Vert) : Option Tri :=
  let ps := vs.filterMap fun v => projectXY v W H
  let t : Tri := { xs := ps.map (·.1), ys := ps.map (·.2), zs := vs.map fun v => fDiv0 (v.c 2) (v.c 3)
                   ws := vs.map (·.c 3), offs := vs.map (·.off) }
  let a := triArea t
  let front := if drCW r then decide (0 < a) else decide (a < 0)
  if ps.length ≠ 3 ∨ a = 0 ∨ (drCull r = 1 ∧ ¬ front) ∨ (drCull r = 2 ∧ front) then none else some t

/-- The triangles of one primitive after clipping, in fan order, the vertices clipping made, and the
triangles discarded (R366). -/
def clipTri (r : List Byte) (W H : Nat) (vs : List Vert) (off : Nat) : List Tri × List Vert × Nat × Nat :=
  let out := (List.range 6).any fun p => vs.all fun v => !(v.inside.getD p false)
  if out then ([], [], off, 1)
  else
    let go := fun (acc : List Vert × Nat) (p : Nat) =>
      if acc.1.any fun v => !(leVal .zero (clipDist W H p v)) then clipPlane W H p (drRec r) acc.1 acc.2 else acc
    let q := [0, 1, 2, 3, 4, 5].foldl go (vs, off)
    let new := q.1.filter fun v => decide (off ≤ v.off)
    match q.1 with
    | v0 :: rest =>
      let fans := (rest.zip (rest.drop 1)).map fun ab => setupTri r W H [v0, ab.1, ab.2]
      (fans.filterMap id, new, q.2, (fans.filter (·.isNone)).length)
    | [] => ([], [], q.2, 1)

/-- The positions of a draw's triangles (R365). -/
def triPositions (r : List Byte) : List (List Nat) :=
  if drStrip r then
    (List.range (drCount r - 2)).map fun j => if j % 2 = 0 then [j, j + 1, j + 2] else [j + 1, j, j + 2]
  else (List.range (drCount r / 3)).map fun j => [3 * j, 3 * j + 1, 3 * j + 2]

/-- Read a vertex record from SCRATCH. -/
def State.readVert (s : State) (f : Flight) (r : List Byte) (off : Nat) : Except (Nat × Nat) Vert :=
  match s.ldBytes (gqCtx f.gq) (s.scratchVA f + off) (drRec r) with
  | .error e => .error e
  | .ok bs =>
    let w := fun i => decFP32 (d32 bs (4 * i))
    .ok { pos := (List.range 4).map w, var := (List.range (4 * d8 r 0x1D)).map fun i => w (4 + i), off := off }

/-- The bytes of a record. -/
def vertBytes (v : Vert) : List Byte := (v.pos ++ v.var).flatMap fun x => natLe 4 (encFP32 x)

/-- A primitive of a pass: its draw, its index within the draw, and its triangle. -/
structure Prim where
  draw : Nat
  idx : Nat
  tri : Tri
deriving DecidableEq, Repr

/-- What binning has gathered: primitives in order, new vertices, the next free record, discards. -/
structure Binned where
  prims : List Prim := []
  verts : List Vert := []
  next : Nat := 0
  dropped : Nat := 0
deriving DecidableEq, Repr

/-- Assemble, clip and set up the triangles of every draw (R362 phase 3). -/
def State.assemble (s : State) (f : Flight) (ds : List (List Byte)) : Except (Nat × Nat) Binned :=
  ds.zipIdx.foldl (fun acc (rd : List Byte × Nat) =>
    (triPositions rd.1).zipIdx.foldl (fun acc (pj : List Nat × Nat) => match acc with
      | .error e => .error e
      | .ok b =>
        match mapE (fun p => s.readVert f rd.1 (recBase ds rd.2 + p * drRec rd.1)) pj.1 with
        | .error e => .error e
        | .ok vs =>
          let c := clipTri rd.1 (epW f.desc) (epH f.desc) vs b.next
          .ok { prims := b.prims ++ c.1.map fun t => ⟨rd.2, pj.2, t⟩, verts := b.verts ++ c.2.1
                next := c.2.2.1, dropped := b.dropped + c.2.2.2 }) acc)
    (.ok { next := recBase ds ds.length })

/-! ## Coverage (R368, R369) -/

/-- Sample offsets in 1/256 pixel. -/
def sampleOffs (n : Nat) : List (Int × Int) :=
  if n = 4 then [(96, 32), (224, 96), (32, 160), (160, 224)] else [(128, 128)]

/-- Corner order with positive area. -/
def triOrder (t : Tri) : List Nat := if 0 < triArea t then [0, 1, 2] else [0, 2, 1]

/-- Edge function from corner `a` to corner `b` at a point. -/
def edgeFn (t : Tri) (a b : Nat) (x y : Int) : Int :=
  let ax := t.xs.getD a 0
  let ay := t.ys.getD a 0
  let bx := t.xs.getD b 0
  let b_y := t.ys.getD b 0
  (bx - ax) * (y - ay) - (b_y - ay) * (x - ax)

/-- An edge that owns the samples on it: top or left. -/
def edgeOwns (t : Tri) (a b c : Nat) : Bool :=
  let ay := t.ys.getD a 0
  let b_y := t.ys.getD b 0
  if ay = b_y then decide (ay < t.ys.getD c 0) else decide (b_y < ay)

/-- Edge functions opposite corners 0, 1 and 2, positive inside. -/
def edges (t : Tri) (x y : Int) : List Int :=
  match triOrder t with
  | [a, b, c] =>
    let e := fun p q => edgeFn t p q x y
    -- opposite a is edge b-c, opposite b is c-a, opposite c is a-b
    let ea := e b c
    let eb := e c a
    let ec := e a b
    if b = 1 then [ea, eb, ec] else [ea, ec, eb]
  | _ => [0, 0, 0]

/-- The sample at a point is covered. -/
def covers (t : Tri) (x y : Int) : Bool :=
  match triOrder t with
  | [a, b, c] =>
    let ok := fun p q r => let e := edgeFn t p q x y; decide (0 < e) || (e == 0 && edgeOwns t p q r)
    ok a b c && ok b c a && ok c a b
  | _ => false

/-- Coverage mask of a pixel inside the target. -/
def coverMask (t : Tri) (n W H X Y : Nat) : Nat :=
  if W ≤ X ∨ H ≤ Y then 0
  else (((sampleOffs n).zipIdx).map fun (ok : (Int × Int) × Nat) =>
    b2n (covers t (X * 256 + ok.1.1) (Y * 256 + ok.1.2)) * 2 ^ ok.2).foldl (· + ·) 0

/-- Depth at a sample: exact, one rounding, clamped (R369). -/
def depthAt (t : Tri) (x y : Int) : Nat :=
  match edges t x y with
  | [e0, e1, e2] =>
    let z := fun i => t.zs.getD i .zero
    let sum := (((Val.ofInt e0).mul (z 0)).add ((Val.ofInt e1).mul (z 1))).add ((Val.ofInt e2).mul (z 2))
    encFP32 (clamp01 (fp32 (sum.div (.ofInt (e0 + e1 + e2)))).1)
  | _ => 0

/-- Perspective-correct barycentrics at a pixel's centre (R369). -/
def baryAt (t : Tri) (X Y : Nat) : Nat × Nat :=
  match edges t ((X : Int) * 256 + 128) ((Y : Int) * 256 + 128) with
  | [e0, e1, e2] =>
    let q := fun (e : Int) i => fDiv0 (.ofInt e) (t.ws.getD i .one)
    let sum := fAdd0 (fAdd0 (q e0 0) (q e1 1)) (q e2 2)
    (encFP32 (fDiv0 (q e1 1) sum), encFP32 (fDiv0 (q e2 2) sum))
  | _ => (0, 0)

/-- The bins a triangle's bounding box touches, as columns and rows; none outside the target. -/
def binRange (t : Tri) (W H : Nat) : Option (Nat × Nat × Nat × Nat) :=
  let lo := fun (l : List Int) => l.foldl min (l.headD 0)
  let hi := fun (l : List Int) => l.foldl max (l.headD 0)
  let bx := (W + 31) / 32
  let b_y := (H + 31) / 32
  let x0 := lo t.xs / 8192
  let x1 := hi t.xs / 8192
  let y0 := lo t.ys / 8192
  let y1 := hi t.ys / 8192
  if x1 < 0 ∨ y1 < 0 ∨ (bx : Int) ≤ x0 ∨ (b_y : Int) ≤ y0 then none
  else some (x0.toNat, min x1.toNat (bx - 1), y0.toNat, min y1.toNat (b_y - 1))

def inBin (t : Tri) (W H b : Nat) : Bool :=
  let bx := (W + 31) / 32
  match binRange t W H with
  | none => false
  | some (x0, x1, y0, y1) => decide (x0 ≤ b % bx) && decide (b % bx ≤ x1) && decide (y0 ≤ b / bx) && decide (b / bx ≤ y1)

/-- Pairs of a primitive and a bin it touches. -/
def binPairs (t : Tri) (W H : Nat) : Nat :=
  match binRange t W H with | none => 0 | some (x0, x1, y0, y1) => (x1 - x0 + 1) * (y1 - y0 + 1)

/-! ## Fragment groups (R374) -/

/-- The quads of a bin that a triangle covers some sample of, in raster order. -/
def quadsOf (d : List Byte) (t : Tri) (b : Nat) : List (Nat × Nat) :=
  let bx := (epW d + 31) / 32
  ((List.range 256).map fun k => (b % bx * 32 + k % 16 * 2, b / bx * 32 + k / 16 * 2)).filter fun xy =>
    (List.range 4).any fun l => coverMask t (epSamples d) (epW d) (epH d) (xy.1 + l % 2) (xy.2 + l / 2) != 0

/-- One fragment group with its fragments. -/
def fragGroup (d : List Byte) (scratch uni pi : Nat) (p : Prim) (quads : List (Nat × Nat)) : EmbGroup × List Frag :=
  let px := quads.flatMap fun xy => (List.range 4).map fun l => (xy.1 + l % 2, xy.2 + l / 2)
  let ms := px.map fun xy => coverMask p.tri (epSamples d) (epW d) (epH d) xy.1 xy.2
  let live := (ms.zipIdx.map fun mk => b2n (mk.1 != 0) * 2 ^ mk.2).foldl (· + ·) 0
  let half := fun (x : Nat) => encFP32 (fAdd0 (.ofNat x) (.fin false 1 1 (-1)))
  let bs := px.map fun xy => baryAt p.tri xy.1 xy.2
  let frs := (px.zip ms).filterMap fun xm =>
    if xm.2 = 0 then none
    else some { prim := pi, draw := p.draw, x := xm.1.1, y := xm.1.2, mask := xm.2
                depth := (sampleOffs (epSamples d)).map fun o =>
                  depthAt p.tri (xm.1.1 * 256 + o.1) (xm.1.2 * 256 + o.2) : Frag }
  ({ draw := p.draw, frag := true, live := live, prim := pi, pix := px
     g := (p.tri.offs.map (scratch + ·)) ++ [uni, 0, p.draw]
     v := [px.map fun xy => half xy.1, px.map fun xy => half xy.2, bs.map (·.1), bs.map (·.2), ms, px.map fun _ => p.idx] }, frs)

/-- Every fragment group of the pass: bins in raster order, primitives in order within a bin. -/
def State.fragGroups (s : State) (f : Flight) (ds : List (List Byte)) (prims : List Prim) : List EmbGroup × List Frag :=
  let d := f.desc
  let bins := ((epW d + 31) / 32) * ((epH d + 31) / 32)
  let gs := (List.range bins).flatMap fun b =>
    (prims.zipIdx.filter fun (pk : Prim × Nat) => inBin pk.1.tri (epW d) (epH d) b).flatMap fun (pk : Prim × Nat) =>
      let h := d32 (ds.getD pk.1.draw []) 8
      let uni := if h = 0 then 0 else (s.tensor (gqCtx f.gq) h).curBuf
      (chunksOf 16 17 (quadsOf d pk.1.tri b)).map (fragGroup d (s.scratchVA f) uni pk.2 pk.1)
  (gs.map (·.1), gs.flatMap (·.2))

/-! ## Tile memory (R370-R373, R377-R380) -/

/-- The key of a plane of a sample: 0 depth, 1 stencil, 2 motion, 3 + k target k. -/
def tileKey (x y sm plane : Nat) : Nat := ((y * 16384 + x) * 4 + sm) * 16 + plane

/-- A target's value before any fragment: cleared to 0, loaded, or cleared to CONSTANT. -/
def State.tileInit (s : State) (f : Flight) (x y plane : Nat) : Nat :=
  let d := f.desc
  match plane with
  | 0 => d32 d 0x28
  | 1 => d8 d 0x2C
  | 2 => 0x80008000
  | p =>
    let k := p - 3
    let fm := tgtFmt d k
    match tgtLoad d k with
    | 1 => leNat (s.peek (gqCtx f.gq) ((s.tensor (gqCtx f.gq) (tgtHandle d k)).curBuf + y * tgtPitch d k + x * emBytes fm) (emBytes fm))
    | 2 => emEnc fm 15 0 ((List.range 4).map fun c => decFP32 (d32 d (0xC8 + 4 * c)))
    | _ => 0

def State.tileRd (s : State) (f : Flight) (x y sm plane : Nat) : Nat :=
  match s.emb.tile.get 0 (tileKey x y sm plane) with
  | 0 => s.tileInit f x y plane
  | n + 1 => n

def State.tileWr (s : State) (x y sm plane v : Nat) : State :=
  { s with emb := { s.emb with tile := s.emb.tile.set 0 (tileKey x y sm plane) (v + 1) } }

/-- A function code of R370 on an order and an equality. -/
def testFn (code : Nat) (lt eq : Bool) : Bool :=
  match code with
  | 0 => false
  | 1 => lt
  | 2 => eq
  | 3 => lt || eq
  | 4 => !lt && !eq
  | 5 => !eq
  | 6 => !lt
  | _ => true

/-- A stencil operation on a stored value. -/
def stencilOp (code ref v : Nat) : Nat :=
  match code with
  | 0 => v
  | 1 => 0
  | 2 => ref
  | 3 => min 255 (v + 1)
  | 4 => v - 1
  | 5 => 255 - v
  | 6 => (v + 1) % 256
  | _ => (v + 255) % 256

/-- R370 for one covered sample: the depth and stencil stored, and whether it passed both. -/
def depthStencil (d : List Byte) (z zOld st : Nat) : Nat × Nat × Bool :=
  let ref := d8 d 0xC1
  let a := Nat.land ref (d8 d 0xC2)
  let b := Nat.land st (d8 d 0xC2)
  let sOk := !(stencilOn d) || testFn (d8 d 0xC0 % 8) (decide (a < b)) (a == b)
  let x := decFP32 z
  let y := decFP32 zOld
  let zOk := !((d8 d 0x26).testBit 3) || testFn (d8 d 0x26 % 8) (x.ltNum y) (x.eqNum y)
  let op := if !sOk then d8 d 0xC4 else if !zOk then d8 d 0xC5 else d8 d 0xC6
  let wm := d8 d 0xC3
  let st' := if stencilOn d then Nat.lor (Nat.land st (255 - wm)) (Nat.land (stencilOp op ref st) wm) else st
  (if sOk && zOk && (d8 d 0x26).testBit 4 then z else zOld, st', sOk && zOk)

/-- A blend factor for one channel (R378). -/
def blendFactor (code ch : Nat) (src dst con : List Val) : Val :=
  let g := fun (l : List Val) i => l.getD i .zero
  let om := fun (x : Val) => fSub0 .one x
  match code with
  | 0 => .zero
  | 1 => .one
  | 2 => g src ch
  | 3 => om (g src ch)
  | 4 => g dst ch
  | 5 => om (g dst ch)
  | 6 => g src 3
  | 7 => om (g src 3)
  | 8 => g dst 3
  | 9 => om (g dst 3)
  | 10 => g con ch
  | 11 => om (g con ch)
  | _ => if ch = 3 then .one else (g src 3).min (om (g dst 3))

/-- R378 for one target and sample: the pixel that replaces `old`. -/
def blendPixel (d : List Byte) (k old : Nat) (export_ : List Nat) : Nat :=
  let fm := tgtFmt d k
  let src0 := export_.map decFP32
  if !(blendOn d k) then emEnc fm (writeMask d k) old src0
  else
    let src := if emUnorm fm then src0.map clamp01 else src0
    let dst := emDec fm old
    let con := (List.range 4).map fun c => decFP32 (d32 d (0xC8 + 4 * c))
    let o := 0x80 + 8 * k
    let res := (List.range 4).map fun ch =>
      let al := ch == 3
      let sf := blendFactor (d8 d (if al then o + 2 else o)) ch src dst con
      let df := blendFactor (d8 d (if al then o + 3 else o + 1)) ch src dst con
      let x := src.getD ch .zero
      let y := dst.getD ch .zero
      let a := fMul0 x sf
      let b := fMul0 y df
      match (if al then d8 d (o + 4) / 8 else d8 d (o + 4) % 8) with
      | 0 => fAdd0 a b
      | 1 => fSub0 a b
      | 2 => fSub0 b a
      | 3 => x.min y
      | _ => x.max y
    emEnc fm (writeMask d k) old res

/-- One component of the motion vector (R380). -/
def mvComp (b : Nat) : Nat :=
  match decFP32 b with
  | .nan => 0
  | .inf s => ofSigned 16 (if s then -32767 else 32767)
  | v => ofSigned 16 (max (-32767) (min 32767 ((v.mul (.ofNat 8)).trunc.getD 0)))

/-- EXP.Z's depth (R371). -/
def exportZ (b : Nat) : Nat := let v := decFP32 b; if v.isNaN then 0 else encFP32 (clamp01 v)

/-- One ended fragment's samples are tested and its exports applied (R370, R371, R374, R378, R380). [DEDUCED: log 166] -/
def State.applyFrag (s : State) (f : Flight) (fr : Frag) : State :=
  if fr.dropped then s
  else
    let d := f.desc
    (bitsOf fr.mask 4).foldl (fun s sm =>
      let z := match fr.z with | some b => exportZ b | none => fr.depth.getD sm 0
      let r := depthStencil d z (s.tileRd f fr.x fr.y sm 0) (s.tileRd f fr.x fr.y sm 1)
      let s := (s.tileWr fr.x fr.y sm 0 r.1).tileWr fr.x fr.y sm 1 r.2.1
      if !r.2.2 then s
      else
        let s := s.embPerf 3 1
        let s := fr.colour.foldl (fun s (kv : Nat × List Nat) =>
          if epTargets d ≤ kv.1 then s
          else s.tileWr fr.x fr.y sm (3 + kv.1) (blendPixel d kv.1 (s.tileRd f fr.x fr.y sm (3 + kv.1)) kv.2)) s
        match fr.mv with
        | some m => if sm = 0 then s.tileWr fr.x fr.y 0 2 (mvComp m.1 + mvComp m.2 * 65536) else s
        | none => s) s

/-- Ended fragments with no earlier fragment outstanding at their pixel are applied, in order. -/
def State.applyEnded (s : State) (f : Flight) : State :=
  let r := s.emb.frags.foldl (fun (acc : State × List Frag) fr =>
    if fr.ended && !(acc.2.any fun g => g.x == fr.x && g.y == fr.y) then (acc.1.applyFrag f fr, acc.2)
    else (acc.1, acc.2 ++ [fr])) (s, [])
  { r.1 with emb := { r.1.emb with frags := r.2 } }

/-! ## Storing (R379-R381) -/

/-- A stored target pixel: its value, or the resolve of its four samples. -/
def State.resolve (s : State) (f : Flight) (k x y : Nat) : Nat :=
  let fm := tgtFmt f.desc k
  if epSamples f.desc = 1 then s.tileRd f x y 0 (3 + k)
  else
    let ps := (List.range 4).map fun sm => emDec fm (s.tileRd f x y sm (3 + k))
    emEnc fm 15 0 ((List.range 4).map fun c =>
      fMul0 (ps.foldl (fun a p => fAdd0 a (p.getD c .zero)) .zero) (.fin false 1 1 (-2)))

/-- A pixel of the re-projection depth plane. A clear depth outside 0-1 has no code of its own: a free
value. [DESIGN CHOICE: log 170] -/
def State.zPixel (s : State) (f : Flight) (x y : Nat) : Nat :=
  let far := bits (d8 f.desc 0x26) 0 3 == 4 || bits (d8 f.desc 0x26) 0 3 == 6
  let ds := (List.range (epSamples f.desc)).map fun sm => decFP32 (s.tileRd f x y sm 0)
  let v := match ds with | [] => Val.zero | z :: zs => zs.foldl (if far then Val.max else Val.min) z
  match (v.mul (.ofNat 65535)).trunc with
  | some t => if 0 ≤ t ∧ t ≤ 65535 then t.toNat else Config.freeNat s.fresh 381 % 65536
  | none => Config.freeNat s.fresh 381 % 65536

/-- Rows of a plane of `n`-byte pixels. -/
def State.planeRows (s : State) (f : Flight) (h pitch n : Nat) (px : Nat → Nat → Nat) : List Chunk :=
  (List.range (epH f.desc)).map fun y =>
    ⟨s.outVA (gqCtx f.gq) h false + y * pitch, (List.range (epW f.desc)).flatMap fun x => natLe n (px x y)⟩

/-- Everything a pass stores: targets, the motion plane, the depth plane, and SCRATCH, whose contents
are undefined from the commit on (R388). [DESIGN CHOICE: log 171] -/
def State.passWrites (s : State) (f : Flight) : List Chunk :=
  let d := f.desc
  (((List.range (epTargets d)).filter (tgtStore d)).flatMap fun k =>
      s.planeRows f (tgtHandle d k) (tgtPitch d k) (emBytes (tgtFmt d k)) (s.resolve f k)) ++
    (if mvOut d then s.planeRows f (d32 d 0x34) (d32 d 0xD8) 4 (fun x y => s.tileRd f x y 0 2) else []) ++
    (if zOut d then s.planeRows f (d32 d 0x38) (d32 d 0xDC) 2 (s.zPixel f) else []) ++
    [⟨s.scratchVA f, (List.range (s.tensor (gqCtx f.gq) (epScratch d)).bytes).map fun i => Config.freeByte (s.fresh + 1) i⟩]

end Sys2Proof.Machine
end

