-- ==== Sys2Proof/Machine/Texture.lean ====
section
/-! DEFINITION. Texture layout and filtering (R382-R385). -/

namespace Sys2Proof.Machine

/-! ## Layout (R383, R384) -/

/-- Tile width and height, and the source of each bit of the in-tile index from bit 0: (true, i) is
bit i of x. -/
def tileShape (bytes : Nat) : Nat × Nat × List (Bool × Nat) :=
  let xy := fun n => (List.range n).flatMap fun i => [(true, i), (false, i)]
  match bytes with
  | 1 => (64, 64, xy 6)
  | 2 => (64, 32, xy 5 ++ [(true, 5)])
  | 4 => (32, 32, xy 5)
  | 8 => (32, 16, xy 4 ++ [(true, 4)])
  | _ => (16, 16, xy 4)

/-- The in-tile index of a texel. -/
def tileIndex (sh : List (Bool × Nat)) (x y : Nat) : Nat :=
  ((sh.zipIdx).map fun (bk : (Bool × Nat) × Nat) =>
    b2n (if bk.1.1 then x.testBit bk.1.2 else y.testBit bk.1.2) * 2 ^ bk.2).foldl (· + ·) 0

def txW (t : List Byte) : Nat := d16 t 6
def txH (t : List Byte) : Nat := d16 t 8
def txLevels (t : List Byte) : Nat := d8 t 0xC
def txFmt (t : List Byte) : Nat := d8 t 5

/-- Width and height of a level. -/
def levelW (t : List Byte) (l : Nat) : Nat := max 1 (txW t / 2 ^ l)
def levelH (t : List Byte) (l : Nat) : Nat := max 1 (txH t / 2 ^ l)

/-- Bytes of a block-linear level: whole tiles. -/
def levelBytes (t : List Byte) (l : Nat) : Nat :=
  let sh := tileShape (emBytes (txFmt t))
  ceilDiv (levelW t l) sh.1 * ceilDiv (levelH t l) sh.2.1 * 4096

/-- Where a level begins in its layer. -/
def levelStart (t : List Byte) (l : Nat) : Nat := ((List.range l).map (levelBytes t)).foldl (· + ·) 0

/-- Bytes of a layer. -/
def layerBytes (t : List Byte) : Nat :=
  if (d8 t 4).testBit 2 then txH t * d32 t 0x18
  else ceilDiv (levelStart t (txLevels t)) 65536 * 65536

/-- The byte offset of a texel. -/
def texelOff (t : List Byte) (layer l x y : Nat) : Nat :=
  let b := emBytes (txFmt t)
  if (d8 t 4).testBit 2 then layer * layerBytes t + y * d32 t 0x18 + x * b
  else
    let sh := tileShape b
    let tile := y / sh.2.1 * ceilDiv (levelW t l) sh.1 + x / sh.1
    layer * layerBytes t + levelStart t l + tile * 4096 + b * tileIndex sh.2.2 (x % sh.1) (y % sh.2.1)

/-! ## Filtering (R385) -/

/-- A texel index after addressing; none takes the border colour. -/
def wrapIndex (mode n : Nat) (i : Int) : Option Nat :=
  match mode with
  | 0 => some (i % (n : Int)).toNat
  | 1 => let j := (i % (2 * n : Nat)).toNat; some (if j < n then j else 2 * n - 1 - j)
  | 2 => some (max 0 (min i ((n : Int) - 1))).toNat
  | _ => if 0 ≤ i ∧ i < n then some i.toNat else none

/-- One texel, decoded. -/
def State.texel (s : State) (ctx : Nat) (t : List Byte) (layer l : Nat) (i j : Int) : Except (Nat × Nat) (List Val) :=
  match wrapIndex (d8 t 0xF % 4) (levelW t l) i, wrapIndex (d8 t 0xF / 4) (levelH t l) j with
  | some x, some y =>
    match s.ldBytes ctx ((s.tensor ctx (d32 t 0)).curBuf + texelOff t layer l x y) (emBytes (txFmt t)) with
    | .error e => .error e
    | .ok bs => .ok (emDec (txFmt t) (leNat bs))
  | _, _ => .ok (emDec 2 (d32 t 0x1C))

/-- A weighted sum of colours over a divisor, with one rounding per channel. -/
def mixColours (l : List (Nat × List Val)) (div : Nat) : List Val :=
  (List.range 4).map fun c =>
    (fp32 ((l.foldl (fun (acc : Val) (wc : Nat × List Val) => acc.add ((Val.ofNat wc.1).mul (wc.2.getD c .zero))) .zero).div (.ofNat div))).1

/-- One sample of a level, nearest or bilinear. -/
def State.levelSample (s : State) (ctx : Nat) (t : List Byte) (layer l : Nat) (linear : Bool) (u v : Val) :
    Except (Nat × Nat) (List Val) :=
  let U := fMul0 u (.ofNat (levelW t l))
  let V := fMul0 v (.ofNat (levelH t l))
  if !linear then s.texel ctx t layer l (U.floor.getD 0) (V.floor.getD 0)
  else
    let half : Val := .fin false 1 1 (-1)
    let S := fSub0 U half
    let T := fSub0 V half
    let i := S.floor.getD 0
    let j := T.floor.getD 0
    let a := (((S.sub (.ofInt i)).mul (.ofNat 256)).trunc.getD 0).toNat
    let b := (((T.sub (.ofInt j)).mul (.ofNat 256)).trunc.getD 0).toNat
    match mapE (fun (ij : Int × Int) => s.texel ctx t layer l ij.1 ij.2) [(i, j), (i + 1, j), (i, j + 1), (i + 1, j + 1)] with
    | .error e => .error e
    | .ok cs => .ok (mixColours ([(256 - a) * (256 - b), a * (256 - b), (256 - a) * b, a * b].zip cs) 65536)

/-- A sample through the mip mode at a clamped level of detail. -/
def State.mipSample (s : State) (ctx : Nat) (t : List Byte) (layer : Nat) (linear : Bool) (lam u v : Val) :
    Except (Nat × Nat) (List Val) :=
  let last := txLevels t - 1
  let at_ := fun (l : Nat) => s.levelSample ctx t layer (min l last) linear u v
  match bits (d8 t 0xE) 2 2 with
  | 0 => at_ 0
  | 1 => at_ ((fAdd0 lam (.fin false 1 1 (-1))).floor.getD 0).toNat
  | _ =>
    let k := lam.floor.getD 0
    let f := (((lam.sub (.ofInt k)).mul (.ofNat 256)).trunc.getD 0).toNat
    match at_ k.toNat, at_ (k.toNat + 1) with
    | .ok c0, .ok c1 => .ok (mixColours [(256 - f, c0), (f, c1)] 256)
    | .error e, _ => .error e
    | _, .error e => .error e

/-- Fraction bits of log2 of m / 2^P in [1, 2), most significant first. -/
def log2Bits (P : Nat) : Nat → Nat → List Bool
  | 0, _ => []
  | n + 1, m =>
    let q := m * m / 2 ^ P
    if 2 ^ (P + 1) ≤ q then true :: log2Bits P n (q / 2) else false :: log2Bits P n q

/-- log2 in FP32, rounded toward zero; that of 0 is minus infinity. -/
def fLog2 (x : Val) : Val :=
  match x with
  | .nan => .nan
  | .inf s => if s then .nan else .inf false
  | .fin s n d e =>
    if n = 0 then .inf true
    else if s then .nan
    else
      let k := ratLog n d
      let P : Nat := 400
      let m := scaleFloor n d ((P : Int) - k)
      if m = 2 ^ P then (fp32 (.ofInt (k + e))).1
      else
        let fr := (log2Bits P 120 m).foldl (fun a b => 2 * a + b2n b) 0
        (fp32 ((Val.ofInt (k + e)).add (.fin false (2 * fr + 1) 1 (-121)))).1

/-- The FP32 root, rounded toward zero. -/
def fRoot (x : Val) : Val := (fp32 (sqrtVal x)).1

/-- Length of a pair. -/
def fLen (x y : Val) : Val := fRoot (fAdd0 (fMul0 x x) (fMul0 y y))

/-- The ceiling of a positive value. -/
def ceilVal (v : Val) : Nat := match v.neg.floor with | some z => (-z).toNat | none => 2 ^ 32

/-- Level of detail, before and after its clamp, from log2 and the bias. -/
def lodClamp (t : List Byte) (lam0 : Val) : Val × Val :=
  let lam := fAdd0 lam0 (decFP32 (d32 t 0x10))
  let hi := (decFP32 (d32 t 0x14)).min (.ofNat (txLevels t - 1))
  (lam, if lam.isNaN || lam.lt .zero then .zero else if hi.lt lam then hi else lam)

/-- The filter of a level of detail: min when it was above 0 before the clamp, mag otherwise. -/
def lodLinear (t : List Byte) (lam : Val) : Bool :=
  if Val.zero.ltNum lam then (d8 t 0xE).testBit 1 else (d8 t 0xE).testBit 0

/-- A texture read of one lane: coordinates, derivatives of u and v along x and y, the layer, and for
TEXL its level. [DEDUCED: log 169] -/
def State.sampleTex (s : State) (ctx : Nat) (t : List Byte) (u v layer : Val) (dux dvx duy dvy : Val) (lod : Option Val) :
    Except (Nat × Nat) (List Val) :=
  let lay := (max 0 (min (layer.floor.getD 0) ((d16 t 0xA : Int) - 1))).toNat
  match lod with
  | some l =>
    let lc := lodClamp t l
    s.mipSample ctx t lay (lodLinear t lc.1) lc.2 u v
  | none =>
    let w := Val.ofNat (txW t)
    let h := Val.ofNat (txH t)
    let px := fLen (fMul0 dux w) (fMul0 dvx h)
    let py := fLen (fMul0 duy w) (fMul0 dvy h)
    let xMajor := leVal py px
    let pmax := if xMajor then px else py
    let pmin := if xMajor then py else px
    let ma := d8 t 0xD
    let n := if pmax.isZero || ma == 1 then 1 else if pmin.isZero then ma else min (ceilVal (fDiv0 pmax pmin)) ma
    let lc := lodClamp t (fLog2 (fDiv0 pmax (.ofNat n)))
    let lin := lodLinear t lc.1
    if n = 1 then s.mipSample ctx t lay lin lc.2 u v
    else
      let du := if xMajor then dux else duy
      let dv := if xMajor then dvx else dvy
      match mapE (fun (j : Nat) =>
          let k := fDiv0 (.ofInt (2 * j + 1 - n : Int)) (.ofNat (2 * n))
          s.mipSample ctx t lay lin lc.2 (fAdd0 u (fMul0 k du)) (fAdd0 v (fMul0 k dv))) (List.range n) with
      | .error e => .error e
      | .ok cs => .ok ((List.range 4).map fun c =>
          fDiv0 (cs.foldl (fun a p => fAdd0 a (p.getD c .zero)) .zero) (.ofNat n))

end Sys2Proof.Machine
end

