-- ==== Sys2Proof/Machine/Ember.lean ====
section
/-! DEFINITION. The course of an Ember pass: its start, the invocation groups on the shader cores,
binning, and its end (R362-R364, R374, R391). -/

namespace Sys2Proof.Machine

/-- The group a shader core runs. -/
def State.groupOf (s : State) (id : Nat) : Option EmbGroup := (s.emb.run.find? fun r => r.1 == id - 108).map (·.2)

/-- Shader cores that can run groups. -/
def State.shaders (s : State) : List Nat :=
  (bitsOf (s.rd .EMB_STATUS_SHADERS) 24).filter fun j => !(s.brg.deadCores.contains (shaderCore j))

/-- Where a group's program starts: its draw's vertex or fragment entry in PROGRAM. -/
def State.groupEntry (s : State) (f : Flight) (g : EmbGroup) : Nat :=
  let r := s.emb.draws.getD g.draw []
  (s.tensor (gqCtx f.gq) (d32 f.desc 0x1C)).curBuf + (if g.frag then d32 r 0x18 else d32 r 0x14)

/-- R304, R317, R364, R374: a core begins a group in user mode with its entry registers. [DESIGN CHOICE: log 153] -/
def State.startGroup (s : State) (f : Flight) (j : Nat) (g : EmbGroup) : State :=
  let c := (s.core (shaderCore j)).begin (s.groupEntry f g) s.emb.rm
  let c := (g.g.zipIdx).foldl (fun (c : Core) (vk : Nat × Nat) => c.setReg (vk.2 + 1) vk.1) c
  let v := (g.v.zipIdx).foldl (fun (m : Sparse Nat) (lr : List Nat × Nat) =>
    (lr.1.zipIdx).foldl (fun (m : Sparse Nat) (xl : Nat × Nat) => m.set 0 (lr.2 * 64 + xl.2) (xl.1 % 2 ^ 32)) m) []
  ({ s with emb := { s.emb with run := s.emb.run ++ [(j, g)] } } : State).setCore (shaderCore j) { c with v := v }

/-- Free cores take the next groups. [DESIGN CHOICE: log 172] -/
def State.feedCores (s : State) (f : Flight) : State :=
  s.each s.shaders fun s j =>
    if s.emb.run.any fun r => r.1 == j then s
    else match s.emb.todo with
      | [] => s
      | g :: rest => ({ s with emb := { s.emb with todo := rest } } : State).startGroup f j g

/-- The pass has nothing more to run. -/
def State.passIdle (s : State) : Bool := s.emb.todo.isEmpty && s.emb.run.isEmpty

/-- The attempt's outcome is known: it ends at ATTEMPT_END. -/
def State.passOut (s : State) (f : Flight) (r : RunOut) : State :=
  ({ s with emb := { s.emb with ph := 3, todo := [], run := [] } } : State).setFlight { f with res := r }

/-- Every bin is shaded: what the pass stores. -/
def State.passStore (s : State) (f : Flight) : State :=
  ({ s with fresh := s.fresh + 2 } : State).passOut f { writes := s.passWrites f }

/-- Binning (R362 phase 3, R366, R391): the primitives, their fragments, and the SCRATCH they need. -/
def State.passBin (s : State) (f : Flight) : State :=
  match s.assemble f s.emb.draws with
  | .error e => s.passOut f { status := e.1, addr := e.2 }
  | .ok b =>
    let s := (s.embPerf 0 b.prims.length).embPerf 1 b.dropped
    let pairs := (b.prims.map fun p => binPairs p.tri (epW f.desc) (epH f.desc)).foldl (· + ·) 0
    if (s.tensor (gqCtx f.gq) (epScratch f.desc)).bytes < b.next + 8 * pairs then
      (s.fire 356).passOut f { status := 7 }
    else
      match s.stChunks (gqCtx f.gq) (b.verts.map fun v => ⟨s.scratchVA f + v.off, vertBytes v⟩) with
      | (s, some e) => s.passOut f { status := e.1, addr := e.2 }
      | (s, none) =>
        let g := s.fragGroups f s.emb.draws b.prims
        let s := s.embPerf 2 g.2.length
        { s with emb := { s.emb with ph := 2, todo := g.1, frags := g.2 } }

/-- Move the pass on: idle cores take groups, and an exhausted phase gives way to the next. -/
def State.passAdvance (s : State) (f : Flight) : State :=
  if !s.passIdle then s.feedCores f
  else
    let s := if s.emb.ph = 1 then s.passBin f else s
    if s.emb.ph = 2 ∧ s.passIdle then s.passStore f else s.feedCores f

/-- The rows of every target that is loaded can be read. -/
def State.loadsOk (s : State) (ctx : Nat) (d : List Byte) : Except (Nat × Nat) Unit :=
  match mapE (fun (ky : Nat × Nat) =>
      s.ldBytes ctx ((s.tensor ctx (tgtHandle d ky.1)).curBuf + ky.2 * tgtPitch d ky.1) (epW d * emBytes (tgtFmt d ky.1)))
    ((((List.range (epTargets d)).filter fun k => tgtLoad d k = 1)).flatMap fun k =>
      (List.range (epH d)).map fun y => (k, y)) with
  | .error e => .error e
  | .ok _ => .ok ()

/-- Phase 1 (R362): the tables, the vertex groups, and the state Ember shows. -/
def passGo (s : State) (f : Flight) (_ : Plan) : State × Flight :=
  let ctx := gqCtx f.gq
  let f := { f with unit := 1 }
  let s := (s.wr .EMB_STATUS_STATE 0 2).fire 352
  let em : EmberState := { on := true, gq := f.gq, slot := f.slot, ph := 1, rm := Config.freeNat s.fresh 317 % 4 }
  let s : State := { s with fresh := s.fresh + 1, emb := em }
  let bad := fun (e : Nat × Nat) =>
    (({ s with emb := { em with ph := 3 } } : State), { f with res := { status := e.1, addr := e.2 } })
  match s.passTables ctx f.desc with
  | .error e => bad e
  | .ok (ds, ts) =>
    match s.loadsOk ctx f.desc with
    | .error e => bad e
    | .ok _ =>
      match mapE (fun (rd : List Byte × Nat) => s.vertexGroups f ds rd.2 rd.1) ds.zipIdx with
      | .error e => bad e
      | .ok gs =>
        (({ s with emb := { em with draws := ds, texs := ts, todo := gs.flatten } } : State).feedCores f, f)

/-- R362, R388: EMBER_PASS starts when Ember is free. -/
def execEmberPass (ctx q : Nat) (s : State) : Host.Outcome State Fault Refusal :=
  let gq := qKey ctx q
  let cls := (s.queue gq).cls
  .next (s.startCmd gq 0x30 noAct (passCheck gq)
    (fun s _ => s.rd .EMB_STATUS_STATE == 3 || s.unitWait 0x30 1 cls) fun s f p =>
      passGo (s.clearUnit 0x30 1 cls) f p)

end Sys2Proof.Machine
end

