-- ==== Sys2Proof/Machine/Commit.lean ====
section
/-! DEFINITION. COMMIT: the next ended command of a queue commits, its record is written, and the streams
bound to what it committed see a source event (R144, R397). -/

namespace Sys2Proof.Machine

/-- The effect of its own that a command type has at its commit. -/
def commitAct (s : State) (f : Flight) : State :=
  match dOp f.desc with
  | 0x02 => defineAct s f
  | 0x03 => releaseAct s f
  | 0x05 => signalAct s f
  | 0x06 => versionCommitAct s f
  | 0x07 => versionAbortAct s f
  | 0x20 => attAct s f
  | 0x21 => seqCreateAct s f
  | 0x22 => seqForkAct s f
  | 0x23 => seqFreeAct s f
  | 0x24 => swapOutAct s f
  | 0x25 => swapInAct s f
  | 0x38 => eqxAct s f
  | 0x39 => composeAct s f
  | _ => s

/-- The handles whose VERSION a command's record raises (R143, R148). -/
def raised (f : Flight) : List Nat :=
  if dInPlace f.desc then f.outs
  else if f.res.status ≠ 0 ∨ dDefer f.desc then []
  else f.outs

/-- The geometry an EMBER_PASS gives its targets: pitch, format, columns and rows. -/
def passGeom (d : List Byte) (h : Nat) : Option (Nat × Nat × Nat × Nat) :=
  if dOp d ≠ 0x30 then none
  else ((List.range (epTargets d)).find? fun k => tgtHandle d k == h).map fun k => (tgtPitch d k, tgtFmt d k, epW d, epH d)

/-- R397: the motion and depth planes of a pass land in the source slot of the streams on Ember's route whose
bound handle is its target 0. [DEDUCED: log 187] -/
def State.passPlanes (s : State) (f : Flight) : State :=
  let d := f.desc
  if dOp d ≠ 0x30 ∨ f.res.status ≠ 0 ∨ epTargets d = 0 then s
  else
    let skip := ((List.range (epTargets d)).filter (tgtStore d)).length * epH d
    let rows := fun (n : Nat) => ((f.res.writes.drop n).take (epH d)).flatMap (·.data)
    let mv := if mvOut d then rows skip else []
    let z := if zOut d then rows (skip + b2n (mvOut d) * epH d) else []
    s.each ((s.routedStreams 3 0).filter fun i => (s.boundStreams (gqCtx f.gq) (tgtHandle d 0)).contains i) fun s i =>
      s.setStream i { s.stream i with mv := mv, z := z }

/-- What follows a record: the planes and events of bound streams, and what FC9 and FC10 do. -/
def State.afterRecord (s : State) (f : Flight) : State :=
  let s := s.passPlanes f
  let s := s.each (raised f) fun s h => s.eqxCommitted (gqCtx f.gq) h (passGeom f.desc h)
  s.eqxRecorded f f.res.status

/-- The records a queue has written. -/
def State.recordsOf (s : State) (gq : Nat) : Nat := (s.queue gq).cqTail

/-- R144, R154: a queue's next command commits and its record is written. -/
def execCommitCmd (ctx q : Nat) (s : State) : Host.Outcome State Fault Refusal :=
  let gq := qKey ctx q
  .next (match s.commitNext gq with
    | none => s
    | some f =>
      let s' := s.tryCommit gq (dOp f.desc) commitAct
      if s'.recordsOf gq = s.recordsOf gq then s' else s'.afterRecord f)

end Sys2Proof.Machine
end

