-- ==== Sys2Proof/Machine/Power.lean ====
section
/-! DEFINITION. Power, clocks, reset and pins: the commands of R548-R572 and the energy calibration
of R185. -/

namespace Sys2Proof.Machine

/-! ## Reset -/

/-- R552, R565: RESET_N is low; every output floats and the device is in reset. -/
def State.assertReset (s : State) : State :=
  let s := s.hardReset
  { s with pw := { s.pw with resetLow := true, pinsFloat := true } }

/-- R552: a low pulse shorter than 1 µs is ignored. -/
def execResetNAssert (ns : Nat) (s : State) : Host.Outcome State Fault Refusal :=
  .next (if ns < 1000 then s else s.assertReset)

/-- R551: a fall of PWR_OK acts as an assertion of RESET_N; HBM contents are lost. -/
def execPwrOkFall (s : State) : Host.Outcome State Fault Refusal :=
  let s := s.assertReset
  .next { s with pw := { s.pw with pwrOk := false } }

/-- R551: a rail below 90 % while RESET_N is high acts as an assertion of RESET_N. -/
def execBrownOut (s : State) : Host.Outcome State Fault Refusal :=
  .next (if s.pw.resetLow then s else s.assertReset)

/-- R553, R116, R129: RESET_N rises (PWR_OK is high by then); the straps are sampled, every function
is homed on the strapped port, on port A on KTV-6460, and bring-up begins in RESET. -/
def execResetNRelease (host smb test : Nat) (s : State) : Host.Outcome State Fault Refusal :=
  .next (
    if !s.pw.resetLow then s
    else
      let s : State := { s with pw := { s.pw with
        resetLow := false, pwrOk := true, pinsFloat := s.tst.pins == .float, relGcnt := 0
        strapHost := host % 2, strapSmb := smb % 4, strapTest := test % 2 } }
      if s.pw.tapHold then s else s.applyStraps)

/-! ## RETAIN (R556-R560) -/

/-- R558: the conditions that refuse RETAIN. -/
def State.retainRefused (s : State) : Bool :=
  !s.ready || s.rd .PWR_STATUS_STATE != 1 ||
    ((List.range 8).any fun h => decide (2 ≤ s.rd .DSP_STATUS_STATE h)) ||
    ((List.range 8).any fun n => decide (2 ≤ s.rd .VIN_STATUS_STATE n)) ||
    ((List.range 64).any fun i => s.rd .EQX_STREAM_CTRL_STATE i == 2) ||
    (s.queues.any fun kv => kv.2.sqTail != kv.2.sqNext) ||
    (decide (1 ≤ s.rd .STRUCT_STATUS_STATE) && decide (s.rd .STRUCT_STATUS_STATE ≤ 3)) ||
    s.rd .BRG_PC_CTRL_RESULT == 1 || ((List.range 6).any fun e => s.rd .CE_CTRL_RESULT e == 1)

/-- A write of PWR_CTRL with OP = RETAIN; ignored while RESULT is BUSY (R558, R560). [DEDUCED: log 239] -/
def execPwrRetain (val : Nat) (s : State) : Host.Outcome State Fault Refusal :=
  .next (s.accessed .island fun s =>
    let busy := s.rd .PWR_CTRL_RESULT == 1
    let s := (s.wr .PWR_CTRL_ALERT_LEVEL 0 (bits val 16 8)).wr .PWR_CTRL_T_THROTTLE 0 (bits val 8 8)
    if busy then s
    else if s.retainRefused then (s.wr .PWR_CTRL_RESULT 0 2).fire 54
    else (s.wr .PWR_CTRL_RESULT 0 1).wr .PWR_STATUS_STATE 0 3)

/-- R558, R474: the entry completes; Geyser's state is saved after the last source has fired. -/
def execRetainEntered (s : State) : Host.Outcome State Fault Refusal :=
  .next (
    if s.rd .PWR_STATUS_STATE = 3 then
      (((s.wr .PWR_STATUS_STATE 0 4).wr .PWR_CTRL_RESULT 0 0).fire 53).wr .GEY_RET_STATE 0 2
    else s)

/-- R558-R560: a wake event. A source wakes the device only where PWR_WAKE enables it. `ok` is the
retention check of R475. -/
def execWakeEvent (cause : WakeCause) (ok : Bool) (s : State) : Host.Outcome State Fault Refusal :=
  .next (
    match cause with
    | .timer => if s.rd .PWR_WAKE_TIMER = 1 then s.wake ok else s
    | .calendar => if s.rd .PWR_WAKE_CALENDAR = 1 then s.wake ok else s
    | .access | .doorbell | .linkDown => s.wake ok)

/-- R559: the last stack is ready. -/
def execWakeDone (s : State) : Host.Outcome State Fault Refusal :=
  .next (if s.rd .PWR_STATUS_STATE = 5 then (s.wr .PWR_STATUS_STATE 0 1).fire 53 else s)

/-- R559. -/
def execPwrStatusRead (half : Nat) (s : State) : Host.Outcome State Fault Refusal :=
  .next (s.readBlk .island .PWR_STATUS 0 half)

/-! ## Energy calibration (R185) -/

/-- FC11 recalibrates K: measured package energy since the last calibration, less the modelled idle
energy, over the modelled charged energy, all in µJ. With no charged energy the ratio is a free
value. Outside 0.80-1.25, K keeps its value and source 136 fires. [DESIGN CHOICE: log 94] [DESIGN CHOICE: log 244] -/
def State.calibrate (s : State) (idle modelled : Nat) : State :=
  let measured := (s.rd .PWR_ENERGY_UJ + 2 ^ 64 - s.calUj) % 2 ^ 64
  let k := if modelled = 0 then Config.freeNat s.fresh 185 else (measured - idle) * 10000 / modelled
  let s : State := { s with calTime := s.gcnt, calUj := s.rd .PWR_ENERGY_UJ, fresh := s.fresh + 1 }
  if 8000 ≤ k ∧ k ≤ 12500 then { s with energyK := k } else s.fire 136

/-- R185: every 600 s and at the end of bring-up. -/
def execEnergyCalibration (idle modelled : Nat) (s : State) : Host.Outcome State Fault Refusal :=
  .next (s.calibrate idle modelled)

/-! ## Throttling and temperature (R561-R564) -/

/-- Change the throttle level: source 48 fires, K is recalibrated, CAUSE is kept for a rise (R561). [DEDUCED: log 242] -/
def State.setLevel (s : State) (l cause idle modelled : Nat) : State :=
  let old := s.rd .PWR_STATUS_LEVEL
  if l = old then s
  else
    let s := s.wr .PWR_STATUS_LEVEL 0 l
    let s := if old < l then s.wr .PWR_STATUS_CAUSE 0 cause else s
    (s.fire 48).calibrate idle modelled

/-- A valid sensor's temperature in 1/16 °C (R562). -/
def State.temp (s : State) (i : Nat) : Option Int :=
  if s.rd .PWR_TEMP_VALID i = 1 then some (toSigned 16 (s.rd .PWR_TEMP_TEMP i)) else none

def State.anyTemp (s : State) (is : List Nat) (g : Int → Bool) : Bool :=
  is.any fun i => match s.temp i with | some x => g x | none => false

def junctions : List Nat := List.range 8
def hbmSensors : List Nat := [8, 9, 10, 11]

/-- T_THROTTLE in 1/16 °C; values outside 70-105 act as the nearer bound. -/
def State.tThrottle (s : State) : Int := ((max 70 (min 105 (s.rd .PWR_CTRL_T_THROTTLE)) : Nat) : Int) * 16

/-- R562's floor. -/
def State.floorLevel (s : State) : Nat :=
  max (if s.anyTemp junctions (fun x => decide (110 * 16 ≤ x)) then 8 else 0)
    (if s.rd .PWR_STATUS_ALERT = 1 then min 8 (s.rd .PWR_CTRL_ALERT_LEVEL) else 0)

/-- R562: the end of a 1 ms window of average power `mw`. [DEDUCED: log 243] -/
def execThrottleWindowEnd (mw idle modelled : Nat) (s : State) : Host.Outcome State Fault Refusal :=
  .next (
    let s := (s.wr .PWR_POWER_MW 0 mw).wr .PWR_ENERGY_UJ 0 (s.rd .PWR_ENERGY_UJ + mw)
    let limit := min s.limitCap (s.rd .PWR_LIMIT_LIMIT_W) * 1000
    let th := s.tThrottle
    let hotP := decide (limit < mw)
    let hotJ := s.anyTemp junctions fun x => decide (th ≤ x)
    let hotS := s.anyTemp hbmSensors fun x => decide (95 * 16 ≤ x)
    let cool := decide (mw * 100 < 95 * limit) && !(s.anyTemp junctions fun x => decide (th - 80 ≤ x)) &&
      !(s.anyTemp hbmSensors fun x => decide (90 * 16 ≤ x))
    let l := s.rd .PWR_STATUS_LEVEL
    let lc : Nat × Nat :=
      if hotP || hotJ || hotS then (min 8 (l + 1), 0)
      else if cool then (if s.pw.calm + 1 = 4 then (l - 1, 0) else (l, s.pw.calm + 1))
      else (l, 0)
    let floorJ := s.anyTemp junctions fun x => decide (110 * 16 ≤ x)
    let floorA := s.rd .PWR_STATUS_ALERT = 1 ∧ lc.1 < min 8 (s.rd .PWR_CTRL_ALERT_LEVEL)
    let s : State := { s with pw := { s.pw with calm := lc.2 } }
    s.setLevel (max lc.1 s.floorLevel)
      (b2n hotP + b2n (decide floorA) * 2 + b2n (hotJ || floorJ) * 4 + b2n hotS * 8) idle modelled)

/-- R562: PWR_ALERT_N falls or rises; the floor acts within 20 µs. -/
def execPwrAlertNChange (low : Bool) (idle modelled : Nat) (s : State) : Host.Outcome State Fault Refusal :=
  .next (
    if s.rd .PWR_STATUS_ALERT = b2n low then s
    else
      let s := (s.wr .PWR_STATUS_ALERT 0 (b2n low)).fire 49
      s.setLevel (max (s.rd .PWR_STATUS_LEVEL) s.floorLevel) 2 idle modelled)

/-- The unit of a sensor is present and powered: Calderas, Ember, the die centre, the HBM stacks. -/
def State.sensorOn (s : State) (i : Nat) : Bool :=
  let on := s.rd .PWR_STATUS_STATE != 4
  if i < 6 then on && s.rd .CE_STATUS_STATE i != 0
  else if i = 6 then on && s.rd .EMB_STATUS_STATE != 0
  else if i = 7 then true
  else s.rd .BRG_HBM_STATE (i - 8) != 0 && s.rd .BRG_HBM_STATE (i - 8) != 4

/-- A sensor is at or above a threshold it was below: remember it and fire the source. -/
def State.crossing (s : State) (key : Nat) (at_ : Bool) (src : Nat) : State :=
  let was := s.pw.above.get 0 key == 1
  let s : State := { s with pw := { s.pw with above := s.pw.above.set 0 key (b2n at_) } }
  if at_ && !was then s.fire src else s

/-- R562, R563: the 100 µs sample of the twelve sensors, in 1/16 °C. -/
def execTempSample (temps : List Int) (idle modelled : Nat) (s : State) : Host.Outcome State Fault Refusal :=
  .next (
    let s := s.each (List.range 12) fun s i =>
      let on := s.sensorOn i
      let v := temps.getD i 0
      let s := (s.wr .PWR_TEMP_VALID i (b2n on)).wr .PWR_TEMP_TEMP i (if on then ofSigned 16 v else 0)
      if i < 8 then
        (s.crossing (i * 4) (on && decide (s.tThrottle ≤ v)) 50).crossing (i * 4 + 1) (on && decide (110 * 16 ≤ v)) 51
      else
        (s.crossing (i * 4) (on && decide (95 * 16 ≤ v)) 50).crossing (i * 4 + 1) (on && decide (85 * 16 ≤ v)) 52
    s.setLevel (max (s.rd .PWR_STATUS_LEVEL) s.floorLevel) 4 idle modelled)

/-- R564: the thermal trip stops every clock and floats every output but THERM_TRIP_N. [DESIGN CHOICE: log 245] -/
def execThermTrip (s : State) : Host.Outcome State Fault Refusal :=
  let s := s.wr .PWR_STATUS_TRIPPED 0 1
  .next { s with pw := { s.pw with tripHeld := true, pinsFloat := true }, t := { s.t with running := false } }

/-- R549: from the end of CHECKING, FC11 sets VDD_CORE within the part's range in 5 mV steps; a regulator that faults or does
not answer fires VR_FAULT and the last value is held. [DEDUCED: log 246] -/
def execAvsAdjust (mv : Nat) (ok : Bool) (s : State) : Host.Outcome State Fault Refusal :=
  .next (
    if ¬ s.confReached then s
    else if !ok then s.fire 55
    else
      let l := s.rd .SYS_ID_PART == 0x648A
      let v := max (if l then 600 else 650) (min (if l then 780 else 850) (mv / 5 * 5))
      { s with pw := { s.pw with vddCore := v } })

/-! ## The SMBus status block (R570) -/

/-- The hottest valid sensor of a list in whole °C, as a signed byte. -/
def State.hottest (s : State) (is : List Nat) : Nat :=
  match is.filterMap s.temp with
  | [] => 0
  | x :: xs => ofSigned 8 (xs.foldl max x / 16)

/-- The 16 bytes of R570; TRAINING sets the stacks' states. -/
def State.statusBlock (s : State) : List Nat :=
  let up := s.confReached || (List.range 4).any fun k => s.rd .BRG_HBM_STATE k != 0
  let g := fun (x : Nat) => if up then x else 0
  let part := s.rd .SYS_ID_PART
  let p := s.rd .PWR_POWER_MW
  let sec := s.pw.relGcnt / 100000000
  [s.rd .RDY_STATUS_STATE, s.rd .BRG_STATE_FAIL_REASON, part % 256, part / 256,
    g (s.hottest junctions), g (s.hottest hbmSensors), g (s.rd .PWR_STATUS_LEVEL),
    g (s.rd .PWR_STATUS_TRIPPED + s.rd .PWR_STATUS_ALERT * 2 +
      b2n ((List.range 2).any fun q => s.rd .HOST_PORT_STATUS_DEGRADED q = 1) * 4 + s.rd .PWR_STATUS_PLL_LOST * 8)] ++
    ((List.range 4).map fun i => g (p / 256 ^ i % 256)) ++ ((List.range 4).map fun i => sec / 256 ^ i % 256)

/-- The SMBus target answers: from 50 ms after release (R129, R570). Without the root PLL no TCLK
measures the time. [DEDUCED: log 247] -/
def State.smbusUp (s : State) : Bool :=
  !s.inReset && !s.pw.tripHeld && (decide (5000000 ≤ s.pw.relGcnt) || s.rd .RDY_STATUS_STATE == 9)

/-- R570: Block Read 0x00; silence or a NACK gives no bytes. -/
def execSmbusStatusRead (s : State) : Host.Outcome State Fault Refusal :=
  .next { s with pw := { s.pw with smbus := if s.smbusUp then some s.statusBlock else none } }

end Sys2Proof.Machine
end

