-- ==== Sys2Proof/Machine/Epoch.lean ====
section
/-! DEFINITION. The scheduler epoch (R591) and what waits for it: Calderas that return to service (R524), a
delta's records (R62), SCALE and the epoch's kills (R173, R177). -/

namespace Sys2Proof.Machine

/-- GCNT of the boundary that is due. -/
def State.boundary (s : State) : Nat := s.gcnt / 10000 * 10000

/-- Calderas whose reload ended strictly before the boundary join service (R524, R591). -/
def State.joinCes (s : State) : State :=
  let now := s.ceJoin.filter fun e => decide (s.ceJoinG.get 0 e ≤ s.boundary)
  let s : State := { s with ceJoin := s.ceJoin.filter fun e => !(now.contains e) }
  s.each now fun s e => (s.setCe e 1).ceDone e 0

/-- R591: an epoch boundary. The ended epoch's counts judge its kills. [DEDUCED: log 86] -/
def execSchedulerEpoch (s : State) : Host.Outcome State Fault Refusal :=
  .next (
    if s.gcnt / 10000 ≤ s.lastEpoch then s
    else
      let s := s.noteReady.joinCes
      let s := if s.img.applyG < s.boundary then s.switchAt .epoch else s
      let s := s.rescale.reserveKills.fairKills
      { s with epochUse := [], epochC1 := [], lastEpoch := s.gcnt / 10000 })

end Sys2Proof.Machine
end

