-- ==== Sys2Proof/Machine/Geyser.lean ====
section
/-! DEFINITION. Commands of Geyser, the interrupt controller (R458-R477). -/

namespace Sys2Proof.Machine

/-- A target that does not exist on the part (R458, R6). -/
def State.tgtDead (s : State) (x : Nat) : Bool := decide (525 ≤ x) || (s.is6460 && decide (141 ≤ x))

/-- R464, R465: a unit fire, a rise or a fall of a source's input. -/
def State.srcInput (s : State) (src : Nat) (ev : SrcEvent) : State :=
  match ev with
  | .fire => s.fireIsland src
  | .fall => if s.srcDead src then s else s.wr .GEY_SRC_INPUT src 0
  | .rise =>
    if s.srcDead src || s.rd .GEY_SRC_INPUT src == 1 then s
    else
      let s := s.wr .GEY_SRC_INPUT src 1
      if s.rd .GEY_SRC_LEVEL src = 1 ∧ s.rd .GEY_SRC_HELD src = 1 then s else s.fireIsland src

def execSourceFire (src : Nat) (ev : SrcEvent) (s : State) : Host.Outcome State Fault Refusal :=
  .next (s.srcInput src ev)

/-- Sources of the ones of a written word. -/
def wordSrcs (word val : Nat) : List Nat := (bitsOf val 64).map (word % 128 * 64 + ·)

/-- R465: W1C of GEY_PEND. -/
def execGeyPendWrite (word val : Nat) (s : State) : Host.Outcome State Fault Refusal :=
  .next (s.accessed .late fun s => s.geyEdge [] (wordSrcs word val) [])

/-- R469: W1S of GEY_PEND_SET. -/
def execGeyPendSetWrite (word val : Nat) (s : State) : Host.Outcome State Fault Refusal :=
  .next (s.accessed .late fun s => s.geyEdge (wordSrcs word val) [] [])

/-- R463. -/
def execGeyTgtComplete (target level : Nat) (s : State) : Host.Outcome State Fault Refusal :=
  .next (s.accessed .late fun s => if s.tgtDead target then s else s.geyEdge [] [] [(target, level % 16)])

/-- R468: a group's COUNT and TIME; ACC and the elapsed time are kept. -/
def execGeyGrpWrite (group val : Nat) (s : State) : Host.Outcome State Fault Refusal :=
  .next (s.accessed .late fun s =>
    if 1024 ≤ group then s
    else ((s.wr .GEY_GRP_COUNT group (bits val 56 8)).wr .GEY_GRP_TIME group (bits val 40 16)).geyEdge [] [] [])

/-- Tenant t's eight sources that the ones of a mask name. -/
def tenantSrcs (t val : Nat) : List Nat := (bitsOf val 8).map (1024 + 8 * t + ·)

/-- R477, R465. -/
def execVfGeyPendWrite (tenant val : Nat) (s : State) : Host.Outcome State Fault Refusal :=
  .next (s.accessed .late fun s =>
    if s.tenants ≤ tenant then s else s.geyEdge [] (tenantSrcs tenant val) [])

/-- R477, R469. -/
def execVfGeySetWrite (tenant val : Nat) (s : State) : Host.Outcome State Fault Refusal :=
  .next (s.accessed .late fun s =>
    if s.tenants ≤ tenant then s else s.geyEdge (tenantSrcs tenant val) [] [])

/-- R477, R463. -/
def execVfGeyComplete (tenant level : Nat) (s : State) : Host.Outcome State Fault Refusal :=
  .next (s.accessed .late fun s =>
    if s.tenants ≤ tenant then s else s.geyEdge [] [] [(13 + tenant, level % 16)])

/-- R467: the elapsed time of an accumulating group reaches TIME and the group opens. -/
def execGroupTimeExpiry (group : Nat) (s : State) : Host.Outcome State Fault Refusal :=
  .next (if s.rd .GEY_GRP_STATE group = 1 ∧ s.grpTime group * 100 ≤ s.rd .GEY_GRP_ELAPSED group
    then s.geyEdge [] [] [] else s)

/-- R475. -/
def execGeyRetRead (half : Nat) (s : State) : Host.Outcome State Fault Refusal :=
  .next (s.readBlk .late .GEY_RET 0 half)

/-- R462, R477: GEY_TGT, or VF_GEY_TGT of tenant `target - 13`. -/
def execGeyTgtRead (target half : Nat) (s : State) : Host.Outcome State Fault Refusal :=
  .next (if s.tgtDead target then { s with data := 0 } else s.readBlk .late .GEY_TGT target half)

end Sys2Proof.Machine
end

