-- ==== Sys2Proof/Machine/RegWrite.lean ====
section
/-! DEFINITION. Register writes that no other command covers (R14, R15, R583-R589): the address map, what a
write stores, and reads of configuration space. `req` is the host port a request comes through; 2 and above
is Kerold firmware on the on-chip path. -/

namespace Sys2Proof.Machine

/-! ## The address map (R583-R586) -/

/-- The unit and the remaining offset that strides give an offset. -/
def unitOf : List (Nat × Nat) → Nat → Nat → Option (Nat × Nat)
  | [], u, off => some (u, off)
  | (st, n) :: ds, u, off => if n ≤ off / st then none else unitOf ds (u * n + off / st) (off % st)

/-- The unit of a register and the half (0 whole, 1 low, 2 high) that a 4-byte word at an offset is. -/
def Reg.at (r : Reg) (ctx off : Nat) : Option (Nat × Nat) :=
  let i := r.info
  if off < i.base then none
  else match unitOf i.dims ctx (off - i.base) with
    | none => none
    | some (u, o) =>
      if o = 0 then some (u, if i.bits = 64 then 1 else 0)
      else if o = 4 ∧ i.bits = 64 then some (u, 2)
      else none

/-- The registers of PF0 BAR0 but the VF view. -/
def bar0Regs : List Reg :=
  Reg.ofSYS ++ Reg.ofPWR ++ Reg.ofTIM ++ Reg.ofBRG ++ Reg.ofSTRUCT ++ Reg.ofSEC ++ Reg.ofTST ++ Reg.ofHOST ++ Reg.ofGEY ++
    Reg.ofMEM ++ Reg.ofSCH ++ Reg.ofCE ++ Reg.ofVIS ++ Reg.ofEMB ++ Reg.ofEQX ++ Reg.ofDSP ++ Reg.ofVIN

/-- The register a 4-byte word of a space belongs to, its unit and half. -/
def findReg (sp : Space) (addr : Nat) : Option (Reg × Nat × Nat) :=
  let hit := fun (rs : List Reg) (ctx off : Nat) => rs.findSome? fun r => (r.at ctx off).map fun x => (r, x)
  match sp with
  | .pf0 =>
    if 0x72000 ≤ addr ∧ addr < 0x73000 then hit Reg.ofVF pf0 (addr - 0x71000)
    else if 0x73000 ≤ addr ∧ addr < 0x75000 then hit Reg.ofVF pf0 (addr - 0x6F000)
    else hit bar0Regs 0 addr
  | .vf t => hit Reg.ofVF t addr
  | .cfg _ => none

/-- How a block is served (R129, R556). -/
def blkAt (sp : Space) (addr : Nat) : Blk :=
  match sp with
  | .pf0 =>
    if addr < 0x30000 ∨ (0x70000 ≤ addr ∧ addr < 0x80000) then .island
    else if addr < 0x70000 then .early
    else .late
  | .vf _ => .late
  | .cfg _ => .island

/-- The context whose function a space belongs to. -/
def spaceCtx (sp : Space) : Nat :=
  match sp with | .pf0 => pf0 | .vf t => t | .cfg c => c

/-- A request to configuration space. -/
def spaceIsCfg (sp : Space) : Bool :=
  match sp with | .cfg _ => true | _ => false

/-- The unit that a PF0 block's address belongs to is absent (R589). -/
def State.absentAt (s : State) (sp : Space) (addr : Nat) : Bool :=
  match sp with
  | .pf0 =>
    if 0x400000 ≤ addr ∧ addr < 0x580000 then s.rd .CE_STATUS_STATE ((addr - 0x400000) / 0x40000) == 0
    else if 0x580000 ≤ addr ∧ addr < 0x5C0000 then s.rd .VIS_STATUS_STATE ((addr - 0x580000) / 0x10000) == 0
    else if 0x5C0000 ≤ addr ∧ addr < 0x600000 then s.rd .EMB_STATUS_STATE == 0
    else if 0x640000 ≤ addr ∧ addr < 0x660000 then s.rd .DSP_STATUS_STATE ((addr - 0x640000) / 0x4000) == 0
    else if 0x660000 ≤ addr ∧ addr < 0x670000 then s.rd .VIN_STATUS_STATE ((addr - 0x660000) / 0x2000) == 0
    else false
  | _ => false

/-! ## What a write stores (R14, R587) -/

/-- The bits of a field that an access to a half covers. -/
def Fld.bitsIn (f : Fld) (half : Nat) : List Nat :=
  (List.range f.info.width).filter fun i => half == 0 || decide ((f.info.lo + i) / 32 + 1 = half)

/-- The register word that a half's data stands for. -/
def wordOf (half val : Nat) : Nat := if half = 2 then val % 2 ^ 32 * 2 ^ 32 else if half = 1 then val % 2 ^ 32 else val

/-- Fields that a head stream's HEAD_PLAN gives: read-only while the stream is a head stream (R421, R422). -/
def headFields : List Fld :=
  [.EQX_STREAM_CTRL_CLASS1_SHARE, .EQX_STREAM_SRC_SRC_KIND, .EQX_STREAM_SRC_UPSCALE, .EQX_STREAM_SRC_MULT,
    .EQX_STREAM_SRC_SRC_INDEX, .EQX_STREAM_SRC_LANE, .EQX_STREAM_SRC_SRC_HANDLE, .EQX_STREAM_GEOM_OUT_W,
    .EQX_STREAM_GEOM_OUT_H, .EQX_STREAM_GEOM_PERIOD]

/-- One field takes a write: RW stores, W1C clears, and the others keep their values. A field whose write is a
command of its own is left to it. [DESIGN CHOICE: log 259] -/
def State.putField (s : State) (f : Fld) (u half w : Nat) : State :=
  if f.info.ownRow || (headFields.contains f && s.rd .EQX_STREAM_CTRL_HEAD u == 1) ||
      (f == .GEY_SRC_VECTOR && s.rd .GEY_SRC_TARGET u != 12) then s
  else
    let old := s.rd f u
    let on := fun (i : Nat) => w.testBit (f.info.lo + i)
    match f.info.access with
    | .rw => s.wr f u ((f.bitsIn half).foldl (fun x i => if on i then setBit x i else clrBit x i) old)
    | .w1c => s.wr f u ((f.bitsIn half).foldl (fun x i => if on i then clrBit x i else x) old)
    | _ => s

/-- Registers that keep their values now: the lane's while it is enabled (R338, R349), the swap arena's while it
is in use (R93); a target that the part does not have (R6). [DEDUCED: log 263] -/
def State.regHeld (s : State) (r : Reg) (u : Nat) : Bool :=
  match r with
  | .VIS_PARAM | .VIS_IN_BASE | .VIS_IN_GEOM | .VIS_RING_BASE => s.rd .VIS_CTRL_ENABLE u == 1
  | .VF_SWAP_BASE | .VF_SWAP_SIZE => s.m.swapUsed.get 0 u != 0
  | .GEY_TGT => s.is6460 && decide (141 ≤ u)
  | _ => false

/-- What follows a write: a level source enabled with its input high becomes pending, and delivery follows (R465,
R466); LIMIT_W above the image's limit or below 50 acts as that bound. -/
def State.written (s : State) (r : Reg) (u : Nat) (wasOn : Bool) : State :=
  match r with
  | .GEY_SRC =>
    let rise := !wasOn && s.rd .GEY_SRC_ENABLE u == 1 && s.rd .GEY_SRC_LEVEL u == 1 && s.rd .GEY_SRC_INPUT u == 1 &&
      s.rd .GEY_SRC_HELD u == 0
    s.geyEdge (if rise then [u] else []) [] []
  | .GEY_TGT => s.geyEdge [] [] []
  | .PWR_LIMIT => s.wr .PWR_LIMIT_LIMIT_W 0 (max 50 (min s.limitCap (s.rd .PWR_LIMIT_LIMIT_W)))
  | _ => s

/-- The register that a tenant's view shows (R477). -/
def Reg.viewed (r : Reg) (u : Nat) : Reg × Nat :=
  match r with | .VF_GEY_TGT => (.GEY_TGT, 13 + u) | _ => (r, u)

/-- Write a register or one half of it. -/
def State.writeReg (s : State) (r : Reg) (u half val : Nat) : State :=
  let (r, u) := r.viewed u
  if s.regHeld r u then s
  else
    let on := s.rd .GEY_SRC_ENABLE u == 1
    (s.each r.fields fun s f => s.putField f u half (wordOf half val)).written r u on

/-! ## The words outside the tabled registers -/

/-- A word of a function's MSI-X table on a port (R113). [DEDUCED: log 260] -/
def State.msixWrite (s : State) (port ctx off val : Nat) : State :=
  let k := msixKey port ctx (off / 16)
  let e := s.msix.get {} k
  let e := match off % 16 / 4 with
    | 0 => { e with addr := e.addr / 2 ^ 32 * 2 ^ 32 + val % 2 ^ 32 }
    | 1 => { e with addr := e.addr % 2 ^ 32 + val % 2 ^ 32 * 2 ^ 32 }
    | 2 => { e with data := val % 2 ^ 32 }
    | _ => { e with masked := val.testBit 0 }
  ({ s with msix := s.msix.set {} k e } : State).deliver

/-- The MSI-X table offset of an address (R113, R584, R586). -/
def msixOff (sp : Space) (addr : Nat) : Option Nat :=
  match sp with
  | .pf0 => if 0x78000 ≤ addr ∧ addr < 0x78400 then some (addr - 0x78000) else none
  | .vf _ => if 0x6000 ≤ addr ∧ addr < 0x6080 then some (addr - 0x6000) else none
  | .cfg _ => none

/-- EQX_EVT_k, W1C (R424). -/
def State.evtWrite (s : State) (k half val : Nat) : State :=
  let w := wordOf half val
  let v := (List.range 64).foldl (fun x i => if w.testBit i then clrBit x i else x) (s.eqx.evt.get 0 k)
  { s with eqx := { s.eqx with evt := s.eqx.evt.set 0 k v } }

/-- The k of EQX_EVT_k at an address of PF0 BAR0. -/
def evtAt (sp : Space) (addr : Nat) : Option Nat :=
  if sp = .pf0 ∧ 0x620000 ≤ addr ∧ addr < 0x620200 then some ((addr - 0x620000) / 8) else none

/-- One aligned word of a block. -/
def State.writeWord (s : State) (sp : Space) (req addr val : Nat) : State :=
  match msixOff sp addr with
  | some o => s.msixWrite req (spaceCtx sp) o val
  | none =>
    match evtAt sp addr with
    | some k => s.evtWrite k (if addr % 8 = 4 then 2 else 1) val
    | none =>
      match findReg sp addr with
      | none => s
      | some (r, u, half) => if s.absentAt sp addr then s else s.writeReg r u half val

/-- An aligned 8-byte access: the whole of a 64-bit register, else two words, the lower first (R587). -/
def State.writeDouble (s : State) (sp : Space) (req addr val : Nat) : State :=
  match findReg sp addr with
  | some (r, u, 1) => if s.absentAt sp addr then s else s.writeReg r u 0 (val % 2 ^ 64)
  | _ => (s.writeWord sp req addr (val % 2 ^ 32)).writeWord sp req (addr + 4) (val / 2 ^ 32 % 2 ^ 32)

/-- Configuration space (R111): Command at 0x004, Power Management at 0x040 and MSI-X at 0x050. [PRESUMED: log 56] -/
def State.cfgWrite (s : State) (req ctx addr val : Nat) : State :=
  let c := s.cfg req ctx
  match addr with
  | 0x004 =>
    let s := s.setCfg req ctx { c with mse := val.testBit 1, bme := val.testBit 2 }
    if req = s.home ctx then (s.readmit ctx).deliver else s
  | 0x044 => (s.setCfg req ctx { c with d3hot := val % 4 == 3 }).deliver
  | 0x050 => (s.setCfg req ctx { c with msixEnable := val.testBit 31, fnMask := val.testBit 30 }).deliver
  | _ => s

/-- The aligned accesses a request acts as (R587); another size or alignment writes nothing. -/
def State.writeSized (s : State) (sp : Space) (req addr size val : Nat) : State :=
  match sp with
  | .cfg ctx => if size = 4 then s.cfgWrite req ctx addr (val % 2 ^ 32) else s
  | _ =>
    if size = 4 ∧ addr % 4 = 0 then s.writeWord sp req addr val
    else if 8 ≤ size ∧ addr % 8 = 0 ∧ size % 8 = 0 then
      s.each (List.range (size / 8)) fun s i => s.writeDouble sp req (addr + 8 * i) (val / 2 ^ (64 * i) % 2 ^ 64)
    else s

/-- The port decodes the request (R117, R128): on a standby port only what R117 names. -/
def State.decodes (s : State) (sp : Space) (req addr size : Nat) : Bool :=
  let ctx := spaceCtx sp
  match sp with
  | .cfg _ => decide (req < 2) && !(s.portDead req) && s.vfOn req ctx
  | _ =>
    decide (2 ≤ req) ||
      (!(s.portDead req) && s.vfOn req ctx && (s.cfg req ctx).mse && !(s.cfg req ctx).d3hot &&
        (decide (req = s.home ctx) || standbyDecodes ctx addr size))

/-- R14: a write of a register. [DESIGN CHOICE: log 258] -/
def execRegisterWrite (space : Space) (req addr size val : Nat) (s : State) : Host.Outcome State Fault Refusal :=
  .next (
    if spaceIsCfg space ∧ s.rd .RDY_STATUS_STATE < 3 then s
    else if !(s.decodes space req addr size) then { s with lastCpl := .unsupported }
    else ({ s with lastCpl := .success } : State).accessed (blkAt space addr) fun s => s.writeSized space req addr size val)

/-! ## Configuration space reads (R115, R129) and other reads -/

/-- Configuration requests are served from TRAINING. -/
def State.readRdy (s : State) (r : Reg) (half : Nat) : State :=
  if s.rd .RDY_STATUS_STATE < 3 then { s with data := 0 } else s.readBlk .island r 0 half

def execRdyStatusRead (half : Nat) (s : State) : Host.Outcome State Fault Refusal := .next (s.readRdy .RDY_STATUS half)

def execRdyDropsRead (half : Nat) (s : State) : Host.Outcome State Fault Refusal := .next (s.readRdy .RDY_DROPS half)

/-- R363: a read of EMB_ERR. -/
def execEmbErrRead (half : Nat) (s : State) : Host.Outcome State Fault Refusal :=
  .next (s.readBlk .late .EMB_ERR 0 half)

end Sys2Proof.Machine
end

