-- ==== Sys2Proof/Machine/Spdm.lean ====
section
/-! DEFINITION. SPDM and the measurements (R530-R542). The message layouts are those of DMTF DSP0274 1.2
(PRESUMED); keys and certificates are free, as no agent can read what they are made from. -/

namespace Sys2Proof.Machine

/-! ## Replies -/

def State.reply (s : State) (ctx : Nat) (b : List Byte) : State :=
  { s with sec := { s.sec with replies := (ctx, b) :: s.sec.replies } }

/-- A message: version, code and the two parameters, then its body. [PRESUMED: log 227] -/
def spdmMsg (code p1 p2 : Nat) (body : List Byte) : List Byte :=
  [0x12, BitVec.ofNat 8 code, BitVec.ofNat 8 p1, BitVec.ofNat 8 p2] ++ body

/-- ERROR: 1 InvalidRequest, 3 Busy, 4 UnexpectedRequest, 7 UnsupportedRequest, 0x43 RequestResynch. -/
def State.spdmError (s : State) (ctx code data : Nat) : State := s.reply ctx (spdmMsg 0x7F code data [])

def State.setConn (s : State) (ctx : Nat) (c : Spdm) : State :=
  { s with sec := { s.sec with conn := s.sec.conn.set {} ctx c } }

/-- How far the connection has come. -/
def State.spdmStage (s : State) (ctx : Nat) : Nat := (s.sec.conn.get {} ctx).stage

/-- The mailbox takes a request: PF0's from TRAINING, a VF's from VF Enable, one at a time (R539). -/
def State.mailbox (s : State) (port ctx : Nat) : Bool :=
  !s.inReset && !s.pw.tripHeld && decide (3 ≤ s.rd .RDY_STATUS_STATE) && !(s.portDead port) &&
    (ctx == pf0 || (decide (ctx < s.tenants) && s.vfOn port ctx)) && !(s.sec.signing.any fun r => r.ctx == ctx)

/-- R539: a request is answered with Busy while the function's key is reissued, the first one after that with
RequestResynch, and one out of order with UnexpectedRequest. -/
def State.spdm (s : State) (port ctx need : Nat) (g : State → State) : State :=
  if !(s.mailbox port ctx) then s
  else if s.sec.reissue.contains ctx then s.spdmError ctx 3 0
  else
    let c := s.sec.conn.get {} ctx
    if c.resync then (s.setConn ctx {}).spdmError ctx 0x43 0
    else if c.stage < need then s.spdmError ctx 4 0
    else g s

/-- Random bytes of the on-die source (R538). -/
def State.nonceBytes (s : State) (n : Nat) : State × List Byte :=
  ({ s with fresh := s.fresh + 1 }, (List.range n).map (Config.freeByte s.fresh))

/-! ## Measurements (R540-R542) -/

def padTo (n : Nat) (l : List Byte) : List Byte := (l ++ List.replicate n 0).take n

/-- A function's number (R542). -/
def fnNumber (ctx : Nat) : Nat := if ctx = pf0 then 0 else ctx + 1

/-- R542. [DEDUCED: log 233] -/
def State.binding (s : State) (ctx : Nat) : List Byte :=
  let p := s.partOf ctx
  let c := s.img.parts.get {} p
  let mask := fun (n : Nat) (g : Nat → Bool) => ((List.range n).map fun i => b2n (g i) * 2 ^ i).foldl (· + ·) 0
  let tenants := if p = 63 then 0 else ((List.range s.tenants).filter fun t => s.rd .VF_STATUS_PARTITION t == p).length
  padTo 48 (natLe 2 (fnNumber ctx) ++ natLe 1 p ++ natLe 1 (b2n c.used + b2n (c.dedicated != 0) * 2) ++ natLe 2 tenants ++
    natLe 2 c.share ++
    natLe 16 (mask 128 fun pc => s.rd .MEM_PC_STATUS_PARTITION pc == p && s.rd .MEM_PC_STATUS_ISET pc != 0xFF) ++
    natLe 8 (mask 64 fun w => s.m.wayOwner.get 0 w == p + 1) ++ natLe 1 c.dedicated ++ natLe 1 (s.home ctx) ++ List.replicate 6 0 ++
    natLe 8 (s.m.keyEpoch.get 0 p))

/-- The content of a measurement block (R540, R541). -/
def State.measured (s : State) (ctx i : Nat) : Option (List Byte) :=
  match i with
  | 1 => some (natBe 48 Config.romDigest)
  | 2 => some (natBe 48 s.sec.fwDigest)
  | 3 => some (padTo 8 (natLe 4 s.sec.fwVersion ++ natLe 1 s.sec.fwSvn ++ natLe 1 (s.rd .SEC_STATUS_FW_SVN_FLOOR)))
  | 4 => s.sec.chain.map fun v => natBe 48 v ++ natLe 8 (s.rd .STRUCT_ACTIVE_SEQ_SEQ)
  | 5 => some ((List.range 18).flatMap fun w => natLe 8 (s.brg.cur.floor.getD w 0))
  | 6 => some (s.binding ctx)
  | 7 => some (natLe 1 (s.rd .SEC_STATUS_DEBUG) ++ natLe 1 s.sec.lastAuth ++ [0, 0] ++ natLe 4 s.sec.tokens)
  | 8 => some (natLe 16 s.dieId ++ natLe 4 (s.regVal .SYS_ID 0) ++ natLe 1 (s.rd .SEC_STATUS_OWNER_SLOT) ++
      natLe 1 (s.rd .SEC_STATUS_ALLOW_KEROLD) ++ [0, 0] ++ natLe 8 (s.rd .SEC_STRUCT_FLOOR_FLOOR))
  | _ => none

/-- A block in DMTF form. The type of a raw block is not given: free, with the raw bit at 1. [DESIGN CHOICE: log 228] -/
def measBlock (i : Nat) (v : List Byte) : List Byte :=
  let typ := if i ≤ 2 then i - 1 else 128 + Config.freeNat i 540 % 128
  natLe 1 i ++ [1] ++ natLe 2 (v.length + 3) ++ natLe 1 typ ++ natLe 2 v.length ++ v

/-- The blocks that exist now, by index. -/
def State.measBlocks (s : State) (ctx : Nat) : List (Nat × List Byte) :=
  (List.range 9).filterMap fun i => (s.measured ctx i).map fun v => (i, measBlock i v)

/-! ## Certificates (R533) -/

/-- What a function's chain carries. [DESIGN CHOICE: log 230] -/
def State.certIds (s : State) (ctx : Nat) : List Nat :=
  let k := s.sec.keys.get (0, 0, 0) ctx
  [s.dieId, s.rd .SYS_ID_PART, s.sec.fwVersion, s.sec.fwSvn, s.sec.fwDigest, s.sec.aliasTime, fnNumber ctx, k.1, k.2.1, k.2.2]

/-- The chain of slot 0: its length, the root's digest and the certificates. -/
def State.slot0 (s : State) (ctx : Nat) : List Byte :=
  let c := Config.certChain (s.certIds ctx)
  natLe 2 (c.length + 52) ++ [0, 0] ++ natBe 48 Config.rootDigest ++ c

def State.chainHash (s : State) (ctx : Nat) : List Byte := natBe 48 (sha384 (s.slot0 ctx))

/-! ## Requests (R538) -/

/-- GET_VERSION opens a connection; its answer carries version 1.0 in its header. -/
def execGetVersion (port ctx : Nat) (s : State) : Host.Outcome State Fault Refusal :=
  .next (s.spdm port ctx 0 fun s =>
    (s.setConn ctx { stage := 1 }).reply ctx [0x10, 0x04, 0, 0, 0, 1, 0x00, 0x12])

/-- CTExponent 20; CERT_CAP, CHAL_CAP, MEAS_CAP 2 and MEAS_FRESH_CAP. The sizes are not given: free. -/
def execGetCapabilities (port ctx : Nat) (s : State) : Host.Outcome State Fault Refusal :=
  .next (s.spdm port ctx 1 fun s =>
    (s.setConn ctx { stage := max 2 (s.spdmStage ctx) }).reply ctx (spdmMsg 0x61 0 0
      ([0, 20, 0, 0] ++ natLe 4 0x36 ++ natLe 4 (Config.freeNat 0 538) ++ natLe 4 (Config.freeNat 1 538))))

/-- `asym`, `hash` and `spec` are the offered masks: ECDSA P-384 is bit 7, SHA-384 bit 1, DMTF bit 0. An offer
with none of them is refused. -/
def execNegotiateAlgorithms (port ctx asym hash spec : Nat) (s : State) : Host.Outcome State Fault Refusal :=
  .next (s.spdm port ctx 2 fun s =>
    let a := b2n (asym.testBit 7)
    let h := b2n (hash.testBit 1)
    let m := b2n (spec.testBit 0)
    if a + h + m = 0 then s.spdmError ctx 1 0
    else
      (s.setConn ctx { stage := 3 }).reply ctx (spdmMsg 0x63 0 0
        (natLe 2 36 ++ natLe 1 m ++ [0] ++ natLe 4 4 ++ natLe 4 (a * 0x80) ++ natLe 4 (h * 2) ++ List.replicate 16 0)))

/-- The digest of slot 0, the only one that holds a chain. -/
def execGetDigests (port ctx : Nat) (s : State) : Host.Outcome State Fault Refusal :=
  .next (s.spdm port ctx 3 fun s => s.reply ctx (spdmMsg 0x01 0 1 (s.chainHash ctx)))

/-- R533: part of the chain of slot 0; another slot is outside the subset. [DEDUCED: log 229] -/
def execGetCertificate (port ctx slot off len : Nat) (s : State) : Host.Outcome State Fault Refusal :=
  .next (s.spdm port ctx 3 fun s =>
    let c := s.slot0 ctx
    if slot ≠ 0 then s.spdmError ctx 7 0x82
    else if c.length ≤ off then s.spdmError ctx 1 0
    else
      let b := (c.drop off).take len
      s.reply ctx (spdmMsg 0x02 0 0 (natLe 2 b.length ++ natLe 2 (c.length - off - b.length) ++ b)))

/-- A response waits for the signing engine. -/
def State.toSign (s : State) (ctx : Nat) (chal : Bool) (b : List Byte) : State :=
  { s with sec := { s.sec with signing := s.sec.signing ++ [⟨ctx, b, chal⟩] } }

/-- CHALLENGE; `summary` is the measurement summary it asks for: 0 none, 0xFF all, else those of the trusted
base, which the spec does not name: free. -/
def execChallenge (port ctx slot summary : Nat) (s : State) : Host.Outcome State Fault Refusal :=
  .next (s.spdm port ctx 3 fun s =>
    if slot ≠ 0 then s.spdmError ctx 7 0x83
    else
      let r := s.nonceBytes 32
      let q := r.1.nonceBytes 48
      let sum := if summary = 0 then []
        else if summary = 0xFF then natBe 48 (sha384 ((s.measBlocks ctx).flatMap (·.2)))
        else q.2
      q.1.toSign ctx true (spdmMsg 0x03 0 1 (s.chainHash ctx ++ r.2 ++ sum ++ [0, 0])))

/-- R540: GET_MEASUREMENTS; `index` 0 asks for the number of blocks, 0xFF for all of them. -/
def execGetMeasurements (port ctx slot index : Nat) (sign : Bool) (s : State) : Host.Outcome State Fault Refusal :=
  .next (s.spdm port ctx 3 fun s =>
    let all := s.measBlocks ctx
    let bs := if index = 0 then [] else if index = 0xFF then all else all.filter fun b => b.1 == index
    if slot ≠ 0 then s.spdmError ctx 7 0xE0
    else if index ≠ 0 ∧ bs.isEmpty then s.spdmError ctx 1 0
    else
      let r := s.nonceBytes 32
      let body := bs.flatMap (·.2)
      let msg := spdmMsg 0x60 (if index = 0 then all.length else 0) 0
        (natLe 1 bs.length ++ natLe 3 body.length ++ body ++ r.2 ++ [0, 0])
      if sign then r.1.toSign ctx false msg else r.1.reply ctx msg)

/-- A request outside the subset. -/
def execUnsupportedRequest (port ctx code : Nat) (s : State) : Host.Outcome State Fault Refusal :=
  .next (s.spdm port ctx 0 fun s => s.spdmError ctx 7 code)

/-- The request the signing engine serves next: in rotation by ascending function number (R539). -/
def State.nextSigned (s : State) : Option SignReq :=
  let least := fun (l : List SignReq) => l.foldl (fun (b : Option SignReq) r => match b with
    | none => some r
    | some x => if fnNumber r.ctx < fnNumber x.ctx then some r else some x) none
  match least (s.sec.signing.filter fun r => decide (s.sec.nextSign ≤ fnNumber r.ctx)) with
  | some r => some r
  | none => least s.sec.signing

/-- R539: the signing engine completes a response; the signature is free. -/
def execSignedResponse (s : State) : Host.Outcome State Fault Refusal :=
  .next (match s.nextSigned with
    | none => s
    | some r =>
      let g := s.nonceBytes 96
      let s := g.1
      let s : State := { s with sec := { s.sec with
        signing := s.sec.signing.filter fun x => x.ctx ≠ r.ctx, nextSign := fnNumber r.ctx + 1 } }
      s.reply r.ctx (r.body ++ g.2))

/-- R532: a reissue ends; the next request is answered with RequestResynch. -/
def execAttestReissued (ctx : Nat) (s : State) : Host.Outcome State Fault Refusal :=
  .next (
    if !(s.sec.reissue.contains ctx) then s
    else
      let s := s.issueKey ctx
      let s : State := { s with sec := { s.sec with reissue := s.sec.reissue.filter (· ≠ ctx) } }
      (s.setConn ctx { s.sec.conn.get {} ctx with resync := true }).fire 642)

end Sys2Proof.Machine
end

