-- ==== Sys2Proof/Machine/Security.lean ====
section
/-! DEFINITION. Fuses, debug tokens and the debug lock (R534-R537, R543-R547), and the end of a partition
reset (R528). -/

namespace Sys2Proof.Machine

/-! ## Fuses (R535-R537) -/

def State.burn (s : State) (f : Fuse) : State := { s with sec := { s.sec with fuses := s.sec.fuses ++ [f] } }

/-- SEC_ARB_CTRL.OP, ignored while RESULT is BUSY. -/
def State.arb (s : State) (g : State → State) : State :=
  s.accessed .early fun s => if s.rd .SEC_ARB_CTRL_RESULT = 1 then s else g s

/-- R537: a raise that would not increase the floor uses no fuse. -/
def execRaiseFw (s : State) : Host.Outcome State Fault Refusal :=
  .next (s.arb fun s =>
    if s.sec.fwSvn ≤ s.rd .SEC_STATUS_FW_SVN_FLOOR then s.wr .SEC_ARB_CTRL_RESULT 0 0
    else (s.burn (.fwFloor s.sec.fwSvn)).wr .SEC_ARB_CTRL_RESULT 0 1)

/-- R537. -/
def execRaiseStruct (s : State) : Host.Outcome State Fault Refusal :=
  .next (s.arb fun s =>
    let seq := s.rd .STRUCT_ACTIVE_SEQ_SEQ
    if seq ≤ s.rd .SEC_STRUCT_FLOOR_FLOOR then s.wr .SEC_ARB_CTRL_RESULT 0 0
    else if 32 ≤ s.rd .SEC_STATUS_ARB_STEPS then s.wr .SEC_ARB_CTRL_RESULT 0 3
    else (s.burn (.structFloor seq)).wr .SEC_ARB_CTRL_RESULT 0 1)

/-- The digest in SEC_OWNER_DIGEST. -/
def State.ownerDigest (s : State) : Nat :=
  ((List.range 6).map fun i => s.rd .SEC_OWNER_DIGEST_DIGEST i * 2 ^ (64 * i)).foldl (· + ·) 0

/-- R536: a write of SEC_OWNER_CTRL; PROGRAM works while no slot is programmed, in READY or DEGRADED_READY. -/
def execOwnerProgram (val : Nat) (s : State) : Host.Outcome State Fault Refusal :=
  .next (s.accessed .early fun s =>
    let s := s.wr .SEC_OWNER_CTRL_ALLOW_KEROLD 0 (val % 2)
    if bits val 28 4 ≠ 1 ∨ s.rd .SEC_OWNER_CTRL_RESULT = 1 then s
    else if s.rd .SEC_STATUS_OWNER_SLOT ≠ 0 ∨ ¬ s.ready then s.wr .SEC_OWNER_CTRL_RESULT 0 2
    else (s.burn (.owner s.ownerDigest true (val % 2 == 1))).wr .SEC_OWNER_CTRL_RESULT 0 1)

/-- R536, R537: the oldest fuse programming ends. [DEDUCED: log 237] -/
def execFuseProgramDone (s : State) : Host.Outcome State Fault Refusal :=
  .next (match s.sec.fuses with
    | [] => s
    | f :: fs =>
      let s : State := { s with sec := { s.sec with fuses := fs } }
      match f with
      | .fwFloor n => (s.wr .SEC_STATUS_FW_SVN_FLOOR 0 n).wr .SEC_ARB_CTRL_RESULT 0 0
      | .structFloor n => ((s.wr .SEC_STRUCT_FLOOR_FLOOR 0 n).inc .SEC_STATUS_ARB_STEPS 0).wr .SEC_ARB_CTRL_RESULT 0 0
      | .owner d first allow =>
        let s : State := { s with sec := { s.sec with owners := s.sec.owners ++ [d] } }
        let s := s.wr .SEC_STATUS_OWNER_SLOT 0 s.sec.owners.length
        let s := if first then (s.wr .SEC_STATUS_ALLOW_KEROLD 0 (b2n allow)).wr .SEC_OWNER_CTRL_RESULT 0 0
          else s.wr .SEC_DBG_CTRL_RESULT 0 0
        s.fire 643)

/-! ## The debug level (R543, R546) -/

/-- Each change of level fires DEBUG_STATE. -/
def State.setDebug (s : State) (l : Nat) : State :=
  if s.rd .SEC_STATUS_DEBUG = l then s else (s.wr .SEC_STATUS_DEBUG 0 l).fire 640

/-- R546: the resets of a LEVEL 2 unlock that are still to come; the first of them starts. -/
def State.unlockNext (s : State) : List Nat → State
  | [] => { s with sec := { s.sec with unlock := some [] } }
  | p :: ps =>
    if s.unconfigured p then s.unlockNext ps
    else
      let s : State := { s with sec := { s.sec with unlock := some (p :: ps) } }
      if s.brg.resetting.contains p then s else s.resetPart p

/-- R528: the oldest partition reset under way completes; an unlock goes on to its next partition. [DEDUCED: log 225] -/
def execPartResetDone (s : State) : Host.Outcome State Fault Refusal :=
  .next (match s.brg.resetting with
    | [] => s
    | p :: _ =>
      let s := s.partResetDone p
      match s.sec.unlock with
      | some (q :: qs) => if q = p then s.unlockNext qs else s
      | _ => s)

/-- R546: every reset of a LEVEL 2 unlock has completed: level 2 is set, or 0 where a LOCK was written. -/
def execDebugState (s : State) : Host.Outcome State Fault Refusal :=
  .next (match s.sec.unlock with
    | some [] =>
      let l := if s.sec.lockAfter then 0 else 2
      let s : State := { s with sec := { s.sec with unlock := none, lockAfter := false } }
      (s.wr .SEC_DBG_CTRL_RESULT 0 0).setDebug l
    | _ => s)

/-! ## Tokens (R544, R545) -/

/-- No nonce is valid. -/
def State.dropNonce (s : State) : State :=
  ({ s with sec := { s.sec with nonceOk := false } } : State).each (List.range 4) fun s i => s.wr .SEC_DBG_NONCE_NONCE i 0

/-- R545: a new nonce, a free value. -/
def execDbgNonce (s : State) : Host.Outcome State Fault Refusal :=
  .next (s.accessed .early fun s =>
    if s.rd .SEC_DBG_CTRL_RESULT = 1 then s
    else
      let n := s.fresh
      let s : State := { s with fresh := n + 1, sec := { s.sec with nonceOk := true } }
      (s.each (List.range 4) fun s i => s.wr .SEC_DBG_NONCE_NONCE i (Config.freeNat n (545 + i))).wr .SEC_DBG_CTRL_RESULT 0 0)

/-- The first check a token fails, in R545's order; `sig` says what the keys say of it: 0 it verifies up to the
root its authority names, 1 the signature or chain does not verify, 2 another root. [DEDUCED: log 234] -/
def State.tokenBad (s : State) (b : List Byte) (sig : Nat) : Nat :=
  let chain := d16 b 0x68
  let level := d8 b 6
  let auth := d8 b 7
  let zeros := fun (off n : Nat) => (List.range n).all fun i => d8 b (off + i) == 0
  if leNat (b.take 4) ≠ 0x4742444B ∨ d16 b 4 ≠ 1 ∨ level = 0 ∨ 3 < level ∨ zeros 0x6A 6 = false ∨
      (level ≠ 3 ∧ zeros 0x38 48 = false) ∨ b.length ≠ 0x70 + (chain + 7) / 8 * 8 + 96 ∨ 8192 < b.length then 2
  else if leNat ((b.drop 8).take 16) ≠ s.dieId then 3
  else if !s.sec.nonceOk || (List.range 4).any fun i => d64 b (0x18 + 8 * i) != s.rd .SEC_DBG_NONCE_NONCE i then 4
  else if sig = 1 then 5
  else if sig ≠ 0 ∨ 1 < auth ∨ (level = 3 ∧ auth ≠ 1) ∨ (auth = 1 ∧ s.rd .SEC_STATUS_OWNER_SLOT = 0) then 6
  else 0

/-- What an accepted token does (R536, R546). A level at or below the present one changes nothing. [DEDUCED: log 235] -/
def State.tokenAct (s : State) (b : List Byte) : State :=
  match d8 b 6 with
  | 1 => if 1 ≤ s.rd .SEC_STATUS_DEBUG then s else s.setDebug 1
  | 2 =>
    if 2 ≤ s.rd .SEC_STATUS_DEBUG then s
    else (s.wr .SEC_DBG_CTRL_RESULT 0 1).unlockNext ((List.range 63).filter fun p => !(s.unconfigured p))
  | _ =>
    if 4 ≤ s.rd .SEC_STATUS_OWNER_SLOT then s.wr .SEC_DBG_CTRL_RESULT 0 7
    else (s.burn (.owner (leNat ((b.drop 0x38).take 48)) false false)).wr .SEC_DBG_CTRL_RESULT 0 1

/-- R545: a token is checked; every submission consumes the nonce. -/
def State.submitToken (s : State) (b : List Byte) (sig : Nat) : State :=
  if s.rd .SEC_DBG_CTRL_RESULT = 1 then s
  else
    let e := s.tokenBad b sig
    let s := s.dropNonce.wr .SEC_DBG_CTRL_RESULT 0 e
    if e ≠ 0 then (s.inc .SEC_STATUS_TOKENS_REJECTED 0).fire 641
    else
      ({ s with sec := { s.sec with tokens := min (s.sec.tokens + 1) (2 ^ 32 - 1), lastAuth := d8 b 7 } } : State).tokenAct b

/-- R545: SUBMIT fetches the token from the memory of PF0's home port. [DEDUCED: log 236] -/
def execDbgSubmit (sig : Nat) (s : State) : Host.Outcome State Fault Refusal :=
  .next (s.accessed .early fun s =>
    let a := s.rd .SEC_DBG_ADDR_ADDR * 8
    s.submitToken ((List.range (s.rd .SEC_DBG_LEN_LEN)).map fun i => s.getByte (hostKey (s.home pf0) (a + i))) sig)

/-- R546: LOCK sets level 0 at once; one during the resets of an unlock lets them finish. [DEDUCED: log 238] -/
def execDbgLock (s : State) : Host.Outcome State Fault Refusal :=
  .next (s.accessed .early fun s =>
    if s.sec.unlock.isSome then ({ s with sec := { s.sec with lockAfter := true } } : State).setDebug 0
    else if s.rd .SEC_DBG_CTRL_RESULT = 1 then s
    else (s.wr .SEC_DBG_CTRL_RESULT 0 0).setDebug 0)

/-- R545: a read of SEC_STATUS. -/
def execSecStatusRead (half : Nat) (s : State) : Host.Outcome State Fault Refusal :=
  .next (s.readBlk .early .SEC_STATUS 0 half)

end Sys2Proof.Machine
end

