-- ==== Sys2Proof/Machine/TephraBase.lean ====
section
/-! DEFINITION. The base instructions of every Tephra core: integer, compare, scalar float, memory,
atomics, branch, loop and system instructions, and a Fumarole's interrupts (R305-R326, R470). -/

namespace Sys2Proof.Machine

/-- R306: no operation. -/
def execNopInstruction (i : TI) (s : State) : Host.Outcome State Fault Refusal :=
  .next (s.tephra i {} fun s c => .done s c none)

/-! ## Integer (R307) -/

/-- Leading zeros of a `w`-bit value. -/
def clz (w a : Nat) : Nat := if a = 0 then w else w - 1 - Nat.log2 a

def popc (w a : Nat) : Nat := (bitsOf a w).length

/-- One integer operation on `w`-bit values; `pick` is the predicate SEL names. -/
def intOp (op : IntOp) (w a b : Nat) (pick : Bool) : Nat :=
  let sa := toSigned w a
  let sb := toSigned w b
  let sh := b % w
  let all := 2 ^ w - 1
  match op with
  | .add | .addi => (a + b) % 2 ^ w
  | .sub => (a + 2 ^ w - b) % 2 ^ w
  | .and | .andi => Nat.land a b
  | .or | .ori => Nat.lor a b
  | .xor | .xori => Nat.xor a b
  | .andn => Nat.land a (all - b)
  | .shl | .shli => a * 2 ^ sh % 2 ^ w
  | .shr | .shri => a / 2 ^ sh
  | .sra | .srai => ofSigned w (sa / (2 ^ sh : Nat))
  | .rol => (a * 2 ^ sh % 2 ^ w) + a / 2 ^ (w - sh)
  | .mul => a * b % 2 ^ w
  | .mulh => ofSigned w (sa * sb / (2 ^ w : Nat))
  | .mulhu => a * b / 2 ^ w
  | .div => if b = 0 then all else ofSigned w (Int.tdiv sa sb)
  | .divu => if b = 0 then all else a / b
  | .rem => if b = 0 then a else ofSigned w (Int.tmod sa sb)
  | .remu => if b = 0 then a else a % b
  | .min => if sa < sb then a else b
  | .max => if sa < sb then b else a
  | .minu => if a < b then a else b
  | .maxu => if a < b then b else a
  | .sel => if pick then a else b
  | .clz => clz w a
  | .popc => popc w a
  | .lui => b * 2 ^ 32 % 2 ^ w

/-- The operation takes an immediate in place of S2. -/
def intHasImm : IntOp → Bool
  | .addi | .andi | .ori | .xori | .shli | .shri | .srai | .lui => true
  | _ => false

/-- A result of the operation's width, sign-extended to 64 bits. -/
def sext (w v : Nat) : Nat := ofSigned 64 (toSigned w v)

/-- Width of an integer operation by TYPE. -/
def intWidth (typ : Nat) : Nat := if typ = 1 then 32 else 64

/-- [DEDUCED: log 140] -/
def execTInteger (i : TI) (op : IntOp) (o : TOp) (s : State) : Host.Outcome State Fault Refusal :=
  let imm := intHasImm op
  let bad := decide (2 ≤ o.typ) || !(gOk [o.dst, o.s1]) || (!imm && !(gOk [o.s2, o.s3])) || (op == .sel && decide (8 ≤ o.s3))
  .next (s.tephra i { bad := bad } fun s c =>
    let w := intWidth o.typ
    let b := if imm then ofSigned 64 (toSigned 32 (ofSigned 32 o.imm)) else c.reg o.s2
    let pick := (c.predVal i.core o.s3).testBit 0
    .done s (c.setReg o.dst (sext w (intOp op w (c.reg o.s1 % 2 ^ w) (b % 2 ^ w) pick))) none)

/-! ## Compares and predicates (R306) -/

/-- The result of a compare on two register values, with its float flags. -/
def cmpVal (op : CmpOp) (w a b : Nat) : Bool × Nat :=
  let a' := a % 2 ^ w
  let b' := b % 2 ^ w
  match op with
  | .eq => (a' == b', 0)
  | .ne => (a' != b', 0)
  | .lt => (decide (toSigned w a' < toSigned w b'), 0)
  | .le => (decide (toSigned w a' ≤ toSigned w b'), 0)
  | .ltu => (decide (a' < b'), 0)
  | .leu => (decide (a' ≤ b'), 0)
  | .feq => fEq (a % 2 ^ 32) (b % 2 ^ 32)
  | .flt => fLt (a % 2 ^ 32) (b % 2 ^ 32)
  | .fle => fLe (a % 2 ^ 32) (b % 2 ^ 32)
  | .fun_ => fUn (a % 2 ^ 32) (b % 2 ^ 32)
  | _ => (false, 0)

/-- A logic operation on predicates. -/
def predLogic (op : CmpOp) (a b : Nat) : Option Nat :=
  match op with
  | .pand => some (Nat.land a b)
  | .por => some (Nat.lor a b)
  | .pxor => some (Nat.xor a b)
  | .pnot => some (ones64 - a)
  | _ => none

/-- Float compares take TYPE FP32, integer compares 0 or 1 (R305). -/
def cmpTypeOk (op : CmpOp) (typ : Nat) : Bool :=
  match op with
  | .feq | .flt | .fle | .fun_ => typ == fmtFP32
  | .pand | .por | .pxor | .pnot => true
  | _ => decide (typ < 2)

/-- A compare gives bit 0 of its destination; what the other lanes of a shader core's predicate take
is not given: free values. [DESIGN CHOICE: log 135] -/
def execCompareToPredicate (i : TI) (op : CmpOp) (o : TOp) (s : State) : Host.Outcome State Fault Refusal :=
  let lg := (predLogic op 0 0).isSome
  let bad := decide (8 ≤ o.dst) || !(cmpTypeOk op o.typ) || !(gOk [o.s3]) ||
    (if lg then decide (8 ≤ o.s1) || (op != .pnot && decide (8 ≤ o.s2)) else !(gOk [o.s1, o.s2]))
  .next (s.tephra i { bad := bad } fun s c =>
    match predLogic op (c.predVal i.core o.s1) (c.predVal i.core o.s2) with
    | some v => .done s (c.setPred o.dst v) none
    | none =>
      let r := cmpVal op (intWidth o.typ) (c.reg o.s1) (c.reg o.s2)
      let c := c.orFlags r.2
      if profile i.core = 1 then
        let v := s.freeHigh 1 (b2n r.1)
        .done v.1 (c.setPred o.dst v.2) none
      else .done s (c.setPred o.dst (b2n r.1)) none)

/-! ## Scalar float (R308) -/

/-- TYPE and STYPE of a float operation (R305, R187). -/
def fltTypeOk (op : FltOp) (typ styp : Nat) : Bool :=
  match op with
  | .cvt => (ffmt typ).isSome && (ffmt styp).isSome
  | .toi => fmtInt typ && (ffmt styp).isSome
  | .ofi => (ffmt typ).isSome && fmtInt styp
  | _ => typ == fmtFP32

/-- A float operation: the result's width, its bits and the flags. -/
def fltOp (op : FltOp) (rm typ styp a b c : Nat) : Nat × FRes :=
  let a' := a % 2 ^ 32
  let b' := b % 2 ^ 32
  match op with
  | .add => (32, fAdd rm a' b')
  | .sub => (32, fSub rm a' b')
  | .mul => (32, fMul rm a' b')
  | .fma => (32, fFma rm a' b' (c % 2 ^ 32))
  | .min => (32, fMin a' b')
  | .max => (32, fMax a' b')
  | .div => (32, fDiv rm a' b')
  | .sqrt => (32, fSqrt rm a')
  | .cvt => (fmtBits typ, fCvt rm typ styp a)
  | .toi => (64, ⟨ofSigned 64 (fToInt typ styp a).1, (fToInt typ styp a).2⟩)
  | .ofi => (fmtBits typ, fOfInt rm typ styp a)
  | .mv => (32, ⟨a', 0⟩)

/-- The bits of a destination above a float result are not given: free values. -/
def execScalarFloat (i : TI) (op : FltOp) (o : TOp) (s : State) : Host.Outcome State Fault Refusal :=
  let bad := !(fltTypeOk op o.typ o.styp) || !(gOk [o.dst, o.s1, o.s2, o.s3])
  .next (s.tephra i { bad := bad } fun s c =>
    let r := fltOp op c.rm o.typ o.styp (c.reg o.s1) (c.reg o.s2) (c.reg o.s3)
    let v := if r.1 = 64 then (s, r.2.enc) else s.freeHigh r.1 r.2.enc
    .done v.1 ((c.setReg o.dst v.2).orFlags r.2.flags) none)

/-! ## Memory (R305) -/

/-- Bytes of an access. -/
def accBytes (m : TMem) : Nat := 2 ^ m.size

/-- A load, sign-extended or not. -/
def State.tLoad (s : State) (i : TI) (m : TMem) (signed : Bool) : State :=
  s.tephra i { bad := memBad i m } fun s c =>
    let n := accBytes m
    match s.coreLoad i c m.space (c.memAddr m) n with
    | (s, .ok v) => .done s (c.setReg m.data (if signed then sext (8 * n) v else v)) none
    | (s, .error r) => .err s r

def execTLd (i : TI) (m : TMem) (s : State) : Host.Outcome State Fault Refusal := .next (s.tLoad i m true)
def execTLdu (i : TI) (m : TMem) (s : State) : Host.Outcome State Fault Refusal := .next (s.tLoad i m false)

def execTSt (i : TI) (m : TMem) (s : State) : Host.Outcome State Fault Refusal :=
  .next (s.tephra i { bad := memBad i m } fun s c =>
    let n := accBytes m
    match s.coreStore i c m.space (c.memAddr m) n (c.reg m.data % 2 ^ (8 * n)) with
    | (s, .ok c) => .done s c none
    | (s, .error r) => .err s r)

/-- R306: accesses of a core are in program order already. -/
def execTFence (i : TI) (s : State) : Host.Outcome State Fault Refusal :=
  .next (s.tephra i {} fun s c => .done s c none)

/-- An atomic instruction on SPACE 0: memory takes `f old operand`, DATA the old value. [DEDUCED: log 137] -/
def State.amo (s : State) (i : TI) (m : TMem) (f : State → Nat → Nat → State × Nat × Nat) : State :=
  s.tephra i { prof := [2], bad := memBad i m || m.space != 0 } fun s c =>
    let n := accBytes m
    let a := c.memAddr m
    match s.coreLoad i c 0 a n with
    | (s, .error r) => .err s r
    | (s, .ok old) =>
      let r := f s old (c.reg m.data % 2 ^ (8 * n))
      match r.1.coreStore i c 0 a n r.2.1 with
      | (s, .error r) => .err s r
      | (s, .ok c) => .done s (c.setReg m.data (sext (8 * n) r.2.2)) none

def execAmoadd (i : TI) (m : TMem) (s : State) : Host.Outcome State Fault Refusal :=
  .next (s.amo i m fun s old v => (s, (old + v) % 2 ^ (8 * accBytes m), old))

def execAmoswap (i : TI) (m : TMem) (s : State) : Host.Outcome State Fault Refusal :=
  .next (s.amo i m fun s old v => (s, v, old))

/-- A signed maximum. -/
def execAmomax (i : TI) (m : TMem) (s : State) : Host.Outcome State Fault Refusal :=
  .next (s.amo i m fun s old v =>
    (s, if toSigned (8 * accBytes m) old < toSigned (8 * accBytes m) v then v else old, old))

/-- R306 names no register for the value compared: whether the word is exchanged, and with what, are
free values. [DESIGN CHOICE: log 136] -/
def execAmocas (i : TI) (m : TMem) (s : State) : Host.Outcome State Fault Refusal :=
  .next (s.amo i m fun s old _ =>
    let n := s.fresh
    let hit := Config.freeNat n 306 % 2 == 1
    ({ s with fresh := n + 2 }, if hit then Config.freeNat (n + 1) 306 % 2 ^ (8 * accBytes m) else old, old))

/-! ## Branches and loops (R310-R315) -/

/-- R310: the branch is taken. -/
def brTaken (cond mask : Nat) : Bool :=
  match cond with
  | 0 => mask.testBit 0
  | 1 => mask != 0
  | _ => mask == ones64

/-- [DEDUCED: log 142] -/
def execTBr (i : TI) (link treg cond : Nat) (off : Int) (s : State) : Host.Outcome State Fault Refusal :=
  let bad := !(gOk [link, treg]) || decide (3 ≤ cond) || (link == treg && link != 0)
  .next (s.tephra i { bad := bad, noSlot := true, noLE := true, always := true } fun s c =>
    let base := if treg = 0 then c.pc else c.reg treg
    let target := ofSigned 64 ((base : Int) + off * 8)
    if target % 8 ≠ 0 then .err s { cause := 0x06, eva := target }
    else
      let taken := brTaken cond (c.predMask i)
      let c' := c.setReg link (c.pc + 16)
      .done s { c' with slot := some (c.pc, if taken then target else (c.pc + 16) % 2 ^ 64, taken) } none)

/-- R313. -/
def execLoopSetup (i : TI) (lp cnt imm len : Nat) (s : State) : Host.Outcome State Fault Refusal :=
  let n := lp % 4
  .next (s.tephra i { bad := !(gOk [cnt]) || len == 0, noSlot := true, noLE := true } fun s c =>
    let ls := (c.pc + 8) % 2 ^ 64
    let le := (ls + (len - 1) * 8) % 2 ^ 64
    let count := (if cnt = 0 then imm else c.reg cnt) % 2 ^ 32
    let c := { c with ls := c.ls.set 0 n ls, le := c.le.set 0 n le }
    if count = 0 then .done s { c with lact := clrBit c.lact n } (some (le + 8))
    else .done s { c with lc := c.lc.set 0 n count, lact := setBit c.lact n } none)

/-! ## System instructions (R303, R316, R317, R319-R321) -/

/-- R316. IE exists on Fumaroles only, so elsewhere no value of its bit changes it. [DEDUCED: log 145] -/
def execMtmode (i : TI) (s1 : Nat) (s : State) : Host.Outcome State Fault Refusal :=
  let c := s.core i.core
  let v := c.reg s1
  let bad := !(gOk [s1]) || decide (16 ≤ v) || c.shadow.isSome
  let priv := (v.testBit 3 != c.super) || (profile i.core == 2 && v.testBit 2 != c.ie)
  .next (s.tephra i { bad := bad, noSlot := true, priv := priv } fun s c =>
    let m := if profile i.core = 2 then v % 16 else clrBit (v % 16) 2
    .done s { c with shadow := some (2, m) } none)

/-- A control register's value, by number; `none` for a number that is not listed (R303). -/
def State.crRead (s : State) (id : Nat) (c : Core) (n : Nat) : Option Nat :=
  match n with
  | 0 => some c.mode
  | 2 => some c.epc
  | 3 => some c.ecause
  | 4 => some c.eflags
  | 5 => some c.ebt
  | 6 => some c.eva
  | 7 => some c.emode
  | 8 => some c.epmode
  | 9 => some c.evec
  | 10 => some c.fflags
  | 11 => some ((match profile id with | 0 => 0 | 1 => 256 | _ => 512) +
      (match profile id with | 0 => id - 12 | 1 => id - 108 | _ => id))
  | 12 => some s.gcnt
  | 28 => some c.lact
  | n =>
    if 16 ≤ n ∧ n < 20 then some (c.ls.get 0 (n - 16))
    else if 20 ≤ n ∧ n < 24 then some (c.le.get 0 (n - 20))
    else if 24 ≤ n ∧ n < 28 then some (c.lc.get 0 (n - 24))
    else none

/-- The number is listed. -/
def crKnown (n : Nat) : Bool := n == 0 || (decide (2 ≤ n) && decide (n ≤ 12)) || (decide (16 ≤ n) && decide (n ≤ 28))

/-- User mode may read it. -/
def crUserRead (n : Nat) : Bool := n == 0 || (decide (10 ≤ n) && decide (n ≤ 12)) || decide (16 ≤ n)

/-- User mode may write it. -/
def crUserWrite (n : Nat) : Bool := n == 10 || decide (16 ≤ n)

/-- Write a control register; MODE, CORE_ID and GCNT keep their values. [DEDUCED: log 141] -/
def Core.crWrite (c : Core) (n v : Nat) : Core :=
  let v := v % 2 ^ 64
  match n with
  | 2 => { c with epc := v }
  | 3 => { c with ecause := v % 256 }
  | 4 => { c with eflags := v % 512 }
  | 5 => { c with ebt := v }
  | 6 => { c with eva := v }
  | 7 => { c with emode := v % 32 }
  | 8 => { c with epmode := v % 32 }
  | 9 => { c with evec := v / 8 * 8 }
  | 10 => { c with fflags := v % 16 }
  | 28 => { c with lact := v % 16 }
  | n =>
    if 16 ≤ n ∧ n < 20 then { c with ls := c.ls.set 0 (n - 16) v }
    else if 20 ≤ n ∧ n < 24 then { c with le := c.le.set 0 (n - 20) v }
    else if 24 ≤ n ∧ n < 28 then { c with lc := c.lc.set 0 (n - 24) (v % 2 ^ 32) }
    else c

def execMfcr (i : TI) (dst code : Nat) (s : State) : Host.Outcome State Fault Refusal :=
  .next (s.tephra i { bad := !(gOk [dst]) || !(crKnown code), priv := !(crUserRead code) } fun s c =>
    .done s (c.setReg dst ((s.crRead i.core c code).getD 0)) none)

def execMtcr (i : TI) (s1 code : Nat) (s : State) : Host.Outcome State Fault Refusal :=
  .next (s.tephra i { bad := !(gOk [s1]) || !(crKnown code), priv := !(crUserWrite code) } fun s c =>
    .done s (c.crWrite code (c.reg s1)) none)

/-- R321. [DEDUCED: log 143] -/
def execTEret (i : TI) (s : State) : Host.Outcome State Fault Refusal :=
  .next (s.tephra i { bad := !(s.core i.core).exl, noSlot := true, noLE := true, priv := true } fun s c =>
    .raw (s.setCore i.core { c with
      mode := c.emode, lact := bits c.eflags 4 4, slot := none, pc := c.epc
      shadow := if c.eflags.testBit 1 then some (bits c.eflags 2 2, c.epmode % 16) else none }))

def execTTrap (i : TI) (code : Nat) (s : State) : Host.Outcome State Fault Refusal :=
  let _ := code
  .next (s.tephra i {} fun s _ => .err s { cause := 0x09 })

/-- R326, R545: the core halts for a debugger only at debug level 2. [DEDUCED: log 264] -/
def execBrk (i : TI) (code : Nat) (s : State) : Host.Outcome State Fault Refusal :=
  let _ := code
  .next (s.tephra i {} fun s c =>
    if s.rd .SEC_STATUS_DEBUG = 2 then .raw (s.setCore i.core { c with halted := true })
    else .err s { cause := 0x0A })

/-- R306: a Fumarole sleeps until an interrupt is eligible at it. -/
def execTWfi (i : TI) (s : State) : Host.Outcome State Fault Refusal :=
  .next (s.tephra i { prof := [2] } fun s c => .done s { c with asleep := true } none)

/-- R312, R470: a Fumarole takes an interrupt at an instruction boundary, in the edge of the take. One
taken while EXL is 1 is a double fault (R325); `ok` is the health write its halt can lead to. [DEDUCED: log 144] -/
def execInterruptTake (fc : Nat) (ok : Bool) (s : State) : Host.Outcome State Fault Refusal :=
  .next (
    let c := s.core fc
    let asleepOk := s.coreOn fc || (c.asleep && ({ s with cores := s.cores.set {} fc { c with asleep := false } } : State).coreOn fc)
    if 12 ≤ fc ∨ ¬ asleepOk ∨ ¬ c.ie ∨ c.slot.isSome then s
    else
      let s := s.take fc (s.eligibleList fc)
      s.raise { core := fc, ok := ok } c { cause := 0x80 })

end Sys2Proof.Machine
end

