-- ==== Sys2Proof/Machine/TephraVec.lean ====
section
/-! DEFINITION. The shader profile's instructions: vector arithmetic, lane loads and stores, texture
reads, the interlock and the exports (R308, R309, R330-R333, R375, R382, R387). -/

namespace Sys2Proof.Machine

/-! ## Lanes (R303, R309, R330) -/

def Core.vreg (c : Core) (r l : Nat) : Nat := c.v.get 0 (r * 64 + l)

def Core.setV (c : Core) (r l x : Nat) : Core := { c with v := c.v.set 0 (r * 64 + l) (x % 2 ^ 32) }

/-- Vector register fields. -/
def vOk (l : List Nat) : Bool := l.all fun n => decide (n < 64)

/-- The lanes a vector instruction acts on. -/
def Core.lanes (c : Core) (i : TI) : List Nat := bitsOf (c.predMask i) 64

/-- Active lanes: those acted on that still run in the core's group and have a pixel of their own. -/
def State.activeLanes (s : State) (c : Core) (i : TI) : List Nat :=
  let live := ((s.groupOf i.core).map (·.live)).getD 0
  (c.lanes i).filter fun l => live.testBit l

/-- The core runs a fragment group. -/
def State.inFrag (s : State) (i : TI) : Bool := ((s.groupOf i.core).map (·.frag)).getD false

def vecChk (bad : Bool) : TChk := { prof := [1], bad := bad, always := true }

/-! ## Arithmetic (R308) -/

/-- TYPE and STYPE of a vector operation: FP32, or 32-bit integers. -/
def vecTypeOk (op : VecOp) (typ styp : Nat) : Bool :=
  match op with
  | .add | .sub | .mul | .fma | .min | .max => typ == fmtFP32 || typ == 1
  | .shl | .shr => typ == 1
  | .exp2 | .rcp | .rsq => typ == fmtFP32
  | .cvt => (ffmt typ).isSome && (ffmt styp).isSome
  | .cmp c => match c with
    | .feq | .flt | .fle | .fun_ => typ == fmtFP32
    | .pand | .por | .pxor | .pnot => false
    | _ => typ == 1
  | _ => true

/-- One lane of an operation that gives a 32-bit result: the bits and the flags. -/
def vecLane (op : VecOp) (rm typ a b c : Nat) : Nat × Nat :=
  let fl := typ == fmtFP32
  let r := fun (x : FRes) => (x.enc, x.flags)
  let i := fun (o : IntOp) => (intOp o 32 a b false, 0)
  match op with
  | .add => if fl then r (fAdd rm a b) else i .add
  | .sub => if fl then r (fSub rm a b) else i .sub
  | .mul => if fl then r (fMul rm a b) else i .mul
  | .fma => if fl then r (fFma rm a b c) else ((a * b + c) % 2 ^ 32, 0)
  | .min => if fl then r (fMin a b) else i .min
  | .max => if fl then r (fMax a b) else i .max
  | .and => i .and
  | .or => i .or
  | .xor => i .xor
  | .shl => i .shl
  | .shr => i .shr
  | .exp2 => r (fExp2 rm a)
  | .rcp => r (fRcp rm a)
  | .rsq => r (fRsq rm a)
  | _ => (a, 0)

/-- The lane of its quad that VSWZ reads: which one the fields select is not given, a free value of
the fields and the lane's place. -/
def swzLane (o : TOp) (l : Nat) : Nat :=
  l / 4 * 4 + Config.freeNat (((o.s2 * 64 + o.s3) * 16 + o.typ) * 16 + o.styp) (4 * 306 + l % 4) % 4

/-- Results of the lanes: register writes and flags. VBCAST reads a scalar register; bits of a VCVT
result above its format are free values. [DESIGN CHOICE: log 152] -/
def State.vecResult (s : State) (i : TI) (op : VecOp) (o : TOp) (c : Core) : State × Core :=
  let ls := c.lanes i
  let w := if op = .cvt then fmtBits o.typ else 32
  let one := fun (l : Nat) =>
    match op with
    | .cvt =>
      let x := fCvt c.rm o.typ o.styp (c.vreg o.s1 l)
      (x.enc + Config.freeNat s.fresh l % 2 ^ (32 - w) * 2 ^ w, x.flags)
    | .sel => (if (c.predVal i.core o.s3).testBit l then c.vreg o.s1 l else c.vreg o.s2 l, 0)
    | .bcast => (c.reg o.s1 % 2 ^ 32, 0)
    | .lane => (l, 0)
    | .swz => (c.vreg o.s1 (swzLane o l), 0)
    | _ => vecLane op c.rm o.typ (c.vreg o.s1 l) (c.vreg o.s2 l) (c.vreg o.s3 l)
  let c' := ls.foldl (fun (acc : Core) l => let x := one l; (acc.setV o.dst l x.1).orFlags x.2) c
  ({ s with fresh := s.fresh + 1 }, c')

/-- VCMP writes the predicate bits of its lanes. -/
def Core.vecCompare (c : Core) (i : TI) (op : CmpOp) (o : TOp) : Core :=
  (c.lanes i).foldl (fun (acc : Core) l =>
    let r := cmpVal op 32 (c.vreg o.s1 l) (c.vreg o.s2 l)
    let p := acc.p.get 0 o.dst
    (acc.setPred o.dst (if r.1 then setBit p l else clrBit p l)).orFlags r.2) c

def execVectorArithmetic (i : TI) (op : VecOp) (o : TOp) (s : State) : Host.Outcome State Fault Refusal :=
  let regs := match op with
    | .bcast => gOk [o.s1] && vOk [o.dst]
    | .cmp _ => decide (o.dst < 8) && vOk [o.s1, o.s2]
    | .sel => decide (o.s3 < 8) && vOk [o.dst, o.s1, o.s2]
    | _ => vOk [o.dst, o.s1, o.s2, o.s3]
  .next (s.tephra i (vecChk (!regs || !(vecTypeOk op o.typ o.styp))) fun s c =>
    match op with
    | .cmp cm => .done s (c.vecCompare i cm o) none
    | _ =>
      let r := s.vecResult i op o c
      .done r.1 r.2 none)

/-! ## Lane loads and stores (R330, R387) -/

/-- A lane's VA: the pair of registers S1 and S1 + 1, plus IMM. [DEDUCED: log 151] -/
def Core.laneVA (c : Core) (o : TOp) (l : Nat) : Nat :=
  ofSigned 64 ((c.vreg o.s1 l + c.vreg (o.s1 + 1) l * 2 ^ 32 : Nat) + o.imm)

/-- The form is legal: SIZE 2 or 3, and the registers it needs. -/
def laneBad (o : TOp) (size : Nat) : Bool :=
  !(size == 2 || size == 3) || !(vOk [o.s1 + 1, if size = 3 then o.dst + 1 else o.dst])

/-- The lowest lane whose address is misaligned. -/
def misLane (c : Core) (o : TOp) (n : Nat) (ls : List Nat) : Option Raise :=
  (ls.find? fun l => c.laneVA o l % n != 0).map fun l => { cause := 0x06, eva := c.laneVA o l }

/-- Load the lanes in order; the first that fails raises. -/
def State.loadLanes (s : State) (i : TI) (o : TOp) (n : Nat) (old : Core) : List Nat → Core → State × Except Raise Core
  | [], c => (s, .ok c)
  | l :: ls, c =>
    match s.coreLoad i old 0 (old.laneVA o l) n with
    | (s, .error r) => (s, .error r)
    | (s, .ok v) =>
      let c := c.setV o.dst l v
      s.loadLanes i o n old ls (if n = 8 then c.setV (o.dst + 1) l (v / 2 ^ 32) else c)

def execVld (i : TI) (o : TOp) (size : Nat) (s : State) : Host.Outcome State Fault Refusal :=
  .next (s.tephra i (vecChk (laneBad o size)) fun s c =>
    let ls := s.activeLanes c i
    match misLane c o (2 ^ size) ls with
    | some r => .err s r
    | none => match s.loadLanes i o (2 ^ size) c ls c with
      | (s, .ok c) => .done s c none
      | (s, .error r) => .err s r)

/-- Store the lanes in order; the first that fails raises. -/
def State.storeLanes (s : State) (i : TI) (o : TOp) (n : Nat) (c : Core) : List Nat → State × Option Raise
  | [] => (s, none)
  | l :: ls =>
    let v := c.vreg o.dst l + (if n = 8 then c.vreg (o.dst + 1) l * 2 ^ 32 else 0)
    match s.coreStore i c 0 (c.laneVA o l) n v with
    | (s, .error r) => (s, some r)
    | (s, .ok _) => s.storeLanes i o n c ls

/-- The lowest lane whose store fails translation or permission. -/
def State.storeFault (s : State) (i : TI) (o : TOp) (c : Core) (ls : List Nat) : Option Raise :=
  ls.findSome? fun l => match s.translate (s.coreCtx i.core) (c.laneVA o l) .w with
    | .error e => some { cause := 0x05, eva := c.laneVA o l, st := e }
    | .ok _ => none

def execVst (i : TI) (o : TOp) (size : Nat) (s : State) : Host.Outcome State Fault Refusal :=
  .next (s.tephra i (vecChk (laneBad o size)) fun s c =>
    let ls := s.activeLanes c i
    match (misLane c o (2 ^ size) ls).or (s.storeFault i o c ls) with
    | some r => .err s r
    | none => match s.storeLanes i o (2 ^ size) c ls with
      | (s, none) => .done s c none
      | (s, some r) => .err s r)

/-! ## Fragments of a group (R332, R333, R374) -/

/-- Change the fragments of some lanes. -/
def State.onFrags (s : State) (g : EmbGroup) (ls : List Nat) (h : Nat → Frag → Frag) : State :=
  { s with emb := { s.emb with frags := s.emb.frags.map fun fr =>
      if fr.prim = g.prim then
        match (ls.find? fun l => g.pix.getD l (0, 0) == (fr.x, fr.y)) with
        | some l => h l fr
        | none => fr
      else fr } }

/-- The fragment of a lane. -/
def State.fragOf (s : State) (g : EmbGroup) (l : Nat) : Option Frag :=
  s.emb.frags.find? fun fr => fr.prim == g.prim && (fr.x, fr.y) == g.pix.getD l (0, 0)

/-- Earlier fragments at a lane's pixel that share a sample with it and still stand in its way. -/
def State.blockers (s : State) (fr : Frag) (still : Frag → Bool) : Bool :=
  s.emb.frags.any fun e => decide (e.prim < fr.prim) && e.x == fr.x && e.y == fr.y &&
    Nat.land e.mask fr.mask != 0 && still e

/-- Every active lane's fragment meets a condition. -/
def State.lanesOk (s : State) (g : EmbGroup) (ls : List Nat) (ok : Frag → Bool) : Bool :=
  ls.all fun l => match s.fragOf g l with | some fr => ok fr | none => true

/-- R332. -/
def execIlkAcq (i : TI) (s : State) : Host.Outcome State Fault Refusal :=
  .next (s.tephra i (vecChk (!(s.inFrag i))) fun s c =>
    match s.groupOf i.core with
    | none => .stall
    | some g =>
      let ls := s.activeLanes c i
      if s.lanesOk g ls (fun fr => fr.ilk == 1 || !(s.blockers fr fun e => e.ilk != 2 && !e.ended)) then
        .done (s.onFrags g ls fun _ fr => { fr with ilk := 1 }) c none
      else .stall)

/-- R332. -/
def execIlkRel (i : TI) (s : State) : Host.Outcome State Fault Refusal :=
  .next (s.tephra i (vecChk false) fun s c =>
    match s.groupOf i.core with
    | none => .stall
    | some g => .done (s.onFrags g (s.activeLanes c i) fun _ fr => if fr.ilk = 1 then { fr with ilk := 2 } else fr) c none)

/-- R332: an ILK.ACQ has waited 1 ms. -/
def execInterlockTimeout (core : Nat) (s : State) : Host.Outcome State Fault Refusal :=
  .next (
    let i : TI := { core := core }
    if profile core = 1 ∧ s.coreOn core ∧ s.inFrag i then s.raise i (s.core core) { cause := 0x0D } else s)

/-! ## Texture reads (R331, R375, R382) -/

/-- Registers a texture read overlaps or lacks. -/
def texBad (o : TOp) (n : Nat) : Bool :=
  !(vOk [o.dst + 3, o.s1 + n - 1]) || !(gOk [o.s2]) || (decide (o.dst < o.s1 + n) && decide (o.s1 < o.dst + 4))

/-- The registers of a lane after a texture read. -/
def Core.setRGBA (c : Core) (r l : Nat) (x : List Val) : Core :=
  (x.zipIdx).foldl (fun (c : Core) (vk : Val × Nat) => c.setV (r + vk.2) l (encFP32 vk.1)) c

/-- R375: a read of a tile target: it acquires the interlock, waits until every earlier fragment at its
samples is applied, and returns the target's value there. -/
def State.tileRead (s : State) (f : Flight) (g : EmbGroup) (o : TOp) (k : Nat) (ls : List Nat) (c : Core) : TRes :=
  if epTargets f.desc ≤ k ∨ ¬ g.frag then .err s causeIllegal
  else if !(s.lanesOk g ls fun fr => !(s.blockers fr fun _ => true)) then .stall
  else
    let s' := s.onFrags g ls fun _ fr => { fr with ilk := 1 }
    let c' := ls.foldl (fun (c : Core) l => match s.fragOf g l with
      | some fr =>
        let sm := ((bitsOf fr.mask 4).head?).getD 0
        c.setRGBA o.dst l (emDec (tgtFmt f.desc k) (s.tileRd f fr.x fr.y sm (3 + k)))
      | none => c) c
    .done s' c' none

/-- The lanes of a sampled read, in order. -/
def State.sampleLanes (s : State) (ctx : Nat) (t : List Byte) (o : TOp) (old : Core) (lod : Bool) :
    List Nat → Core → Except (Nat × Nat) Core
  | [], c => .ok c
  | l :: ls, c =>
    let rd := fun r l => decFP32 (old.vreg r l)
    let q := l / 4 * 4
    let u := rd o.s1
    let v := rd (o.s1 + 1)
    match s.sampleTex ctx t (u l) (v l) (rd (o.s1 + 2) l) (fSub0 (u (q + 1)) (u q)) (fSub0 (v (q + 1)) (v q))
        (fSub0 (u (q + 2)) (u q)) (fSub0 (v (q + 2)) (v q)) (if lod then some (rd (o.s1 + 3) l) else none) with
    | .error e => .error e
    | .ok x => s.sampleLanes ctx t o old lod ls (c.setRGBA o.dst l x)

/-- TEX, or TEXL with an explicit level of detail. -/
def State.texRead (s : State) (i : TI) (o : TOp) (lod : Bool) : State :=
  s.tephra i (vecChk (texBad o (if lod then 4 else 3))) fun s c =>
    let ls := s.activeLanes c i
    match s.groupOf i.core, s.coreFlight i.core, s.emb.texs[c.reg o.s2 % 4096]? with
    | some g, some f, some t =>
      if i.word = .uncorrectable then .err s { cause := 0x08, st := 1, region := some 0 }
      else if d8 t 4 % 4 = 1 then s.tileRead f g o (d8 t 5) ls c
      else match s.sampleLanes (gqCtx f.gq) t o c lod ls c with
        | .ok c => .done s c none
        | .error (8, a) => .err (s.detect (gqCtx f.gq) a) { cause := 0x08, eva := a }
        | .error (e, a) => .err s { cause := 0x04, eva := a, st := e }
    | _, _, _ => .err s causeIllegal

def execTex (i : TI) (o : TOp) (s : State) : Host.Outcome State Fault Refusal := .next (s.texRead i o false)
def execTexl (i : TI) (o : TOp) (s : State) : Host.Outcome State Fault Refusal := .next (s.texRead i o true)

/-! ## Exports (R333, R364) -/

/-- An export notes its value in the fragments of the active lanes; it is illegal in a vertex program. -/
def State.exportOp (s : State) (i : TI) (bad : Bool) (h : Core → Nat → Frag → Frag) : State :=
  s.tephra i (vecChk (bad || !(s.inFrag i))) fun s c =>
    match s.groupOf i.core with
    | none => .stall
    | some g => .done (s.onFrags g (s.activeLanes c i) (h c)) c none

def execExpC (i : TI) (k vs : Nat) (s : State) : Host.Outcome State Fault Refusal :=
  .next (s.exportOp i (decide (8 ≤ k) || !(vOk [vs + 3])) fun c l fr =>
    { fr with colour := fr.colour.set [] k ((List.range 4).map fun n => c.vreg (vs + n) l) })

def execExpMv (i : TI) (vs : Nat) (s : State) : Host.Outcome State Fault Refusal :=
  .next (s.exportOp i (!(vOk [vs + 1])) fun c l fr => { fr with mv := some (c.vreg vs l, c.vreg (vs + 1) l) })

def execExpZ (i : TI) (vs : Nat) (s : State) : Host.Outcome State Fault Refusal :=
  .next (s.exportOp i (!(vOk [vs])) fun c l fr => { fr with z := some (c.vreg vs l) })

/-- The active lanes end, with their exports or without; a group with no lane left frees its core, and
the pass moves on. An uncorrectable word of tile memory kills the pass (R363). -/
def State.endLanes (s : State) (i : TI) (dropped : Bool) : State :=
  s.tephra i (vecChk false) fun s c =>
    match s.groupOf i.core, s.coreFlight i.core with
    | some g, some f =>
      if i.word = .uncorrectable then .err s { cause := 0x08, st := 0, region := some 0 }
      else
        let ls := s.activeLanes c i
        let s := (s.onFrags g ls fun _ fr => { fr with ended := true, dropped := dropped, ilk := 2 }).applyEnded f
        let live := ls.foldl clrBit g.live
        let rest := s.emb.run.filter fun r => r.1 ≠ i.core - 108
        if live = 0 then .raw (({ s with emb := { s.emb with run := rest } } : State).passAdvance f)
        else
          let run := s.emb.run.map fun r => if r.1 = i.core - 108 then (r.1, { g with live := live }) else r
          .done { s with emb := { s.emb with run := run } } c none
    | _, _ => .stall

def execExpEnd (i : TI) (s : State) : Host.Outcome State Fault Refusal := .next (s.endLanes i false)
def execTDiscard (i : TI) (s : State) : Host.Outcome State Fault Refusal := .next (s.endLanes i true)

end Sys2Proof.Machine
end

