-- ==== Sys2Proof/Machine/SelfTest.lean ====
section
/-! DEFINITION. Self-test (R573-R578), boundary scan and the JTAG port (R579-R582). -/

namespace Sys2Proof.Machine

/-! ## Starting a test (R573, R574, R577) -/

/-- Units of a class that is tested in the field. -/
def tstCount (cls : Nat) : Nat :=
  match cls with | 1 => 6 | 2 => 1 | 3 => 4 | 4 => 8 | 5 => 8 | _ => 0

/-- The unit is in the state a field test needs (R573). -/
def State.tstState (s : State) (cls idx : Nat) : Bool :=
  match cls with
  | 1 => s.rd .CE_STATUS_STATE idx == 3 && s.rd .CE_CTRL_RESULT idx != 1
  | 2 => s.rd .EMB_STATUS_STATE == 1
  | 3 => s.rd .VIS_STATUS_STATE idx == 1
  | 4 => s.rd .DSP_STATUS_STATE idx == 1
  | 5 => s.rd .VIN_STATUS_STATE idx == 1
  | _ => false

/-- RESULT of a request on a unit: DONE stands for a test that starts. [DEDUCED: log 251] -/
def State.tstJudge (s : State) (cls idx : Nat) : Nat :=
  if 6 ≤ cls ∧ cls ≤ 8 then 3
  else if tstCount cls ≤ idx then 2
  else if s.testing cls idx then 1
  else if s.tstState cls idx then 0
  else 2

/-- Ember leaves service for its test, and its state change fires. -/
def State.embState (s : State) (st : Nat) : State :=
  if s.rd .EMB_STATUS_STATE = st then s else (s.wr .EMB_STATUS_STATE 0 st).fire 352

/-- The test of a unit begins; a Caldera's as CE_CTRL.OP TEST. -/
def State.tstBegin (s : State) (cls idx kind : Nat) : State :=
  let s : State := { s with tst := { s.tst with kinds := s.tst.kinds.set 0 (tstUnit cls idx) (if kind = 0 then 3 else kind) } }
  let s := s.wr .TST_UNIT_TESTING (tstUnit cls idx) 1
  match cls with
  | 1 => s.ceTestStart idx
  | 2 => s.embState 3
  | _ => s

/-- What a request answers, and the path it leaves: BUSY until the unit's test ends. [DEDUCED: log 250] -/
def TestPath.request (t : TestPath) (r u : Nat) : TestPath :=
  if r ≤ 1 then { t with unit := some u, result := 1 } else { t with result := r }

/-- A request: it starts, or ends at once and TEST_REFUSED fires (R577, R582). -/
def State.tstRequest (s : State) (cls idx kind : Nat) (set : State → Nat → Nat → State) : State :=
  let r := s.tstJudge cls idx
  let s := set s r (tstUnit cls idx)
  if r = 0 then s.tstBegin cls idx kind else s.fire 646

/-- R577: a write of TST_CTRL. OP is ignored while RESULT is BUSY. -/
def execTstStart (val : Nat) (s : State) : Host.Outcome State Fault Refusal :=
  .next (s.accessed .early fun s =>
    let k := bits val 8 2
    let s := ((s.wr .TST_CTRL_KIND 0 k).wr .TST_CTRL_CLASS 0 (bits val 4 4)).wr .TST_CTRL_INDEX 0 (bits val 0 4)
    if bits val 28 4 ≠ 1 ∨ s.rd .TST_CTRL_RESULT = 1 then s
    else s.tstRequest (bits val 4 4) (bits val 0 4) k fun s r u =>
      let t := s.tst.path.request r u
      ({ s with tst := { s.tst with path := t } } : State).wr .TST_CTRL_RESULT 0 t.result)

/-- The SMBus commands of R578 are served. -/
def State.smbusTests (s : State) : Bool := s.smbusUp && s.ready

/-- R578: Block Write 0x10. -/
def execSmbusStartTest (b0 b1 : Nat) (s : State) : Host.Outcome State Fault Refusal :=
  .next (
    if !s.smbusTests then { s with pw := { s.pw with smbus := none } }
    else
      let s : State := { s with pw := { s.pw with smbus := some [] } }
      s.tstRequest (bits b0 4 4) (bits b0 0 4) (b1 % 4) fun s r u =>
        { s with tst := { s.tst with smbus := s.tst.smbus.request r u } })

/-- TST_UNIT[7:0] of a unit. -/
def State.tstByte (s : State) (u : Nat) : Nat :=
  s.rd .TST_UNIT_TESTING u + s.rd .TST_UNIT_PASSED u * 2 + s.rd .TST_UNIT_FAILED u * 4

/-- The 12 bytes of a path's result (R578, R579). -/
def State.tstResult (s : State) (t : TestPath) : List Byte :=
  natLe 1 t.result ++ natLe 1 ((t.unit.map s.tstByte).getD 0) ++ natLe 8 t.misr ++ natLe 2 t.fail

/-- R578: Block Read 0x11. -/
def execSmbusTestResult (s : State) : Host.Outcome State Fault Refusal :=
  .next { s with pw := { s.pw with
    smbus := if s.smbusTests then some ((s.tstResult s.tst.smbus).map (·.toNat)) else none } }

/-! ## The end of a test (R575, R576) -/

/-- The outcome reaches every path that names the unit (R577). -/
def TestPath.done (t : TestPath) (u : Nat) (pass : Bool) (misr : Option Nat) (word : Option Nat) : TestPath :=
  if t.unit ≠ some u ∨ t.result ≠ 1 then t
  else { t with result := if pass then 0 else 4, misr := misr.getD t.misr, fail := (word.map (· % 2 ^ 16)).getD t.fail }

/-- The state a test leaves its unit in: a unit that failed is lost (R574, R576). -/
def State.tstLeave (s : State) (cls idx : Nat) (pass : Bool) : State :=
  let s := if pass ∨ cls = 1 then s else { s with brg := { s.brg with dirty := true } }
  match cls with
  | 1 => s.ceTestEnd idx pass
  | 2 => if pass then s.embState 1 else s
  | 3 => if pass then s else s.visState idx 4
  | 4 => s.switchAt (.head idx)
  | _ => s.switchAt (.port idx)

/-- R575: a run ends. `misr` is the LBIST signature and `bad` the first failing word of MBIST as memory, bank
and word; a kind that was not asked for says nothing. [DESIGN CHOICE: log 249] [DEDUCED: log 252] -/
def execTestEnd (cls idx misr : Nat) (bad : Option (Nat × Nat × Nat)) (s : State) : Host.Outcome State Fault Refusal :=
  .next (
    if tstCount cls ≤ idx ∨ !(s.testing cls idx) ∨ s.inReset then s
    else
      let u := tstUnit cls idx
      let kind := s.tst.kinds.get 3 u
      let sig := if kind.testBit 0 then some misr else none
      let bad := if kind.testBit 1 then bad else none
      let pass := (sig.elim true fun m => m % 2 ^ 64 == s.rd .TST_EXPECT_SIG cls) && bad.isNone
      let s := (((s.wr .TST_UNIT_TESTING u 0).wr .TST_UNIT_PASSED u (b2n pass)).wr .TST_UNIT_FAILED u (b2n !pass)).inc .TST_UNIT_RUNS u
      let mine := s.tst.path.unit == some u && s.rd .TST_CTRL_RESULT == 1
      let word := bad.map (·.2.2)
      let s : State := { s with tst := { s.tst with
        kinds := s.tst.kinds.set 0 u 0, smbus := s.tst.smbus.done u pass sig word, jtag := s.tst.jtag.done u pass sig word } }
      let s := if !mine then s
        else
          let s := s.wr .TST_CTRL_RESULT 0 (if pass then 0 else 4)
          let s := match sig with | some m => s.wr .TST_SIG_MISR 0 m | none => s
          match bad with
          | some w => (((s.wr .TST_FAIL_VALID 0 1).wr .TST_FAIL_MEMORY 0 w.1).wr .TST_FAIL_BANK 0 w.2.1).wr .TST_FAIL_WORD 0 w.2.2
          | none => s
      (s.fire (if pass then 644 else 645)).tstLeave cls idx pass)

/-- R577: a read of TST_UNIT. -/
def execTstUnitRead (cls idx : Nat) (s : State) : Host.Outcome State Fault Refusal :=
  .next (s.readBlk .early .TST_UNIT (tstUnit cls idx) 0)

/-! ## Boundary scan (R579-R581) -/

/-- The TAP selects an instruction and captures `dr`. -/
def State.tap (s : State) (ir dr : Nat) : State := { s with tst := { s.tst with ir := ir, dr := dr } }

/-- BYPASS, and every code without an instruction: the 1-bit register captures 0. -/
def State.bypass (s : State) : State := s.tap 0xFF 0

def execBypass (code : Nat) (s : State) : Host.Outcome State Fault Refusal :=
  let _ := code
  .next s.bypass

/-- R580. -/
def execIdcode (s : State) : Host.Outcome State Fault Refusal :=
  .next (s.tap 1 (s.rd .SYS_ID_STEP_MAJOR * 2 ^ 28 + s.rd .SYS_ID_PART * 2 ^ 12 + 0x3A5 * 2 + 1))

/-- The levels a boundary register captures at the pins are not the device's to give: free. [DESIGN CHOICE: log 254] -/
def State.capture (s : State) (ir load : Nat) : State :=
  let n := s.fresh
  ({ s with fresh := n + 1, tst := { s.tst with boundary := load } } : State).tap ir (Config.freeNat n 579)

def execSamplePreload (load : Nat) (s : State) : Host.Outcome State Fault Refusal := .next (s.capture 2 load)

/-- R581, R582: everything but the TAP and the always-on domain goes to reset and stays there until
Test-Logic-Reset. Source 647 fires as the hold begins. [DEDUCED: log 256] -/
def State.tapReset (s : State) (pins : PinMode) : State :=
  let s := if s.pw.tapHold then s else s.fire 647
  let s := if s.pw.resetLow then s else s.hardReset
  { s with
    pw := { s.pw with tapHold := true, pinsFloat := pins == .float }
    tst := { s.tst with pins := pins } }

def execExtest (load : Nat) (s : State) : Host.Outcome State Fault Refusal :=
  .next ((s.tapReset .boundary).capture 3 load)

def execClamp (s : State) : Host.Outcome State Fault Refusal := .next ((s.tapReset .boundary).tap 4 0)

def execHighz (s : State) : Host.Outcome State Fault Refusal := .next ((s.tapReset .float).tap 5 0)

def execExtestPulse (load : Nat) (s : State) : Host.Outcome State Fault Refusal :=
  .next ((s.tapReset .boundary).capture 6 load)

def execExtestTrain (load : Nat) (s : State) : Host.Outcome State Fault Refusal :=
  .next ((s.tapReset .boundary).capture 7 load)

/-- R579, R581: Test-Logic-Reset resets the TAP, and a device that it held starts from RESET. -/
def execTestLogicReset (s : State) : Host.Outcome State Fault Refusal :=
  let held := s.pw.tapHold
  let s : State := { s with
    pw := { s.pw with tapHold := false, pinsFloat := s.pw.resetLow || s.pw.tripHeld, relGcnt := if held then 0 else s.pw.relGcnt }
    tst := { s.tst with ir := 1, dr := 0, pins := .mission } }
  .next (if held && !s.pw.resetLow then s.applyStraps else s)

/-! ## The other JTAG instructions -/

/-- R579: SELFTEST takes effect at Update. -/
def execSelftest (data : Nat) (s : State) : Host.Outcome State Fault Refusal :=
  .next (
    let s := s.tap 0x10 0
    if s.inReset || s.pw.tripHeld then s
    else s.tstRequest (bits data 12 4) (bits data 8 4) (data % 4) fun s r u =>
      { s with tst := { s.tst with jtag := s.tst.jtag.request r u } })

def execTestresult (s : State) : Host.Outcome State Fault Refusal :=
  .next (s.tap 0x11 (leNat (s.tstResult s.tst.jtag)))

/-- R545: the token register holds 8,192 bytes; the token in it ends where its length says. [DEDUCED: log 257] -/
def execDbgToken (token : List Byte) (sig : Nat) (s : State) : Host.Outcome State Fault Refusal :=
  .next (
    let s := s.tap 0x20 0
    if s.inReset || s.pw.tripHeld then s
    else
      let b := (token ++ List.replicate 8192 0).take 8192
      s.submitToken (b.take (0x70 + (d16 b 0x68 + 7) / 8 * 8 + 96)) sig)

/-- The debug level lets an instruction act; otherwise it selects BYPASS. -/
def State.atLevel (s : State) (l : Nat) (g : State → State) : State :=
  if s.rd .SEC_STATUS_DEBUG < l ∨ s.inReset then s.bypass else g s

/-- R579: performance counters and trace, whose layout is not given: free. -/
def execDbgObserve (s : State) : Host.Outcome State Fault Refusal :=
  .next (s.atLevel 1 fun s => ({ s with fresh := s.fresh + 1 } : State).tap 0x21 (Config.freeNat s.fresh 543))

/-- R543: a debugger at a core. HBM is read through the system partition. [DESIGN CHOICE: log 255] -/
def execDbgCore (core : Nat) (op : DbgOp) (s : State) : Host.Outcome State Fault Refusal :=
  .next (s.atLevel 2 fun s =>
    let c := s.core core
    if 132 ≤ core then s.tap 0x22 0
    else match op with
      | .halt => (s.setCore core { c with halted := true, step := false }).tap 0x22 0
      | .step => (s.setCore core { c with step := c.halted }).tap 0x22 0
      | .readReg n => s.tap 0x22 (c.reg (n % 32))
      | .writeReg n v => (s.setCore core (c.setReg (n % 32) v)).tap 0x22 0
      | .readMem off => s.tap 0x22 (leNat (c.locBytes off 1))
      | .writeMem off b => (s.setCore core (c.putLoc off [b])).tap 0x22 0
      | .readHbm pa => s.tap 0x22 (if s.hbmOk pa && decide (pa < 2 ^ 45) then (s.getByte pa).toNat else 0))

end Sys2Proof.Machine
end

