-- ==== Sys2Proof/Machine/TephraSeq.lean ====
section
/-! DEFINITION. Sequencer instructions: array, vector and operator-unit runs, DMA, tokens, the end of a
program, and the watchdog (R201, R215, R216, R223, R224, R227, R327-R329). -/

namespace Sys2Proof.Machine

/-! ## Tokens (R327) -/

/-- Add `n` to a token's counter. -/
def Core.signal (c : Core) (tk n : Nat) : Core :=
  let v := c.tok.get 0 tk + n
  { c with tok := c.tok.set 0 tk (min 255 v)
           tokOver := if 255 < v then tk :: c.tokOver.filter (· ≠ tk) else c.tokOver }

/-- The token a register names. [DEDUCED: log 146] -/
def tokOf (v : Nat) : Nat := v % 16

def execTokSig (i : TI) (s1 n : Nat) (s : State) : Host.Outcome State Fault Refusal :=
  .next (s.tephra i { prof := [0], bad := !(gOk [s1]) } fun s c =>
    .done s (c.signal (tokOf (c.reg s1)) (n % 256)) none)

def execTokWait (i : TI) (s1 n : Nat) (s : State) : Host.Outcome State Fault Refusal :=
  .next (s.tephra i { prof := [0], bad := !(gOk [s1]) } fun s c =>
    let tk := tokOf (c.reg s1)
    if c.tokOver.contains tk then .err s { cause := 0x0B }
    else match c.tokErr.find? (·.tk == tk) with
    | some e => .err s { cause := 0x0C, eva := e.va, st := e.status }
    | none =>
      if n % 256 ≤ c.tok.get 0 tk then .done s { c with tok := c.tok.set 0 tk (c.tok.get 0 tk - n % 256) } none
      else .stall)

def execTokClr (i : TI) (s1 : Nat) (s : State) : Host.Outcome State Fault Refusal :=
  .next (s.tephra i { prof := [0], bad := !(gOk [s1]) } fun s c =>
    let tk := tokOf (c.reg s1)
    .done s { c with tok := c.tok.set 0 tk 0, tokOver := c.tokOver.filter (· ≠ tk)
                     tokErr := c.tokErr.filter (·.tk ≠ tk) } none)

/-! ## Issue (R328) -/

/-- Issue a run: each named span of SPACE 1 must lie in the slot's region, and the run is listed. [DESIGN CHOICE: log 147] -/
def State.seqIssue (s : State) (i : TI) (o : TOp) (regs : List Nat)
    (mk : State → Core → List (Nat × Nat) × RunKind × State) : State :=
  s.tephra i { prof := [0], bad := !(gOk regs) } fun s c =>
    let r := mk s c
    match r.1.find? fun x => decide (s.localSize i.core < x.1 + x.2) with
    | some x => .err s { cause := 0x07, eva := x.1 }
    | none => .done r.2.2 { c with runs := c.runs ++ [⟨o.typ % 16, r.2.1⟩] } none

/-- The array a pass or a load uses: with one array present, that one (R213). -/
def State.arrayOf (s : State) (id v : Nat) : Nat :=
  let p := s.rd .CE_STATUS_ARRAYS (seqCe id)
  if p = 1 then 0 else if p = 2 then 1 else v % 2

def State.arrayUnit (s : State) (id a : Nat) : ArrayUnit := s.arrays.get {} (seqCe id * 2 + a)

def State.setArray (s : State) (id a : Nat) (u : ArrayUnit) : State :=
  { s with arrays := s.arrays.set {} (seqCe id * 2 + a) u }

/-- R215, R201: a tile and its taps go into the idle weight register. -/
def execArrLoad (i : TI) (o : TOp) (s : State) : Host.Outcome State Fault Refusal :=
  .next (s.seqIssue i o [o.s1, o.s2, o.s3] fun s c =>
    ([(c.reg o.s2, 1), (c.reg o.s3, 1)],
      .load (s.arrayOf i.core (c.reg o.s1)) (c.reg o.s2) (c.reg o.s3), s))

/-- R216: a pass; the weight registers swap at its start (R215). -/
def execArrPass (i : TI) (o : TOp) (s : State) : Host.Outcome State Fault Refusal :=
  .next (s.seqIssue i o [o.s1, o.s2, o.s3] fun s c =>
    let a := s.arrayOf i.core (c.reg o.s1)
    let w := c.reg o.s3
    let u := s.arrayUnit i.core a
    ([(c.reg o.s2, 1)], .pass a (c.reg o.s2) (bits w 0 16) (bits w 16 10) (w.testBit 26) (w.testBit 27),
      if u.idle.isSome then s.setArray i.core a { active := u.idle } else s))

/-- Columns an attempt's tiles cover (R214). -/
def State.drainCols (s : State) (id : Nat) : Nat := ((s.coreFlight id).map fun f => tileCols f.fmt).getD 128

/-- Bytes a drain writes, its rows packed. -/
def State.drainBytes (s : State) (id rows fmt : Nat) : Nat := rows * rowBytes fmt (s.drainCols id)

/-- R203: accumulator rows go through the quantiser into the region. -/
def execArrDrain (i : TI) (o : TOp) (s : State) : Host.Outcome State Fault Refusal :=
  .next (s.seqIssue i o [o.s1, o.s2, o.s3] fun s c =>
    let w := c.reg o.s3
    let rows := bits w 10 11
    let fmt := bits w 21 4
    ([(c.reg o.s2, s.drainBytes i.core rows fmt)],
      .drain (s.arrayOf i.core (c.reg o.s1)) (c.reg o.s2) (bits w 0 10) rows fmt, s))

/-- R229: an operation record lies in the control store. -/
def execVecRun (i : TI) (o : TOp) (s : State) : Host.Outcome State Fault Refusal :=
  .next (s.tephra i { prof := [0], bad := !(gOk [o.s1]) } fun s c =>
    if ctlSize ≤ c.reg o.s1 then .err s { cause := 0x07, eva := c.reg o.s1 }
    else .done s { c with runs := c.runs ++ [⟨o.typ % 16, .vec (c.reg o.s1)⟩] } none)

def execOpuRun (i : TI) (o : TOp) (s : State) : Host.Outcome State Fault Refusal :=
  .next (s.seqIssue i o [o.s1, o.s2] fun s c =>
    ([(c.reg o.s2, 1)], .opu (c.reg o.s1 % 4) (c.reg o.s2), s))

/-- A DMA of rows: bytes, rows and pitch from S3; rows are packed in the region. -/
def State.issueDma (s : State) (i : TI) (o : TOp) (out : Bool) : State :=
  s.seqIssue i o [o.s1, o.s2, o.s3] fun s c =>
    let w := c.reg o.s3
    let n := bits w 0 32
    let rows := bits w 32 16
    ([(c.reg o.s2, n * rows)], .dma out (c.reg o.s1) (c.reg o.s2) n rows (bits w 48 16 * 64), s)

def execDmaIn (i : TI) (o : TOp) (s : State) : Host.Outcome State Fault Refusal := .next (s.issueDma i o false)
def execDmaOut (i : TI) (o : TOp) (s : State) : Host.Outcome State Fault Refusal := .next (s.issueDma i o true)

/-! ## The end of a run (R327) -/

/-- An address range lies in a pending version, or an in-place buffer, of the command (R143, R328). -/
def State.inPending (s : State) (f : Flight) (va n : Nat) : Bool :=
  f.outs.any fun h =>
    let b := s.outVA (gqCtx f.gq) h (dInPlace f.desc)
    decide (b ≤ va) && decide (va + n ≤ b + (s.tensor (gqCtx f.gq) h).bytes)

/-- Move the rows of a DMA; the first that fails ends it. [DEDUCED: log 149] -/
def State.dmaRows (s : State) (f : Flight) (c : Core) (out : Bool) (va off n pitch : Nat) :
    List Nat → State × Core × Option (Nat × Nat)
  | [] => (s, c, none)
  | r :: rs =>
    let a := (va + r * pitch) % 2 ^ 64
    if out then
      if !(s.inPending f a n) then (s, c, some (3, a))
      else match s.stBytes (gqCtx f.gq) a (c.locBytes (off + r * n) n) (n + 1) with
        | (s, some e) => (s, c, some e)
        | (s, none) => s.dmaRows f c out va off n pitch rs
    else match s.ldBytes (gqCtx f.gq) a n with
      | .error e => (s.detect (gqCtx f.gq) e.2, c, some e)
      | .ok bs => (s.touch (gqCtx f.gq) a false).dmaRows f (c.putLoc (off + r * n) bs) out va off n pitch rs

/-- What a run has done when it ends. What arrays, the vector unit and the operator units leave in the
region follows from records and layouts the spec does not give: free values. [DESIGN CHOICE: log 148] -/
def State.runEffect (s : State) (id : Nat) (f : Flight) (c : Core) (r : UnitRun) : State × Core :=
  match r.kind with
  | .load a t x => (s.setArray id a { s.arrayUnit id a with idle := some (id, t, x) }, c.signal r.tk 1)
  | .pass _ _ _ _ _ _ => (s, c.signal r.tk 1)
  | .drain _ off _ rows fmt =>
    let bs := (List.range (s.drainBytes id rows fmt)).map fun k => Config.freeByte s.fresh (off + k)
    ({ s with fresh := s.fresh + 1 }, (c.putLoc off bs).signal r.tk 1)
  | .vec _ | .opu _ _ =>
    ({ s with fresh := s.fresh + 1 }, ({ c with loc := [], locSeed := s.fresh + 1 } : Core).signal r.tk 1)
  | .dma out va off n rows pitch =>
    match s.dmaRows f c out va off n pitch (List.range rows) with
    | (s, c, none) => (s, c.signal r.tk 1)
    | (s, c, some e) => (s, { c with tokErr := c.tokErr ++ [⟨r.tk, e.2, e.1⟩] })

/-- R327, R223: run `n` of a sequencer's list ends. `ecc` is what its last read of the Caldera's
memories found, with where it lay. -/
def execUnitEnd (core n : Nat) (ecc : EccResult) (mem bank off : Nat) (s : State) : Host.Outcome State Fault Refusal :=
  .next (
    let c := s.core core
    if profile core ≠ 0 ∨ ¬ s.coreOn core then s
    else match s.coreFlight core, s.seqSlot core, c.runs[n]? with
    | some f, some sl, some r =>
      let e := seqCe core
      if ecc = .uncorrectable then s.sramUncorrectable e mem bank off sl
      else
        let s := if ecc = .corrected then s.sramCorrected e else s
        let x := s.runEffect core f { c with runs := c.runs.eraseIdx n } r
        x.1.setCore core x.2
    | _, _, _ => s)

/-- R224, R328: the slot's program ends with a status and the slot is ENDED. -/
def execSeqEnd (i : TI) (s1 : Nat) (s : State) : Host.Outcome State Fault Refusal :=
  .next (s.tephra i { prof := [0], bad := !(gOk [s1]) } fun s c =>
    match s.coreFlight i.core, s.seqSlot i.core with
    | some f, some sl =>
      let st := c.reg s1 % 256
      let s := s.wr .CE_SLOT_STATE (seqCe i.core * 32 + sl) 4
      let s := if st = 0 ∨ f.res.status ≠ 0 then s
        else s.setFlight { f with res := { f.res with status := st } }
      .raw (s.setCore i.core (c.complete c none))
    | _, _ => .stall)

/-- R233: a bound sequencer has retired nothing for 1 ms: source 5 of its Caldera fires, its command is
killed and the Caldera is taken out of service, as R227 sets out. No exception was taken, so CE_SEQ_EXC
keeps its value. -/
def execSeqWatchdog (ce sq : Nat) (s : State) : Host.Outcome State Fault Refusal :=
  .next (
    let id := seqCore ce sq
    if ce < 6 ∧ sq < 16 ∧ (s.coreFlight id).isSome then (s.fire (192 + 16 * ce + 5)).seqLost id
    else s)

end Sys2Proof.Machine
end

