-- ==== Sys2Proof/Machine/Time.lean ====
section
/-! DEFINITION. The time unit: GCNT, sync frames, comparators, the calendar and the counter-based
generator (R478-R500). -/

namespace Sys2Proof.Machine

/-- [DEDUCED: log 211] -/
def State.setGcnt (s : State) (v : Nat) : State :=
  ({ s with lastEpoch := min s.lastEpoch (v / 10000) } : State).wr .TIM_GCNT_COUNT 0 v

/-- Signed value of the RATE field (R484). -/
def State.syncRate (s : State) : Int := toSigned 9 (s.rd .TIM_SYNC_STATUS_RATE)

/-- Change TIM_SYNC_STATUS.STATE; a change fires source 40 (R484). -/
def State.setSync (s : State) (st : Nat) : State :=
  if s.rd .TIM_SYNC_STATUS_STATE = st then s else (s.wr .TIM_SYNC_STATUS_STATE 0 st).fire 40

/-- R485: how far GCNT advances in period `i` of a spread of `adj`. -/
def spreadInc (adj : Int) (i : Nat) : Int :=
  if i < 102400 then
    1 + adj.sign * (((i + 1) * adj.natAbs / 102400 : Nat) - (i * adj.natAbs / 102400 : Nat) : Int)
  else 1

/-- One TCLK period of the time unit (R478, R485), of Geyser's group timers (R467) and of the time
since reset release. -/
def State.tick (s : State) : State :=
  if !s.t.running then s
  else
    let inc := spreadInc s.t.adj s.t.phase
    let g := ((s.gcnt : Int) + inc).toNat
    let beyond := s.rd .TIM_SYNC_STATUS_STATE == 5 && g / 102400 != s.gcnt / 102400
    let t := { s.t with
      phase := if beyond then 0 else s.t.phase + 1
      sinceFrame := s.t.sinceFrame.map (· + 1) }
    let s : State := { s with t := t, pw := { s.pw with relGcnt := s.pw.relGcnt + 1 } }
    let s := s.setGcnt g
    if s.rd .GEY_RET_STATE = 0 then
      s.each (s.unitsOf .GEY_GRP_STATE) fun s g => s.inc .GEY_GRP_ELAPSED g
    else s

/-- R480. Requester 0 is PF0; 1 + x is FCx. -/
def execTimGcntRead (req half : Nat) (s : State) : Host.Outcome State Fault Refusal :=
  .next (
    let g := s.gcnt
    if (s.access .island).isNone then { s with data := 0 }
    else if half = 1 then
      { s with data := g % 2 ^ 32, t := { s.t with latch := s.t.latch.set 0 req (g / 2 ^ 32 + 1) } }
    else if half = 2 then
      match s.t.latch.get 0 req with
      | 0 => { s with data := g / 2 ^ 32 }
      | h + 1 => { s with data := h, t := { s.t with latch := s.t.latch.set 0 req 0 } }
    else { s with data := g })

/-! ## Sync frames (R481-R485) -/

/-- One bit of the IEEE 802.3 CRC-32, bits taken in sending order. [PRESUMED: log 213] -/
def crcStep (crc : Nat) (b : Bool) : Nat :=
  let top := crc.testBit 31 != b
  let sh := crc * 2 % 2 ^ 32
  if top then Nat.xor sh 0x04C11DB7 else sh

/-- CRC-32 over the low `n` bits of `x`, most significant first. -/
def crc32 (x n : Nat) : Nat :=
  Nat.xor (((List.range n).map fun i => x.testBit (n - 1 - i)).foldl crcStep 0xFFFFFFFF) 0xFFFFFFFF

/-- R481: the 128 bits of a frame, the first bit sent the most significant. -/
def mkFrame (hops flags count : Nat) : Nat :=
  let body := (0x01 * 16 + hops % 16) * 16 + flags % 16
  let mid := body * 2 ^ 64 + count % 2 ^ 64
  (0xD5C3 * 2 ^ 80 + mid) * 2 ^ 32 + crc32 mid 80

def frameHops (fr : Nat) : Nat := bits fr 100 4
def frameFlags (fr : Nat) : Nat := bits fr 96 4
def frameCount (fr : Nat) : Nat := bits fr 32 64

/-- R482. -/
def frameValid (fr : Nat) : Bool :=
  bits fr 112 16 == 0xD5C3 && bits fr 104 8 == 1 && bits fr 0 32 == crc32 (bits fr 32 80) 80 &&
    frameCount fr % 102400 == 0 && decide (frameHops fr ≤ 14) && frameFlags fr / 2 == 0

/-- SYNC_OUT is driven (R483). -/
def State.syncDriven (s : State) : Bool :=
  s.rd .TIM_CTRL_ENABLE == 1 &&
    (s.rd .TIM_CTRL_MODE == 1 ||
      (s.rd .TIM_CTRL_MODE == 2 && s.rd .TIM_CTRL_REPEAT == 1 &&
        (s.rd .TIM_SYNC_STATUS_STATE == 4 || s.rd .TIM_SYNC_STATUS_STATE == 5)))

/-- R481, R483: a leader or repeater sends a frame at its own GCNT multiple of 102,400. -/
def execSyncFrameSend (s : State) : Host.Outcome State Fault Refusal :=
  .next (if s.syncDriven ∧ s.gcnt % 102400 = 0 then
    let hops := if s.rd .TIM_CTRL_MODE = 1 then 0 else s.rd .TIM_SYNC_STATUS_HOPS + 1
    let fl := b2n (s.rd .TIM_SYNC_STATUS_STATE == 5)
    { s with t := { s.t with framesOut := mkFrame hops fl s.gcnt :: s.t.framesOut } }
  else s)

/-- R484: a follower acts on the error `e` of a valid frame. -/
def State.follow (s : State) (e : Int) : State :=
  if s.rd .TIM_SYNC_STATUS_STATE = 2 then
    let s := s.setGcnt (((s.gcnt : Int) + e).toNat)
    let s : State := { (s.wr .TIM_SYNC_STATUS_RATE 0 0).inc .TIM_SYNC_STATUS_STEPS 0 with
      t := { s.t with adj := 0, phase := 0, good := 0, far := 0 } }
    (s.setSync 3).fire 42
  else if 64 < e.natAbs then
    let s : State := { s with t := { s.t with far := s.t.far + 1, adj := s.syncRate, phase := 0 } }
    if s.t.far = 3 then s.setSync 2 else s
  else
    let rate := max (-256) (min 255 (s.syncRate + e))
    let good := if e.natAbs ≤ 1 then s.t.good + 1 else 0
    let s : State := { s.wr .TIM_SYNC_STATUS_RATE 0 (ofSigned 9 rate) with
      t := { s.t with far := 0, adj := rate + e, phase := 0, good := good } }
    s.setSync (if 4 ≤ good then 4 else 3)

/-- A received frame: `l` is GCNT at its edge less the receive latency (R482, R484). [DEDUCED: log 207] [DEDUCED: log 208] -/
def execSyncFrame (frame l : Nat) (s : State) : Host.Outcome State Fault Refusal :=
  .next (
    if s.rd .TIM_CTRL_ENABLE = 0 then s
    else if !(frameValid frame) || (match s.t.sinceFrame with | some n => decide (n < 102000) | none => false) then
      (s.inc .TIM_SYNC_STATUS_FRAMES_BAD 0).fire 41
    else
      let e : Int := (frameCount frame + s.rd .TIM_SYNC_DELAY_DELAY : Nat) - (l : Int)
      let s : State := { s.wr .TIM_SYNC_STATUS_HOPS 0 (frameHops frame) with t := { s.t with sinceFrame := some 0 } }
      if s.rd .TIM_CTRL_MODE = 2 then
        let s := (s.wr .TIM_SYNC_STATUS_ERROR 0 (ofSigned 8 (max (-127) (min 127 e)))).follow e
        { s with t := { s.t with frameG := s.gcnt } }
      else if s.rd .TIM_CTRL_MODE = 1 ∧ frameHops frame = 0 then
        s.wr .TIM_SYNC_DELAY_LOOP 0 (ofSigned 16 ((l : Int) - frameCount frame))
      else s)

/-- R484: 16 frame periods of local GCNT without a valid frame. [DEDUCED: log 209] -/
def execHoldover (s : State) : Host.Outcome State Fault Refusal :=
  .next (
    let late := decide (s.t.frameG + 16 * 102400 ≤ s.gcnt)
    if late && (s.rd .TIM_SYNC_STATUS_STATE == 3 || s.rd .TIM_SYNC_STATUS_STATE == 4) then
      ({ s with t := { s.t with adj := s.syncRate } }).setSync 5
    else s)

/-- R483: a write of TIM_CTRL. -/
def execTimCtrlWrite (val : Nat) (s : State) : Host.Outcome State Fault Refusal :=
  .next (s.accessed .island fun s =>
    let en := bits val 0 1
    let mode := bits val 1 2
    let ends := s.rd .TIM_CTRL_MODE ≠ mode ∨ (s.rd .TIM_CTRL_ENABLE = 1 ∧ en = 0)
    let opens := s.rd .TIM_CTRL_ENABLE = 0 ∧ en = 1
    let s := ((s.wr .TIM_CTRL_ENABLE 0 en).wr .TIM_CTRL_MODE 0 mode).wr .TIM_CTRL_REPEAT 0 (bits val 3 1)
    if ends ∨ opens then
      let s : State := { s with t := { s.t with adj := 0, phase := 0, good := 0, far := 0 } }
      s.setSync (if en = 0 then 0 else if mode = 1 then 1 else if mode = 2 then 2 else 0)
    else s)

/-- R482. -/
def execTimSyncStatusRead (half : Nat) (s : State) : Host.Outcome State Fault Refusal :=
  .next (s.readBlk .island .TIM_SYNC_STATUS 0 half)

/-! ## Comparators (R489, R490) -/

/-- R489: the reload of a periodic comparator that expired; periods beyond the first are missed. -/
def reloadTarget (target reload g : Nat) : Nat × Nat :=
  let r := max 1 reload
  let t1 := target + r
  if t1 ≤ g then
    let k := (g - t1) / r + 1
    (t1 + k * r, k)
  else (t1, 0)

/-- R489. [DESIGN CHOICE: log 210] -/
def execComparatorExpiry (c : Nat) (s : State) : Host.Outcome State Fault Refusal :=
  .next (
    if c < 64 ∧ s.rd .TIM_CMP_CTRL_ENABLE c = 1 ∧ s.rd .TIM_CMP_TARGET_TARGET c ≤ s.gcnt then
      let s :=
        if s.rd .TIM_CMP_CTRL_PERIODIC c = 1 then
          let tm := reloadTarget (s.rd .TIM_CMP_TARGET_TARGET c) (s.rd .TIM_CMP_RELOAD_RELOAD c) s.gcnt
          (s.wr .TIM_CMP_TARGET_TARGET c tm.1).inc .TIM_CMP_CTRL_MISSED c tm.2
        else s.wr .TIM_CMP_CTRL_ENABLE c 0
      s.fireIsland (576 + c)
    else s)

/-- R490: the written target stands from the next edge. -/
def execTimCmpTargetWrite (c half val : Nat) (s : State) : Host.Outcome State Fault Refusal :=
  .next (s.accessed .island fun s => if c < 64 then s.wr .TIM_CMP_TARGET_TARGET c (mergeHalf (s.rd .TIM_CMP_TARGET_TARGET c) half val) else s)

/-- R490: the written reload serves the next expiry. -/
def execTimCmpReloadWrite (c half val : Nat) (s : State) : Host.Outcome State Fault Refusal :=
  .next (s.accessed .island fun s => if c < 64 then s.wr .TIM_CMP_RELOAD_RELOAD c (mergeHalf (s.rd .TIM_CMP_RELOAD_RELOAD c) half val) else s)

/-- R489. -/
def execTimCmpCtrlRead (c : Nat) (s : State) : Host.Outcome State Fault Refusal :=
  .next (if c < 64 then s.readBlk .island .TIM_CMP_CTRL c 0 else { s with data := 0 })

/-! ## The calendar (R491-R494) -/

def State.setDate (s : State) (d : DateTime) : State :=
  ((((((s.wr .CAL_TIME_YEAR 0 d.year).wr .CAL_TIME_MONTH 0 d.month).wr .CAL_TIME_DAY 0 d.day).wr
    .CAL_TIME_HOUR 0 d.hour).wr .CAL_TIME_MINUTE 0 d.minute).wr .CAL_TIME_SECOND 0 d.second).wr
    .CAL_TIME_DOW 0 (dayOfWeek d.year d.month d.day)

/-- The next second, and whether the calendar wraps (R491, R492). -/
def nextSecond (d : DateTime) : DateTime × Bool :=
  if d.second < 59 then ({ d with second := d.second + 1 }, false)
  else if d.minute < 59 then ({ d with second := 0, minute := d.minute + 1 }, false)
  else if d.hour < 23 then ({ d with second := 0, minute := 0, hour := d.hour + 1 }, false)
  else
    let d := { d with second := 0, minute := 0, hour := 0 }
    if d.day < monthDays d.year d.month then ({ d with day := d.day + 1 }, false)
    else if d.month < 12 then ({ d with day := 1, month := d.month + 1 }, false)
    else if d.year < 2399 then ({ d with day := 1, month := 1, year := d.year + 1 }, false)
    else ({ d with day := 1, month := 1, year := 2000 }, true)

/-- R491-R493: one crystal tick. -/
def execCalendarTick (s : State) : Host.Outcome State Fault Refusal :=
  .next (
    if s.rd .CAL_CTRL_PENDING = 1 then
      let s := (s.setDate (decDate s.t.stage)).wr .CAL_TIME_SUBSEC 0 0
      ((((s.wr .CAL_CTRL_PENDING 0 0).wr .CAL_STATUS_LOADED 0 1).wr .CAL_STATUS_VALID 0 1)).fireIsland 43
    else if s.rd .CAL_TIME_SUBSEC < 32767 then s.wr .CAL_TIME_SUBSEC 0 (s.rd .CAL_TIME_SUBSEC + 1)
    else
      let nw := nextSecond s.date
      let s := (s.setDate nw.1).wr .CAL_TIME_SUBSEC 0 0
      if nw.2 then (s.wr .CAL_STATUS_WRAP 0 1).fireIsland 44 else s)

/-- R493: CAL_CTRL.LOAD validates CAL_STAGE. [DEDUCED: log 212] -/
def execCalLoad (s : State) : Host.Outcome State Fault Refusal :=
  .next (s.accessed .island fun s =>
    let v := s.rd .CAL_STAGE_DATE_TIME * 2 ^ 22
    if (decDate v).ok then ({ s with t := { s.t with stage := v } }).wr .CAL_CTRL_PENDING 0 1
    else (s.wr .CAL_STATUS_BADDATE 0 1).fireIsland 45)

/-- R494: VDD_AON returns after the loss of VDD_AON and VBAT. -/
def execCalInvalid (s : State) : Host.Outcome State Fault Refusal :=
  .next ((((s.setDate ⟨2000, 1, 1, 0, 0, 0⟩).wr .CAL_TIME_SUBSEC 0 0).wr .CAL_STATUS_VALID 0 0).wr
    .CAL_CTRL_PENDING 0 0 |>.fireIsland 46)

/-! ## The counter-based generator (R496) -/

/-- R496: the low half is returned, the high half latched, the element index advances. -/
def execTimRngOutLoRead (s : State) : Host.Outcome State Fault Refusal :=
  .next (
    let o := s.rngOut
    if (s.access .island).isNone then { s with data := 0 }
    else { s.wr .TIM_RNG_INDEX_INDEX 0 (s.rd .TIM_RNG_INDEX_INDEX + 1) with
      data := o % 2 ^ 64, t := { s.t with outHi := some (o / 2 ^ 64) } })

/-- R496: a write of KEY (0), STREAM (1), INDEX (2) or STEP (3). OUT follows its inputs. -/
def execTimRngInputWrite (which half val : Nat) (s : State) : Host.Outcome State Fault Refusal :=
  let f : Fld := match which with
    | 0 => .TIM_RNG_KEY_KEY | 1 => .TIM_RNG_STREAM_STREAM | 2 => .TIM_RNG_INDEX_INDEX | _ => .TIM_RNG_STEP_STEP
  .next (s.accessed .island fun s => s.wr f 0 (mergeHalf (s.rd f) half val))

end Sys2Proof.Machine
end

