-- ==== Sys2Proof/Machine/Dispatch.lean ====
section
/-! DEFINITION. Which meaning each command has: one arm per constructor of `Instr`. -/

namespace Sys2Proof.Machine

/-- The effect of one command on everything but the queue of waiting commands. -/
def exec (i : Instr) (s : State) : Host.Outcome State Fault Refusal :=
  match i with
  | .registerWrite space req addr size val => Sys2Proof.Machine.execRegisterWrite space req addr size val s
  | .structLoad val => Sys2Proof.Machine.execStructLoad val s
  | .structCancel val => Sys2Proof.Machine.execStructCancel val s
  | .fetchEnd ok => Sys2Proof.Machine.execFetchEnd ok s
  | .validationEnd sig => Sys2Proof.Machine.execValidationEnd sig s
  | .flashImageLoad slots => Sys2Proof.Machine.execFlashImageLoad slots s
  | .drainLimitExpiry partition => Sys2Proof.Machine.execDrainLimitExpiry partition s
  | .partitionDrained partition => Sys2Proof.Machine.execPartitionDrained partition s
  | .scrubRead pc found => Sys2Proof.Machine.execScrubRead pc found s
  | .rowRepaired pc => Sys2Proof.Machine.execRowRepaired pc s
  | .copyOnWrite ctx va => Sys2Proof.Machine.execCopyOnWrite ctx va s
  | .vfMap ctx val => Sys2Proof.Machine.execVfMap ctx val s
  | .vfUnmap ctx val => Sys2Proof.Machine.execVfUnmap ctx val s
  | .vfShare ctx val => Sys2Proof.Machine.execVfShare ctx val s
  | .mapRequestEnd ctx => Sys2Proof.Machine.execMapRequestEnd ctx s
  | .pownAlloc val => Sys2Proof.Machine.execPownAlloc val s
  | .pownFree val => Sys2Proof.Machine.execPownFree val s
  | .pownMap val => Sys2Proof.Machine.execPownMap val s
  | .pownUnmap val => Sys2Proof.Machine.execPownUnmap val s
  | .pownRequestEnd => Sys2Proof.Machine.execPownRequestEnd s
  | .ttCapWrite ctx val => Sys2Proof.Machine.execTtCapWrite ctx val s
  | .ttRead ctx handle => Sys2Proof.Machine.execTtRead ctx handle s
  | .victimSwappedOut ctx => Sys2Proof.Machine.execVictimSwappedOut ctx s
  | .linkTrained port rate width bus flit => Sys2Proof.Machine.execLinkTrained port rate width bus flit s
  | .completionTimeout id => Sys2Proof.Machine.execCompletionTimeout id s
  | .readCompletion id st => Sys2Proof.Machine.execReadCompletion id st s
  | .poisonedWrite port addr val => Sys2Proof.Machine.execPoisonedWrite port addr val s
  | .standbyRequest port ctx addr size => Sys2Proof.Machine.execStandbyRequest port ctx addr size s
  | .vfEnable port numVFs enable => Sys2Proof.Machine.execVfEnable port numVFs enable s
  | .doorbell ctx q half val => Sys2Proof.Machine.execDoorbell ctx q half val s
  | .dlDown port => Sys2Proof.Machine.execDlDown port s
  | .dllpTimeout port => Sys2Proof.Machine.execDllpTimeout port s
  | .failoverDone => Sys2Proof.Machine.execFailoverDone s
  | .moveOneTenant tenant target => Sys2Proof.Machine.execMoveOneTenant tenant target s
  | .moveOtherPort target => Sys2Proof.Machine.execMoveOtherPort target s
  | .movePf0 target => Sys2Proof.Machine.execMovePf0 target s
  | .moveDone => Sys2Proof.Machine.execMoveDone s
  | .holdExpiry ctx => Sys2Proof.Machine.execHoldExpiry ctx s
  | .linkUp port => Sys2Proof.Machine.execLinkUp port s
  | .perst port => Sys2Proof.Machine.execPerst port s
  | .vfFlr tenant => Sys2Proof.Machine.execVfFlr tenant s
  | .pf0Flr => Sys2Proof.Machine.execPf0Flr s
  | .standbyFlr port ctx => Sys2Proof.Machine.execStandbyFlr port ctx s
  | .d3hot port ctx => Sys2Proof.Machine.execD3hot port ctx s
  | .queueCreate ctx val => Sys2Proof.Machine.execQueueCreate ctx val s
  | .queueDestroy ctx => Sys2Proof.Machine.execQueueDestroy ctx s
  | .destroyEnd ctx q => Sys2Proof.Machine.execDestroyEnd ctx q s
  | .queueResume ctx => Sys2Proof.Machine.execQueueResume ctx s
  | .nopCmd ctx q => Sys2Proof.Machine.execNopCmd ctx q s
  | .copyCmd ctx q => Sys2Proof.Machine.execCopyCmd ctx q s
  | .tensorDefine ctx q => Sys2Proof.Machine.execTensorDefine ctx q s
  | .tensorRelease ctx q => Sys2Proof.Machine.execTensorRelease ctx q s
  | .fenceWait ctx q => Sys2Proof.Machine.execFenceWait ctx q s
  | .fencePoll ctx q => Sys2Proof.Machine.execFencePoll ctx q s
  | .fenceTimeout ctx q => Sys2Proof.Machine.execFenceTimeout ctx q s
  | .fenceSignal ctx q => Sys2Proof.Machine.execFenceSignal ctx q s
  | .versionCommit ctx q => Sys2Proof.Machine.execVersionCommit ctx q s
  | .versionAbort ctx q => Sys2Proof.Machine.execVersionAbort ctx q s
  | .matmul ctx q => Sys2Proof.Machine.execMatmul ctx q s
  | .vector ctx q => Sys2Proof.Machine.execVector ctx q s
  | .conv ctx q => Sys2Proof.Machine.execConv ctx q s
  | .pool ctx q => Sys2Proof.Machine.execPool ctx q s
  | .cropResize ctx q => Sys2Proof.Machine.execCropResize ctx q s
  | .argmax ctx q => Sys2Proof.Machine.execArgmax ctx q s
  | .regroup ctx q => Sys2Proof.Machine.execRegroup ctx q s
  | .codec ctx q => Sys2Proof.Machine.execCodec ctx q s
  | .attention ctx q => Sys2Proof.Machine.execAttention ctx q s
  | .seqCreate ctx q => Sys2Proof.Machine.execSeqCreate ctx q s
  | .seqFork ctx q => Sys2Proof.Machine.execSeqFork ctx q s
  | .seqFree ctx q => Sys2Proof.Machine.execSeqFree ctx q s
  | .kvSwapOut ctx q => Sys2Proof.Machine.execKvSwapOut ctx q s
  | .kvSwapIn ctx q => Sys2Proof.Machine.execKvSwapIn ctx q s
  | .visionRun ctx q => Sys2Proof.Machine.execVisionRun ctx q s
  | .emberPass ctx q => Sys2Proof.Machine.execEmberPass ctx q s
  | .eqxFrame ctx q fits => Sys2Proof.Machine.execEqxFrame ctx q fits s
  | .compose ctx q => Sys2Proof.Machine.execCompose ctx q s
  | .headStart ctx q => Sys2Proof.Machine.execHeadStart ctx q s
  | .headStop ctx q => Sys2Proof.Machine.execHeadStop ctx q s
  | .portStart ctx q => Sys2Proof.Machine.execPortStart ctx q s
  | .portStop ctx q => Sys2Proof.Machine.execPortStop ctx q s
  | .attemptEnd ctx q slot use => Sys2Proof.Machine.execAttemptEnd ctx q slot use s
  | .commitCmd ctx q => Sys2Proof.Machine.execCommitCmd ctx q s
  | .inPlaceLimitExpiry ctx q written => Sys2Proof.Machine.execInPlaceLimitExpiry ctx q written s
  | .schedulerEpoch => Sys2Proof.Machine.execSchedulerEpoch s
  | .batchStepPlace => Sys2Proof.Machine.execBatchStepPlace s
  | .batchWaitExpiry => Sys2Proof.Machine.execBatchWaitExpiry s
  | .aging => Sys2Proof.Machine.execAging s
  | .runLimitExpiry ctx q => Sys2Proof.Machine.execRunLimitExpiry ctx q s
  | .teardown tenant val => Sys2Proof.Machine.execTeardown tenant val s
  | .teardownDone tenant => Sys2Proof.Machine.execTeardownDone tenant s
  | .energyCalibration idle modelled => Sys2Proof.Machine.execEnergyCalibration idle modelled s
  | .ceRemove ce val => Sys2Proof.Machine.execCeRemove ce val s
  | .removeEnd ce => Sys2Proof.Machine.execRemoveEnd ce s
  | .ceTest ce val => Sys2Proof.Machine.execCeTest ce val s
  | .ceReturn ce val => Sys2Proof.Machine.execCeReturn ce val s
  | .reloadEnd ce => Sys2Proof.Machine.execReloadEnd ce s
  | .sequencerBind ce => Sys2Proof.Machine.execSequencerBind ce s
  | .regionZeroed ce slot => Sys2Proof.Machine.execRegionZeroed ce slot s
  | .regionWait ctx q => Sys2Proof.Machine.execRegionWait ctx q s
  | .arrayParity ce slot => Sys2Proof.Machine.execArrayParity ce slot s
  | .seqWatchdog ce sq => Sys2Proof.Machine.execSeqWatchdog ce sq s
  | .unitEnd core n ecc mem bank off => Sys2Proof.Machine.execUnitEnd core n ecc mem bank off s
  | .nopInstruction ti => Sys2Proof.Machine.execNopInstruction ti s
  | .tInteger ti op o => Sys2Proof.Machine.execTInteger ti op o s
  | .compareToPredicate ti op o => Sys2Proof.Machine.execCompareToPredicate ti op o s
  | .scalarFloat ti op o => Sys2Proof.Machine.execScalarFloat ti op o s
  | .tLd ti m => Sys2Proof.Machine.execTLd ti m s
  | .tLdu ti m => Sys2Proof.Machine.execTLdu ti m s
  | .tSt ti m => Sys2Proof.Machine.execTSt ti m s
  | .tFence ti => Sys2Proof.Machine.execTFence ti s
  | .amoadd ti m => Sys2Proof.Machine.execAmoadd ti m s
  | .amoswap ti m => Sys2Proof.Machine.execAmoswap ti m s
  | .amocas ti m => Sys2Proof.Machine.execAmocas ti m s
  | .amomax ti m => Sys2Proof.Machine.execAmomax ti m s
  | .tBr ti link treg cond off => Sys2Proof.Machine.execTBr ti link treg cond off s
  | .loopSetup ti lp cnt imm len => Sys2Proof.Machine.execLoopSetup ti lp cnt imm len s
  | .mtmode ti s1 => Sys2Proof.Machine.execMtmode ti s1 s
  | .mfcr ti dst code => Sys2Proof.Machine.execMfcr ti dst code s
  | .mtcr ti s1 code => Sys2Proof.Machine.execMtcr ti s1 code s
  | .tEret ti => Sys2Proof.Machine.execTEret ti s
  | .tTrap ti code => Sys2Proof.Machine.execTTrap ti code s
  | .brk ti code => Sys2Proof.Machine.execBrk ti code s
  | .tWfi ti => Sys2Proof.Machine.execTWfi ti s
  | .interruptTake fc ok => Sys2Proof.Machine.execInterruptTake fc ok s
  | .arrLoad ti o => Sys2Proof.Machine.execArrLoad ti o s
  | .arrPass ti o => Sys2Proof.Machine.execArrPass ti o s
  | .arrDrain ti o => Sys2Proof.Machine.execArrDrain ti o s
  | .vecRun ti o => Sys2Proof.Machine.execVecRun ti o s
  | .opuRun ti o => Sys2Proof.Machine.execOpuRun ti o s
  | .dmaIn ti o => Sys2Proof.Machine.execDmaIn ti o s
  | .dmaOut ti o => Sys2Proof.Machine.execDmaOut ti o s
  | .tokSig ti s1 n => Sys2Proof.Machine.execTokSig ti s1 n s
  | .tokWait ti s1 n => Sys2Proof.Machine.execTokWait ti s1 n s
  | .tokClr ti s1 => Sys2Proof.Machine.execTokClr ti s1 s
  | .seqEnd ti s1 => Sys2Proof.Machine.execSeqEnd ti s1 s
  | .vectorArithmetic ti op o => Sys2Proof.Machine.execVectorArithmetic ti op o s
  | .vld ti o size => Sys2Proof.Machine.execVld ti o size s
  | .vst ti o size => Sys2Proof.Machine.execVst ti o size s
  | .tex ti o => Sys2Proof.Machine.execTex ti o s
  | .texl ti o => Sys2Proof.Machine.execTexl ti o s
  | .ilkAcq ti => Sys2Proof.Machine.execIlkAcq ti s
  | .ilkRel ti => Sys2Proof.Machine.execIlkRel ti s
  | .interlockTimeout core => Sys2Proof.Machine.execInterlockTimeout core s
  | .expC ti k vs => Sys2Proof.Machine.execExpC ti k vs s
  | .expMv ti vs => Sys2Proof.Machine.execExpMv ti vs s
  | .expZ ti vs => Sys2Proof.Machine.execExpZ ti vs s
  | .tDiscard ti => Sys2Proof.Machine.execTDiscard ti s
  | .expEnd ti => Sys2Proof.Machine.execExpEnd ti s
  | .visEnable lane => Sys2Proof.Machine.execVisEnable lane s
  | .visDisable lane => Sys2Proof.Machine.execVisDisable lane s
  | .visTrigAdd lane val => Sys2Proof.Machine.execVisTrigAdd lane val s
  | .pyramidRunStart lane => Sys2Proof.Machine.execPyramidRunStart lane s
  | .pyrDone lane ecc => Sys2Proof.Machine.execPyrDone lane ecc s
  | .motionRunStart lane => Sys2Proof.Machine.execMotionRunStart lane s
  | .motDone lane ecc => Sys2Proof.Machine.execMotDone lane ecc s
  | .refineRunStart lane => Sys2Proof.Machine.execRefineRunStart lane s
  | .frameDone lane ecc => Sys2Proof.Machine.execFrameDone lane ecc s
  | .issuePoint stream => Sys2Proof.Machine.execIssuePoint stream s
  | .lineMatchA head => Sys2Proof.Machine.execLineMatchA head s
  | .lineMatchB head => Sys2Proof.Machine.execLineMatchB head s
  | .stripeWarpDone head => Sys2Proof.Machine.execStripeWarpDone head s
  | .eqxStart stream val => Sys2Proof.Machine.execEqxStart stream val s
  | .eqxStop stream val => Sys2Proof.Machine.execEqxStop stream val s
  | .homogCommit stream val => Sys2Proof.Machine.execHomogCommit stream val s
  | .eqxMemReadWrite stream val => Sys2Proof.Machine.execEqxMemReadWrite stream val s
  | .layerFlip head val => Sys2Proof.Machine.execLayerFlip head val s
  | .hpdRise head lost => Sys2Proof.Machine.execHpdRise head lost s
  | .unplug head => Sys2Proof.Machine.execUnplug head s
  | .plug head sink => Sys2Proof.Machine.execPlug head sink s
  | .trainingAttemptEnd head ok held => Sys2Proof.Machine.execTrainingAttemptEnd head ok held s
  | .auxStart head val => Sys2Proof.Machine.execAuxStart head val s
  | .auxDone head res reply => Sys2Proof.Machine.execAuxDone head res reply s
  | .vblankStart head => Sys2Proof.Machine.execVblankStart head s
  | .lineMatch head d => Sys2Proof.Machine.execLineMatch head d s
  | .headFrameDone head => Sys2Proof.Machine.execHeadFrameDone head s
  | .line0 head => Sys2Proof.Machine.execLine0 head s
  | .underrun head line pixel => Sys2Proof.Machine.execUnderrun head line pixel s
  | .planeFlip head val => Sys2Proof.Machine.execPlaneFlip head val s
  | .frameStart port vc => Sys2Proof.Machine.execFrameStart port vc s
  | .longPacket port vc dt payload ecc crcOk => Sys2Proof.Machine.execLongPacket port vc dt payload ecc crcOk s
  | .frameEnd port vc => Sys2Proof.Machine.execFrameEnd port vc s
  | .shortPacket port vc dt ecc => Sys2Proof.Machine.execShortPacket port vc dt ecc s
  | .vinVcRelWrite port vc half val => Sys2Proof.Machine.execVinVcRelWrite port vc half val s
  | .sourceFire src ev => Sys2Proof.Machine.execSourceFire src ev s
  | .geyPendWrite word val => Sys2Proof.Machine.execGeyPendWrite word val s
  | .geyPendSetWrite word val => Sys2Proof.Machine.execGeyPendSetWrite word val s
  | .geyTgtComplete target level => Sys2Proof.Machine.execGeyTgtComplete target level s
  | .geyGrpWrite group val => Sys2Proof.Machine.execGeyGrpWrite group val s
  | .vfGeyPendWrite tenant val => Sys2Proof.Machine.execVfGeyPendWrite tenant val s
  | .vfGeySetWrite tenant val => Sys2Proof.Machine.execVfGeySetWrite tenant val s
  | .vfGeyComplete tenant level => Sys2Proof.Machine.execVfGeyComplete tenant level s
  | .groupTimeExpiry group => Sys2Proof.Machine.execGroupTimeExpiry group s
  | .syncFrameSend => Sys2Proof.Machine.execSyncFrameSend s
  | .syncFrame frame l => Sys2Proof.Machine.execSyncFrame frame l s
  | .holdover => Sys2Proof.Machine.execHoldover s
  | .timCtrlWrite val => Sys2Proof.Machine.execTimCtrlWrite val s
  | .comparatorExpiry c => Sys2Proof.Machine.execComparatorExpiry c s
  | .timCmpTargetWrite c half val => Sys2Proof.Machine.execTimCmpTargetWrite c half val s
  | .timCmpReloadWrite c half val => Sys2Proof.Machine.execTimCmpReloadWrite c half val s
  | .timGcntRead req half => Sys2Proof.Machine.execTimGcntRead req half s
  | .calendarTick => Sys2Proof.Machine.execCalendarTick s
  | .calLoad => Sys2Proof.Machine.execCalLoad s
  | .calInvalid => Sys2Proof.Machine.execCalInvalid s
  | .timRngOutLoRead => Sys2Proof.Machine.execTimRngOutLoRead s
  | .timRngInputWrite which half val => Sys2Proof.Machine.execTimRngInputWrite which half val s
  | .pllLock => Sys2Proof.Machine.execPllLock s
  | .pllLockTimeout => Sys2Proof.Machine.execPllLockTimeout s
  | .pllLost => Sys2Proof.Machine.execPllLost s
  | .firmwareMulticast fw dead => Sys2Proof.Machine.execFirmwareMulticast fw dead s
  | .pathChosen certs => Sys2Proof.Machine.execPathChosen certs s
  | .trainingDone hbms spares => Sys2Proof.Machine.execTrainingDone hbms spares s
  | .memtestDone rows => Sys2Proof.Machine.execMemtestDone rows s
  | .checkingDone words ok => Sys2Proof.Machine.execCheckingDone words ok s
  | .healthRecordWrite ok => Sys2Proof.Machine.execHealthRecordWrite ok s
  | .brgRestart val ok => Sys2Proof.Machine.execBrgRestart val ok s
  | .nextFullWrite val ok => Sys2Proof.Machine.execNextFullWrite val ok s
  | .pcRetire val => Sys2Proof.Machine.execPcRetire val s
  | .retireEnd pc => Sys2Proof.Machine.execRetireEnd pc s
  | .pcTest val => Sys2Proof.Machine.execPcTest val s
  | .pcReturn val => Sys2Proof.Machine.execPcReturn val s
  | .partitionReset val => Sys2Proof.Machine.execPartitionReset val s
  | .partResetDone => Sys2Proof.Machine.execPartResetDone s
  | .fumaroleRestarted fc ok => Sys2Proof.Machine.execFumaroleRestarted fc ok s
  | .getVersion port ctx => Sys2Proof.Machine.execGetVersion port ctx s
  | .getCapabilities port ctx => Sys2Proof.Machine.execGetCapabilities port ctx s
  | .negotiateAlgorithms port ctx asym hash spec => Sys2Proof.Machine.execNegotiateAlgorithms port ctx asym hash spec s
  | .getDigests port ctx => Sys2Proof.Machine.execGetDigests port ctx s
  | .getCertificate port ctx slot off len => Sys2Proof.Machine.execGetCertificate port ctx slot off len s
  | .challenge port ctx slot summary => Sys2Proof.Machine.execChallenge port ctx slot summary s
  | .getMeasurements port ctx slot index sign => Sys2Proof.Machine.execGetMeasurements port ctx slot index sign s
  | .unsupportedRequest port ctx code => Sys2Proof.Machine.execUnsupportedRequest port ctx code s
  | .signedResponse => Sys2Proof.Machine.execSignedResponse s
  | .attestReissued ctx => Sys2Proof.Machine.execAttestReissued ctx s
  | .raiseFw => Sys2Proof.Machine.execRaiseFw s
  | .raiseStruct => Sys2Proof.Machine.execRaiseStruct s
  | .ownerProgram val => Sys2Proof.Machine.execOwnerProgram val s
  | .fuseProgramDone => Sys2Proof.Machine.execFuseProgramDone s
  | .dbgNonce => Sys2Proof.Machine.execDbgNonce s
  | .dbgSubmit sig => Sys2Proof.Machine.execDbgSubmit sig s
  | .dbgLock => Sys2Proof.Machine.execDbgLock s
  | .debugState => Sys2Proof.Machine.execDebugState s
  | .resetNAssert ns => Sys2Proof.Machine.execResetNAssert ns s
  | .resetNRelease host smb test => Sys2Proof.Machine.execResetNRelease host smb test s
  | .pwrOkFall => Sys2Proof.Machine.execPwrOkFall s
  | .brownOut => Sys2Proof.Machine.execBrownOut s
  | .pwrRetain val => Sys2Proof.Machine.execPwrRetain val s
  | .retainEntered => Sys2Proof.Machine.execRetainEntered s
  | .wakeEvent cause ok => Sys2Proof.Machine.execWakeEvent cause ok s
  | .wakeDone => Sys2Proof.Machine.execWakeDone s
  | .throttleWindowEnd mw idle modelled => Sys2Proof.Machine.execThrottleWindowEnd mw idle modelled s
  | .pwrAlertNChange low idle modelled => Sys2Proof.Machine.execPwrAlertNChange low idle modelled s
  | .tempSample temps idle modelled => Sys2Proof.Machine.execTempSample temps idle modelled s
  | .thermTrip => Sys2Proof.Machine.execThermTrip s
  | .avsAdjust mv ok => Sys2Proof.Machine.execAvsAdjust mv ok s
  | .smbusStatusRead => Sys2Proof.Machine.execSmbusStatusRead s
  | .smbusStartTest b0 b1 => Sys2Proof.Machine.execSmbusStartTest b0 b1 s
  | .smbusTestResult => Sys2Proof.Machine.execSmbusTestResult s
  | .tstStart val => Sys2Proof.Machine.execTstStart val s
  | .testEnd cls idx misr bad => Sys2Proof.Machine.execTestEnd cls idx misr bad s
  | .bypass code => Sys2Proof.Machine.execBypass code s
  | .idcode => Sys2Proof.Machine.execIdcode s
  | .samplePreload load => Sys2Proof.Machine.execSamplePreload load s
  | .extest load => Sys2Proof.Machine.execExtest load s
  | .clamp => Sys2Proof.Machine.execClamp s
  | .highz => Sys2Proof.Machine.execHighz s
  | .extestPulse load => Sys2Proof.Machine.execExtestPulse load s
  | .extestTrain load => Sys2Proof.Machine.execExtestTrain load s
  | .selftest data => Sys2Proof.Machine.execSelftest data s
  | .testresult => Sys2Proof.Machine.execTestresult s
  | .dbgToken token sig => Sys2Proof.Machine.execDbgToken token sig s
  | .dbgObserve => Sys2Proof.Machine.execDbgObserve s
  | .dbgCore core op => Sys2Proof.Machine.execDbgCore core op s
  | .testLogicReset => Sys2Proof.Machine.execTestLogicReset s
  | .rdyStatusRead half => Sys2Proof.Machine.execRdyStatusRead half s
  | .rdyDropsRead half => Sys2Proof.Machine.execRdyDropsRead half s
  | .structStatusRead half => Sys2Proof.Machine.execStructStatusRead half s
  | .memPcStatusRead pc half => Sys2Proof.Machine.execMemPcStatusRead pc half s
  | .vfQctrlRead ctx half => Sys2Proof.Machine.execVfQctrlRead ctx half s
  | .hostPortStatusRead port half => Sys2Proof.Machine.execHostPortStatusRead port half s
  | .schCeStatusRead ce half => Sys2Proof.Machine.execSchCeStatusRead ce half s
  | .ceSramErrRead ce half => Sys2Proof.Machine.execCeSramErrRead ce half s
  | .ceCodecErrRead ce => Sys2Proof.Machine.execCeCodecErrRead ce s
  | .embErrRead half => Sys2Proof.Machine.execEmbErrRead half s
  | .dspLinkRead head half => Sys2Proof.Machine.execDspLinkRead head half s
  | .dspUnderrunRead head half => Sys2Proof.Machine.execDspUnderrunRead head half s
  | .vinErrRead port half => Sys2Proof.Machine.execVinErrRead port half s
  | .geyRetRead half => Sys2Proof.Machine.execGeyRetRead half s
  | .geyTgtRead target half => Sys2Proof.Machine.execGeyTgtRead target half s
  | .timSyncStatusRead half => Sys2Proof.Machine.execTimSyncStatusRead half s
  | .timCmpCtrlRead c => Sys2Proof.Machine.execTimCmpCtrlRead c s
  | .eqxStreamStatRead stream half => Sys2Proof.Machine.execEqxStreamStatRead stream half s
  | .eqxStreamStat2Read stream half => Sys2Proof.Machine.execEqxStreamStat2Read stream half s
  | .brgMemtestRead half => Sys2Proof.Machine.execBrgMemtestRead half s
  | .secStatusRead half => Sys2Proof.Machine.execSecStatusRead half s
  | .pwrStatusRead half => Sys2Proof.Machine.execPwrStatusRead half s
  | .tstUnitRead cls idx => Sys2Proof.Machine.execTstUnitRead cls idx s
  | .phyError port => Sys2Proof.Machine.execPhyError port s
  | .fatalFabricError ok => Sys2Proof.Machine.execFatalFabricError ok s
  | .busMasterEnableWrite port ctx on => Sys2Proof.Machine.execBusMasterEnableWrite port ctx on s
  | .msixMaskWrite port ctx vec masked => Sys2Proof.Machine.execMsixMaskWrite port ctx vec masked s
  | .timingGeneratorStart head => Sys2Proof.Machine.execTimingGeneratorStart head s
  | .stripeEntryFreed head => Sys2Proof.Machine.execStripeEntryFreed head s

end Sys2Proof.Machine
end

