-- ==== Sys2Proof/Machine/Step.lean ====
section
/-! DEFINITION. One step: the command at the front of the queue, or one period of TCLK. -/

namespace Sys2Proof.Machine

/-- What passes when no command waits: queues note the work that is ready, and one TCLK period goes by (R478).
[DESIGN CHOICE: log 3] -/
def State.idle (s : State) : State := s.noteReady.tick

/-- Take the command at the front of the queue and run it on the state with the queue's rest; with no command
waiting, one TCLK period passes. [DESIGN CHOICE: log 1] [DESIGN CHOICE: log 2] -/
def step (s : State) : Host.Outcome State Fault Refusal :=
  match s.pending with
  | [] => .next s.idle
  | c :: cs => exec c { s with pending := cs }

/-- The state with the command a word spells at the front of its queue; no word spells one. -/
def State.withFetchWord (s : State) (nbits w : Nat) : State :=
  match decodeTableWord nbits w with
  | none => s
  | some c => { s with pending := c :: s.pending }

end Sys2Proof.Machine
end

