-- ==== Sys2Proof/Safety.lean ====
section
/-! DEFINITION. What counts as a safe run, and the terms the claims use: what a command answers, and what it
leaves unchanged. -/

namespace Sys2Proof.Machine

/-- `n` steps from a state end in a state, with no fault and no refusal on the way. -/
def SafeFor (s : State) : Nat → Prop
  | 0 => True
  | n + 1 => ∃ t, step s = .next t ∧ SafeFor t n

/-- The command answers a next state, and that state has the property. -/
def Runs (c : Instr) (s : State) (P : State → Prop) : Prop := ∃ t, exec c s = .next t ∧ P t

/-- What every step keeps: memory in its canonical form, and the register file in its own: keys strictly rising, each listed
field within its width and different from its reset value. -/
def State.Inv (s : State) : Prop :=
  Memory.wf s.mem = true ∧ s.csr.Pairwise (fun a b => a.1 < b.1) ∧
    ∀ (f : Fld) (u v : Nat), (f.key u, v) ∈ s.csr → v < 2 ^ f.info.width ∧ v ≠ f.resetVal u

/-- A block's registers are served as the state stands: the device is out of reset, the block is reachable, and
no wake from RETAIN comes first (R129, R556). -/
def State.served (s : State) (b : Blk) : Prop := s.access b = some s

/-- `t` is `s` but for the listed register fields: every other field, memory and all the state behind the
registers are as they were. -/
def OnlyRegs (s t : State) (w : List (Fld × Nat)) : Prop :=
  { t with csr := s.csr } = s ∧ ∀ f u, (f, u) ∉ w → t.rd f u = s.rd f u

/-- The register fields that an interrupt event can move: pending bits, groups and targets (R466). -/
def irqFields : List Fld :=
  [.GEY_PEND_PEND, .GEY_GRP_STATE, .GEY_GRP_ACC, .GEY_GRP_ELAPSED, .GEY_SRC_HELD, .GEY_TGT_ACTIVE, .GEY_TGT_SPURIOUS]

/-- `t` is `s` but for the listed register fields and for what raising interrupt sources moves. -/
def OnlyRegsIrq (s t : State) (w : List (Fld × Nat)) : Prop :=
  { t with csr := s.csr, sent := s.sent, pba := s.pba, geyLatch := s.geyLatch } = s ∧
    ∀ f u, (f, u) ∉ w → f ∉ irqFields → t.rd f u = s.rd f u

/-- `c` reads a register of a served block: it returns the register's fields in place, in the half an access covers,
clears the RC fields that lie in that half, and changes nothing else (R14, R587). -/
def ReadsReg (c : Instr) (b : Blk) (r : Reg) (u half : Nat) : Prop :=
  ∀ s : State, s.served b → Runs c s fun t =>
    t.data = takeHalf half (s.regVal r u) ∧
    (∀ f ∈ r.fields, f.info.access = .rc → f.within half = true → t.rd f u = 0) ∧
    OnlyRegs s { t with data := s.data }
      ((r.fields.filter fun f => f.info.access == .rc && f.within half).map fun f => (f, u))

/-- An interrupt source has been raised: it is pending if it is enabled and Geyser is live (R464, R466). -/
def Raised (s t : State) (src : Nat) : Prop :=
  s.rd .GEY_RET_STATE = 0 → s.rd .GEY_SRC_ENABLE src = 1 → s.srcDead src = false → t.pend src = true

/-- The descriptor `d` of type `op` at the front of a queue's ring can start now: it is the queue's candidate, the
commands before it let it start, and its header is valid (R138, R142). -/
def State.starts (s : State) (gq op : Nat) (d : List Byte) : Prop :=
  s.candidate gq = some (.ok ⟨(s.queue gq).sqStart, d, none⟩) ∧ dOp d = op ∧
    s.mayStart gq (s.queue gq).sqStart d = true ∧ headerOk gq d = true

/-- The attempt of a descriptor that ends in the cycle it starts in. -/
def State.endedAtOnce (s : State) (gq : Nat) (d : List Byte) (st addr : Nat) : Flight :=
  { gq := gq, slot := (s.queue gq).sqStart, desc := d, phase := .ended, start := s.gcnt, ready := s.gcnt
    endG := s.gcnt, res := { status := st, addr := addr } }

/-- The state after a descriptor has left its ring as the attempt `f`. -/
def State.entered (s : State) (gq : Nat) (d : List Byte) (f : Flight) : State :=
  s.enter gq ⟨(s.queue gq).sqStart, d, none⟩ f

/-- `c` runs a command type with no work of its own: it ends at its start with OK, or with the status of the body
rule or state conflict it meets, and commits as far as its queue lets it. -/
def EndsAtOnce (c : Instr) (gq op : Nat) (check : State → List Byte → Except (Nat × Nat) Plan)
    (act : State → Flight → State) : Prop :=
  ∀ (s : State) (d : List Byte), s.starts gq op d →
    (check s d = .ok {} →
      exec c s = .next ((s.entered gq d (s.endedAtOnce gq d 0 0)).tryCommit gq op act)) ∧
    (∀ st addr, check s d = .error (st, addr) →
      exec c s = .next ((s.entered gq d (s.endedAtOnce gq d st addr)).tryCommit gq op act))

/-- A queue in which the next record can be written at once: nothing of it is in flight, its completion ring has
room and can be reached. -/
def State.clear (s : State) (gq : Nat) : Prop :=
  s.flightsOf gq = [] ∧ (s.queue gq).cqRoom = true ∧ s.ringHeld (gqCtx gq) (s.queue gq).cqVA = false ∧
    (s.queue gq).sqStart = (s.queue gq).sqNext

/-- What a command of a Caldera does at its start, from the attempt the scheduler has put into slots (R142, R143, R222,
R224 step 2): the statuses in their order, the wait, and what an accepted command holds. -/
def StartsOnCaldera (c : Instr) (gq op : Nat) (check : State → Nat → List Byte → Except (Nat × Nat) CeCmd) : Prop :=
  ∀ s : State,
    (s.flightIn gq (fun f => f.phase == .placed && dOp f.desc == op) = none → exec c s = .next s) ∧
    ∀ f, s.flightIn gq (fun f => f.phase == .placed && dOp f.desc == op) = some f → f.bound = false →
      (headerOk gq f.desc = false → exec c s = .next (s.ceFail f 6 0)) ∧
      (headerOk gq f.desc = true → ∀ e, check s gq f.desc = .error e → e.1 ≠ 8 → exec c s = .next (s.ceFail f e.1 e.2)) ∧
      (headerOk gq f.desc = true → ∀ k, check s gq f.desc = .ok k →
        ((∃ x ∈ f.slots, (s.regionUnits x.1).length < k.sram * f.slotsOn x.1) → exec c s = .next (s.ceFail f 7 0)) ∧
        ((∀ x ∈ f.slots, k.sram * f.slotsOn x.1 ≤ (s.regionUnits x.1).length) →
          (k.wait = true ∨ s.canAcquire gq (dInPlace f.desc) k.plan = false → exec c s = .next s) ∧
          (k.wait = false → s.canAcquire gq (dInPlace f.desc) k.plan = true → k.grow = [] →
            (k.go s (if f.attempt = 0 then k.fmtN else f.fmt)).1.flights = s.flights →
            Runs c s fun t => ∃ g ∈ t.flights, g.gq = f.gq ∧ g.slot = f.slot ∧ g.slots = f.slots ∧ g.desc = f.desc ∧
              g.bound = true ∧ g.outs = k.plan.outs ∧ g.binds = k.plan.ins.map (s.bindOf (gqCtx gq)) ++ k.extra ∧
              g.sram = k.sram ∧ g.lb = k.lb ∧ g.sinter = k.sinter ∧ g.start = s.gcnt ∧
              g.fmt = (if f.attempt = 0 then k.fmtN else f.fmt) ∧
              g.res = (k.go s (if f.attempt = 0 then k.fmtN else f.fmt)).2 ∧ (g.phase = .ready ∨ g.phase = .placed))))

/-- A core as an instruction finds it: awake, its debugger step used up. -/
def State.awake (s : State) (id : Nat) : Core := { s.core id with asleep := false, step := false }

/-- The core has retired its instruction: execution goes on at the next address. -/
def Core.step8 (c : Core) : Core := { c with pc := (c.pc + 8) % 2 ^ 64 }

/-- The instruction `i` is fetched at a place with no loop, delay slot or mode shadow: its core runs, its fetch is clean
and its zero fields are 0. -/
def State.quietAt (s : State) (i : TI) : Prop :=
  s.coreOn i.core = true ∧ s.fetchRaise i (s.awake i.core) = none ∧ i.zero = 0 ∧ i.pred < 8 ∧ i.word = .clean ∧
    (s.core i.core).slot = none ∧ (s.core i.core).shadow = none ∧ (s.core i.core).lact = 0

/-- The same, and the instruction's predicate condition holds, so that it may act. -/
def State.plainAt (s : State) (i : TI) : Prop := s.quietAt i ∧ (s.awake i.core).cond i = true

/-- `x` retires on its core and leaves that core as `c`, at the next address; nothing else changes. -/
def Retires (x : Instr) (s : State) (i : TI) (c : Core) : Prop := exec x s = .next (s.setCore i.core c.step8)

end Sys2Proof.Machine
end

