-- ==== Sys2Proof/Certificates/Slice0/Obligations.lean ====
section
/-! DEFINITION. The statements for the provers, chapter by chapter of the spec. -/

open Sys2Proof Sys2Proof.Machine

/-- With a command c at the front of the queue, a step is c's own effect on the state with the queue's rest; with none
waiting it is one period of TCLK and answers a next state (the model's choice, log entry 2). No word spells a
command, since the table gives its rows no bits (log entry 4). -/
def Obligations.StepRunsTheCommand : Prop :=
  (∀ (s : State) (c : Instr) (cs : List Instr), s.pending = c :: cs → step s = exec c { s with pending := cs }) ∧
  (∀ s : State, s.pending = [] → step s = .next s.idle) ∧
  (∀ nbits w : Nat, decodeTableWord nbits w = none) ∧
  ∀ (s : State) (nbits w : Nat), s.withFetchWord nbits w = s

/-- Right after reset every register field reads as its table's reset value: the device is in bring-up state RESET with no
readiness, GCNT is 0, the calendar is Saturday 2000-01-01 and not valid, power is in state ACTIVE,
T_THROTTLE is 100, ALERT_LEVEL 8, HEALTH_MAX_AGE 90 with AUTO_RETIRE and AUTO_RETURN on, the self-test KIND is 3, scrubbing
is on every 150, no source is pending or enabled. No command waits, no memory is written, no attempt is in flight, and the
invariant of every step holds. What the spec gives no reset value reads as log entries 6, 7 and 8
say: those clauses are the model's choice. -/
def Obligations.ResetState : Prop :=
  let s := State.reset
  (s.pending = [] ∧ s.mem = [] ∧ s.csr = [] ∧ s.flights = [] ∧ s.reqs = [] ∧ s.sent = [] ∧ s.Inv) ∧
  (∀ (f : Fld) (u : Nat), s.rd f u = f.resetVal u) ∧
  (s.rd .RDY_STATUS_STATE = 0 ∧ s.rd .RDY_STATUS_READINESS = 0 ∧ s.rd .BRG_STATE_STATE = 0 ∧ s.rd .STRUCT_STATUS_STATE = 0) ∧
  (s.rd .TIM_GCNT_COUNT = 0 ∧ s.rd .CAL_TIME_YEAR = 2000 ∧ s.rd .CAL_TIME_MONTH = 1 ∧ s.rd .CAL_TIME_DAY = 1 ∧
    s.rd .CAL_TIME_DOW = 5 ∧ s.rd .CAL_STATUS_VALID = 0 ∧ s.rd .TIM_SYNC_STATUS_STATE = 0) ∧
  (s.rd .PWR_STATUS_STATE = 1 ∧ s.rd .PWR_CTRL_T_THROTTLE = 100 ∧ s.rd .PWR_CTRL_ALERT_LEVEL = 8 ∧ s.rd .PWR_WAKE_TIMER = 1) ∧
  (s.rd .BRG_CTRL_HEALTH_MAX_AGE = 90 ∧ s.rd .BRG_CTRL_AUTO_RETIRE = 1 ∧ s.rd .BRG_CTRL_AUTO_RETURN = 1 ∧
    s.rd .TST_CTRL_KIND = 3 ∧ s.rd .MEM_SCRUB_CTRL_ENABLE = 1 ∧ s.rd .MEM_SCRUB_CTRL_INTERVAL = 150) ∧
  ∀ src, s.pend src = false ∧ s.rd .GEY_SRC_ENABLE src = 0 ∧ s.rd .GEY_SRC_GROUP src = 0x7FF

/-- From every state, reached by a run or not, a step answers a next state: no command of the table ends in a fault or a
refusal. The commands that wait after it are those that waited behind the one it took. If memory was in its canonical form
(addresses strictly rising, no byte listed that reads as an unwritten one), and the register file was (keys strictly rising,
each listed field within its width and different from its reset value), both still are; and then every register field of
every unit reads within the width its table gives it. -/
def Obligations.EveryStepKeepsTheInvariant : Prop :=
  ∀ s : State, ∃ t, step s = .next t ∧ t.pending = s.pending.tail ∧
    (s.Inv → t.Inv ∧ ∀ (f : Fld) (u : Nat), t.rd f u < 2 ^ f.info.width)

/-- STRUCT_CTRL is served. A LOAD in CONFIGURING, READY or DEGRADED_READY with no load in progress samples the
source, clears the failure fields and enters FETCHING, and nothing else changes. While a load is in FETCHING,
VALIDATING or APPLYING it is refused with BUSY and STRUCT_EVENT is raised. Before CONFIGURING it is rejected with
STATE_WRONG. A CANCEL in FETCHING or VALIDATING returns to IDLE with no failure; in any other state it changes
nothing. -/
def Obligations.StructLoadsAndCancels : Prop :=
  (∀ (val : Nat) (s : State), s.served .early → bit val 0 = true → bit val 1 = false →
    s.rd .STRUCT_STATUS_STATE ≠ 1 → s.rd .STRUCT_STATUS_STATE ≠ 2 → s.rd .STRUCT_STATUS_STATE ≠ 3 →
    6 ≤ s.rd .RDY_STATUS_STATE → s.rd .RDY_STATUS_STATE ≠ 9 →
    Runs (.structLoad val) s fun t =>
      t.rd .STRUCT_STATUS_STATE = 1 ∧ t.rd .STRUCT_STATUS_ERROR = 0 ∧ t.rd .STRUCT_STATUS_ERR_SECTION = 0xFF ∧
      t.rd .STRUCT_ERR_OFFSET_OFFSET = 0 ∧
      t.img.load = some { addr := s.rd .STRUCT_SRC_ADDR_ADDR * 8, len := s.rd .STRUCT_SRC_LEN_LEN } ∧
      OnlyRegs s { t with img := s.img } [(.STRUCT_STATUS_STATE, 0), (.STRUCT_STATUS_ERROR, 0),
        (.STRUCT_STATUS_ERR_SECTION, 0), (.STRUCT_ERR_OFFSET_OFFSET, 0)]) ∧
  (∀ (val : Nat) (s : State), s.served .early → bit val 0 = true → bit val 1 = false →
    (s.rd .STRUCT_STATUS_STATE = 1 ∨ s.rd .STRUCT_STATUS_STATE = 2 ∨ s.rd .STRUCT_STATUS_STATE = 3) →
    Runs (.structLoad val) s fun t =>
      t.rd .STRUCT_STATUS_REFUSED = 0x16 ∧ Raised s t 9 ∧ OnlyRegsIrq s t [(.STRUCT_STATUS_REFUSED, 0)]) ∧
  (∀ (val : Nat) (s : State), s.served .early → bit val 0 = true → bit val 1 = false →
    s.rd .STRUCT_STATUS_STATE ≠ 1 → s.rd .STRUCT_STATUS_STATE ≠ 2 → s.rd .STRUCT_STATUS_STATE ≠ 3 →
    s.rd .RDY_STATUS_STATE < 6 → s.img.failedAs = 0 →
    Runs (.structLoad val) s fun t =>
      t.rd .STRUCT_STATUS_STATE = 5 ∧ t.rd .STRUCT_STATUS_ERROR = 0x17 ∧ t.rd .STRUCT_STATUS_ERR_SECTION = 0xFF ∧
      t.rd .STRUCT_ERR_OFFSET_OFFSET = 0 ∧ Raised s t 9) ∧
  (∀ (val : Nat) (s : State), s.served .early → bit val 0 = false → bit val 1 = true →
    (s.rd .STRUCT_STATUS_STATE = 1 ∨ s.rd .STRUCT_STATUS_STATE = 2) → s.img.failedAs = 0 →
    Runs (.structCancel val) s fun t =>
      t.rd .STRUCT_STATUS_STATE = 0 ∧ t.rd .STRUCT_STATUS_ERROR = 0 ∧ t.rd .STRUCT_STATUS_ERR_SECTION = 0xFF ∧
      t.rd .STRUCT_ERR_OFFSET_OFFSET = 0 ∧ t.img.load = none ∧ Raised s t 9 ∧
      OnlyRegsIrq s { t with img := s.img } [(.STRUCT_STATUS_STATE, 0), (.STRUCT_STATUS_ERROR, 0),
        (.STRUCT_STATUS_ERR_SECTION, 0), (.STRUCT_ERR_OFFSET_OFFSET, 0)]) ∧
  (∀ (val : Nat) (s : State), s.served .early → bit val 0 = false → bit val 1 = true →
    s.rd .STRUCT_STATUS_STATE ≠ 1 → s.rd .STRUCT_STATUS_STATE ≠ 2 → exec (.structCancel val) s = .next s)

/-- A fetch that ends well keeps the bytes of PF0's home port as they stand and enters VALIDATING; one with a failed
read ends as REJECTED with BAD_LAYOUT. A validation that fails sets STATE to REJECTED with the code and the place
of the first failure and raises STRUCT_EVENT. A full image that passes is in force: STATE is DONE, STRUCT_ACTIVE_SEQ
is its SEQ and nothing waits; so is one that FC0 finds valid in a flash slot. -/
def Obligations.ImageFetchAndValidation : Prop :=
  (∀ (ld : ImageLoad) (s : State), s.img.load = some ld → s.rd .STRUCT_STATUS_STATE = 1 →
    Runs (.fetchEnd true) s fun t =>
      t.rd .STRUCT_STATUS_STATE = 2 ∧
      t.img.load = some { ld with
        bytes := (List.range ld.len).map fun i => s.getByte (hostKey (s.home pf0) (ld.addr + i)) } ∧
      OnlyRegs s { t with img := s.img } [(.STRUCT_STATUS_STATE, 0)]) ∧
  (∀ (ld : ImageLoad) (s : State), s.img.load = some ld → s.rd .STRUCT_STATUS_STATE = 1 → s.img.failedAs = 0 →
    Runs (.fetchEnd false) s fun t =>
      t.rd .STRUCT_STATUS_STATE = 5 ∧ t.rd .STRUCT_STATUS_ERROR = 0x04 ∧ t.img.load = none ∧ Raised s t 9) ∧
  (∀ (sig : Nat) (ld : ImageLoad) (e : Bad) (s : State), s.img.load = some ld → s.rd .STRUCT_STATUS_STATE = 2 →
    s.validate ld.bytes sig = .error e → s.img.failedAs = 0 →
    Runs (.validationEnd sig) s fun t =>
      t.rd .STRUCT_STATUS_STATE = 5 ∧ t.rd .STRUCT_STATUS_ERROR = e.1 % 2 ^ 8 ∧
      t.rd .STRUCT_STATUS_ERR_SECTION = e.2.1 % 2 ^ 8 ∧ t.rd .STRUCT_ERR_OFFSET_OFFSET = e.2.2 % 2 ^ 32 ∧
      t.img.load = none ∧ t.img.recs = s.img.recs ∧ Raised s t 9) ∧
  (∀ (sig : Nat) (ld : ImageLoad) (im : SImage) (s : State), s.img.load = some ld → s.rd .STRUCT_STATUS_STATE = 2 →
    s.validate ld.bytes sig = .ok im → im.hdr.kind = 1 →
    Runs (.validationEnd sig) s fun t =>
      t.rd .STRUCT_STATUS_STATE = 4 ∧ t.rd .STRUCT_ACTIVE_SEQ_SEQ = im.hdr.seq % 2 ^ 64 ∧
      t.rd .STRUCT_PENDING_TYPES = 0) ∧
  (∀ (sig : Nat) (b : List Nat) (im : SImage) (s : State), s.rd .RDY_STATUS_STATE = 6 → s.inReset = false →
    s.pw.tripHeld = false → s.img.load = none → s.rd .STRUCT_STATUS_STATE ≠ 4 →
    s.validate (slotBytes b) sig = .ok im → im.hdr.kind = 1 →
    Runs (.flashImageLoad [(b, sig)]) s fun t =>
      t.rd .STRUCT_STATUS_STATE = 4 ∧ t.rd .STRUCT_ACTIVE_SEQ_SEQ = im.hdr.seq % 2 ^ 64 ∧
      t.rd .STRUCT_PENDING_TYPES = 0)

/-- When the drain limit of a draining partition has passed, every command of it in flight that can be killed is
killed, oldest first. While the limit has not passed the event changes nothing. When none of its commands is in
flight the waiting records of the partition take effect at its switch point; while one is, nothing changes. -/
def Obligations.PartitionDrains : Prop :=
  (∀ (p us : Nat) (r : Rec) (s : State), s.img.draining.contains p = true → s.partRec p = some r →
    us = d16 r.val 6 → s.img.applyG + (if us = 0 then 1000 else us) * 100 ≤ s.gcnt →
    exec (.drainLimitExpiry p) s = .next (s.each ((s.partFlights p).filter Flight.killable) State.kill)) ∧
  (∀ (p us : Nat) (r : Rec) (s : State), s.partRec p = some r → us = d16 r.val 6 →
    s.gcnt < s.img.applyG + (if us = 0 then 1000 else us) * 100 → exec (.drainLimitExpiry p) s = .next s) ∧
  (∀ (p : Nat) (s : State), s.img.draining.contains p = true → s.partFlights p = [] →
    Runs (.partitionDrained p) s fun t =>
      t = s.switchAt (.part p) ∧ ((s.img.wait.filter fun w => s.switchPoint w.2 == .part p) = [] → t = s)) ∧
  (∀ (p : Nat) (f : Flight) (s : State), f ∈ s.partFlights p → exec (.partitionDrained p) s = .next s)

/-- MAP, SHARE and UNMAP of a served context with no request in progress set STATUS to BUSY and store their fields;
MAP and SHARE change nothing but the allocator's tables and those fields, no memory byte, and when they end with a
status other than DONE no table either. A write while STATUS reads BUSY starts no request. At its end a request
shows the outcome it had. A copy-on-write of a mapping that needs none leaves the state as it is. -/
def Obligations.MappingRequests : Prop :=
  (∀ (ctx val : Nat) (s : State), s.served (s.ctxBlk ctx) → s.rd .VF_MAP_CTRL_STATUS ctx ≠ 1 →
    (∀ c ∈ [Instr.vfMap ctx val, Instr.vfShare ctx val], Runs c s fun t =>
      t.rd .VF_MAP_CTRL_STATUS ctx = 1 ∧ t.rd .VF_MAP_CTRL_PAGES ctx = bits val 32 32 ∧
      t.rd .VF_MAP_CTRL_SIZE ctx = bits val 14 2 ∧ t.rd .VF_MAP_CTRL_CACHE ctx = bits val 12 2 ∧
      t.rd .VF_MAP_CTRL_XWR ctx = bits val 0 3 ∧
      (t.m.mapBusy.get 0 ctx ≠ 1 → t.m.pte = s.m.pte ∧ t.m.frames = s.m.frames ∧ t.m.used = s.m.used) ∧
      OnlyRegs s { t with m := s.m } [(.VF_MAP_CTRL_STATUS, ctx), (.VF_MAP_CTRL_PAGES, ctx),
        (.VF_MAP_CTRL_SIZE, ctx), (.VF_MAP_CTRL_CACHE, ctx), (.VF_MAP_CTRL_XWR, ctx)]) ∧
    Runs (.vfUnmap ctx val) s fun t => t.rd .VF_MAP_CTRL_STATUS ctx = 1 ∧ t.mem = s.mem) ∧
  (∀ (ctx val : Nat) (c : Instr) (s : State), s.served (s.ctxBlk ctx) → s.rd .VF_MAP_CTRL_STATUS ctx = 1 →
    c ∈ [Instr.vfMap ctx val, .vfShare ctx val, .vfUnmap ctx val] →
    Runs c s fun t => OnlyRegs s t [(.VF_MAP_CTRL_PAGES, ctx), (.VF_MAP_CTRL_SIZE, ctx),
      (.VF_MAP_CTRL_CACHE, ctx), (.VF_MAP_CTRL_XWR, ctx)]) ∧
  (∀ (ctx : Nat) (s : State), s.rd .VF_MAP_CTRL_STATUS ctx = 1 →
    Runs (.mapRequestEnd ctx) s fun t =>
      t.rd .VF_MAP_CTRL_STATUS ctx = (s.m.mapBusy.get 0 ctx - 1) % 2 ^ 4 ∧ t.m.mapBusy.get 0 ctx = 0 ∧
      OnlyRegs s { t with m := s.m } [(.VF_MAP_CTRL_STATUS, ctx)]) ∧
  (∀ (ctx va : Nat) (s : State), (∀ l e, s.leaf ctx va = some (l, e) → pteS e = false ∨ pteW e = false) →
    exec (.copyOnWrite ctx va) s = .next s) ∧
  (∀ (ctx va l e : Nat) (s : State), s.leaf ctx va = some (l, e) → pteS e = true → pteW e = true →
    (s.frame (unitHead l (ptePA (s.pteAt ctx l (unitBase l (l == 3 && pteC e) va))))).ref ≤ 1 →
    Runs (.copyOnWrite ctx va) s fun t =>
      pteS (t.pteAt ctx l (unitBase l (l == 3 && pteC e) va)) = false ∧ t.m.frames = s.m.frames ∧
      { t with m := s.m } = s)

/-- A MEM_POWN_CTRL write with an OP while RESULT is not BUSY sets RESULT to BUSY and changes no memory byte and, for
ALLOC and MAP, no register outside MEM_POWN_CTRL. A PAGES of 0 or a SIZE of 0 or 3 ends with BAD_RANGE and takes
nothing. At the end RESULT shows the outcome, and MEM_POWN_PA the first unit of an ALLOC. -/
def Obligations.PartitionOwnedFrames : Prop :=
  (∀ (val : Nat) (c : Instr) (s : State), s.served .late → s.rd .MEM_POWN_CTRL_RESULT ≠ 1 →
    c ∈ [Instr.pownAlloc val, .pownMap val] →
    Runs c s fun t =>
      t.rd .MEM_POWN_CTRL_RESULT = 1 ∧
      OnlyRegs s { t with m := s.m } [(.MEM_POWN_CTRL_RESULT, 0), (.MEM_POWN_CTRL_PARTITION, 0),
        (.MEM_POWN_CTRL_SIZE, 0), (.MEM_POWN_CTRL_CACHE, 0), (.MEM_POWN_CTRL_HOT, 0), (.MEM_POWN_CTRL_CONTEXT, 0),
        (.MEM_POWN_CTRL_PAGES, 0), (.MEM_POWN_CTRL_XWR, 0)]) ∧
  (∀ (val : Nat) (c : Instr) (s : State), s.served .late → s.rd .MEM_POWN_CTRL_RESULT ≠ 1 →
    c ∈ [Instr.pownFree val, .pownUnmap val] →
    Runs c s fun t => t.rd .MEM_POWN_CTRL_RESULT = 1 ∧ t.mem = s.mem) ∧
  (∀ (val : Nat) (c : Instr) (s : State), s.served .late → s.rd .MEM_POWN_CTRL_RESULT ≠ 1 →
    c ∈ [Instr.pownAlloc val, .pownMap val, .pownFree val, .pownUnmap val] →
    bits val 46 2 = 0 ∨ bits val 46 2 = 3 ∨ bits val 16 16 = 0 →
    Runs c s fun t => t.m = { s.m with pownBusy := 4 }) ∧
  (∀ (s : State), s.rd .MEM_POWN_CTRL_RESULT = 1 →
    Runs .pownRequestEnd s fun t =>
      t.rd .MEM_POWN_CTRL_RESULT = (s.m.pownBusy - 1) % 2 ^ 4 ∧
      (s.m.pownRes ≠ 0 → t.rd .MEM_POWN_PA_PA = (s.m.pownRes - 1) % 2 ^ 30) ∧
      OnlyRegs s { t with m := s.m } [(.MEM_POWN_CTRL_RESULT, 0), (.MEM_POWN_PA_PA, 0)])

/-- With scrubbing off, or on a channel of no interleave set, a scrub read changes nothing. Otherwise it moves the
channel's position on by one line, and at the last line the pass ends: the position and the pass's count return to 0 and
source 66 fires. A corrected error of a line that is neither poisoned nor holds a latent error advances CE_COUNT and the
pass's count by one and raises source 64 when that count reaches CE_THRESHOLD; it moves no other register. -/
def Obligations.PatrolScrub : Prop :=
  (∀ (pc : Nat) (e : EccResult) (s : State),
    s.rd .MEM_SCRUB_CTRL_ENABLE = 0 ∨ s.rd .MEM_PC_STATUS_ISET pc = 0xFF → exec (.scrubRead pc e) s = .next s) ∧
  (∀ (pc i : Nat) (s : State), pc < 128 → s.rd .MEM_SCRUB_CTRL_ENABLE ≠ 0 → s.rd .MEM_PC_STATUS_ISET pc ≠ 0xFF →
    i = s.m.scrubPos.get 0 pc →
    (∀ l, s.lineAt pc (i * 64) = some l → s.m.latent.get 0 l ≠ 1 ∧ s.m.poison.get 0 l ≠ 1) →
    (i + 1 ≠ pcLines → exec (.scrubRead pc .clean) s =
      .next { s with m := { s.m with scrubPos := s.m.scrubPos.set 0 pc (i + 1) } }) ∧
    (i + 1 = pcLines → Runs (.scrubRead pc .clean) s fun t =>
      t.m = { s.m with scrubPos := s.m.scrubPos.set 0 pc 0, passErr := s.m.passErr.set 0 pc 0 } ∧ Raised s t 66 ∧
      OnlyRegsIrq s { t with m := s.m } []) ∧
    (i + 1 ≠ pcLines → Runs (.scrubRead pc .corrected) s fun t =>
      t.rd .MEM_PC_STATUS_CE_COUNT pc = min (s.rd .MEM_PC_STATUS_CE_COUNT pc + 1) (2 ^ 16 - 1) ∧
      t.m = { s.m with scrubPos := s.m.scrubPos.set 0 pc (i + 1)
                       passErr := s.m.passErr.set 0 pc (s.m.passErr.get 0 pc + 1) } ∧
      (s.m.passErr.get 0 pc + 1 = s.rd .MEM_SCRUB_CTRL_CE_THRESHOLD → Raised s t 64) ∧
      (s.m.passErr.get 0 pc + 1 ≠ s.rd .MEM_SCRUB_CTRL_CE_THRESHOLD →
        OnlyRegs s { t with m := s.m } [(.MEM_PC_STATUS_CE_COUNT, pc)]) ∧
      OnlyRegsIrq s { t with m := s.m } [(.MEM_PC_STATUS_CE_COUNT, pc)]))

/-- The end of a training of a present port puts it in L0 with its width, rate, bus number and FLIT mode, and reports a
new degraded pair. LINK_UP puts a port that is not ABSENT in L0. A Data Link Layer down event, or 1 ms without a DLLP in
L0 or RECOVERY, puts the port in DOWN, counts it in DOWNS, holds every request outstanding on the port, and raises
source 16 + p; no function's home changes by it. A port that is ABSENT or DOWN already changes nothing. PERST of a port
that is no function's home clears that port's configuration state of every function and leaves the other port's. -/
def Obligations.LinkStates : Prop :=
  (∀ (p rate width bus : Nat) (flit : Bool) (s : State), s.portDead p = false → s.inReset = false →
    Runs (.linkTrained p rate width bus flit) s fun t =>
      t.rd .HOST_PORT_STATUS_LINK p = 3 ∧
      t.rd .HOST_PORT_STATUS_WIDTH p = (if width = 16 ∨ width = 8 ∨ width = 4 then width else 1) ∧
      t.rd .HOST_PORT_STATUS_RATE p = rate % 2 ^ 4 ∧ t.rd .HOST_PORT_STATUS_BUS p = bus % 2 ^ 8 ∧
      t.rd .HOST_PORT_STATUS_FLIT p = b2n flit ∧
      (width = 16 → 6 ≤ rate → t.rd .HOST_PORT_STATUS_DEGRADED p = 0) ∧
      (width ≠ 16 ∨ rate < 6 → t.rd .HOST_PORT_STATUS_DEGRADED p = 1) ∧
      OnlyRegsIrq s { t with reqs := s.reqs, flights := s.flights, lastLink := s.lastLink }
        [(.HOST_PORT_STATUS_LINK, p), (.HOST_PORT_STATUS_WIDTH, p), (.HOST_PORT_STATUS_RATE, p),
          (.HOST_PORT_STATUS_BUS, p), (.HOST_PORT_STATUS_FLIT, p), (.HOST_PORT_STATUS_DEGRADED, p)]) ∧
  (∀ (p : Nat) (s : State), s.portDead p = false → s.rd .HOST_PORT_STATUS_LINK p ≠ 0 →
    Runs (.linkUp p) s fun t =>
      t.rd .HOST_PORT_STATUS_LINK p = 3 ∧
      OnlyRegsIrq s { t with reqs := s.reqs, flights := s.flights } [(.HOST_PORT_STATUS_LINK, p)]) ∧
  (∀ (p : Nat) (s : State), s.portDead p = false → s.rd .HOST_PORT_STATUS_LINK p ≠ 0 →
    s.rd .HOST_PORT_STATUS_LINK p ≠ 5 → s.rd .PWR_STATUS_STATE ≠ 3 → s.rd .PWR_STATUS_STATE ≠ 4 →
    Runs (.dlDown p) s fun t =>
      t.rd .HOST_PORT_STATUS_LINK p = 5 ∧
      t.rd .HOST_PORT_STATUS_DOWNS p = min (s.rd .HOST_PORT_STATUS_DOWNS p + 1) (2 ^ 16 - 1) ∧
      (∀ r ∈ t.reqs, r.port = p → r.held = true) ∧ (∀ c, t.home c = s.home c) ∧ Raised s t (16 + p) ∧
      OnlyRegsIrq s { t with reqs := s.reqs, foMoves := s.foMoves }
        [(.HOST_PORT_STATUS_LINK, p), (.HOST_PORT_STATUS_DOWNS, p)]) ∧
  (∀ (p : Nat) (s : State), s.rd .HOST_PORT_STATUS_LINK p = 0 ∨ s.rd .HOST_PORT_STATUS_LINK p = 5 →
    exec (.dlDown p) s = .next s ∧ exec (.dllpTimeout p) s = .next s) ∧
  (∀ (p : Nat) (s : State), s.rd .HOST_PORT_STATUS_LINK p = 3 ∨ s.rd .HOST_PORT_STATUS_LINK p = 4 →
    exec (.dllpTimeout p) s = exec (.dlDown p) s) ∧
  (∀ (p : Nat) (s : State), s.portDead p = false → (∀ c ∈ s.contexts, s.home c ≠ p) →
    s.rd .HOST_PORT_STATUS_LINK p ≠ 0 →
    Runs (.perst p) s fun t =>
      t.rd .HOST_PORT_STATUS_LINK p = 1 ∧ (∀ c ≤ 512, t.cfg p c = {}) ∧
      (∀ p' c, c ≤ 512 → p' ≠ p → t.cfg p' c = s.cfg p' c) ∧
      OnlyRegs s { t with reqs := s.reqs, fn := s.fn } [(.HOST_PORT_STATUS_LINK, p)])

/-- A read's completion takes the request out; a poisoned one fails its command with ECC_UNCORRECTABLE, Unsupported
Request or Completer Abort with PERMISSION_FAULT, and 50 ms without one with TIMEOUT. A poisoned write from the host
changes nothing. A request to a standby function is answered by what the function decodes there and changes no other
state. A command that waits on a request held for HOLD_MS is killed and waits for its function when it can be killed,
and completes with TIMEOUT in place. -/
def Obligations.CompletionsAndHolds : Prop :=
  (∀ (id : Nat) (r : HostReq) (s : State), s.reqs.find? (fun r => r.id == id && !r.held) = some r →
    exec (.readCompletion id .success) s = .next (s.dropReq id) ∧
    (∀ f, (s.dropReq id).flights.find? (fun f => f.gq == r.gq && f.slot == r.slot) = some f →
      exec (.readCompletion id .poisoned) s = .next ((((s.dropReq id).slotState f 4)).failFlight f 8 r.va) ∧
      exec (.readCompletion id .unsupported) s = .next ((((s.dropReq id).slotState f 4)).failFlight f 3 r.va) ∧
      exec (.readCompletion id .abort) s = .next ((((s.dropReq id).slotState f 4)).failFlight f 3 r.va))) ∧
  (∀ (id : Nat) (r : HostReq) (f : Flight) (s : State),
    s.reqs.find? (fun r => r.id == id && !r.held && decide (r.since + 5000000 ≤ s.gcnt)) = some r →
    (s.dropReq id).flights.find? (fun f => f.gq == r.gq && f.slot == r.slot) = some f →
    Runs (.completionTimeout id) s fun t =>
      t = ((s.dropReq id).slotState f 4).failFlight f 9 r.va ∧ ∀ x ∈ t.reqs, x.id ≠ id) ∧
  (∀ (id : Nat) (s : State), (∀ r ∈ s.reqs, r.id = id → r.held = true ∨ s.gcnt < r.since + 5000000) →
    exec (.completionTimeout id) s = .next s) ∧
  (∀ (port addr val : Nat) (s : State), exec (.poisonedWrite port addr val) s = .next s) ∧
  (∀ (port ctx addr size : Nat) (s : State),
    (port = s.home ctx → exec (.standbyRequest port ctx addr size) s = .next s) ∧
    (port ≠ s.home ctx → standbyDecodes ctx addr size = false →
      exec (.standbyRequest port ctx addr size) s = .next { s with lastCpl := .unsupported }) ∧
    (port ≠ s.home ctx → standbyDecodes ctx addr size = true →
      exec (.standbyRequest port ctx addr size) s = .next { s with lastCpl := .success })) ∧
  (∀ (ctx : Nat) (s : State),
    (∀ r ∈ s.reqs, r.ctx = ctx → r.held = true → s.gcnt < r.since + s.holdTime) →
    exec (.holdExpiry ctx) s = .next s) ∧
  (∀ (ctx : Nat) (r : HostReq) (f : Flight) (s : State), r ∈ s.reqs → r.ctx = ctx → r.held = true →
    r.since + s.holdTime ≤ s.gcnt → s.reqs = [r] → s.flights = [f] → f.gq = r.gq → f.slot = r.slot →
    exec (.holdExpiry ctx) s = .next (if f.killable then s.killSlots { f with unreachable := true }
      else (s.slotState f 4).failFlight { f with unreachable := true } 9 0))

/-- A move written while none is BUSY stores TENANT and TARGET and ends at once with TARGET_DOWN on a target that is not
in L0, with NOT_ENABLED when its function is not eligible there, and with DONE when nothing has to move; otherwise
STATUS is BUSY and the move waits. It completes when none of its functions has a request outstanding: each is then homed
on the target, every other function keeps its home, and STATUS is DONE, or BUSY_SEEN when a second move was written
meanwhile. After a declaration the functions that are still eligible on the other port are homed there. -/
def Obligations.Moves : Prop :=
  (∀ (scope tenant target : Nat) (fns : List Nat) (c : Instr) (s : State), s.served .island → target < 2 →
    (c = .moveOneTenant tenant target ∧ scope = 1 ∧ tenant < 512 ∧ fns = [tenant] ∨
      c = .movePf0 target ∧ scope = 3 ∧ tenant = s.rd .HOST_MOVE_TENANT ∧ fns = [pf0] ∨
      c = .moveOtherPort target ∧ scope = 2 ∧ tenant = s.rd .HOST_MOVE_TENANT ∧
        fns = s.contexts.filter fun x => s.home x ≠ target) →
    (s.rd .HOST_MOVE_STATUS = 1 →
      exec c s = .next { s with move := s.move.map fun m => { m with busySeen := true } }) ∧
    (s.rd .HOST_MOVE_STATUS ≠ 1 → Runs c s fun t =>
      t.rd .HOST_MOVE_TENANT = tenant % 2 ^ 9 ∧ t.rd .HOST_MOVE_TARGET = target ∧
      (s.rd .HOST_PORT_STATUS_LINK target ≠ 3 → t.rd .HOST_MOVE_STATUS = 3 ∧ t.move = s.move) ∧
      (s.rd .HOST_PORT_STATUS_LINK target = 3 → scope ≠ 2 → (∃ x ∈ fns, s.eligiblePort target x = false) →
        t.rd .HOST_MOVE_STATUS = 4 ∧ t.move = s.move) ∧
      (s.rd .HOST_PORT_STATUS_LINK target = 3 → (∀ x ∈ fns, s.eligiblePort target x = true) →
        (∀ x ∈ fns, s.home x = target) → t.rd .HOST_MOVE_STATUS = 2 ∧ t.move = s.move) ∧
      (s.rd .HOST_PORT_STATUS_LINK target = 3 → (∀ x ∈ fns, s.eligiblePort target x = true) →
        (∃ x ∈ fns, s.home x ≠ target) → t.rd .HOST_MOVE_STATUS = 1 ∧
        t.move = some ⟨scope, tenant, target, fns.filter fun x => s.home x ≠ target, false⟩) ∧
      OnlyRegs s { t with move := s.move }
        [(.HOST_MOVE_TENANT, 0), (.HOST_MOVE_TARGET, 0), (.HOST_MOVE_STATUS, 0)])) ∧
  (∀ s : State, s.move = none → exec .moveDone s = .next s) ∧
  (∀ (m : Move) (r : HostReq) (s : State), s.move = some m → r ∈ s.reqs → r.ctx ∈ m.fns → r.held = false →
    exec .moveDone s = .next s) ∧
  (∀ (m : Move) (s : State), s.move = some m → m.target < 2 → (∀ x ∈ m.fns, x ≤ 512) →
    (∀ r ∈ s.reqs, r.ctx ∈ m.fns → r.held = true) →
    Runs .moveDone s fun t =>
      t.move = none ∧ (∀ x ∈ m.fns, t.home x = m.target) ∧ (∀ x ≤ 512, x ∉ m.fns → t.home x = s.home x) ∧
      t.rd .HOST_MOVE_STATUS = (if m.busySeen then 5 else 2) ∧ t.mem = s.mem) ∧
  (∀ s : State, s.foMoves.Nodup → (∀ x ∈ s.foMoves, x ≤ 512) → s.rd .HOST_CTRL_PF0_HOME < 2 →
    Runs .failoverDone s fun t =>
      t.foMoves = [] ∧ t.mem = s.mem ∧
      (∀ x ∈ s.foMoves, s.eligiblePort (1 - s.home x) x = true → t.home x = 1 - s.home x) ∧
      (∀ x ≤ 512, x ∉ s.foMoves → t.home x = s.home x))

/-- Served configuration writes store the bit they name on the port they come through: Bus Master Enable, the Function
Mask or a vector's mask bit, and D3hot. VF Enable set before READY is refused: it stays 0 and VF_REFUSALS advances. Set
when ready it makes every tenant below NumVFs that is homed on the port and configured ACTIVE; cleared it starts the
teardown of the tenants homed there. A VF FLR clears the function's configuration state on its home port and starts the
teardown of an ACTIVE tenant; a standby FLR clears that port's state only; a PF0 FLR empties PF0's queues of commands
and starts the teardown of every ACTIVE tenant. -/
def Obligations.ConfigurationWrites : Prop :=
  (∀ (p ctx : Nat) (on : Bool) (s : State), s.served .island → 3 ≤ s.rd .RDY_STATUS_STATE → s.portDead p = false →
    ctx ≤ 512 →
    (p ≠ s.home ctx →
      exec (.busMasterEnableWrite p ctx on) s = .next (s.setCfg p ctx { s.cfg p ctx with bme := on })) ∧
    Runs (.busMasterEnableWrite p ctx on) s fun t =>
      t.cfg p ctx = { s.cfg p ctx with bme := on } ∧
      OnlyRegsIrq s { t with fn := s.fn, reqs := s.reqs, flights := s.flights } []) ∧
  (∀ (p ctx : Nat) (masked : Bool) (s : State), s.served .island → 3 ≤ s.rd .RDY_STATUS_STATE → s.portDead p = false →
    Runs (.msixMaskWrite p ctx none masked) s (fun t =>
      t.cfg p ctx = { s.cfg p ctx with fnMask := masked } ∧ OnlyRegsIrq s { t with fn := s.fn } []) ∧
    ∀ v < 8, Runs (.msixMaskWrite p ctx (some v) masked) s fun t =>
      (t.msix.get {} (msixKey p ctx v)) = { s.msix.get {} (msixKey p ctx v) with masked := masked } ∧
      OnlyRegsIrq s { t with msix := s.msix } []) ∧
  (∀ (p ctx : Nat) (s : State), s.served .island → 3 ≤ s.rd .RDY_STATUS_STATE → s.portDead p = false →
    exec (.d3hot p ctx) s = .next (s.setCfg p ctx { s.cfg p ctx with d3hot := true })) ∧
  (∀ (p n : Nat) (s : State), s.served .island → 3 ≤ s.rd .RDY_STATUS_STATE → s.portDead p = false →
    (s.ready = false → Runs (.vfEnable p n true) s fun t =>
      (t.cfg p pf0).vfEnable = false ∧
      t.rd .RDY_STATUS_VF_REFUSALS = min (s.rd .RDY_STATUS_VF_REFUSALS + 1) (2 ^ 8 - 1) ∧
      OnlyRegs s { t with fn := s.fn } [(.RDY_STATUS_VF_REFUSALS, 0)]) ∧
    (s.ready = true → (s.cfg p pf0).vfEnable = false → Runs (.vfEnable p n true) s fun t =>
      (t.cfg p pf0).vfEnable = true ∧ (t.cfg p pf0).numVFs = min n s.tenants ∧
      ∀ x < min n s.tenants, s.home x = p → s.rd .VF_STATUS_STATE x = 0 → s.unconfigured (s.partOf x) = false →
        t.rd .VF_STATUS_STATE x = 1 ∧ t.rd .VF_HOME_MOVES x = 0) ∧
    ((s.cfg p pf0).vfEnable = true → Runs (.vfEnable p n false) s fun t =>
      (t.cfg p pf0).vfEnable = false ∧
      ∀ x < 512, s.home x = p → s.rd .VF_STATUS_STATE x = 1 →
        t.rd .VF_STATUS_STATE x = 2 ∧ ∀ f ∈ t.flights, gqCtx f.gq ≠ x)) ∧
  (∀ (x : Nat) (s : State), s.served .island → 3 ≤ s.rd .RDY_STATUS_STATE → x < s.tenants →
    Runs (.vfFlr x) s fun t =>
      t.cfg (s.home x) x = {} ∧
      (s.rd .VF_STATUS_STATE x = 1 → t.rd .VF_STATUS_STATE x = 2 ∧ ∀ f ∈ t.flights, gqCtx f.gq ≠ x) ∧
      (s.rd .VF_STATUS_STATE x ≠ 1 → { t with fn := s.fn, sec := s.sec } = s)) ∧
  (∀ (p ctx : Nat) (s : State), s.served .island → 3 ≤ s.rd .RDY_STATUS_STATE →
    (p = s.home ctx → exec (.standbyFlr p ctx) s = .next s) ∧
    (p ≠ s.home ctx → s.portDead p = false → Runs (.standbyFlr p ctx) s fun t =>
      t.cfg p ctx = {} ∧ { t with fn := s.fn, sec := s.sec } = s)) ∧
  (∀ s : State, s.served .island → 3 ≤ s.rd .RDY_STATUS_STATE →
    Runs .pf0Flr s fun t =>
      t.cfg (s.home pf0) pf0 = {} ∧ (∀ f ∈ t.flights, gqCtx f.gq ≠ pf0) ∧
      ∀ x < 512, s.rd .VF_STATUS_STATE x = 1 → t.rd .VF_STATUS_STATE x = 2)

/-- Each row that reads one register returns its fields in place, or the half the access covers, clears the RC fields
that lie in the part read and changes no other state; reads of the readiness registers return 0 before TRAINING. A read
of the low half of TIM_GCNT returns it and latches the high half for its requester, whose next read of the high half
returns the latched value once. A read of TIM_RNG_OUT_LO returns the low half, latches the high half and advances INDEX. -/
def Obligations.RegisterReads : Prop :=
  (∀ half : Nat,
    ReadsReg (.structStatusRead half) .early .STRUCT_STATUS 0 half ∧
    ReadsReg (.brgMemtestRead half) .early .BRG_MEMTEST 0 half ∧
    ReadsReg (.secStatusRead half) .early .SEC_STATUS 0 half ∧
    ReadsReg (.pwrStatusRead half) .island .PWR_STATUS 0 half ∧
    ReadsReg (.timSyncStatusRead half) .island .TIM_SYNC_STATUS 0 half ∧
    ReadsReg (.geyRetRead half) .late .GEY_RET 0 half ∧
    ReadsReg (.embErrRead half) .late .EMB_ERR 0 half) ∧
  (∀ u half : Nat,
    ReadsReg (.hostPortStatusRead u half) .island .HOST_PORT_STATUS u half ∧
    ReadsReg (.memPcStatusRead u half) .late .MEM_PC_STATUS u half ∧
    ReadsReg (.ceSramErrRead u half) .late .CE_SRAM_ERR u half ∧
    ReadsReg (.ceCodecErrRead u) .late .CE_CODEC_ERR u 0 ∧
    ReadsReg (.schCeStatusRead u half) .late .SCH_CE_STATUS u half ∧
    ReadsReg (.dspLinkRead u half) .late .DSP_LINK u half ∧
    ReadsReg (.dspUnderrunRead u half) .late .DSP_UNDERRUN u half ∧
    ReadsReg (.vinErrRead u half) .late .VIN_ERR u half ∧
    ReadsReg (.eqxStreamStatRead u half) .late .EQX_STREAM_STAT u half ∧
    ReadsReg (.eqxStreamStat2Read u half) .late .EQX_STREAM_STAT2 u half ∧
    (u < 64 → ReadsReg (.timCmpCtrlRead u) .island .TIM_CMP_CTRL u 0) ∧
    ReadsReg (.tstUnitRead u half) .early .TST_UNIT (tstUnit u half) 0) ∧
  (∀ (x half : Nat) (s : State), s.tgtDead x = false → s.served .late →
    Runs (.geyTgtRead x half) s fun t =>
      t.data = takeHalf half (s.regVal .GEY_TGT x) ∧ { t with data := s.data, csr := s.csr } = s) ∧
  (∀ (half : Nat) (c : Instr) (r : Reg) (s : State),
    (c = .rdyStatusRead half ∧ r = .RDY_STATUS ∨ c = .rdyDropsRead half ∧ r = .RDY_DROPS) →
    (s.rd .RDY_STATUS_STATE < 3 → exec c s = .next { s with data := 0 }) ∧
    (3 ≤ s.rd .RDY_STATUS_STATE → s.served .island → Runs c s fun t =>
      t.data = takeHalf half (s.regVal r 0) ∧ { t with data := s.data, csr := s.csr } = s)) ∧
  (∀ (req : Nat) (s : State), s.served .island →
    Runs (.timGcntRead req 0) s (fun t => t = { s with data := s.gcnt }) ∧
    Runs (.timGcntRead req 1) s (fun t => t.data = s.gcnt % 2 ^ 32 ∧ ∀ u, u.t.latch = t.t.latch → u.served .island →
      Runs (.timGcntRead req 2) u fun v => v.data = s.gcnt / 2 ^ 32 ∧ v.t.latch.get 0 req = 0)) ∧
  (∀ s : State, s.served .island →
    Runs .timRngOutLoRead s fun t =>
      t.data = s.rngOut % 2 ^ 64 ∧ t.t.outHi = some (s.rngOut / 2 ^ 64) ∧
      t.rd .TIM_RNG_INDEX_INDEX = (s.rd .TIM_RNG_INDEX_INDEX + 1) % 2 ^ 64 ∧
      OnlyRegs s { t with data := s.data, t := s.t } [(.TIM_RNG_INDEX_INDEX, 0)])

/-- CREATE in DISABLED with legal sizes, a class the function can use and a configured partition makes the queue ACTIVE
with its positions and held doorbell values 0, and no other queue changes. DESTROY of an ACTIVE or STALLED queue other
than M0 leaves it DESTROYING with no killable command in flight and RESULT BUSY; when none is left it ends DISABLED with
RESULT DONE. RESUME of a STALLED queue makes it ACTIVE at SQ_NEXT and changes no other queue field. An operation in
another state ends with STATE_WRONG, and one on M0 with REFUSED, with the queue as it was. A read of the upper half of
VF_QCTRL clears BAD_DOORBELLS of the selected queue alone. -/
def Obligations.QueueControl : Prop :=
  (∀ (ctx val : Nat) (s : State), s.served (s.ctxBlk ctx) → s.rd .VF_QCTRL_RESULT ctx ≠ 1 →
    s.selQueue ctx ≠ qKey pf0 0 → (s.queue (s.selQueue ctx)).st = .disabled →
    6 ≤ bits val 24 5 → bits val 24 5 ≤ 16 → 6 ≤ bits val 16 5 → bits val 16 5 ≤ 16 →
    classOk ctx (bits val 8 3) = true → s.unconfigured (s.partOf ctx) = false →
    Runs (.queueCreate ctx val) s fun t =>
      t.queue (s.selQueue ctx) = { s.queue (s.selQueue ctx) with
        st := .active, cls := bits val 8 3, sqLog := bits val 24 5, cqLog := bits val 16 5
        sqVA := s.rd .VF_QSQ_VA ctx * 4096, cqVA := s.rd .VF_QCQ_VA ctx * 4096, cont := bits val 0 1 == 1
        sqTail := 0, cqHead := 0, sqNext := 0, cqTail := 0, sqStart := 0 } ∧
      (∀ g, g ≠ s.selQueue ctx → t.queue g = s.queue g) ∧ t.rd .VF_QCTRL_RESULT ctx = 0 ∧
      OnlyRegs s { t with queues := s.queues } [(.VF_QCTRL_RESULT, ctx), (.VF_QCTRL_SQ_LOG2, ctx),
        (.VF_QCTRL_CQ_LOG2, ctx), (.VF_QCTRL_CLASS, ctx), (.VF_QCTRL_CONTINUE_ON_ERROR, ctx)]) ∧
  (∀ (ctx val : Nat) (s : State), s.served (s.ctxBlk ctx) → s.rd .VF_QCTRL_RESULT ctx ≠ 1 →
    Runs (.queueCreate ctx val) s fun t =>
      (s.selQueue ctx = qKey pf0 0 → t.rd .VF_QCTRL_RESULT ctx = 4 ∧ t.queues = s.queues) ∧
      (s.selQueue ctx ≠ qKey pf0 0 → (s.queue (s.selQueue ctx)).st ≠ .disabled →
        t.rd .VF_QCTRL_RESULT ctx = 3 ∧ t.queues = s.queues)) ∧
  (∀ (ctx : Nat) (s : State), s.served (s.ctxBlk ctx) → s.rd .VF_QCTRL_RESULT ctx ≠ 1 → s.selQueue ctx ≠ qKey pf0 0 →
    ((s.queue (s.selQueue ctx)).st = .active ∨ (s.queue (s.selQueue ctx)).st = .stalled) →
    Runs (.queueDestroy ctx) s fun t =>
      (t.queue (s.selQueue ctx)).st = .destroying ∧ t.rd .VF_QCTRL_RESULT ctx = 1 ∧
      (∀ f ∈ t.flightsOf (s.selQueue ctx), f.killable = false) ∧
      (t.queue (s.selQueue ctx)).cqTail = (s.queue (s.selQueue ctx)).cqTail ∧
      (t.queue (s.selQueue ctx)).sqNext = (s.queue (s.selQueue ctx)).sqNext ∧
      ∀ g, g ≠ s.selQueue ctx → t.queue g = s.queue g) ∧
  (∀ (ctx : Nat) (s : State), s.served (s.ctxBlk ctx) → s.rd .VF_QCTRL_RESULT ctx ≠ 1 →
    (s.selQueue ctx = qKey pf0 0 → exec (.queueDestroy ctx) s = .next (s.wr .VF_QCTRL_RESULT ctx 4)) ∧
    (s.selQueue ctx ≠ qKey pf0 0 → (s.queue (s.selQueue ctx)).st = .disabled ∨
        (s.queue (s.selQueue ctx)).st = .destroying →
      exec (.queueDestroy ctx) s = .next (s.wr .VF_QCTRL_RESULT ctx 3))) ∧
  (∀ (ctx q : Nat) (s : State), (s.queue (qKey ctx q)).st = .destroying → s.flightsOf (qKey ctx q) = [] →
    Runs (.destroyEnd ctx q) s fun t =>
      (t.queue (qKey ctx q)).st = .disabled ∧ t.rd .VF_QCTRL_RESULT ctx = 0) ∧
  (∀ (ctx : Nat) (s : State), s.served (s.ctxBlk ctx) → s.rd .VF_QCTRL_RESULT ctx ≠ 1 →
    Runs (.queueResume ctx) s fun t =>
      ((s.queue (s.selQueue ctx)).st = .stalled →
        t.queue (s.selQueue ctx) = { s.queue (s.selQueue ctx) with
          st := .active, sqStart := (s.queue (s.selQueue ctx)).sqNext } ∧ t.rd .VF_QCTRL_RESULT ctx = 0) ∧
      ((s.queue (s.selQueue ctx)).st ≠ .stalled → t = s.wr .VF_QCTRL_RESULT ctx 3) ∧
      (∀ g, g ≠ s.selQueue ctx → t.queue g = s.queue g) ∧
      OnlyRegs s { t with queues := s.queues } [(.VF_QCTRL_RESULT, ctx)]) ∧
  (∀ (ctx half : Nat) (s : State), s.served (s.ctxBlk ctx) →
    Runs (.vfQctrlRead ctx half) s fun t =>
      t.data = takeHalf half (s.regVal .VF_QCTRL ctx) ∧
      (half ≠ 1 → half ≤ 2 → t.queue (s.selQueue ctx) = { s.queue (s.selQueue ctx) with bad := 0 }) ∧
      (half = 1 → t.queue (s.selQueue ctx) = s.queue (s.selQueue ctx)) ∧
      (∀ g, g ≠ s.selQueue ctx → t.queue g = s.queue g) ∧ t.mem = s.mem)

/-- A doorbell of a ready device, for an ACTIVE or STALLED queue of a function that is not torn down and in which no
FENCE_WAIT runs, updates SQ_TAIL and CQ_HEAD alone, each only when the new value passes its check; a failing field
leaves its held value and BAD_DOORBELLS advances by 1. A DISABLED or DESTROYING queue only counts it. Before READY it is
dropped and counted in RDY_DROPS. Where a FENCE_WAIT runs, a write with a field that passes also reads its fence. A
doorbell of a queue PF0 does not own, or of a tenant the part does not have, changes nothing. -/
def Obligations.DoorbellWrites : Prop :=
  (∀ (ctx q half val : Nat) (s : State), s.served (s.bellBlk ctx q) → s.ready = true → s.rd .PWR_STATUS_STATE = 1 →
    (ctx = pf0 ∨ s.rd .VF_STATUS_STATE ctx ≠ 2) → half ≤ 2 →
    ((s.queue (qKey ctx q)).st = .active ∨ (s.queue (qKey ctx q)).st = .stalled) →
    (s.waitOf (qKey ctx q) = none →
      Runs (.doorbell ctx q half val) s fun t =>
        (t.queue (qKey ctx q)).sqTail =
          (if half ≠ 2 ∧ sub32 (val % 2 ^ 32) (s.queue (qKey ctx q)).sqTail ≤ 2 ^ 31 - 1 ∧
              sub32 (val % 2 ^ 32) (s.queue (qKey ctx q)).sqNext ≤ 2 ^ (s.queue (qKey ctx q)).sqLog
            then val % 2 ^ 32 else (s.queue (qKey ctx q)).sqTail) ∧
        (∀ h, h = (if half = 2 then val % 2 ^ 32 else val / 2 ^ 32 % 2 ^ 32) →
          (t.queue (qKey ctx q)).cqHead =
            (if half ≠ 1 ∧ sub32 h (s.queue (qKey ctx q)).cqHead ≤ 2 ^ 31 - 1 ∧
                sub32 h (s.queue (qKey ctx q)).cqHead ≤
                  sub32 (s.queue (qKey ctx q)).cqTail (s.queue (qKey ctx q)).cqHead
              then h else (s.queue (qKey ctx q)).cqHead)) ∧
        (t.queue (qKey ctx q)).sqNext = (s.queue (qKey ctx q)).sqNext ∧
        (t.queue (qKey ctx q)).cqTail = (s.queue (qKey ctx q)).cqTail ∧
        (t.queue (qKey ctx q)).st = (s.queue (qKey ctx q)).st ∧
        (t.queue (qKey ctx q)).bad =
          (if (half ≠ 2 ∧ sqTailOk (s.queue (qKey ctx q)) (val % 2 ^ 32) = false) ∨ (half ≠ 1 ∧
              cqHeadOk (s.queue (qKey ctx q)) (if half = 2 then val % 2 ^ 32 else val / 2 ^ 32 % 2 ^ 32) = false)
            then min 65535 ((s.queue (qKey ctx q)).bad + 1) else (s.queue (qKey ctx q)).bad) ∧
        (∀ g, g ≠ qKey ctx q → t.queue g = s.queue g) ∧ { t with queues := s.queues } = s) ∧
    (∀ f, s.waitOf (qKey ctx q) = some f → doorbellAccepted (s.queue (qKey ctx q)) half val = true →
      exec (.doorbell ctx q half val) s =
        .next ((s.setQueue (qKey ctx q) (ringDoorbell (s.queue (qKey ctx q)) half val)).pollFence f))) ∧
  (∀ (ctx q half val : Nat) (s : State), s.served (s.bellBlk ctx q) → s.ready = true → s.rd .PWR_STATUS_STATE = 1 →
    (ctx = pf0 ∨ s.rd .VF_STATUS_STATE ctx ≠ 2) →
    ((s.queue (qKey ctx q)).st = .disabled ∨ (s.queue (qKey ctx q)).st = .destroying) →
    exec (.doorbell ctx q half val) s =
      .next (s.setQueue (qKey ctx q) { s.queue (qKey ctx q) with bad := min 65535 ((s.queue (qKey ctx q)).bad + 1) })) ∧
  (∀ (ctx q half val : Nat) (s : State), s.served (s.bellBlk ctx q) → s.ready = false →
    exec (.doorbell ctx q half val) s = .next (s.inc .RDY_DROPS_DOORBELLS 0)) ∧
  (∀ (ctx q half val : Nat) (s : State), s.served (s.bellBlk ctx q) → s.ready = true → s.rd .PWR_STATUS_STATE = 1 →
    ctx ≠ pf0 → s.rd .VF_STATUS_STATE ctx = 2 → exec (.doorbell ctx q half val) s = .next s) ∧
  (∀ (ctx q half val : Nat) (s : State), (ctx = pf0 ∧ 64 ≤ q) ∨ (ctx ≠ pf0 ∧ (s.tenants ≤ ctx ∨ 512 ≤ q)) →
    exec (.doorbell ctx q half val) s = .next s)

/-- Each of the six command types ends at its start with OK, with DESCRIPTOR_INVALID by its body rule or with
STATE_CONFLICT, and then commits if its record is due. In a queue whose record can be written at once, an accepted
TENSOR_DEFINE leaves its entry valid with CUR 0 and VERSION 0, an accepted TENSOR_RELEASE leaves it FREE, and each
accepted VERSION_COMMIT or VERSION_ABORT commits or discards every handle it lists; no other entry changes. -/
def Obligations.TableCommands : Prop :=
  (∀ ctx q : Nat,
    EndsAtOnce (.nopCmd ctx q) (qKey ctx q) 0x00 nopCheck noAct ∧
    EndsAtOnce (.tensorDefine ctx q) (qKey ctx q) 0x02 (defineCheck (qKey ctx q)) defineAct ∧
    EndsAtOnce (.tensorRelease ctx q) (qKey ctx q) 0x03 (releaseCheck (qKey ctx q)) releaseAct ∧
    EndsAtOnce (.fenceSignal ctx q) (qKey ctx q) 0x05 (signalCheck (qKey ctx q)) signalAct ∧
    EndsAtOnce (.versionCommit ctx q) (qKey ctx q) 0x06 (versionCheck (qKey ctx q)) versionCommitAct ∧
    EndsAtOnce (.versionAbort ctx q) (qKey ctx q) 0x07 (versionCheck (qKey ctx q)) versionAbortAct) ∧
  (∀ (ctx q : Nat) (d : List Byte) (s : State), q < 512 → s.starts (qKey ctx q) 0x02 d → s.clear (qKey ctx q) →
    defineCheck (qKey ctx q) s d = .ok {} →
    Runs (.tensorDefine ctx q) s fun t =>
      t.tensor ctx (d32 d 0x10) =
        { kind := if d8 d 0x14 = 1 then .plain else .single, cur := 0, version := 0, buf0 := d64 d 0x18
          buf1 := if d8 d 0x14 = 1 then d64 d 0x20 else 0, bytes := d64 d 0x28 } ∧
      (∀ c h, tKey c h ≠ tKey ctx (d32 d 0x10) → t.tensor c h = s.tensor c h) ∧
      (t.queue (qKey ctx q)).sqNext = m32 ((s.queue (qKey ctx q)).sqNext + slotsOf d)) ∧
  (∀ (ctx q : Nat) (d : List Byte) (s : State), q < 512 → s.starts (qKey ctx q) 0x03 d → s.clear (qKey ctx q) →
    releaseCheck (qKey ctx q) s d = .ok {} →
    Runs (.tensorRelease ctx q) s fun t =>
      t.tensor ctx (d32 d 0x10) = {} ∧
      (∀ c h, tKey c h ≠ tKey ctx (d32 d 0x10) → t.tensor c h = s.tensor c h)) ∧
  (∀ (ctx q : Nat) (d : List Byte) (s : State), q < 512 → s.starts (qKey ctx q) 0x07 d → s.clear (qKey ctx q) →
    versionCheck (qKey ctx q) s d = .ok {} →
    Runs (.versionAbort ctx q) s fun t =>
      (∀ h ∈ listedHandles d, t.tensor ctx h = abortTensor (s.tensor ctx h)) ∧
      (∀ c h, (∀ g ∈ listedHandles d, tKey c h ≠ tKey ctx g) → t.tensor c h = s.tensor c h))

/-- A FENCE_WAIT that starts in an empty queue reads its fence at once. A fence with bit 63 set ends the wait with
FENCE_ERROR; one at or above VALUE ends it with OK; a lower one leaves the state as it is, so that the wait goes on. A
fence that cannot be read ends it with the fault's status. TIMEOUT_US after its start a wait still running ends with
TIMEOUT, and not before. -/
def Obligations.FenceWaits : Prop :=
  (∀ (ctx q : Nat) (d : List Byte) (f : Flight) (s : State), q < 512 → s.starts (qKey ctx q) 0x04 d →
    s.flightsOf (qKey ctx q) = [] → d64 d 0x10 % 8 = 0 →
    f = { gq := qKey ctx q, slot := (s.queue (qKey ctx q)).sqStart, desc := d, phase := .running, start := s.gcnt,
          ready := s.gcnt, until_ := if d32 d 0x20 = 0 then 0 else s.gcnt + d32 d 0x20 * 100 } →
    exec (.fenceWait ctx q) s = .next ((s.entered (qKey ctx q) d f).pollFence f)) ∧
  (∀ (ctx q : Nat) (f : Flight) (bs : List Byte) (s : State), s.waitOf (qKey ctx q) = some f →
    s.ldBytes (gqCtx f.gq) (d64 f.desc 0x10) 8 = .ok bs →
    (2 ^ 63 ≤ leNat bs → exec (.fencePoll ctx q) s = .next ((s.setFlight { f with
      phase := .ended, endG := s.gcnt, res := { f.res with status := 0x0B } }).tryCommit f.gq 0x04 noAct)) ∧
    (leNat bs < 2 ^ 63 → d64 f.desc 0x18 ≤ leNat bs → exec (.fencePoll ctx q) s = .next ((s.setFlight { f with
      phase := .ended, endG := s.gcnt, res := { f.res with status := 0 } }).tryCommit f.gq 0x04 noAct)) ∧
    (leNat bs < 2 ^ 63 → leNat bs < d64 f.desc 0x18 → exec (.fencePoll ctx q) s = .next s)) ∧
  (∀ (ctx q st addr : Nat) (f : Flight) (s : State), s.waitOf (qKey ctx q) = some f →
    s.ldBytes (gqCtx f.gq) (d64 f.desc 0x10) 8 = .error (st, addr) →
    exec (.fencePoll ctx q) s = .next ((s.failFlight f st addr).tryCommit f.gq 0x04 noAct)) ∧
  (∀ (ctx q : Nat) (f : Flight) (s : State), s.waitOf (qKey ctx q) = some f →
    (f.until_ ≠ 0 → f.until_ ≤ s.gcnt →
      exec (.fenceTimeout ctx q) s = .next ((s.failFlight f 9 0).tryCommit f.gq 0x04 noAct)) ∧
    (f.until_ = 0 ∨ s.gcnt < f.until_ → exec (.fenceTimeout ctx q) s = .next s))

/-- COMMIT acts only when the next command of the queue to complete has ended, the queue is neither DISABLED nor
STALLED, and its completion ring has room and can be reached; otherwise nothing changes. A command with no effect of
its own that ended OK then writes its 16-byte record at ring base + (CQ_TAIL mod size) x 16 and changes no other byte;
CQ_TAIL advances by one and SQ_NEXT by the slots of the command; every output commits, or is DEFERRED, or in place takes
a new VERSION; no other table entry changes. A failing status without CONTINUE_ON_ERROR leaves the queue STALLED with
nothing in flight and its outputs' table entries as they were. -/
def Obligations.CommitWritesTheRecord : Prop :=
  (∀ (ctx q : Nat) (s : State),
    s.commitNext (qKey ctx q) = none ∨ (s.queue (qKey ctx q)).st = .disabled ∨ (s.queue (qKey ctx q)).st = .stalled ∨
      (s.queue (qKey ctx q)).cqRoom = false ∨ s.ringHeld (gqCtx (qKey ctx q)) (s.queue (qKey ctx q)).cqVA = true →
    exec (.commitCmd ctx q) s = .next s) ∧
  (∀ (ctx q : Nat) (f : Flight) (s : State), s.commitNext (qKey ctx q) = some f →
    (s.queue (qKey ctx q)).st = .active ∨ (s.queue (qKey ctx q)).st = .destroying →
    (s.queue (qKey ctx q)).cqRoom = true → s.ringHeld (gqCtx (qKey ctx q)) (s.queue (qKey ctx q)).cqVA = false →
    dOp f.desc ∈ [0x00, 0x01, 0x04, 0x10, 0x11, 0x18, 0x19, 0x1A, 0x1B, 0x1C, 0x1D, 0x28, 0x30] →
    exec (.commitCmd ctx q) s = .next ((s.tryCommit (qKey ctx q) (dOp f.desc) noAct).afterRecord f)) ∧
  (∀ (gq : Nat) (f : Flight) (s u : State), s.commitNext gq = some f →
    (s.queue gq).st = .active ∨ (s.queue gq).st = .destroying →
    (s.queue gq).cqRoom = true → s.ringHeld (gqCtx gq) (s.queue gq).cqVA = false →
    f.outs.Nodup → u = s.tryCommit gq (dOp f.desc) noAct →
    (f.res.status = 0 →
      u.queue gq = { s.queue gq with cqTail := m32 ((s.queue gq).cqTail + 1)
                                     sqNext := m32 ((s.queue gq).sqNext + slotsOf f.desc) } ∧
      (gq ≠ qM0 → u.mem = ((s.commitOuts f).stBytes (gqCtx gq)
        ((s.queue gq).cqVA + (s.queue gq).cqTail % 2 ^ (s.queue gq).cqLog * 16)
        (recordBytes (dTag f.desc) 0 (phaseBit (s.queue gq).cqTail (s.queue gq).cqLog + f.satFlags)
          (f.slot % 2 ^ (s.queue gq).sqLog) s.gcnt) 17).1.mem) ∧
      (∀ h ∈ f.outs, u.tensor (gqCtx f.gq) h =
        if dInPlace f.desc then
          { s.tensor (gqCtx f.gq) h with version := m32 ((s.tensor (gqCtx f.gq) h).version + 1) }
        else if dDefer f.desc then { s.tensor (gqCtx f.gq) h with deferred := true }
        else commitTensor (s.tensor (gqCtx f.gq) h)) ∧
      (∀ c h, (∀ g ∈ f.outs, tKey c h ≠ tKey (gqCtx f.gq) g) → u.tensor c h = s.tensor c h)) ∧
    (failing f.res.status = true → (s.queue gq).cont = false → (s.queue gq).st = .active →
      (u.queue gq).st = .stalled ∧ u.flightsOf gq = [] ∧
      (u.queue gq).sqNext = m32 ((s.queue gq).sqNext + slotsOf f.desc) ∧
      (u.queue gq).cqTail = m32 ((s.queue gq).cqTail + 1)))

/-- A served write of TT_CAP takes effect when the value is a multiple of 2,048 up to 1,048,576, no handle is defined
and the pool could supply the new table with the old one given back; the context's charge then moves by the difference.
Any other write leaves the whole state as it was. VF_TT_READ copies the four words of the entry, or four zeros for a
handle at or beyond TT_CAP, and changes nothing else. -/
def Obligations.TensorTableRegisters : Prop :=
  (∀ (ctx val : Nat) (s : State), s.served (s.ctxBlk ctx) → s.ttCapOk ctx (val % 2 ^ 21) = true →
    Runs (.ttCapWrite ctx val) s fun t =>
      t.rd .VF_TT_CAP_TT_CAP ctx = val % 2 ^ 21 ∧ t.tensors = s.tensors ∧ t.mem = s.mem ∧
      t.m.ttFrames.get 0 ctx = val % 2 ^ 21 * 32 / 65536) ∧
  (∀ (ctx val : Nat) (s : State), s.served (s.ctxBlk ctx) →
    ((val % 2 ^ 21) % 2048 ≠ 0 ∨ 1048576 < val % 2 ^ 21 ∨ (∃ h, h < 2 ^ 20 ∧ (s.tensor ctx h).kind ≠ .free)) →
    exec (.ttCapWrite ctx val) s = .next s) ∧
  (∀ (ctx handle : Nat) (s : State), s.served (s.ctxBlk ctx) →
    Runs (.ttRead ctx handle) s fun t =>
      (∀ i < 4, t.rd .VF_TT_ENTRY_WORD (ctx * 4 + i) =
        if s.rd .VF_TT_CAP_TT_CAP ctx ≤ handle % 2 ^ 20 then 0
        else (s.tensor ctx (handle % 2 ^ 20)).word i % 2 ^ 64) ∧
      OnlyRegs s t ((List.range 4).map fun i => (.VF_TT_ENTRY_WORD, ctx * 4 + i)))

/-- Every attempt of a class 2-7 queue of a tenant that a placement puts into slots stands only on Calderas that are in
service and either shared or dedicated to the tenant's partition; a placement completes no command. With no ready queue
it changes no attempt, no register and no memory byte. The only ready step, when it needs one slot and has a Caldera,
takes the lowest free slot of the first Caldera in R168's order. -/
def Obligations.PlacementStaysInItsPartition : Prop :=
  (∀ (c : Instr) (s : State), c = .batchStepPlace ∨ c = .batchWaitExpiry →
    Runs c s fun t =>
      (∀ f ∈ t.flights, f ∉ s.flights → f.phase = .placed → gqCtx f.gq < 512 → 2 ≤ (s.queue f.gq).cls →
        ∀ x ∈ f.slots, x.1 ∈ s.inService ∧ (s.rd .SCH_CE_STATUS_DEDICATED x.1 = 0 ∨
          s.rd .SCH_CE_STATUS_PARTITION x.1 = s.partOf (gqCtx f.gq))) ∧
      ∀ gq, (t.queue gq).cqTail = (s.queue gq).cqTail ∧ (t.queue gq).sqNext = (s.queue gq).sqNext ∧
        (t.queue gq).st = (s.queue gq).st) ∧
  (∀ (c : Instr) (s : State), c = .batchStepPlace ∨ c = .batchWaitExpiry → s.readyQueues = [] →
    exec c s = .next s.noteReady ∧ s.noteReady.flights = s.flights ∧ s.noteReady.csr = s.csr ∧
      s.noteReady.mem = s.mem) ∧
  (∀ (gq e : Nat) (k : Cand) (s : State), s.readyQueues = [gq] → s.noteReady.readyStep gq = some k →
    k.joins = false → partsOf k.desc = (1, 1) →
    (s.noteReady.chooseCes (gqCtx gq) (s.queue gq).cls 1 1 (dInPlace k.desc)
      (s.noteReady.weightFrames (gqCtx gq) k.desc)) = some [e] →
    Runs .batchStepPlace s fun t => ∃ i, (s.freeSlotsOf e).head? = some i ∧
      t.rd .CE_SLOT_STATE (e * 32 + i) = 1 ∧ t.rd .CE_SLOT_CLASS (e * 32 + i) = (s.queue gq).cls % 8 ∧
      t.rd .CE_SLOT_QUEUE (e * 32 + i) = gq % 512 ∧
      (∃ f ∈ t.flights, f.gq = gq ∧ f.slot = k.slot ∧ f.phase = .placed ∧ f.slots = [(e, i)]) ∧ t.mem = s.mem)

/-- SCHEDULER_EPOCH changes nothing until GCNT has passed the next multiple of 10,000; at a boundary where nothing
returns to service and no record waits, SCALE takes R177's value, source 134 is raised when that changes it, and the
epoch's counts start again at 0. AGING raises a ready step of class 3-7 by one class for each 10 ms it has waited and
changes nothing else but the scheduler's own times. A killable command that has run for RUN_LIMIT is stopped with
TIMEOUT; one that has not, or a limit of 0, changes nothing. An in-place command past IN_PLACE_LIMIT stops with TIMEOUT
after the bytes it had written. -/
def Obligations.EpochsAndLimits : Prop :=
  (∀ s : State, s.gcnt / 10000 ≤ s.lastEpoch → exec .schedulerEpoch s = .next s) ∧
  (∀ s : State, s.lastEpoch < s.gcnt / 10000 → s.ceJoin = [] → s.img.wait = [] → s.readyQueues = [] →
    s.flights = [] →
    Runs .schedulerEpoch s fun t =>
      t.rd .SCH_RESERVE_SCALE_SCALE = s.scaleOf % 2 ^ 14 ∧
      (s.rd .SCH_RESERVE_SCALE_SCALE ≠ s.scaleOf → Raised s t 134) ∧
      t.lastEpoch = s.gcnt / 10000 ∧ t.epochUse = [] ∧ t.epochC1 = [] ∧ t.mem = s.mem) ∧
  (∀ s : State, Runs .aging s fun t =>
    (∀ gq ∈ s.readyQueues, 3 ≤ (s.queue gq).cls → s.readyAt.get 0 gq ≠ 0 →
      t.aged.get 0 gq = (s.gcnt + 1 - s.readyAt.get 0 gq) / 1000000) ∧
    { t with vtime := s.vtime, wasReady := s.wasReady, readyAt := s.readyAt, aged := s.aged } = s) ∧
  (∀ (ctx q : Nat) (s : State),
    (∀ f ∈ s.flightsOf (qKey ctx q), f.phase = .running ∨ f.phase = .ready → f.killable = true →
      dOp f.desc ≠ 0x04 → s.runLimit (qKey ctx q) = 0 ∨ s.gcnt < f.start + s.runLimit (qKey ctx q)) →
    exec (.runLimitExpiry ctx q) s = .next s) ∧
  (∀ (ctx q : Nat) (f : Flight) (s : State), s.flightsOf (qKey ctx q) = [f] → f.phase = .running →
    f.killable = true → dOp f.desc ≠ 0x04 → f.slots = [] → s.runLimit (qKey ctx q) ≠ 0 →
    f.start + s.runLimit (qKey ctx q) ≤ s.gcnt →
    exec (.runLimitExpiry ctx q) s = .next (s.failFlight { f with kills := f.kills + 1 } 9 0)) ∧
  (∀ (ctx q n : Nat) (f : Flight) (s : State), s.flightsOf (qKey ctx q) = [f] → f.phase = .running →
    dInPlace f.desc = true →
    (s.gcnt < f.start + s.img.inPlaceLimit * 100 → exec (.inPlaceLimitExpiry ctx q n) s = .next s) ∧
    (f.start + s.img.inPlaceLimit * 100 ≤ s.gcnt → exec (.inPlaceLimitExpiry ctx q n) s = .next
      ((((s.stChunks (gqCtx (qKey ctx q)) (takeChunks n f.res.writes)).1).slotState f 4).failFlight f 9 0)))

/-- SCH_TENANT.OP = TEARDOWN of an ACTIVE tenant sets RESULT to BUSY and VF_STATUS.STATE to TEARING_DOWN, and no command
of the tenant stays in flight; in another state RESULT is STATE_WRONG. PF0's entry 512 stores its fields and ignores OP.
TEARDOWN_DONE leaves every queue of the tenant DISABLED, every tensor entry FREE, no host mapping and the tenant's swap
arena unused, and keeps its QUOTA, WEIGHT, RUN_LIMIT and home port; the tenant is then ACTIVE or DISABLED. -/
def Obligations.TeardownOfATenant : Prop :=
  (∀ (x val : Nat) (s : State), s.served .late → x < s.tenants → x < 512 → s.rd .SCH_TENANT_RESULT x ≠ 1 →
    Runs (.teardown x val) s fun t =>
      t.rd .SCH_TENANT_RUN_LIMIT x = bits val 16 16 ∧ t.rd .SCH_TENANT_WEIGHT x = bits val 0 8 ∧
      (s.rd .VF_STATUS_STATE x = 1 → t.rd .SCH_TENANT_RESULT x = 1 ∧ t.rd .VF_STATUS_STATE x = 2 ∧
        ∀ f ∈ t.flights, gqCtx f.gq ≠ x) ∧
      (s.rd .VF_STATUS_STATE x ≠ 1 → t.rd .SCH_TENANT_RESULT x = 2 ∧ t.flights = s.flights)) ∧
  (∀ (val : Nat) (s : State), s.served .late →
    Runs (.teardown 512 val) s fun t =>
      t.rd .SCH_TENANT_RUN_LIMIT 512 = bits val 16 16 ∧ t.rd .SCH_TENANT_WEIGHT 512 = bits val 0 8 ∧
      OnlyRegs s t [(.SCH_TENANT_RUN_LIMIT, 512), (.SCH_TENANT_WEIGHT, 512)]) ∧
  (∀ (x : Nat) (s : State), x < 512 → s.rd .VF_STATUS_STATE x = 2 →
    Runs (.teardownDone x) s fun t =>
      (∀ q < 512, (t.queue (qKey x q)).st = .disabled) ∧ (∀ h < 2 ^ 20, (t.tensor x h).kind = .free) ∧
      (∀ r ∈ t.m.hostMap, r.1 ≠ x) ∧ t.m.swapUsed.get 0 x = 0 ∧ (t.rd .VF_STATUS_STATE x = 0 ∨ t.rd .VF_STATUS_STATE x = 1) ∧
      t.rd .SCH_TENANT_RESULT x = 0 ∧ t.rd .SCH_TENANT_WEIGHT x = s.rd .SCH_TENANT_WEIGHT x ∧
      t.rd .SCH_TENANT_RUN_LIMIT x = s.rd .SCH_TENANT_RUN_LIMIT x ∧
      t.rd .MEM_POOL_QUOTA_QUOTA x = s.rd .MEM_POOL_QUOTA_QUOTA x ∧ t.home x = s.home x) ∧
  (∀ (x : Nat) (s : State), s.rd .VF_STATUS_STATE x ≠ 2 → exec (.teardownDone x) s = .next s)

/-- ATTEMPT_END changes nothing while the attempt waits for a host read or runs nowhere; then it counts the attempt and
writes its bytes. The counts of one record are added to the eight counters of its context alone: energy is the sum of
events by coefficient times K, whole microjoules to the counter and the rest carried forward. A calibration takes K from
the measured, idle and charged energies when it lies in 0.80-1.25, and otherwise keeps K and raises source 136. -/
def Obligations.AttemptsAndAccounts : Prop :=
  (∀ (ctx q slot : Nat) (u : Usage) (s : State),
    ((∀ f ∈ s.flightsOf (qKey ctx q), f.slot = slot → f.phase ≠ .running) →
      exec (.attemptEnd ctx q slot u) s = .next s) ∧
    (∀ r ∈ s.reqs, r.gq = qKey ctx q → r.slot = slot → exec (.attemptEnd ctx q slot u) s = .next s) ∧
    (∀ f, s.flightsOf (qKey ctx q) = [f] → f.slot = slot → f.phase = .running →
      dOp f.desc ≠ 0x04 → dOp f.desc ≠ 0x30 → dOp f.desc ≠ 0x28 → s.reqs = [] → s.allBound f = true →
      exec (.attemptEnd ctx q slot u) s = .next (s.finish f u))) ∧
  (∀ (ctx : Nat) (u : Usage) (s : State),
    ((s.chargeUse ctx u).acct.get 0 (acctKey ctx 0) = (s.acct.get 0 (acctKey ctx 0) + u.array) % 2 ^ 64) ∧
    ((s.chargeUse ctx u).acct.get 0 (acctKey ctx 4) = (s.acct.get 0 (acctKey ctx 4) + u.hbmRead) % 2 ^ 64) ∧
    ((s.chargeUse ctx u).acct.get 0 (acctKey ctx 5) = (s.acct.get 0 (acctKey ctx 5) + u.hbmWrite) % 2 ^ 64) ∧
    ((s.chargeUse ctx u).acct.get 0 (acctKey ctx 7) = (s.acct.get 0 (acctKey ctx 7) +
      (s.energyOf u * s.energyK + s.frac.get 0 ctx) / 10 ^ 12) % 2 ^ 64) ∧
    (s.chargeUse ctx u).frac.get 0 ctx = (s.energyOf u * s.energyK + s.frac.get 0 ctx) % 10 ^ 12 ∧
    (∀ c i, i < 8 → c ≠ ctx → (s.chargeUse ctx u).acct.get 0 (acctKey c i) = s.acct.get 0 (acctKey c i)) ∧
    (s.chargeUse ctx u).mem = s.mem) ∧
  (∀ (idle modelled : Nat) (s : State), modelled ≠ 0 →
    Runs (.energyCalibration idle modelled) s fun t =>
      (8000 ≤ ((s.rd .PWR_ENERGY_UJ + 2 ^ 64 - s.calUj) % 2 ^ 64 - idle) * 10000 / modelled →
        ((s.rd .PWR_ENERGY_UJ + 2 ^ 64 - s.calUj) % 2 ^ 64 - idle) * 10000 / modelled ≤ 12500 →
        t.energyK = ((s.rd .PWR_ENERGY_UJ + 2 ^ 64 - s.calUj) % 2 ^ 64 - idle) * 10000 / modelled ∧ t.csr = s.csr) ∧
      (((s.rd .PWR_ENERGY_UJ + 2 ^ 64 - s.calUj) % 2 ^ 64 - idle) * 10000 / modelled < 8000 ∨
        12500 < ((s.rd .PWR_ENERGY_UJ + 2 ^ 64 - s.calUj) % 2 ^ 64 - idle) * 10000 / modelled →
        t.energyK = s.energyK ∧ Raised s t 136) ∧
      t.calUj = s.rd .PWR_ENERGY_UJ)

/-- Each FP32 input of R194's table narrows into the five targets with the encodings and the saturation marks the table
gives. -/
def Obligations.NarrowingTable : Prop :=
  ∀ r ∈ [(0x3E99999A, [(0x00, false), (0x0, false), (0x02, false), (0x29, false), (0x34, false)]),
      (0xC06CCCCD, [(0xFD, false), (0xD, false), (0x36, false), (0xC6, false), (0xC3, false)]),
      (0xC2C80000, [(0x9C, false), (0xF, true), (0x3F, true), (0xEC, false), (0xD6, false)]),
      (0x43FA0000, [(0x7F, true), (0x7, true), (0x1F, true), (0x7E, true), (0x5F, false)]),
      (0x4788B800, [(0x7F, true), (0x7, true), (0x1F, true), (0x7E, true), (0x7B, true)]),
      (0xBA83126F, [(0x00, false), (0x8, false), (0x20, false), (0x80, false), (0x94, false)]),
      (0x7FC00000, [(0x00, true), (0x0, true), (0x00, true), (0x7F, false), (0x7E, false)])],
    [1, 3, 5, 6, 7].map (fun c => narrow c (decFP32 r.1) 0) = r.2

/-- For each of the eleven formats and each encoding of its width that is neither a NaN nor an infinity, narrowing the
encoding's exact value into the format gives the encoding back and does not saturate; a widening is therefore exact. -/
def Obligations.NarrowingInvertsDecoding : Prop :=
  ∀ (c b : Nat), c ≤ 10 → b < 2 ^ fmtBits c → (∃ s n d e, decElem c b = .fin s n d e) →
    narrow c (decElem c b) 0 = (b, false)

/-- With a threshold of 0, or counts below it, an attempt raises no event. At or above it an in-place command commits
with ACTION 3, policy 0 commits with ACTION 0, and policy 1 runs the command again with R207's successor when OPERAND
alone reaches the threshold and a successor exists, else it commits with ACTION 2. A re-run writes both saturation
registers, raises the SATURATION source, charges the attempt and leaves the command waiting in its place with the wider
format and no output bound. -/
def Obligations.SaturationPolicies : Prop :=
  (∀ (f : Flight) (s : State),
    (s.img.satLimit = 0 ∨ f.res.satOperand + f.res.satOutput < s.img.satLimit → s.satDecide f = .quiet) ∧
    (s.img.satLimit ≠ 0 → s.img.satLimit ≤ f.res.satOperand + f.res.satOutput →
      (dInPlace f.desc = true → s.satDecide f = .commit 3) ∧
      (dInPlace f.desc = false → s.img.satRerun = false → s.satDecide f = .commit 0) ∧
      (dInPlace f.desc = false → s.img.satRerun = true → f.res.satOperand < s.img.satLimit →
        s.satDecide f = .commit 2) ∧
      (dInPlace f.desc = false → s.img.satRerun = true → s.img.satLimit ≤ f.res.satOperand →
        s.satDecide f = match f.fmt with
          | 0 => .rerun 1
          | 1 => .rerun 8
          | 2 => .rerun 8
          | 3 => .rerun 6
          | 4 => .rerun 6
          | 5 => .rerun 6
          | 6 => .rerun 9
          | 7 => .rerun 9
          | _ => .commit 2))) ∧
  (∀ (n : Nat) (f : Flight) (s : State), f ∈ s.flights → n < 16 → gqCtx f.gq ≤ 512 →
    ∀ t, t = s.rerun f n →
      t.rd .VF_SAT_OPERAND (gqCtx f.gq) = min f.res.satOperand (2 ^ 32 - 1) ∧
      t.rd .VF_SAT_OUTPUT (gqCtx f.gq) = min f.res.satOutput (2 ^ 32 - 1) ∧
      t.rd .VF_SAT_WHERE_VALID (gqCtx f.gq) = 1 ∧ t.rd .VF_SAT_WHERE_TO (gqCtx f.gq) = n ∧
      t.rd .VF_SAT_WHERE_ACTION (gqCtx f.gq) = 1 ∧
      (∃ g ∈ t.flights, g.gq = f.gq ∧ g.slot = f.slot ∧ g.phase = .waiting ∧ g.fmt = n ∧ g.outs = [] ∧
        g.attempt = f.attempt + 1) ∧
      (∀ gq, t.queue gq = s.queue gq))

/-- MATMUL, VECTOR, CONV, POOL, CROP_RESIZE, ARGMAX, REGROUP, CODEC and ATTENTION act on the attempt of their opcode that
stands in slots, and change nothing without one. A bad header fails with DESCRIPTOR_INVALID, a bad body with its status
and address, a region larger than the capacity of a Caldera with LIMIT_EXCEEDED. A command that cannot take its outputs,
or must wait for a tail, changes nothing. An accepted one has bound its inputs' committed versions, holds its outputs,
region, line-buffer and Sinter demands and narrowing format, and is ready or waits for its region. The model's
FC(3 + e) computes the result at that moment (log values-at-start), so the attempt carries it. -/
def Obligations.CalderaCommandsStart : Prop :=
  ∀ ctx q : Nat,
    StartsOnCaldera (.matmul ctx q) (qKey ctx q) 0x10 (jobCheck matmulJob) ∧
    StartsOnCaldera (.vector ctx q) (qKey ctx q) 0x11 (jobCheck vectorJob) ∧
    StartsOnCaldera (.conv ctx q) (qKey ctx q) 0x18 (jobCheck convJob) ∧
    StartsOnCaldera (.pool ctx q) (qKey ctx q) 0x19 (jobCheck poolJob) ∧
    StartsOnCaldera (.cropResize ctx q) (qKey ctx q) 0x1A (jobCheck cropJob) ∧
    StartsOnCaldera (.argmax ctx q) (qKey ctx q) 0x1B (jobCheck argmaxJob) ∧
    StartsOnCaldera (.regroup ctx q) (qKey ctx q) 0x1C (jobCheck regroupJob) ∧
    StartsOnCaldera (.codec ctx q) (qKey ctx q) 0x1D (jobCheck codecJob) ∧
    StartsOnCaldera (.attention ctx q) (qKey ctx q) 0x20 attCheck

/-- SEQUENCER_BIND with no waiting slot changes nothing. Where exactly one slot waits and a sequencer outside the two
highest is free, the lowest such sequencer takes it: the slot is RUNNING with that SEQ. REGION_ZEROED leaves no dirty unit
of the slot and every other unit as it was. REGION_WAIT changes nothing before 1 ms. ARRAY_PARITY of an absent Caldera
changes nothing; in service, it raises source 192 + 16e + 3, removes the Caldera and empties its residency. -/
def Obligations.SequencersRegionsAndParity : Prop :=
  (∀ (e : Nat) (s : State), s.waitingSlots e = [] → exec (.sequencerBind e) s = .next s) ∧
  (∀ (e sl i : Nat) (f : Flight) (s : State), e < 6 → sl < 32 → s.waitingSlots e = [(sl, f)] →
    (((s.seqsOf e).filter fun i => !(s.seqBound e i)).head? = some i) →
    i ∈ (s.seqsOf e).take ((s.seqsOf e).length - 2) →
    Runs (.sequencerBind e) s fun t => t.rd .CE_SLOT_STATE (e * 32 + sl) = 3 ∧ t.rd .CE_SLOT_SEQ (e * 32 + sl) = i % 32 ∧
      (∀ u, u ≠ e * 32 + sl → t.rd .CE_SLOT_STATE u = s.rd .CE_SLOT_STATE u) ∧ t.queues = s.queues ∧ t.mem = s.mem) ∧
  (∀ (e sl : Nat) (s : State), Runs (.regionZeroed e sl) s fun t =>
    (∀ u < 512, ¬ ((t.regionAt e u).st = .dirty ∧ (t.regionAt e u).slot = sl)) ∧
    (∀ k, ¬ (k / 512 = e ∧ (s.region.get {} k).slot = sl ∧ (s.region.get {} k).st = .dirty) →
      (k, s.region.get {} k) ∈ s.region → (k, s.region.get {} k) ∈ t.region) ∧
    { t with region := s.region } = s) ∧
  (∀ (ctx q : Nat) (s : State),
    (∀ f ∈ s.flightsOf (qKey ctx q), f.phase = .placed → f.bound = true → s.gcnt < f.ready + 100000) →
    exec (.regionWait ctx q) s = .next s) ∧
  (∀ (ctx q : Nat) (f : Flight) (s : State), s.flightsOf (qKey ctx q) = [f] → f.phase = .placed → f.bound = true →
    f.ready + 100000 ≤ s.gcnt →
    exec (.regionWait ctx q) s = .next (s.fire (192 + 16 * ((f.slots.map (·.1)).headD 0) + 11))) ∧
  (∀ (e sl : Nat) (s : State), 6 ≤ e ∨ s.rd .CE_STATUS_STATE e = 0 → exec (.arrayParity e sl) s = .next s) ∧
  (∀ (e sl : Nat) (s : State), e < 6 → s.rd .CE_STATUS_STATE e = 1 → s.inSlot e sl = none →
    Runs (.arrayParity e sl) s fun t => Raised s t (192 + 16 * e + 3) ∧ t.rd .CE_STATUS_STATE e = 2 ∧
      (∀ r ∈ t.resident, r.ce ≠ e) ∧ (∀ f ∈ t.flights, f.killable = true → ∀ x ∈ f.slots, x.1 ≠ e))

/-- A COPY whose body breaks a rule ends at its start with that status. The destination rows of a FILL are the pattern
repeated, one per row of every plane. A plain copy carries each source row to the destination row of the same plane and
row. An in-place copy writes each row into the committed version, at the row's own offset. -/
def Obligations.CopyRows : Prop :=
  (∀ (ctx q : Nat) (s : State) (d : List Byte) (e : Nat × Nat), s.starts (qKey ctx q) 0x01 d →
    copyCheck (qKey ctx q) s d = .error e →
    exec (.copyCmd ctx q) s = .next ((s.entered (qKey ctx q) d
      (s.endedAtOnce (qKey ctx q) d e.1 e.2)).tryCommit (qKey ctx q) 0x01 noAct)) ∧
  (∀ (ctx : Nat) (s : State) (b : CopyBody), b.op = 1 → ∀ rows, s.copyRows ctx b = .ok rows →
    rows.length = b.dstOffs.length ∧
    ∀ r ∈ rows, r.length = b.rowB ∧ ∀ i < b.rowB, r.getD i 0 = (natLe b.elemB b.srcOff).getD (i % b.elemB) 0) ∧
  (∀ (ctx : Nat) (s : State) (b : CopyBody) (rows : List (List Byte)), b.op = 0 → s.copyRows ctx b = .ok rows →
    b.srcOffs.length = b.dstOffs.length ∧ rows.length = b.dstOffs.length ∧
    ∀ i < rows.length, s.ldBytes ctx (((s.tensor ctx b.src).curBuf : Int) + b.srcOffs.getD i 0).toNat b.rowB =
      .ok (rows.getD i [])) ∧
  (∀ (s : State) (f : Flight) (p : Plan) (rows : List (List Byte)), dInPlace f.desc = true →
    s.copyRows (gqCtx f.gq) (copyBody f.desc) = .ok rows →
    (copyGo s f p).2.res.writes = ((copyBody f.desc).dstOffs.zip rows).map fun x =>
      ⟨(((s.tensor (gqCtx f.gq) (copyBody f.desc).dst).curBuf : Int) + x.1).toNat, x.2⟩)

/-- Sixteen 8-bit samples whose range is at most 7 survive 2:1 encoding bit for bit. Any sixteen 8-bit samples decode to
samples that differ from them by at most 2^(SHIFT - 1) where SHIFT is not 0. The SHIFT an encoder writes is at most 5 in
2:1 mode and at most 3 in 4:1 mode, so an encoded block is never malformed. -/
def Obligations.CodecBlocks : Prop :=
  (∀ x : List Nat, x.length = 16 → (∀ v ∈ x, v ≤ 255) → listMax x - listMin x ≤ 7 → dec21 (enc21 x) = x) ∧
  (∀ x : List Nat, x.length = 16 → (∀ v ∈ x, v ≤ 255) → ∀ i < 16,
    let e := max 1 (2 ^ bits (enc21 x) 8 4) / 2
    (dec21 (enc21 x)).getD i 0 ≤ x.getD i 0 + e ∧ x.getD i 0 ≤ (dec21 (enc21 x)).getD i 0 + e) ∧
  (∀ x : List Nat, x.length = 16 → (∀ v ∈ x, v ≤ 255) →
    enc21 x < 2 ^ 64 ∧ blockBad 1 (enc21 x) = false ∧ enc41 x < 2 ^ 32 ∧ blockBad 2 (enc41 x) = false)

/-- SEQ_CREATE of a valid body on a clear queue completes at once: the FREE handle is KIND SEQUENCE with LENGTH 0, VERSION 0
and the lowest free window, its layout is the body's, no page is mapped, and every other entry stays as it was. A bad body
or a conflict leaves every entry as it was. SEQ_FORK makes CHILD a sequence of LENGTH tokens with the parent's layout and
leaves PARENT's length. SEQ_FREE, like it, completes at once on a clear queue, and leaves the entry FREE, its pages unmapped and no arena page held. -/
def Obligations.SequenceCommands : Prop :=
  (∀ (ctx q : Nat) (s : State) (d : List Byte), s.starts (qKey ctx q) 0x21 d → s.clear (qKey ctx q) →
    dInPlace d = false → dDefer d = false → gqCtx (qKey ctx q) = ctx →
    (seqCreateCheck (qKey ctx q) s d = .ok {} → (s.freeWindow ctx).isSome →
      Runs (.seqCreate ctx q) s fun t =>
        t.tensor ctx (d32 d 0x10) = { kind := .sequence, window := (s.freeWindow ctx).getD 0, length := 0 } ∧
        t.seq ctx (d32 d 0x10) = seqBody s.gcnt d ∧
        (∀ c h, (c, h) ≠ (ctx, d32 d 0x10) → c < 513 → h < 2 ^ 20 → d32 d 0x10 < 2 ^ 20 → t.tensor c h = s.tensor c h)) ∧
    (∀ e, seqCreateCheck (qKey ctx q) s d = .error e → Runs (.seqCreate ctx q) s fun t => t.tensors = s.tensors)) ∧
  (∀ (ctx q : Nat) (s : State) (d : List Byte), s.clear (qKey ctx q) → dInPlace d = false → dDefer d = false →
    gqCtx (qKey ctx q) = ctx →
    (s.starts (qKey ctx q) 0x22 d → seqForkCheck (qKey ctx q) s d = .ok { ins := [d32 d 0x10] } →
      s.handleFree ctx (d32 d 0x10) = false → s.heldInPlace ctx (d32 d 0x10) = false → s.seqMarked ctx (d32 d 0x10) = false →
      d32 d 0x10 ≠ d32 d 0x14 → d32 d 0x10 < 2 ^ 20 → d32 d 0x14 < 2 ^ 20 → ctx < 513 → Runs (.seqFork ctx q) s fun t =>
        (t.tensor ctx (d32 d 0x14)).kind = .sequence ∧ (t.tensor ctx (d32 d 0x14)).length = d32 d 0x18) ∧
    (s.starts (qKey ctx q) 0x23 d → seqHandleCheck (qKey ctx q) s d = .ok {} → s.seqBusy (qKey ctx q) (d32 d 0x10) = false →
      d32 d 0x10 < 2 ^ 20 → ctx < 513 → Runs (.seqFree ctx q) s fun t => (t.tensor ctx (d32 d 0x10)).kind = .free)) ∧
  (∀ (s : State) (f : Flight), gqCtx f.gq < 513 → d32 f.desc 0x10 < 2 ^ 20 → d32 f.desc 0x14 < 2 ^ 20 →
    d32 f.desc 0x10 ≠ d32 f.desc 0x14 →
    let t := seqForkAct s f
    (t.tensor (gqCtx f.gq) (d32 f.desc 0x14)).kind = .sequence ∧
      (t.tensor (gqCtx f.gq) (d32 f.desc 0x14)).length = d32 f.desc 0x18 ∧
      (t.seq (gqCtx f.gq) (d32 f.desc 0x14)).layers = (s.seq (gqCtx f.gq) (d32 f.desc 0x10)).layers ∧
      (t.seq (gqCtx f.gq) (d32 f.desc 0x14)).prio = d8 f.desc 0x1C ∧
      t.tensor (gqCtx f.gq) (d32 f.desc 0x10) = s.tensor (gqCtx f.gq) (d32 f.desc 0x10)) ∧
  (∀ (ctx h : Nat) (s : State), ctx < 513 → h < 2 ^ 20 →
    ((s.freeSeq ctx h).tensor ctx h).kind = .free ∧ ((s.freeSeq ctx h).seq ctx h).arena = [] ∧
      (∀ c g, c < 513 → g < 2 ^ 20 → (c, g) ≠ (ctx, h) → (s.freeSeq ctx h).tensor c g = s.tensor c g) ∧
      (s.freeSeq ctx h).m.swapUsed.get 0 ctx = s.m.swapUsed.get 0 ctx - (s.seq ctx h).arena.length)

/-- A KV_SWAP_OUT that can start marks its sequence, runs, and changes no tensor-table entry until its commit. Swapping a
sequence out sets SWAPPED and holds one arena page for each page that was mapped; swapping it in clears SWAPPED and holds
none. A swap of a sequence already in that state, and a handle that is no sequence, are STATE_CONFLICT; a disabled arena is
LIMIT_EXCEEDED. A park without an enabled arena fails at once with OUTCOME FAILED. With no marked sequence
VICTIM_SWAPPED_OUT changes nothing. -/
def Obligations.Swapping : Prop :=
  (∀ (ctx q : Nat) (s : State) (d : List Byte), s.starts (qKey ctx q) 0x24 d → swapOutCheck (qKey ctx q) s d = .ok {} →
    s.seqBusy (qKey ctx q) (d32 d 0x10) = false →
    Runs (.kvSwapOut ctx q) s fun t => (t.seq ctx (d32 d 0x10)).marked = true ∧ t.tensors = s.tensors ∧
      ∃ f ∈ t.flights, f.gq = qKey ctx q ∧ f.desc = d ∧ f.phase = .running) ∧
  (∀ (ctx h : Nat) (s : State), ctx < 513 → h < 2 ^ 20 →
    ((s.swapOut ctx h).tensor ctx h).swapped = true ∧ ((s.swapOut ctx h).seq ctx h).marked = false ∧
      ((s.swapOut ctx h).seq ctx h).arena.length =
        (s.seq ctx h).arena.length + (s.windowPages ctx (s.tensor ctx h).window).length) ∧
  (∀ (ctx h : Nat) (l : List Nat) (s : State), ctx < 513 → h < 2 ^ 20 →
    ((s.swapIn ctx h l).tensor ctx h).swapped = false ∧ ((s.swapIn ctx h l).seq ctx h).arena = [] ∧
      (s.swapIn ctx h l).m.swapUsed.get 0 ctx = s.m.swapUsed.get 0 ctx - (s.seq ctx h).arena.length) ∧
  (∀ (gq : Nat) (s : State) (d : List Byte), handleOk (d32 d 0x10) = true → dZero d 0x14 0x100 = true →
    (s.isSeq (gqCtx gq) (d32 d 0x10) = false →
      swapOutCheck gq s d = .error (5, d32 d 0x10) ∧ swapInCheck gq s d = .error (5, d32 d 0x10)) ∧
    (s.isSeq (gqCtx gq) (d32 d 0x10) = true →
      ((s.tensor (gqCtx gq) (d32 d 0x10)).swapped = true → swapOutCheck gq s d = .error (5, d32 d 0x10)) ∧
      ((s.tensor (gqCtx gq) (d32 d 0x10)).swapped = false → swapInCheck gq s d = .error (5, d32 d 0x10) ∧
        (s.arenaOn (gqCtx gq) = false → swapOutCheck gq s d = .error (7, 0))))) ∧
  (∀ (f : Flight) (n : Nat) (s : State), gqCtx f.gq < 513 → s.arenaOn (gqCtx f.gq) = false →
    (s.park f n).rd .VF_PARK_OUTCOME (gqCtx f.gq) = 2 ∧ (s.park f n).rd .VF_PARK_VALID (gqCtx f.gq) = 1 ∧
      (s.park f n).rd .VF_PARK_NEED (gqCtx f.gq) = min n (2 ^ 24 - 1)) ∧
  (∀ (ctx q : Nat) (s : State) (d : List Byte), s.starts (qKey ctx q) 0x25 d → gqCtx (qKey ctx q) = ctx →
    s.flightsOf (qKey ctx q) = [] → swapInCheck (qKey ctx q) s d = .ok {} → s.canSupply ctx ((s.seq ctx (d32 d 0x10)).arena.length) = true →
    Runs (.kvSwapIn ctx q) s fun t => ∃ f ∈ t.flights, f.gq = qKey ctx q ∧ f.desc = d ∧ f.phase = .running) ∧
  (∀ (ctx : Nat) (s : State), (∀ kv ∈ s.seqs, kv.2.marked = false) → exec (.victimSwappedOut ctx) s = .next s)

/-- On `w`-bit operands, w 64 or 32: addition, subtraction and multiplication wrap; shifts use their amount modulo w; a
division by zero gives all ones and the dividend; the most negative value divided by -1 gives itself and remainder 0. An
integer instruction with a legal encoding at a plain place raises nothing: it retires with its destination holding the
result, sign-extended to 64 bits, g0 discarding it, and every other register and all the rest of the state as they were. -/
def Obligations.IntegerInstructions : Prop :=
  (∀ w a b : Nat, w = 64 ∨ w = 32 → a < 2 ^ w → b < 2 ^ w →
    ((intOp .add w a b false : Int) = (a + b : Int) % 2 ^ w ∧ (intOp .sub w a b false : Int) = (a - b : Int) % 2 ^ w ∧
      (intOp .mul w a b false : Int) = (a * b : Int) % 2 ^ w) ∧
    (∀ op ∈ [IntOp.shl, .shr, .sra, .rol, .shli, .shri, .srai], intOp op w a b false = intOp op w a (b % w) false) ∧
    (intOp .div w a 0 false = 2 ^ w - 1 ∧ intOp .divu w a 0 false = 2 ^ w - 1 ∧ intOp .rem w a 0 false = a ∧
      intOp .remu w a 0 false = a) ∧
    (intOp .div w (2 ^ (w - 1)) (2 ^ w - 1) false = 2 ^ (w - 1) ∧ intOp .rem w (2 ^ (w - 1)) (2 ^ w - 1) false = 0)) ∧
  (∀ (i : TI) (op : IntOp) (o : TOp) (s : State), s.plainAt i → o.typ < 2 → o.dst < 32 → o.s1 < 32 → o.s2 < 32 → o.s3 < 8 →
    ∃ v, v < 2 ^ (intWidth o.typ) ∧
      Retires (.tInteger i op o) s i ((s.awake i.core).setReg o.dst (sext (intWidth o.typ) v)) ∧
      v = intOp op (intWidth o.typ) ((s.awake i.core).reg o.s1 % 2 ^ intWidth o.typ)
        ((if intHasImm op then ofSigned 64 (toSigned 32 (ofSigned 32 o.imm)) else (s.awake i.core).reg o.s2) %
          2 ^ intWidth o.typ) (((s.awake i.core).predVal i.core o.s3).testBit 0) % 2 ^ intWidth o.typ) ∧
  (∀ (c : Core) (n v : Nat), (c.setReg 0 v) = c ∧ c.reg 0 = 0 ∧ (n ≠ 0 → (c.setReg n v).reg n = v % 2 ^ 64) ∧
    ∀ m, m ≠ n → (c.setReg n v).reg m = c.reg m)

/-- At a plain place NOP and FENCE retire and change nothing. A compare on a sequencer or Fumarole core writes its result
to its destination predicate and ORs its flags; on a shader core bit 0 is the result. Predicate logic acts on all 64 bits.
A scalar float instruction writes its result to the low bits of its destination and ORs its flags; a NaN of the six
arithmetic operations is 0x7FC00000; FTOI of a NaN is 0. Where the predicate condition is false, each of them retires and
changes nothing else. -/
def Obligations.ComparesAndFloat : Prop :=
  (∀ (i : TI) (s : State), s.plainAt i → Retires (.nopInstruction i) s i (s.awake i.core) ∧
    Retires (.tFence i) s i (s.awake i.core)) ∧
  (∀ (i : TI) (op : CmpOp) (o : TOp) (s : State), s.plainAt i → predLogic op 0 0 = none → o.dst < 8 → o.s1 < 32 →
    o.s2 < 32 → o.s3 < 32 → cmpTypeOk op o.typ = true →
    let c := s.awake i.core
    let r := cmpVal op (intWidth o.typ) (c.reg o.s1) (c.reg o.s2)
    (profile i.core ≠ 1 → Retires (.compareToPredicate i op o) s i ((c.orFlags r.2).setPred o.dst (b2n r.1))) ∧
    (profile i.core = 1 → Runs (.compareToPredicate i op o) s fun t =>
      (o.dst ≠ 0 → ((t.core i.core).predVal i.core o.dst).testBit 0 = r.1) ∧
      (t.core i.core).fflags = Nat.lor c.fflags r.2 % 16 ∧ (t.core i.core).g = c.g ∧ (t.core i.core).pc = (c.pc + 8) % 2 ^ 64)) ∧
  (∀ (i : TI) (op : CmpOp) (o : TOp) (v : Nat) (s : State), s.plainAt i → o.dst < 8 → o.s1 < 8 → o.s2 < 8 → o.s3 < 32 →
    predLogic op ((s.awake i.core).predVal i.core o.s1) ((s.awake i.core).predVal i.core o.s2) = some v →
    Retires (.compareToPredicate i op o) s i ((s.awake i.core).setPred o.dst v)) ∧
  (∀ (i : TI) (op : FltOp) (o : TOp) (s : State), s.plainAt i → fltTypeOk op o.typ o.styp = true →
    o.dst < 32 → o.s1 < 32 → o.s2 < 32 → o.s3 < 32 →
    let c := s.awake i.core
    let r := fltOp op c.rm o.typ o.styp (c.reg o.s1) (c.reg o.s2) (c.reg o.s3)
    Runs (.scalarFloat i op o) s fun t =>
      (o.dst ≠ 0 → (t.core i.core).reg o.dst % 2 ^ r.1 = r.2.enc % 2 ^ r.1) ∧
      (∀ m, m ≠ o.dst → (t.core i.core).reg m = c.reg m) ∧ (t.core i.core).fflags = Nat.lor c.fflags r.2.flags % 16 ∧
      (t.core i.core).pc = (c.pc + 8) % 2 ^ 64 ∧ (t.core i.core).p = c.p ∧ t.mem = s.mem ∧ t.csr = s.csr) ∧
  (∀ rm a b c : Nat, ∀ op ∈ [FltOp.add, .sub, .mul, .fma, .div, .sqrt],
    (decFP32 (fltOp op rm fmtFP32 0 a b c).2.enc).isNaN = true → (fltOp op rm fmtFP32 0 a b c).2.enc = 0x7FC00000) ∧
  (∀ dst src b : Nat, (decElem src (b % 2 ^ fmtBits src)).isNaN = true → (fToInt dst src b).1 = 0) ∧
  (∀ (i : TI) (x : Instr) (s : State), s.quietAt i → (s.awake i.core).cond i = false →
    (x = .nopInstruction i ∨ x = .tFence i ∨ (∃ op o, x = .tInteger i op o ∧ o.typ < 2 ∧ o.dst < 32 ∧ o.s1 < 32 ∧
        o.s2 < 32 ∧ o.s3 < 8) ∨
      (∃ op o, x = .scalarFloat i op o ∧ fltTypeOk op o.typ o.styp = true ∧ o.dst < 32 ∧ o.s1 < 32 ∧ o.s2 < 32 ∧ o.s3 < 32) ∨
      (∃ m, (x = .tLd i m ∨ x = .tSt i m) ∧ memBad i m = false)) →
    Retires x s i (s.awake i.core))

/-- At a plain place with a legal form: an access to local memory of a Fumarole that is aligned and inside retires; LD
sign-extends and LDU zero-extends the bytes read, and ST leaves bytes that a load of the same place gives back. An access to
SPACE 0 that its load or store lets through retires. AMOADD, AMOSWAP and AMOMAX leave the sum, the operand or the signed
maximum in memory and give the old value; AMOCAS gives the old value. A misaligned local address raises MISALIGNED with its
EVA and one outside raises REGION, and the core has changed nothing but what the entry writes. -/
def Obligations.LoadsStoresAtomics : Prop :=
  (∀ (i : TI) (m : TMem) (s : State), s.plainAt i → i.core < 12 → memBad i m = false → m.space = 1 →
    let c := s.awake i.core
    let a := c.memAddr m
    let n := 2 ^ m.size
    (a % n = 0 → a + n ≤ 65536 →
      Retires (.tLd i m) s i (c.setReg m.data (sext (8 * n) (leNat (c.locBytes a n)))) ∧
      Retires (.tLdu i m) s i (c.setReg m.data (leNat (c.locBytes a n))) ∧
      Retires (.tSt i m) s i (c.putLoc a (natLe n (c.reg m.data % 2 ^ (8 * n))))) ∧
    (c.exl = false → (a % n ≠ 0 ∨ 65536 < a + n) → ∀ x ∈ [Instr.tLd i m, .tLdu i m, .tSt i m],
      exec x s = .next (s.setCore i.core (c.enter (if a % n ≠ 0 then 0x06 else 0x07) a)))) ∧
  (∀ (c : Core) (a n v : Nat), v < 2 ^ (8 * n) → leNat ((c.putLoc a (natLe n v)).locBytes a n) = v) ∧
  (∀ (i : TI) (m : TMem) (s s' : State) (v : Nat), s.plainAt i → memBad i m = false → m.space = 0 →
    s.coreLoad i (s.awake i.core) 0 ((s.awake i.core).memAddr m) (2 ^ m.size) = (s', .ok v) →
    exec (.tLd i m) s = .next (s'.setCore i.core ((s.awake i.core).setReg m.data (sext (8 * 2 ^ m.size) v)).step8) ∧
    exec (.tLdu i m) s = .next (s'.setCore i.core ((s.awake i.core).setReg m.data v).step8)) ∧
  (∀ (i : TI) (m : TMem) (s s' : State) (c : Core), s.plainAt i → memBad i m = false → m.space = 0 →
    s.coreStore i (s.awake i.core) 0 ((s.awake i.core).memAddr m) (2 ^ m.size)
      ((s.awake i.core).reg m.data % 2 ^ (8 * 2 ^ m.size)) = (s', .ok c) →
    exec (.tSt i m) s = .next (s'.setCore i.core c.step8)) ∧
  (∀ (i : TI) (m : TMem) (s s1 : State) (old : Nat), s.plainAt i → i.core < 12 → memBad i m = false → m.space = 0 →
    let c := s.awake i.core
    let n := 2 ^ m.size
    let v := c.reg m.data % 2 ^ (8 * n)
    s.coreLoad i c 0 (c.memAddr m) n = (s1, .ok old) →
    (∀ (x : Instr) (new : Nat) (t : State), (x = .amoadd i m ∧ new = (old + v) % 2 ^ (8 * n)) ∨ (x = .amoswap i m ∧ new = v) ∨
        (x = .amomax i m ∧ new = (if toSigned (8 * n) old < toSigned (8 * n) v then v else old)) →
      s1.coreStore i c 0 (c.memAddr m) n new = (t, .ok c) →
      exec x s = .next (t.setCore i.core (c.setReg m.data (sext (8 * n) old)).step8)) ∧
    ((∀ new, ∃ t, ({ s1 with fresh := s1.fresh + 2 } : State).coreStore i c 0 (c.memAddr m) n new = (t, .ok c)) →
      Runs (.amocas i m) s fun t => t.core i.core = (c.setReg m.data (sext (8 * n) old)).step8))

/-- At a plain place BR retires to its delay slot, writes its address + 16 to LINK whether taken or not, and after the delay
slot execution goes on at the target if taken, else past the slot. LOOP sets LS and LE; a count of 0 goes on at LE + 8 with
the loop inactive, another sets LC and the loop's bit. An instruction that completes at LE of one active loop with LC above
1 goes on at LS with LC one less; with LC 1 the loop ends and execution goes on. A BR in a delay slot and a LOOP of length 0
raise ILLEGAL. -/
def Obligations.BranchesAndLoops : Prop :=
  (∀ (i : TI) (link treg cond : Nat) (off : Int) (s : State), s.quietAt i → link < 32 → treg < 32 → cond < 3 →
    (link = treg → link = 0) →
    let c := s.awake i.core
    let target := ofSigned 64 (((if treg = 0 then c.pc else c.reg treg : Nat) : Int) + off * 8)
    target % 8 = 0 →
    Retires (.tBr i link treg cond off) s i { c.setReg link (c.pc + 16) with
      slot := some (c.pc, if brTaken cond (c.predMask i) then target else (c.pc + 16) % 2 ^ 64, brTaken cond (c.predMask i)) }) ∧
  (∀ (i : TI) (b nx : Nat) (tk : Bool) (s : State), s.coreOn i.core = true → s.fetchRaise i (s.awake i.core) = none →
    i.zero = 0 → i.pred < 8 → i.word = .clean → (s.core i.core).slot = some (b, nx, tk) → (s.core i.core).shadow = none →
    (s.core i.core).lact = 0 →
    exec (.nopInstruction i) s = .next (s.setCore i.core { s.awake i.core with slot := none, pc := nx % 2 ^ 64 }) ∧
    (∀ link treg cond off, exec (.tBr i link treg cond off) s = .next (s.raise i (s.awake i.core) causeIllegal))) ∧
  (∀ (i : TI) (lp cnt imm len : Nat) (s : State), s.plainAt i → cnt < 32 → lp < 4 →
    let c := s.awake i.core
    let ls := (c.pc + 8) % 2 ^ 64
    let le := (ls + (len - 1) * 8) % 2 ^ 64
    let count := (if cnt = 0 then imm else c.reg cnt) % 2 ^ 32
    (0 < len → count = 0 → exec (.loopSetup i lp cnt imm len) s = .next (s.setCore i.core
      { c with ls := c.ls.set 0 lp ls, le := c.le.set 0 lp le, lact := 0, pc := (le + 8) % 2 ^ 64 })) ∧
    (0 < len → count ≠ 0 → (len ≠ 0 ∧ le ≠ c.pc) → exec (.loopSetup i lp cnt imm len) s = .next (s.setCore i.core
      { c with ls := c.ls.set 0 lp ls, le := c.le.set 0 lp le, lc := c.lc.set 0 lp count, lact := 2 ^ lp,
               pc := (c.pc + 8) % 2 ^ 64 })) ∧
    (len = 0 → exec (.loopSetup i lp cnt imm len) s = .next (s.raise i c causeIllegal))) ∧
  (∀ (i : TI) (n : Nat) (s : State), s.coreOn i.core = true → s.fetchRaise i (s.awake i.core) = none → i.zero = 0 →
    i.pred < 8 → i.word = .clean → (s.core i.core).slot = none → (s.core i.core).shadow = none → n < 4 →
    (s.core i.core).lact = 2 ^ n → (s.core i.core).le.get 0 n = (s.core i.core).pc →
    let c := s.awake i.core
    (1 < c.lc.get 0 n → exec (.nopInstruction i) s = .next (s.setCore i.core
      { c with lc := c.lc.set 0 n (c.lc.get 0 n - 1), pc := c.ls.get 0 n % 2 ^ 64 })) ∧
    (c.lc.get 0 n = 1 → exec (.nopInstruction i) s = .next (s.setCore i.core
      { c with lc := c.lc.set 0 n 0, lact := 0, pc := (c.pc + 8) % 2 ^ 64 })))

/-- A TRAP on a Fumarole with EXL 0 saves PC, cause 0x09, MODE and LACT, sets PRIV 1, IE 0, EXL 1 with RM unchanged and
LACT 0, and goes on at EVEC. ERET of an entry gives back MODE, LACT and the pending mode change, and goes on at EPC: the
instruction again, or the branch whose delay slot raised. MTMODE in supervisor mode arms MODE[3:0] for after two more
instructions. MFCR reads and MTCR writes a control register. BREAK traps, and halts the core at debug level 2. WFI sleeps.
An interrupt is taken at a boundary with IE 1 outside a delay slot, with EPC the next instruction. -/
def Obligations.SystemInstructions : Prop :=
  (∀ (i : TI) (code : Nat) (s : State), s.plainAt i → i.core < 12 → (s.core i.core).exl = false →
    Runs (.tTrap i code) s fun t =>
      let c := s.awake i.core
      let d := t.core i.core
      d.epc = c.pc ∧ d.ecause = 0x09 ∧ d.eva = 0 ∧ d.ebt = 0 ∧ d.emode = c.mode ∧ d.epmode = c.mode ∧ d.eflags = 0 ∧
        d.super = true ∧ d.ie = false ∧ d.exl = true ∧ d.rm = c.rm ∧ d.lact = 0 ∧ d.pc = c.evec ∧ d.g = c.g ∧ d.p = c.p ∧
        d.lc = c.lc ∧ (∀ id, id ≠ i.core → t.core id = s.core id) ∧ t.mem = s.mem ∧ t.csr = s.csr) ∧
  (∀ (i : TI) (c : Core) (cause eva : Nat) (s : State), c.mode < 32 → c.lact < 16 → c.slot = none →
    (c.shadow = none ∨ ∃ n m, c.shadow = some (n, m) ∧ 1 ≤ n ∧ n ≤ 2 ∧ m < 16) → s.core i.core = c.enter cause eva → s.coreOn i.core = true → s.fetchRaise i (s.awake i.core) = none → i.zero = 0 →
    i.pred < 8 → (s.awake i.core).cond i = true →
    Runs (.tEret i) s fun t => (t.core i.core).mode = c.mode ∧ (t.core i.core).lact = c.lact ∧ (t.core i.core).pc = c.pc ∧
      (t.core i.core).shadow = c.shadow ∧ (t.core i.core).slot = none ∧ (t.core i.core).lc = c.lc ∧ (t.core i.core).g = c.g) ∧
  (∀ (c : Core) (cause eva b nx n m : Nat) (tk : Bool), c.mode < 32 → c.slot = some (b, nx, tk) → c.shadow = some (n, m) →
    n = 1 → (c.enter cause eva).epc = b ∧ (c.enter cause eva).ebt = (if tk then nx else c.pc + 8) ∧
      (c.enter cause eva).eflags.testBit 0 = true ∧ (c.enter cause eva).eflags.testBit 1 = true ∧
      bits (c.enter cause eva).eflags 2 2 = 2 ∧ (m < 16 → (c.enter cause eva).epmode % 16 = m)) ∧
  (∀ (i : TI) (s1 : Nat) (s : State), s.plainAt i → s1 < 32 → (s.core i.core).super = true → (s.awake i.core).reg s1 < 16 →
    Retires (.mtmode i s1) s i { s.awake i.core with
      shadow := some (2, if i.core < 12 then (s.awake i.core).reg s1 else clrBit ((s.awake i.core).reg s1) 2) }) ∧
  (∀ (i : TI) (r code : Nat) (s : State), s.plainAt i → r < 32 → (s.core i.core).super = true → crKnown code = true →
    Retires (.mfcr i r code) s i ((s.awake i.core).setReg r ((s.crRead i.core (s.awake i.core) code).getD 0)) ∧
    (∀ v, (s.awake i.core).reg r = v → code = 2 ∨ code = 5 ∨ code = 6 →
      Runs (.mtcr i r code) s fun t => s.crRead i.core (t.core i.core) code = some (v % 2 ^ 64))) ∧
  (∀ (i : TI) (r code : Nat) (s : State), s.plainAt i → r < 32 → i.core < 12 → (s.core i.core).super = false →
    (s.core i.core).exl = false → crKnown code = true →
    (crUserRead code = false → exec (.mfcr i r code) s = .next (s.setCore i.core ((s.awake i.core).enter 0x02 0))) ∧
    (crUserWrite code = false → exec (.mtcr i r code) s = .next (s.setCore i.core ((s.awake i.core).enter 0x02 0)))) ∧
  (∀ (i : TI) (code : Nat) (s : State), s.plainAt i → i.core < 12 →
    (s.rd .SEC_STATUS_DEBUG 0 = 2 → exec (.brk i code) s = .next (s.setCore i.core { s.awake i.core with halted := true })) ∧
    (s.rd .SEC_STATUS_DEBUG 0 ≠ 2 → (s.core i.core).exl = false →
      exec (.brk i code) s = .next (s.setCore i.core ((s.awake i.core).enter 0x0A 0)))) ∧
  (∀ (i : TI) (s : State), s.plainAt i → i.core < 12 →
    Retires (.tWfi i) s i { s.awake i.core with asleep := true }) ∧
  (∀ (fc : Nat) (ok : Bool) (s : State), fc < 12 → s.coreOn fc = true → (s.core fc).ie = true → (s.core fc).exl = false →
    ((s.core fc).slot = none → Runs (.interruptTake fc ok) s fun t => (t.core fc).ecause = 0x80 ∧
      (t.core fc).epc = (s.core fc).pc ∧ (t.core fc).pc = (s.core fc).evec ∧ (t.core fc).exl = true ∧
      (t.core fc).ie = false ∧ (t.core fc).emode = (s.core fc).mode) ∧
    ((s.core fc).slot ≠ none → exec (.interruptTake fc ok) s = .next s))

/-- At a plain place on a sequencer: TOK.SIG adds to its counter, which stops at 255 and then marks the overflow; TOK.WAIT
subtracts where the counter is enough, stalls where it is not, and raises TOKEN_OVERFLOW or DMA_FAULT where a flag is set;
TOK.CLR clears counter and flags. An issue whose operands lie in the region lists one run with its token; one outside raises
REGION. The end of a run takes it off the list and signals its token; SEQ.END leaves the slot ENDED with its status. The
watchdog of a bound sequencer raises source 5 of its Caldera; of another it changes nothing. -/
def Obligations.SequencerInstructions : Prop :=
  (∀ (i : TI) (s1 n : Nat) (s : State), s.plainAt i → profile i.core = 0 → s1 < 32 → n < 256 →
    let c := s.awake i.core
    let k := tokOf (c.reg s1)
    (Retires (.tokSig i s1 n) s i (c.signal k n) ∧ (c.signal k n).tok.get 0 k = min 255 (c.tok.get 0 k + n) ∧
      (255 < c.tok.get 0 k + n → k ∈ (c.signal k n).tokOver)) ∧
    Retires (.tokClr i s1) s i { c with
      tok := c.tok.set 0 k 0, tokOver := c.tokOver.filter (· ≠ k), tokErr := c.tokErr.filter (·.tk ≠ k) } ∧
    (c.tokOver.contains k = false → (∀ e ∈ c.tokErr, e.tk ≠ k) →
      (n ≤ c.tok.get 0 k → Retires (.tokWait i s1 n) s i { c with tok := c.tok.set 0 k (c.tok.get 0 k - n) }) ∧
      (c.tok.get 0 k < n → exec (.tokWait i s1 n) s = .next s)) ∧
    (c.tokOver.contains k = true → exec (.tokWait i s1 n) s = .next (s.raise i c { cause := 0x0B })) ∧
    (∀ e, c.tokOver.contains k = false → c.tokErr.find? (·.tk == k) = some e →
      exec (.tokWait i s1 n) s = .next (s.raise i c { cause := 0x0C, eva := e.va, st := e.status }))) ∧
  (∀ (i : TI) (o : TOp) (s : State), s.plainAt i → profile i.core = 0 → o.s1 < 32 → o.s2 < 32 → o.s3 < 32 →
    let c := s.awake i.core
    let w := c.reg o.s3
    let size := s.localSize i.core
    let lists := fun (x : Instr) (k : RunKind) => Runs x s fun t => t.core i.core =
      ({ c with runs := c.runs ++ [⟨o.typ % 16, k⟩] } : Core).step8
    (c.reg o.s2 + bits w 0 32 * bits w 32 16 ≤ size →
      lists (.dmaIn i o) (.dma false (c.reg o.s1) (c.reg o.s2) (bits w 0 32) (bits w 32 16) (bits w 48 16 * 64)) ∧
      lists (.dmaOut i o) (.dma true (c.reg o.s1) (c.reg o.s2) (bits w 0 32) (bits w 32 16) (bits w 48 16 * 64))) ∧
    (size < c.reg o.s2 + bits w 0 32 * bits w 32 16 →
      exec (.dmaIn i o) s = .next (s.raise i c { cause := 0x07, eva := c.reg o.s2 })) ∧
    (c.reg o.s2 < size → c.reg o.s3 < size →
      lists (.arrLoad i o) (.load (s.arrayOf i.core (c.reg o.s1)) (c.reg o.s2) (c.reg o.s3))) ∧
    (c.reg o.s2 < size → lists (.opuRun i o) (.opu (c.reg o.s1 % 4) (c.reg o.s2)) ∧
      lists (.arrPass i o) (.pass (s.arrayOf i.core (c.reg o.s1)) (c.reg o.s2) (bits w 0 16) (bits w 16 10)
        (w.testBit 26) (w.testBit 27))) ∧
    (c.reg o.s2 + s.drainBytes i.core (bits w 10 11) (bits w 21 4) ≤ size →
      lists (.arrDrain i o) (.drain (s.arrayOf i.core (c.reg o.s1)) (c.reg o.s2) (bits w 0 10) (bits w 10 11) (bits w 21 4))) ∧
    (c.reg o.s1 < 16384 → lists (.vecRun i o) (.vec (c.reg o.s1)))) ∧
  (∀ (core n mem bank off : Nat) (r : UnitRun) (f : Flight) (sl : Nat) (s : State), profile core = 0 → s.coreOn core = true →
    s.coreFlight core = some f → s.seqSlot core = some sl → (s.core core).runs[n]? = some r →
    (∀ out va o b k p, r.kind ≠ .dma out va o b k p) →
    Runs (.unitEnd core n .clean mem bank off) s fun t =>
      (t.core core).runs = (s.core core).runs.eraseIdx n ∧
      (t.core core).tok.get 0 r.tk = min 255 ((s.core core).tok.get 0 r.tk + 1) ∧ t.mem = s.mem) ∧
  (∀ (i : TI) (s1 sl : Nat) (f : Flight) (s : State), s.plainAt i → profile i.core = 0 → s1 < 32 →
    s.coreFlight i.core = some f → s.seqSlot i.core = some sl → seqCe i.core < 6 → sl < 32 →
    Runs (.seqEnd i s1) s fun t => t.rd .CE_SLOT_STATE (seqCe i.core * 32 + sl) = 4 ∧
      ((s.awake i.core).reg s1 % 256 = 0 → t.flights = s.flights)) ∧
  (∀ (ce sq : Nat) (s : State), ce < 6 → sq < 16 →
    (s.coreFlight (seqCore ce sq) = none → exec (.seqWatchdog ce sq) s = .next s) ∧
    (∀ f, s.coreFlight (seqCore ce sq) = some f → exec (.seqWatchdog ce sq) s =
      .next ((s.fire (192 + 16 * ce + 5)).seqLost (seqCore ce sq))))

/-- Where its fetch is clean, on a shader core: vector arithmetic writes only the active lanes of its destination, each with its
operation's result, and leaves every other lane and scalar register. VLD and VST retire where every lane's access succeeds.
TEX and TEXL with an overlap or past v63 raise ILLEGAL. ILK.ACQ marks the active lanes' fragments held, or stalls behind an
earlier fragment; ILK.REL releases them. EXP.C, EXP.MV and EXP.Z note their value in the active lanes' fragments and change
no other. EXP.END and DISCARD end the active lanes. The interlock timeout fails the pass with TIMEOUT. -/
def Obligations.ShaderInstructions : Prop :=
  (∀ (i : TI) (op : VecOp) (o : TOp) (s : State), s.quietAt i → profile i.core = 1 → (∀ k, op ≠ .cmp k) → op ≠ .sel →
    op ≠ .bcast → op ≠ .swz → op ≠ .cvt → op ≠ .lane → vecTypeOk op o.typ o.styp = true → o.dst < 64 → o.s1 < 64 →
    o.s2 < 64 → o.s3 < 64 →
    let c := s.awake i.core
    Runs (.vectorArithmetic i op o) s fun t =>
      (∀ l < 64, (t.core i.core).vreg o.dst l = if (c.predMask i).testBit l then
        (vecLane op c.rm o.typ (c.vreg o.s1 l) (c.vreg o.s2 l) (c.vreg o.s3 l)).1 % 2 ^ 32 else c.vreg o.dst l) ∧
      (∀ r l, r ≠ o.dst → l < 64 → (t.core i.core).vreg r l = c.vreg r l) ∧ (t.core i.core).g = c.g ∧
      (t.core i.core).p = c.p ∧ (t.core i.core).pc = (c.pc + 8) % 2 ^ 64 ∧ t.mem = s.mem ∧ t.csr = s.csr) ∧
  (∀ (i : TI) (o : TOp) (size : Nat) (s s' : State) (c' : Core), s.quietAt i → profile i.core = 1 → laneBad o size = false →
    let c := s.awake i.core
    misLane c o (2 ^ size) (s.activeLanes c i) = none →
    (s.loadLanes i o (2 ^ size) c (s.activeLanes c i) c = (s', .ok c') → c'.lact = 0 →
      exec (.vld i o size) s = .next (s'.setCore i.core (c.complete c' none))) ∧
    (s.storeFault i o c (s.activeLanes c i) = none →
      s.storeLanes i o (2 ^ size) c (s.activeLanes c i) = (s', none) →
      exec (.vst i o size) s = .next (s'.setCore i.core c.step8))) ∧
  (∀ (i : TI) (o : TOp) (s : State), s.quietAt i → profile i.core = 1 →
    (texBad o 3 = true → exec (.tex i o) s = .next (s.raise i (s.awake i.core) causeIllegal)) ∧
    (texBad o 4 = true → exec (.texl i o) s = .next (s.raise i (s.awake i.core) causeIllegal)) ∧
    (∀ g f t c', s.groupOf i.core = some g → s.coreFlight i.core = some f →
      s.emb.texs[(s.awake i.core).reg o.s2 % 4096]? = some t → d8 t 4 % 4 ≠ 1 →
      (texBad o 3 = false → s.sampleLanes (gqCtx f.gq) t o (s.awake i.core) false (s.activeLanes (s.awake i.core) i)
          (s.awake i.core) = .ok c' →
        exec (.tex i o) s = .next (s.setCore i.core ((s.awake i.core).complete c' none))) ∧
      (texBad o 4 = false → s.sampleLanes (gqCtx f.gq) t o (s.awake i.core) true (s.activeLanes (s.awake i.core) i)
          (s.awake i.core) = .ok c' →
        exec (.texl i o) s = .next (s.setCore i.core ((s.awake i.core).complete c' none))))) ∧
  (∀ (i : TI) (g : EmbGroup) (s : State), s.quietAt i → profile i.core = 1 → s.inFrag i = true → s.groupOf i.core = some g →
    let c := s.awake i.core
    let ls := s.activeLanes c i
    let free := s.lanesOk g ls fun fr => fr.ilk == 1 || !(s.blockers fr fun e => e.ilk != 2 && !e.ended)
    (free = true → exec (.ilkAcq i) s = .next ((s.onFrags g ls fun _ fr => { fr with ilk := 1 }).setCore i.core c.step8)) ∧
    (free = false → exec (.ilkAcq i) s = .next s) ∧
    exec (.ilkRel i) s = .next ((s.onFrags g ls fun _ fr => if fr.ilk = 1 then { fr with ilk := 2 } else fr).setCore
      i.core c.step8) ∧
    (∀ k vs, k < 8 → vs + 3 < 64 → exec (.expC i k vs) s = .next ((s.onFrags g ls fun l fr =>
      { fr with colour := fr.colour.set [] k ((List.range 4).map fun n => c.vreg (vs + n) l) }).setCore i.core c.step8)) ∧
    (∀ vs, vs + 1 < 64 → exec (.expMv i vs) s = .next ((s.onFrags g ls fun l fr =>
      { fr with mv := some (c.vreg vs l, c.vreg (vs + 1) l) }).setCore i.core c.step8)) ∧
    (∀ vs, vs < 64 → exec (.expZ i vs) s = .next ((s.onFrags g ls fun l fr =>
      { fr with z := some (c.vreg vs l) }).setCore i.core c.step8)) ∧
    (∀ f, s.coreFlight i.core = some f → ls.foldl clrBit g.live ≠ 0 →
      ∀ x ∈ [Instr.expEnd i, .tDiscard i], Runs x s fun t => t.core i.core = c.step8 ∧
        ∀ r ∈ t.emb.run, r.1 = i.core - 108 → r.2 = { g with live := ls.foldl clrBit g.live })) ∧
  (∀ (g : EmbGroup) (ls : List Nat) (h : Nat → Frag → Frag) (s : State),
    ∀ fr ∈ s.emb.frags, fr.prim ≠ g.prim ∨ (∀ l ∈ ls, g.pix.getD l (0, 0) ≠ (fr.x, fr.y)) →
      fr ∈ (s.onFrags g ls h).emb.frags) ∧
  (∀ (core : Nat) (s : State), profile core = 1 → s.coreOn core = true → s.inFrag { core := core } = true →
    exec (.interlockTimeout core) s = .next ((s.fire 357).failPass 9 0))

/-- Writing ENABLE 1 on an idle lane with a legal geometry enters ROUTE with its counters, flags and k at 0 and DONE all ones;
writing 0 clears it. VIS_TRIG_ADD adds in route mode; a sum above 255 leaves 255, sets OVF_PYR and raises TRG_OVERFLOW; it
is ignored in IDLE and COMMAND. A pyramid run takes one count: a header with FRAME other than k writes nothing, raises INPUT_MISSING
and keeps k; with FRAME k and every range in the partition it is busy; a stray address sets VIS_ERR, raises ROUTE_FAULT and
leaves memory alone. It waits for motion run k - 2. Motion and refine runs take one count each. The ends of the runs clear
BUSY, advance k, add 1 to the next counter or set DONE, and raise their source; an uncorrectable word of a pyramid run raises
ECC_UE and writes no byte. -/
def Obligations.VisionRouteMode : Prop :=
  (∀ (l : Nat) (s : State), l < 4 → s.served .late →
    (s.rd .VIS_STATUS_STATE l = 1 → s.rd .VIS_CTRL_ENABLE l = 0 → (s.visGeom l).isSome = true → s.testing 3 l = false →
      s.testFailed 3 l = false → Runs (.visEnable l) s fun t =>
        t.rd .VIS_STATUS_STATE l = 2 ∧ t.rd .VIS_CTRL_ENABLE l = 1 ∧ t.rd .VIS_FRAME_NEXT l = 0 ∧
        t.rd .VIS_FRAME_DONE l = 2 ^ 32 - 1 ∧ (t.lane l).kP = 0 ∧ (t.lane l).kM = 0 ∧ (t.lane l).kR = 0 ∧
        (∀ f ∈ [Fld.VIS_TRIG_PYR, .VIS_TRIG_MOT, .VIS_TRIG_REF, .VIS_TRIG_OVF_PYR, .VIS_TRIG_OVF_MOT, .VIS_TRIG_OVF_REF],
          t.rd f l = 0) ∧ Raised s t (288 + 16 * l + 6) ∧ t.mem = s.mem ∧ t.flights = s.flights) ∧
    (s.visGeom l = none → exec (.visEnable l) s = .next s) ∧
    (s.rd .VIS_STATUS_STATE l ≠ 3 → Runs (.visDisable l) s fun t => t.rd .VIS_CTRL_ENABLE l = 0 ∧ t.mem = s.mem) ∧
    (s.rd .VIS_STATUS_STATE l = 3 → exec (.visDisable l) s = .next s)) ∧
  (∀ (l v : Nat) (s : State), l < 4 → s.served .late →
    (s.rd .VIS_STATUS_STATE l = 2 → s.rd .VIS_TRIG_PYR l + v % 256 ≤ 255 →
      exec (.visTrigAdd l v) s = .next (s.wr .VIS_TRIG_PYR l (s.rd .VIS_TRIG_PYR l + v % 256))) ∧
    (s.rd .VIS_STATUS_STATE l = 2 → 255 < s.rd .VIS_TRIG_PYR l + v % 256 → Runs (.visTrigAdd l v) s fun t =>
      t.rd .VIS_TRIG_PYR l = 255 ∧ t.rd .VIS_TRIG_OVF_PYR l = 1 ∧ Raised s t (288 + 16 * l + 3) ∧
      OnlyRegsIrq s t [(.VIS_TRIG_PYR, l), (.VIS_TRIG_OVF_PYR, l)]) ∧
    (s.rd .VIS_STATUS_STATE l = 1 ∨ s.rd .VIS_STATUS_STATE l = 3 → exec (.visTrigAdd l v) s = .next s)) ∧
  (∀ (l n : Nat) (g : VisGeom) (s : State), l < 4 → s.rd .VIS_STATUS_STATE l = 2 → s.rd .VIS_CTRL_ENABLE l = 1 →
    s.visGeom l = some g → s.visBusy l 0 = false → n < 255 → s.rd .VIS_TRIG_PYR l = n + 1 →
    let k := (s.lane l).kP
    let e := s.visIn l k
    (2 ≤ k → (s.lane l).kM < k - 1 → exec (.pyramidRunStart l) s = .next s) ∧
    (¬ (2 ≤ k ∧ (s.lane l).kM < k - 1) →
      (∀ pa, s.visStray l [(e, 64)] = some pa → Runs (.pyramidRunStart l) s fun t =>
        t.rd .VIS_TRIG_PYR l = (if (s.lane l).unbind = true then 0 else n) ∧ t.rd .VIS_ERR_VALID l = 1 ∧
        t.rd .VIS_ERR_PA l = pa % 2 ^ 46 ∧
        ((s.lane l).unbind = false → t.rd .VIS_STATUS_STATE l = 4) ∧ Raised s t (288 + 16 * l + 5) ∧ t.mem = s.mem) ∧
      (s.visStray l [(e, 64)] = none → s.paBad e 16 = false → leNat (s.paBytes e 8) ≠ k →
        Runs (.pyramidRunStart l) s fun t => t.rd .VIS_TRIG_PYR l = n ∧ (t.lane l).kP = k ∧ t.mem = s.mem ∧
          t.rd .VIS_STATUS_BUSY l = s.rd .VIS_STATUS_BUSY l ∧ Raised s t (288 + 16 * l + 4)) ∧
      (s.visStray l [(e, 64)] = none → s.paBad e 16 = false → leNat (s.paBytes e 8) = k →
        s.visStray l [(e + 64, g.planeBytes), (s.visPyr l k g, pyrBytes g.sizes)] = none →
        exec (.pyramidRunStart l) s = .next ((s.wr .VIS_TRIG_PYR l n).wr .VIS_STATUS_BUSY l
          (setBit (s.rd .VIS_STATUS_BUSY l) 0))))) ∧
  (∀ (l n : Nat) (g : VisGeom) (s : State), l < 4 → s.rd .VIS_STATUS_STATE l = 2 → s.rd .VIS_CTRL_ENABLE l = 1 →
    s.visGeom l = some g →
    (s.visBusy l 1 = false → n < 255 → s.rd .VIS_TRIG_MOT l = n + 1 →
      s.visStray l [(s.visPyr l (s.lane l).kM g, pyrBytes g.sizes), (s.visPyr l ((s.lane l).kM + 2) g, pyrBytes g.sizes),
        (s.visOut l (s.lane l).kM g, g.outBytes)] = none →
      Runs (.motionRunStart l) s fun t => t.rd .VIS_TRIG_MOT l = n ∧ t.visBusy l 1 = true ∧
        t.mem = (s.paWrite (s.visOut l (s.lane l).kM g) (natLe 8 (2 ^ 64 - 1)) 9).mem) ∧
    (s.visBusy l 2 = false → s.rd .VIS_TRIG_REF l = n + 1 → exec (.refineRunStart l) s =
      .next ((s.wr .VIS_TRIG_REF l n).wr .VIS_STATUS_BUSY l (setBit (s.rd .VIS_STATUS_BUSY l) 2)))) ∧
  (∀ (l : Nat) (ecc : Bool) (g : VisGeom) (s : State), l < 4 → s.rd .VIS_STATUS_STATE l = 2 → s.visGeom l = some g →
    (s.visBusy l 0 = true → Runs (.pyrDone l ecc) s fun t => t.visBusy l 0 = false ∧
      (t.lane l).kP = (s.lane l).kP + 1 ∧ t.rd .VIS_FRAME_NEXT l = ((s.lane l).kP + 1) % 2 ^ 32 ∧
      t.rd .VIS_TRIG_MOT l = min 255 (s.rd .VIS_TRIG_MOT l + 1) ∧ Raised s t (288 + 16 * l) ∧
      (ecc = true → t.mem = s.mem ∧ Raised s t (288 + 16 * l + 7))) ∧
    (s.visBusy l 1 = true → Runs (.motDone l ecc) s fun t => t.visBusy l 1 = false ∧
      (t.lane l).kM = (s.lane l).kM + 1 ∧ t.rd .VIS_TRIG_REF l = min 255 (s.rd .VIS_TRIG_REF l + 1) ∧
      Raised s t (288 + 16 * l + 1)) ∧
    (s.visBusy l 2 = true → Runs (.frameDone l ecc) s fun t => t.visBusy l 2 = false ∧
      (t.lane l).kR = (s.lane l).kR + 1 ∧ t.rd .VIS_FRAME_DONE l = (s.lane l).kR % 2 ^ 32 ∧ Raised s t (288 + 16 * l + 2)))

/-- Level 0 from a RAW plane has samples of at most 255, and so has each level above a plane whose samples are at most 255,
of half its size rounded up. The search chooses a candidate of its list that no other candidate comes before in key order, and
in a still picture a level-0 block with centre (0, 0) has vector (0, 0) and cost 0. A threshold of 0 refines no block.
VISION_RUN ends at once with its status where its body or its tensors forbid it; where it may start and a lane is free, the
first free lane is in COMMAND with TRG_PYR 1 and holds the command; with PYR_ONLY it will write the pyramid of its input.
LEVELS 0 or above 8 and format 3 are DESCRIPTOR_INVALID. -/
def Obligations.VisionCommandsAndSearch : Prop :=
  (∀ (fmt w h : Nat) (rows : Array Nat) (x y : Nat), fmt = 1 ∨ fmt = 2 → (level0 fmt w h rows).px_ x y ≤ 255) ∧
  (∀ p : Plane, (∀ x y, p.px_ x y ≤ 255) → p.down.w = (p.w + 1) / 2 ∧ p.down.h = (p.h + 1) / 2 ∧
    ∀ x y, p.down.px_ x y ≤ 255) ∧
  (∀ l : List SearchHit, l ≠ [] → bestHit l ∈ l ∧ ∀ c ∈ l, hitLt c (bestHit l) = false) ∧
  (∀ (p : Plane) (lambda bias bx by_ : Nat), (block0 p.level p.level lambda bias (0, 0) bx by_).dx = 0 ∧
    (block0 p.level p.level lambda bias (0, 0) bx by_).dy = 0 ∧ (block0 p.level p.level lambda bias (0, 0) bx by_).cost = 0) ∧
  (∀ (cur ref : Plane) (lambda bias : Nat) (bs : Array BlockVec), refineBlocks cur ref lambda bias 0 bs = (0, [])) ∧
  (∀ (ctx q : Nat) (s : State) (d : List Byte), s.starts (qKey ctx q) 0x28 d →
    (∀ e, visCheck (qKey ctx q) s d = .error e →
      exec (.visionRun ctx q) s = .next ((s.entered (qKey ctx q) d
        (s.endedAtOnce (qKey ctx q) d e.1 e.2)).tryCommit (qKey ctx q) 0x28 noAct)) ∧
    (∀ (p : Plan) (l : Nat), visCheck (qKey ctx q) s d = .ok p → s.freeVisLane = some l →
      s.canAcquire (qKey ctx q) (dInPlace d) p = true → s.flightsOf (qKey ctx q) = [] →
      Runs (.visionRun ctx q) s fun t => t.rd .VIS_STATUS_STATE l = 3 ∧ t.rd .VIS_TRIG_PYR l = 1 ∧
        t.rd .VIS_TRIG_MOT l = 0 ∧ t.rd .VIS_TRIG_REF l = 0 ∧ (t.lane l).cmd = some (qKey ctx q, (s.queue (qKey ctx q)).sqStart) ∧
        ∃ f ∈ t.flights, f.gq = qKey ctx q ∧ f.slot = (s.queue (qKey ctx q)).sqStart ∧ f.desc = d ∧
          f.unit = l + 1 ∧ f.phase = .running ∧ f.outs = p.outs)) ∧
  (∀ (s : State) (f : Flight) (p : Plan) (rows : List Nat),
    let b := visBody f.desc
    b.pyrOnly = true →
    s.loadRows (gqCtx f.gq) (visRow b.fmt b.w)
      ((List.range b.h).map fun y => (s.tensor (gqCtx f.gq) b.cur).curBuf + y * b.pitch) = .ok rows →
    (visGo s f p).2.res.writes = pyrChunks s.fresh (s.outVA (gqCtx f.gq) b.pyr false)
      ((level0 b.fmt b.w b.h rows.toArray).pyramid b.levels)) ∧
  (∀ (gq : Nat) (s : State) (d : List Byte), (visBody d).levels = 0 ∨ 8 < (visBody d).levels ∨ (visBody d).fmt = 3 →
    visCheck gq s d = .error (6, 0))

/-- With Ember absent an EMBER_PASS that may start ends with UNIT_LOST; a legal body that needs more than 128 bytes of tile
memory a pixel ends with LIMIT_EXCEEDED; any other status of its check ends it too. An accepted pass, with Ember free and
its outputs acquired, makes EMB_STATUS.STATE RUNNING, raises STATE_CHANGE and holds the unit. Of two triangles on the two
sides of an edge at most one covers a sample on it. With both tests disabled a sample passes and its depth is written where
writes are on. A NaN gives 0 in a UNORM channel, in EXP.Z and in EXP.MV, whose code is never 0x8000. Two texels of a
block-linear level with one byte offset are one texel. -/
def Obligations.EmberPasses : Prop :=
  (∀ (ctx q : Nat) (s : State) (d : List Byte), s.starts (qKey ctx q) 0x30 d →
    (∀ st addr, passCheck (qKey ctx q) s d = .error (st, addr) →
      exec (.emberPass ctx q) s = .next ((s.entered (qKey ctx q) d
        (s.endedAtOnce (qKey ctx q) d st addr)).tryCommit (qKey ctx q) 0x30 noAct)) ∧
    (s.rd .EMB_STATUS_STATE = 0 → passCheck (qKey ctx q) s d = .error (0x0A, 0)) ∧
    (s.rd .EMB_STATUS_STATE ≠ 0 → passBodyOk s (gqCtx (qKey ctx q)) d = true → 128 < tileNeed d →
      passCheck (qKey ctx q) s d = .error (7, 0)) ∧
    (∀ p : Plan, passCheck (qKey ctx q) s d = .ok p → s.conflict (qKey ctx q) (dInPlace d) p = none →
      s.canAcquire (qKey ctx q) (dInPlace d) p = true → s.rd .EMB_STATUS_STATE = 1 → s.freeUnit 0x30 1 = some 0 →
      Runs (.emberPass ctx q) s fun t => t.rd .EMB_STATUS_STATE = 2 ∧ Raised s t 352 ∧ t.emb.on = true ∧
        t.emb.gq = qKey ctx q ∧ ∃ f ∈ t.flights, f.gq = qKey ctx q ∧ f.slot = (s.queue (qKey ctx q)).sqStart ∧ f.desc = d ∧
          f.unit = 1 ∧ f.phase = .running ∧ f.outs = p.outs)) ∧
  (∀ (ax ay bx b_y cx cy dx dy x y : Int) (zs ws zs' ws' : List Val) (o o' : List Nat),
    let t : Tri := { xs := [ax, bx, cx], ys := [ay, b_y, cy], zs := zs, ws := ws, offs := o }
    let u : Tri := { xs := [bx, ax, dx], ys := [b_y, ay, dy], zs := zs', ws := ws', offs := o' }
    0 < triArea t → 0 < triArea u → edgeFn t 0 1 x y = 0 → ¬ (covers t x y = true ∧ covers u x y = true)) ∧
  (∀ (d : List Byte) (z zOld st : Nat), stencilOn d = false → (d8 d 0x26).testBit 3 = false →
    depthStencil d z zOld st = (if (d8 d 0x26).testBit 4 then z else zOld, st, true)) ∧
  (∀ lo w b : Nat, (Chan.unorm lo w).enc .nan = 0 ∧ ((decFP32 b).isNaN = true → exportZ b = 0 ∧ mvComp b = 0) ∧
    mvComp b ≠ 0x8000 ∧ mvComp b < 65536) ∧
  (∀ (t : List Byte) (layer l x y x' y' : Nat), (d8 t 4).testBit 2 = false → (emFmt (txFmt t)).isSome = true →
    x < levelW t l → x' < levelW t l → y < levelH t l → y' < levelH t l →
    texelOff t layer l x y = texelOff t layer l x' y' → x = x' ∧ y = y')

/-- START of a memory stream gives REFUSED, STATE_WRONG, BAD_FIELD or NO_MEMORY where its case holds, and otherwise RESULT
DONE with the stream RUNNING, its counter and next frame 0 and H the identity. STOP with no command in flight gives STOPPED
and DONE; with one in flight BUSY. At an issue point every count is taken: a newer source issues UPSCALE and every other
count is SUPERSEDED; else a GENERATE is issued while fewer than MULT - 1 have been since the last UPSCALE; else the queue is
as it was. HOMOG_COMMIT copies the nine staged entries. CONSUMED is stored unless the write lowers it or passes the
published count. The statistics registers read and clear. -/
def Obligations.StreamControl : Prop :=
  (∀ (i val : Nat) (s : State), i < 64 → s.served .late → s.rd .EQX_STREAM_CTRL_RESULT i ≠ 1 →
    let s1 := s.eqxCtrlFields i val
    let p := s1.eqxRegs i
    let refused : Prop := s.rd .EQX_STREAM_CTRL_HEAD i = 1 ∨ s1.eqxQueueOk p.queue = false ∨
      10000 * s1.floorCes.length < s1.otherShares i + s1.rd .EQX_STREAM_CTRL_CLASS1_SHARE i
    let st := s.rd .EQX_STREAM_CTRL_STATE i
    (refused → exec (.eqxStart i val) s = .next (s1.wr .EQX_STREAM_CTRL_RESULT i 3)) ∧
    (¬ refused → (st = 2 ∨ st = 3) → exec (.eqxStart i val) s = .next (s1.wr .EQX_STREAM_CTRL_RESULT i 2)) ∧
    (¬ refused → ¬ (st = 2 ∨ st = 3) → s1.eqxFieldsOk p = false →
      exec (.eqxStart i val) s = .next (s1.wr .EQX_STREAM_CTRL_RESULT i 5)) ∧
    (¬ refused → ¬ (st = 2 ∨ st = 3) → s1.eqxFieldsOk p = true → s1.eqxBegin i p = none →
      exec (.eqxStart i val) s = .next (s1.wr .EQX_STREAM_CTRL_RESULT i 4)) ∧
    (¬ refused → ¬ (st = 2 ∨ st = 3) → s1.eqxFieldsOk p = true → (s1.eqxBegin i p).isSome = true →
      Runs (.eqxStart i val) s fun t => t.rd .EQX_STREAM_CTRL_RESULT i = 0 ∧ t.rd .EQX_STREAM_CTRL_STATE i = 2 ∧
        t.rd .EQX_STREAM_TRIG_COUNT i = 0 ∧ t.rd .EQX_STREAM_NEWEST_NEXT i = 0 ∧ (t.stream i).par = p ∧
        (t.stream i).homog = [0x3F800000, 0, 0, 0, 0x3F800000, 0, 0, 0, 0x3F800000] ∧ Raised s t 394)) ∧
  (∀ (i val : Nat) (s : State), i < 64 → s.served .late → s.rd .EQX_STREAM_CTRL_RESULT i ≠ 1 →
    s.rd .EQX_STREAM_CTRL_HEAD i = 0 → (s.rd .EQX_STREAM_CTRL_STATE i = 2 ∨ s.rd .EQX_STREAM_CTRL_STATE i = 3) →
    ((s.stream i).out = 0 → Runs (.eqxStop i val) s fun t => t.rd .EQX_STREAM_CTRL_RESULT i = 0 ∧
      t.rd .EQX_STREAM_CTRL_STATE i = 1 ∧ t.rd .EQX_STREAM_TRIG_COUNT i = 0 ∧ (t.stream i).ring = (s.stream i).ring ∧
      Raised s t 394) ∧
    ((s.stream i).out ≠ 0 → Runs (.eqxStop i val) s fun t => t.rd .EQX_STREAM_CTRL_RESULT i = 1 ∧
      t.rd .EQX_STREAM_CTRL_STATE i = s.rd .EQX_STREAM_CTRL_STATE i ∧ (t.stream i).stopping = true)) ∧
  (∀ (i : Nat) (s : State), i < 64 → s.eqxRuns i = true → (s.stream i).stopping = false → s.brg.fcDown.contains 9 = false →
    s.issueDue i (s.rd .EQX_STREAM_NEWEST_NEXT i) = true →
    let x := s.stream i
    let c := s.rd .EQX_STREAM_TRIG_COUNT i
    let gq := qKey pf0 x.par.queue
    let up := 1 ≤ c ∧ ∃ a, x.src = some a ∧ ∀ b, x.used = some b → a.id ≠ b.id
    Runs (.issuePoint i) s fun t =>
      t.rd .EQX_STREAM_NEWEST_NEXT i = (s.rd .EQX_STREAM_NEWEST_NEXT i + 1) % 2 ^ 32 ∧ t.rd .EQX_STREAM_TRIG_COUNT i = 0 ∧
      (up → (t.stream i).used = x.src ∧ (t.stream i).gens = 0 ∧
        t.rd .EQX_STREAM_STAT2_SUPERSEDED i = min 65535 (s.rd .EQX_STREAM_STAT2_SUPERSEDED i + (c - 1))) ∧
      (¬ up → t.rd .EQX_STREAM_STAT2_SUPERSEDED i = min 65535 (s.rd .EQX_STREAM_STAT2_SUPERSEDED i + c)) ∧
      (¬ up → x.used.isSome = true → x.gens + 1 < x.par.mult → (t.stream i).gens = x.gens + 1 ∧ (t.stream i).used = x.used) ∧
      ((up ∨ (x.used.isSome = true ∧ x.gens + 1 < x.par.mult)) → (s.queue gq).st ≠ .disabled →
        sub32 (s.queue gq).sqTail (s.queue gq).sqNext < 2 ^ (s.queue gq).sqLog →
        (t.queue gq).sqTail = m32 ((s.queue gq).sqTail + 1) ∧ (t.stream i).out = x.out + 1) ∧
      (¬ up → ¬ (x.used.isSome = true ∧ x.gens + 1 < x.par.mult) → t.mem = s.mem ∧ t.queue gq = s.queue gq)) ∧
  (∀ (i val : Nat) (s : State), i < 64 → s.served .late →
    (val % 2 = 1 → exec (.homogCommit i val) s = .next (s.setStream i { s.stream i with
      homog := (List.range 9).map fun k => s.rd .EQX_HOMOG_STAGE_VALUE (i * 9 + k) })) ∧
    (let c := s.rd .EQX_MEM_READ_CONSUMED i
     (sub32 val c ≤ sub32 (m32 (s.stream i).pubs) c →
        exec (.eqxMemReadWrite i val) s = .next (s.wr .EQX_MEM_READ_CONSUMED i val)) ∧
      (sub32 (m32 (s.stream i).pubs) c < sub32 val c → exec (.eqxMemReadWrite i val) s = .next s))) ∧
  (∀ i half : Nat, ReadsReg (.eqxStreamStatRead i half) .late .EQX_STREAM_STAT i half ∧
    ReadsReg (.eqxStreamStat2Read i half) .late .EQX_STREAM_STAT2 i half)

/-- A GENERATE that starts after DROP_GCNT ends with DROPPED counted and raised. An accepted EQX_FRAME whose pages are at
hand is bound and its slot PENDING; COMPOSE starts as every Caldera command does. Event A writes one COMPOSE into M0 when no
slot qualifies and none is in flight, and else leaves M0 alone. Event B queues a stripe with the selected slot and GCNT; with
no slot it waits and STALE_WAITS counts. The end of a warp marks the entry complete. A layer flip is pending for the layers it names. A sample at a whole position is
the texel; a slot with no field of its own is not displaced; a transparent layer pixel changes nothing and an opaque one
replaces. -/
def Obligations.FramesAndStripes : Prop :=
  (∀ (ctx q : Nat) (fits : Bool) (f : Flight) (s : State),
    s.flightIn (qKey ctx q) (fun f => f.phase == .placed && dOp f.desc == 0x38) = some f → f.bound = false →
    headerOk (qKey ctx q) f.desc = true →
    let i := d8 f.desc 0x10
    let s0 := s.setStream i { s.stream i with resv := 0 }
    (d8 f.desc 0x11 = 1 → d64 f.desc 0x30 < s.gcnt → Runs (.eqxFrame ctx q fits) s fun t =>
      t.rd .EQX_STREAM_STAT_DROPPED i = min 65535 (s.rd .EQX_STREAM_STAT_DROPPED i + 1) ∧ Raised s t 385 ∧ t.mem = s.mem ∧
      ∃ g ∈ t.flights, g = { f with phase := .ended, endG := s.gcnt }) ∧
    (¬ (d8 f.desc 0x11 = 1 ∧ d64 f.desc 0x30 < s.gcnt) → ∀ (k : CeCmd) (sl : Nat),
      eqxCheck fits s (qKey ctx q) f.desc = .ok k → s.acquirable i = some sl → k.wait = false →
      s0.canAcquire (qKey ctx q) (dInPlace f.desc) k.plan = true →
      (s0.canSupply (gqCtx (qKey ctx q)) (s0.growNeed (gqCtx (qKey ctx q)) k.grow) = true ∨
        s0.growNeed (gqCtx (qKey ctx q)) k.grow = 0) →
      Runs (.eqxFrame ctx q fits) s fun t =>
        ((t.stream i).ring.getD sl {}).st = .pending ∧ ((t.stream i).ring.getD sl {}).owner = (qKey ctx q, f.slot) ∧
        ((t.stream i).ring.getD sl {}).frame = d32 f.desc 0x24 ∧
        ∃ g ∈ t.flights, g.gq = f.gq ∧ g.slot = f.slot ∧ g.bound = true ∧ g.outs = k.plan.outs ∧
          (g.phase = .ready ∨ g.phase = .placed))) ∧
  (∀ ctx q : Nat, StartsOnCaldera (.compose ctx q) (qKey ctx q) 0x39 composeCheck) ∧
  (∀ (h i : Nat) (s : State), h < 8 → s.warping h = some i →
    let x := s.head h
    Runs (.lineMatchA h) s (fun t => Raised s t (448 + 8 * h + 1) ∧
      ((t.head h).aS, (t.head h).aR) = (s.plan h).nextStripe x.aS x.aR ∧ t.mem = s.mem ∧
      ((((s.stream i).select x.aR).isSome = true ∨ (s.stream i).composing = true) → t.queue qM0 = s.queue qM0) ∧
      (((s.stream i).select x.aR) = none → (s.stream i).composing = false → s.brg.fcDown.contains 10 = false →
        (t.queue qM0).sqTail = m32 ((s.queue qM0).sqTail + 1) ∧ (t.stream i).composing = true ∧ Raised s t 386 ∧
        let d := t.eqx.m0.get [] (s.queue qM0).sqTail
        dOp d = 0x39 ∧ d8 d 0x10 = i ∧ d8 d 0x11 = s.composeMode i ∧ d32 d 0x14 = m32 x.aR)) ∧
    Runs (.lineMatchB h) s fun t => Raised s t (448 + 8 * h + 2) ∧
      ((t.head h).bS, (t.head h).bR) = (s.plan h).nextStripe x.bS x.bR ∧ t.mem = s.mem ∧
      (∃ w ∈ (t.head h).warps, w.stripe = x.bS ∧ w.refresh = x.bR ∧ w.slot = (s.stream i).select x.bR ∧ w.gB = s.gcnt ∧
        w.homog = (s.stream i).homog) ∧
      t.rd .EQX_STREAM_STAT2_STALE_WAITS i = (if ((s.stream i).select x.bR).isNone then
        min 65535 (s.rd .EQX_STREAM_STAT2_STALE_WAITS i + 1) else s.rd .EQX_STREAM_STAT2_STALE_WAITS i)) ∧
  (∀ (h i k : Nat) (w : Warp) (ws : List Warp) (s : State), s.warping h = some i → (s.head h).warps = w :: ws → w.on = true →
    w.slot = some k → (s.head h).ents.length = 4 → Runs (.stripeWarpDone h) s fun t =>
      (t.head h).ents.getD (w.stripe % 4) none = some ⟨w.stripe, w.refresh, true⟩ ∧ (t.head h).warps.length = ws.length) ∧
  (∀ (h val : Nat) (s : State), h < 8 → s.served .late →
    (val % 256 ≠ 0 → Runs (.layerFlip h val) s fun t => t.rd .EQX_LAYER_FLIP_PENDING h = 1 ∧
      (t.head h).layerFlip = Nat.lor (s.head h).layerFlip (val % 256) ∧ (t.head h).layers = (s.head h).layers) ∧
    (val % 256 = 0 → exec (.layerFlip h val) s = .next s)) ∧
  (∀ (p : PlaneRef) (i j : Int) (s : State), s.bilinear p (8 * i) (8 * j) = s.texelAt p i j) ∧
  (∀ (st : Stream) (k t x y : Nat) (near1 : Bool) (s : State), (st.ring.getD k {}).kind ≠ 0 →
    s.motionPos st k t near1 x y = (8 * (x : Int), 8 * (y : Int))) ∧
  (∀ l c : Nat, c ≤ 1023 → l < 256 → over10 0 0 c = c ∧ over10 l 255 c = wide10 l)

/-- A plug of a running head trains: no link for a sink without the compression the plan asks, else TRAINING where the mode
fits the lanes and rate both sides have, else NO_SIGNAL; of a head that does not run it changes no state. Each raises HPD. A
successful attempt gives RUNNING with the lanes and rate tried; a failed one steps down to 1 or 2 lanes or the next rate, or
ends in NO_SIGNAL with TRAIN_FAILED. An unplug of a running head gives WAIT_SINK. An IRQ_HPD sets IRQ_HPD and, with the link
held, changes no state. AUX_START is BUSY with a sink and NO_SINK without; AUX_DONE stores its code. Reading DSP_LINK clears RETRAINS. -/
def Obligations.DisplayLinks : Prop :=
  (∀ (h : Nat) (k : Sink) (s : State), h < 8 → (s.head h).sink = none → s.rd .DSP_STATUS_STATE h ≠ 0 →
    Runs (.plug h k) s fun t => (t.head h).sink = some k ∧ Raised s t (448 + 8 * h + 7) ∧ t.mem = s.mem ∧
      ((s.head h).on = false → t.rd .DSP_STATUS_STATE h = s.rd .DSP_STATUS_STATE h) ∧
      ((s.head h).on = true →
        let l := min (s.plan h).lanes k.lanes
        let r := min (s.plan h).rate k.rate
        t.rd .DSP_LINK_RETRAINS h = (if (s.head h).trains = 0 then s.rd .DSP_LINK_RETRAINS h
          else min 65535 (s.rd .DSP_LINK_RETRAINS h + 1)) ∧
        (s.dscBad h k = true → t.rd .DSP_STATUS_STATE h = 5 ∧ t.rd .DSP_STATUS_REASON h = 2) ∧
        (s.dscBad h k = false → (s.plan h).fits (s.linkBpp h) l r = true → t.rd .DSP_STATUS_STATE h = 3 ∧
          t.rd .DSP_STATUS_REASON h = 0 ∧ (t.head h).lanes = l ∧ (t.head h).rate = r) ∧
        (s.dscBad h k = false → (s.plan h).fits (s.linkBpp h) l r = false → t.rd .DSP_STATUS_STATE h = 5 ∧
          t.rd .DSP_STATUS_REASON h = 1))) ∧
  (∀ (h held : Nat) (s : State), h < 8 → s.rd .DSP_STATUS_STATE h = 3 → (s.head h).irqLost = none →
    let x := s.head h
    (x.lanes < 8 → x.rate < 16 → Runs (.trainingAttemptEnd h true held) s fun t => t.rd .DSP_STATUS_STATE h = 4 ∧
      t.rd .DSP_STATUS_REASON h = 0 ∧ t.rd .DSP_LINK_LANES h = x.lanes ∧ t.rd .DSP_LINK_RATE h = x.rate ∧
      t.rd .DSP_LINK_FALLBACK h = (if x.lanes < (s.plan h).lanes ∨ x.rate < (s.plan h).rate then 1 else 0) ∧
      Raised s t (448 + 8 * h + 7)) ∧
    (∀ l r : Nat, ((held = 1 ∧ 1 < x.lanes ∧ l = 1 ∧ r = x.rate) ∨ (held = 2 ∧ 2 < x.lanes ∧ l = 2 ∧ r = x.rate) ∨
        (¬ (held = 1 ∧ 1 < x.lanes) ∧ ¬ (held = 2 ∧ 2 < x.lanes) ∧ l = x.lanes ∧ x.rate = r + 1)) →
      Runs (.trainingAttemptEnd h false held) s fun t => (t.head h).lanes = l ∧ (t.head h).rate = r ∧
        t.rd .DSP_STATUS_STATE h = (if (s.plan h).fits x.bpp l r = true then 3 else 5) ∧
        t.rd .DSP_STATUS_REASON h = (if (s.plan h).fits x.bpp l r = true then 0 else 1)) ∧
    (¬ (held = 1 ∧ 1 < x.lanes) → ¬ (held = 2 ∧ 2 < x.lanes) → x.rate = 0 →
      Runs (.trainingAttemptEnd h false held) s fun t => t.rd .DSP_STATUS_STATE h = 5 ∧ t.rd .DSP_STATUS_REASON h = 3 ∧
        Raised s t (448 + 8 * h + 7))) ∧
  (∀ (h : Nat) (k : Sink) (lost : Bool) (s : State), h < 8 → (s.head h).sink = some k → s.rd .DSP_STATUS_STATE h ≠ 0 →
    Runs (.hpdRise h lost) s (fun t => t.rd .DSP_STATUS_IRQ_HPD h = 1 ∧ Raised s t (448 + 8 * h + 7) ∧
      (lost = false → t.rd .DSP_STATUS_STATE h = s.rd .DSP_STATUS_STATE h) ∧
      (s.rd .DSP_STATUS_STATE h = 3 → (t.head h).irqLost = some lost)) ∧
    Runs (.unplug h) s fun t => (t.head h).sink = none ∧ Raised s t (448 + 8 * h + 7) ∧
      ((s.head h).on = true → t.rd .DSP_STATUS_STATE h = 2 ∧ t.rd .DSP_LINK_LANES h = 0 ∧ t.rd .DSP_LINK_RATE h = 15) ∧
      ((s.head h).on = false → t.rd .DSP_STATUS_STATE h = s.rd .DSP_STATUS_STATE h)) ∧
  (∀ (h val : Nat) (s : State), h < 8 → s.served .late → s.rd .DSP_AUX_CTRL_RESULT h ≠ 1 → bits val 60 4 = 1 →
    Runs (.auxStart h val) s fun t => t.rd .DSP_AUX_CTRL_REPLY_LEN h = 0 ∧ t.rd .DSP_AUX_CTRL_CMD h = bits val 52 4 ∧
      t.rd .DSP_AUX_CTRL_ADDR h = bits val 20 20 ∧ t.rd .DSP_AUX_CTRL_LEN h = bits val 40 4 ∧
      t.rd .DSP_AUX_CTRL_RESULT h = (if (s.head h).sink = none ∨ s.rd .DSP_STATUS_STATE h = 0 then 5 else 1)) ∧
  (∀ (h res : Nat) (reply : List Byte) (s : State), h < 8 → s.rd .DSP_AUX_CTRL_RESULT h = 1 → (s.head h).auxWait = false →
    res ∈ [0, 2, 3, 4] → Runs (.auxDone h res reply) s fun t => t.rd .DSP_AUX_CTRL_RESULT h = res ∧ t.mem = s.mem ∧
      (res = 0 → s.rd .DSP_AUX_CTRL_CMD h % 2 = 1 → s.rd .DSP_AUX_CTRL_LEN h < 16 →
        t.rd .DSP_AUX_CTRL_REPLY_LEN h = min (s.rd .DSP_AUX_CTRL_LEN h + 1) reply.length)) ∧
  (∀ h half : Nat, ReadsReg (.dspLinkRead h half) .late .DSP_LINK h half)

/-- HEAD_START ends with its status where its check fails; where it may start it runs the timing from the start line with no
refresh begun, and with no sink waits for one; with a LOCK_GCNT ahead it waits until TIMING_GENERATOR_START. HEAD_STOP waits
for VBLANK_START, which takes the flips and staged lines, raises its source and stops a head that a stop or the underrun
limit waits for. A comparator's line raises its source. Line 0 counts a refresh; without the lock TRIM and LOCKED are 0. The
fetch frees its stripe's entry and goes on. FRAME_DONE clears CONSECUTIVE after a whole refresh. An underrun counts, records
line and pixel and raises its source. -/
def Obligations.DisplayRaster : Prop :=
  (∀ (ctx q : Nat) (s : State) (d : List Byte),
    let gq := qKey ctx q
    let h := d8 d 0x10
    (s.starts gq 0x3C d → (∀ e, headStartCheck s d = .error e → exec (.headStart ctx q) s =
        .next ((s.entered gq d (s.endedAtOnce gq d e.1 e.2)).tryCommit gq 0x3C noAct)) ∧
      (headStartCheck s d = .ok {} → s.canAcquire gq (dInPlace d) {} = true → Runs (.headStart ctx q) s fun t =>
        (s.lockWaits h = true → (t.head h).wait = some (gq, (s.queue gq).sqStart) ∧ (t.head h).on = (s.head h).on) ∧
        (s.lockWaits h = false → (t.head h).on = true ∧ (t.head h).refs = 0 ∧ (t.head h).line = (s.plan h).startLine ∧
          t.rd .DSP_STATUS_REFRESH h = 0 ∧ ((s.head h).sink = none → t.rd .DSP_STATUS_STATE h = 2)))) ∧
    (s.starts gq 0x3D d → (∀ e, headStopCheck s d = .error e → exec (.headStop ctx q) s =
        .next ((s.entered gq d (s.endedAtOnce gq d e.1 e.2)).tryCommit gq 0x3D noAct)) ∧
      (headStopCheck s d = .ok {} → s.canAcquire gq (dInPlace d) {} = true → s.waits (s.head h).stop = none →
        Runs (.headStop ctx q) s fun t => (t.head h).stop = some (gq, (s.queue gq).sqStart) ∧ (t.head h).on = (s.head h).on))) ∧
  (∀ (h : Nat) (f : Flight) (s : State), h < 8 → s.waits (s.head h).wait = some f → s.lockWaits h = false →
    s.testing 4 h = false → s.testFailed 4 h = false → s.headStreamBad h = none →
    Runs (.timingGeneratorStart h) s fun t => (t.head h).on = true ∧ (t.head h).refs = 0 ∧ (t.head h).wait = none) ∧
  (∀ (h : Nat) (s : State), h < 8 → (s.head h).on = true → s.img.wait = [] →
    let x := s.head h
    Runs (.vblankStart h) s fun t => Raised s t (448 + 8 * h) ∧ t.rd .EQX_LAYER_FLIP_PENDING h = 0 ∧
      t.rd .DSP_PLANE_FLIP_PENDING h = 0 ∧ (t.head h).lineC = s.rd .DSP_LINEMATCH_LINE_C h ∧
      (t.head h).lineD = s.rd .DSP_LINEMATCH_LINE_D h ∧
      (t.head h).layers = (List.range 8).map (fun j => if x.layerFlip.testBit j then s.stagedLayer h j else x.layers.getD j {}) ∧
      (t.head h).planes = (List.range 4).map (fun j => if x.planeFlip.testBit j then s.stagedPlane h j else x.planes.getD j {}) ∧
      (s.waits x.stop = none → x.limit = false → (t.head h).on = true ∧ (t.head h).line = (s.plan h).vActive) ∧
      ((s.waits x.stop).isSome = true ∨ x.limit = true → (t.head h).on = false ∧ t.rd .DSP_STATUS_STATE h = 1 ∧
        t.rd .DSP_STATUS_REASON h = (if (s.waits x.stop).isSome then 0 else 4))) ∧
  (∀ (h : Nat) (d : Bool) (s : State), h < 8 → (s.head h).on = true →
    let c := if d then (s.head h).lineD else (s.head h).lineC
    (c < (s.plan h).vTotal → exec (.lineMatch h d) s = .next (s.fire (448 + 8 * h + (if d then 4 else 3)))) ∧
    ((s.plan h).vTotal ≤ c → exec (.lineMatch h d) s = .next s)) ∧
  (∀ (h : Nat) (s : State), h < 8 → (s.head h).on = true →
    Runs (.line0 h) s (fun t => (t.head h).refs = (s.head h).refs + 1 ∧ (t.head h).r0 = (s.head h).refs ∧
      (t.head h).g0 = s.gcnt ∧ t.rd .DSP_STATUS_REFRESH h = ((s.head h).refs + 1) % 2 ^ 32 ∧
      (s.rd .DSP_LOCK_CTRL_ENABLE h = 0 → t.rd .DSP_LOCK_CTRL_TRIM h = 0 ∧ t.rd .DSP_LOCK_CTRL_LOCKED h = 0) ∧ t.mem = s.mem) ∧
    Runs (.headFrameDone h) s fun t => Raised s t (448 + 8 * h + 5) ∧
      t.rd .DSP_UNDERRUN_CONSECUTIVE h = (if (s.head h).under = true then s.rd .DSP_UNDERRUN_CONSECUTIVE h else 0)) ∧
  (∀ (h val : Nat) (s : State), h < 8 → s.served .late →
    (val % 16 ≠ 0 → Runs (.planeFlip h val) s fun t => t.rd .DSP_PLANE_FLIP_PENDING h = 1 ∧
      (t.head h).planeFlip = Nat.lor (s.head h).planeFlip (val % 16) ∧ (t.head h).planes = (s.head h).planes) ∧
    (val % 16 = 0 → exec (.planeFlip h val) s = .next s)) ∧
  (∀ (h line pixel : Nat) (s : State), h < 8 → (s.head h).on = true → (s.head h).under = false →
    s.rd .DSP_STATUS_STATE h = 4 → (s.head h).refs ≠ 0 → line < (s.plan h).vActive → pixel < (s.plan h).hActive →
    (∀ e ∈ (s.head h).ents, e = none) → Runs (.underrun h line pixel) s fun t =>
      t.rd .DSP_UNDERRUN_COUNT h = min 65535 (s.rd .DSP_UNDERRUN_COUNT h + 1) ∧
      t.rd .DSP_UNDERRUN_CONSECUTIVE h = min 255 (s.rd .DSP_UNDERRUN_CONSECUTIVE h + 1) ∧
      t.rd .DSP_UNDERRUN_LAST_LINE h = line % 2 ^ 16 ∧ t.rd .DSP_UNDERRUN_LAST_PIXEL h = pixel % 2 ^ 16 ∧
      (t.head h).under = true ∧ Raised s t (448 + 8 * h + 6)) ∧
  (∀ (h : Nat) (e : RingEnt) (s : State), h < 8 → (s.head h).on = true → (s.head h).under = false →
    (s.head h).ents.getD ((s.head h).fS % 4) none = some e → e.done = true → e.stripe = (s.head h).fS →
    Runs (.stripeEntryFreed h) s fun t => (t.head h).fS = (s.head h).fS + 1 ∧
      ((s.head h).warps = [] → (t.head h).ents.getD (e.stripe % 4) none = none)) ∧
  (∀ h half : Nat, ReadsReg (.dspUnderrunRead h half) .late .DSP_UNDERRUN h half)

/-- PORT_START and PORT_STOP end with their statuses; a start sets every k to 0 and runs the port; a stop with no frame in
progress returns it to reset. A Frame Start begins a frame where an entry is released and else counts DROPPED. A good long
packet writes its line and counts it; one with a bad CRC counts CRC and DAMAGED and drops the frame. A Frame End with H lines
publishes: PUBLISHED counts, the header is written, the fed lane's TRG_PYR takes one; with another count the frame is
DAMAGED. Short packets 2-15 in the mask change nothing; other channels count OTHER. RELEASED is stored unless the write lowers it or passes PUBLISHED. -/
def Obligations.VideoInputPorts : Prop :=
  (∀ (ctx q : Nat) (s : State) (d : List Byte),
    let gq := qKey ctx q
    let n := d8 d 0x10
    (s.starts gq 0x3E d → (∀ e, portStartCheck s d = .error e → exec (.portStart ctx q) s =
        .next ((s.entered gq d (s.endedAtOnce gq d e.1 e.2)).tryCommit gq 0x3E noAct)) ∧
      (portStartCheck s d = .ok {} → s.canAcquire gq (dInPlace d) {} = true → Runs (.portStart ctx q) s fun t =>
        t.rd .VIN_STATUS_STATE n = 2 ∧ t.rd .VIN_STATUS_ACTIVE_VC n = 0 ∧ Raised s t (512 + 8 * n + 7) ∧
        ∀ vc < 16, (t.vport n).k.get 0 vc = 0 ∧ t.rd .VIN_VC_REL_PUBLISHED (n * 16 + vc) = 0)) ∧
    (s.starts gq 0x3F d → (∀ e, portStopCheck s d = .error e → exec (.portStop ctx q) s =
        .next ((s.entered gq d (s.endedAtOnce gq d e.1 e.2)).tryCommit gq 0x3F noAct)) ∧
      (portStopCheck s d = .ok {} → s.canAcquire gq (dInPlace d) {} = true → s.waits (s.vport n).stop = none →
        Runs (.portStop ctx q) s fun t =>
          t.rd .VIN_STATUS_STATE n = (if s.rd .VIN_STATUS_ACTIVE_VC n = 0 then 1 else 3)))) ∧
  (∀ (n vc : Nat) (s : State), n < 8 → s.rd .VIN_STATUS_STATE n = 2 → s.inMask n vc = true → s.vinFrame n vc = none →
    s.img.wait = [] →
    (s.vinFree n vc ((s.vport n).k.get 0 vc) = true → Runs (.frameStart n vc) s fun t =>
      t.vinFrame n vc = some ⟨s.gcnt, 0⟩ ∧ Raised s t (512 + 8 * n) ∧ t.mem = s.mem) ∧
    (s.vinFree n vc ((s.vport n).k.get 0 vc) = false → Runs (.frameStart n vc) s fun t =>
      t.rd .VIN_ERR_DROPPED n = min 255 (s.rd .VIN_ERR_DROPPED n + 1) ∧ t.vinFrame n vc = none ∧
      Raised s t (512 + 8 * n + 2) ∧ (t.vport n).k = (s.vport n).k)) ∧
  (∀ (n vc dt : Nat) (payload : List Byte) (f : VinFrame) (s : State), n < 8 → s.rd .VIN_STATUS_STATE n = 2 →
    s.inMask n vc = true → s.vinFrame n vc = some f → s.img.wait = [] → dt = planDt (s.portPlan n) →
    payload.length = lineBytes dt (planW (s.portPlan n)) →
    let cs := lineChunks dt (planW (s.portPlan n)) (planH (s.portPlan n))
      (s.vinEntry n vc ((s.vport n).k.get 0 vc)) f.lines payload
    let s1 := s.setVinFrame n vc (some { f with lines := f.lines + 1 })
    (f.lines < planH (s.portPlan n) → (s1.vinWrite n cs).rd .VIN_STATUS_STATE n = 2 →
      exec (.longPacket n vc dt payload .clean true) s = .next (s1.vinWrite n cs) ∧
        (s1.vinWrite n cs).vinFrame n vc = some { f with lines := f.lines + 1 } ∧
        ∀ a, (∀ c ∈ cs, a < c.va ∨ c.va + c.data.length ≤ a) → (s1.vinWrite n cs).getByte a = s.getByte a) ∧
    Runs (.longPacket n vc dt payload .clean false) s (fun t => t.vinFrame n vc = none ∧
      t.rd .VIN_ERR_CRC n = min 4095 (s.rd .VIN_ERR_CRC n + 1) ∧
      t.rd .VIN_ERR_DAMAGED n = min 255 (s.rd .VIN_ERR_DAMAGED n + 1) ∧ Raised s t (512 + 8 * n + 3) ∧
      (t.vport n).k = (s.vport n).k ∧ t.mem = s.mem) ∧
    (f.lines ≠ planH (s.portPlan n) → Runs (.frameEnd n vc) s fun t => t.vinFrame n vc = none ∧
      t.rd .VIN_ERR_DAMAGED n = min 255 (s.rd .VIN_ERR_DAMAGED n + 1) ∧ (t.vport n).k = (s.vport n).k ∧ t.mem = s.mem) ∧
    (let k := (s.vport n).k.get 0 vc
     let e := s.vinEntry n vc k
     let w : List Chunk := [⟨e + 8, vinHeaderBytes f vc (planDt (s.portPlan n)) s.gcnt⟩, ⟨e, natLe 8 k⟩]
     f.lines = planH (s.portPlan n) → (s.vinWrite n w).rd .VIN_STATUS_STATE n = 2 → Runs (.frameEnd n vc) s fun t =>
        (t.vport n).k.get 0 vc = k + 1 ∧ t.rd .VIN_VC_REL_PUBLISHED (n * 16 + vc) = (k + 1) % 2 ^ 32 ∧
        t.vinFrame n vc = none ∧ Raised s t (512 + 8 * n + 1) ∧ t.mem = (s.vinWrite n w).mem ∧
        ∀ l, s.fedLane n vc = some l → s.rd .VIS_STATUS_STATE l = 2 → (s.lane l).unbind = false →
          t.rd .VIS_TRIG_PYR l = min 255 (s.rd .VIS_TRIG_PYR l + 1))) ∧
  (∀ (n vc dt : Nat) (s : State), n < 8 → s.rd .VIN_STATUS_STATE n = 2 → s.img.wait = [] →
    (s.inMask n vc = true → 2 ≤ dt → dt < 16 → exec (.shortPacket n vc dt .clean) s = .next s) ∧
    (s.inMask n vc = false → Runs (.shortPacket n vc dt .clean) s fun t => Raised s t (512 + 8 * n + 4) ∧
      OnlyRegsIrq s t [(.VIN_ERR_OTHER, n)] ∧ t.rd .VIN_ERR_OTHER n = min 4095 (s.rd .VIN_ERR_OTHER n + 1)) ∧
    exec (.phyError n) s = .next (s.fire (512 + 8 * n + 5))) ∧
  (∀ (n vc half v : Nat) (s : State), n < 8 → vc < 16 → half ≠ 2 → s.served .late →
    let u := n * 16 + vc
    let r := s.rd .VIN_VC_REL_RELEASED u
    (sub32 (v % 2 ^ 32) r ≤ sub32 (s.rd .VIN_VC_REL_PUBLISHED u) r →
      exec (.vinVcRelWrite n vc half v) s = .next (s.wr .VIN_VC_REL_RELEASED u (v % 2 ^ 32))) ∧
    (sub32 (s.rd .VIN_VC_REL_PUBLISHED u) r < sub32 (v % 2 ^ 32) r → exec (.vinVcRelWrite n vc half v) s = .next s)) ∧
  (∀ n half : Nat, ReadsReg (.vinErrRead n half) .late .VIN_ERR n half)

/-- With Geyser live: a write to GEY_PEND, or of an existing tenant to VF_GEY_PEND, clears exactly the pending bits of its
ones, and a level source whose bit it clears becomes HELD. A write to GEY_PEND_SET or VF_GEY_SET sets those of the named
sources that are enabled and connected, and moves no HELD flag. A write of level L to the COMPLETE register of target x, or
of an existing tenant to its own, clears bit L of ACTIVE of a Fumarole target and moves no other bit of it and no other
Fumarole target's mask. Every HELD source routed to x leaves HELD; its pending bit stays, and is set as well where the
source is enabled and its input high (that a disabled one is not set is the model's reading, log entry 203).
At any target every other active level stays active, and a level active afterwards that was not kept is the priority of a
pending, enabled source routed to it, above its threshold. Nothing else changes but what delivery moves. -/
def Obligations.GeyserPendingAndCompletion : Prop :=
  (∀ (s : State) (w v : Nat), s.served .late → s.rd .GEY_RET_STATE = 0 →
      (∀ (c : Instr) (srcs : List Nat),
        (c = .geyPendWrite w v ∧ srcs = wordSrcs w v) ∨
          (c = .vfGeyPendWrite w v ∧ w < s.tenants ∧ srcs = tenantSrcs w v) →
        Runs c s fun t => OnlyRegsIrq s t [] ∧ ∀ src,
          (t.pend src = true ↔ s.pend src = true ∧ src ∉ srcs) ∧
          t.rd .GEY_SRC_HELD src =
            (if s.pend src = true ∧ src ∈ srcs ∧ s.rd .GEY_SRC_LEVEL src = 1 then 1 else s.rd .GEY_SRC_HELD src)) ∧
      (∀ (c : Instr) (srcs : List Nat),
        (c = .geyPendSetWrite w v ∧ srcs = wordSrcs w v) ∨
          (c = .vfGeySetWrite w v ∧ w < s.tenants ∧ srcs = tenantSrcs w v) →
        Runs c s fun t => OnlyRegsIrq s t [] ∧ ∀ src,
          (t.pend src = true ↔
            s.pend src = true ∨ (src ∈ srcs ∧ s.rd .GEY_SRC_ENABLE src ≠ 0 ∧ s.srcDead src = false)) ∧
          t.rd .GEY_SRC_HELD src = s.rd .GEY_SRC_HELD src)) ∧
  (∀ (s : State) (c : Instr) (x l : Nat), s.served .late → s.rd .GEY_RET_STATE = 0 → l < 16 → s.tgtDead x = false →
      (c = .geyTgtComplete x l ∨ ∃ t, t < s.tenants ∧ x = 13 + t ∧ c = .vfGeyComplete t l) →
      Runs c s fun t => OnlyRegsIrq s t [] ∧
        (∀ src, t.rd .GEY_SRC_HELD src =
            (if s.rd .GEY_SRC_HELD src = 1 ∧ s.rd .GEY_SRC_TARGET src = x then 0 else s.rd .GEY_SRC_HELD src) ∧
          (t.pend src = true ↔ s.pend src = true ∨ (s.rd .GEY_SRC_HELD src = 1 ∧ s.rd .GEY_SRC_TARGET src = x ∧
            s.rd .GEY_SRC_INPUT src = 1 ∧ s.rd .GEY_SRC_ENABLE src = 1))) ∧
        (x < 12 → ∀ n < 16, (t.rd .GEY_TGT_ACTIVE x).testBit n = ((s.rd .GEY_TGT_ACTIVE x).testBit n && decide (n ≠ l))) ∧
        (∀ y < 12, y ≠ x → t.rd .GEY_TGT_ACTIVE y = s.rd .GEY_TGT_ACTIVE y) ∧
        (∀ n < 16, (s.rd .GEY_TGT_ACTIVE x).testBit n = true → n ≠ l → (t.rd .GEY_TGT_ACTIVE x).testBit n = true) ∧
        (∀ n < 16, (t.rd .GEY_TGT_ACTIVE x).testBit n = true →
          ((s.rd .GEY_TGT_ACTIVE x).testBit n = true ∧ n ≠ l) ∨
            ∃ src, t.pend src = true ∧ s.rd .GEY_SRC_ENABLE src = 1 ∧ s.rd .GEY_SRC_TARGET src = x ∧
              s.rd .GEY_SRC_PRIORITY src = n ∧ s.rd .GEY_TGT_THRESHOLD x < n))

/-- With Geyser live and no RETAIN under way: a fire of a source makes it pending if it is enabled and connected, and moves
no other pending bit; a rise of a low input of a connected source does that and records the input, but a HELD level source
only records it; a rise of a high input changes nothing; a fall of a connected source's input only records it. An event of
a group starts an IDLE group with ACC 1 and adds 1, to 255, in the other states; the group is OPEN once ACC has reached COUNT or the
elapsed time TIME, else ACCUMULATING. A time expiry opens an accumulating group whose time has passed, if a source of it is
pending, and changes nothing before. A write of GEY_GRP stores COUNT and TIME, keeps ACC and the elapsed time of an
accumulating group with a pending source, and opens it at once if either meets the new values. -/
def Obligations.GeyserSources : Prop :=
  ∀ s : State, s.rd .GEY_RET_STATE = 0 → s.rd .PWR_STATUS_STATE ≠ 3 → s.rd .PWR_STATUS_STATE ≠ 4 →
    (∀ src, Runs (.sourceFire src .fire) s fun t => OnlyRegsIrq s t [] ∧ ∀ n, (t.pend n = true ↔
      s.pend n = true ∨ (n = src ∧ s.rd .GEY_SRC_ENABLE src ≠ 0 ∧ s.srcDead src = false))) ∧
    (∀ src, s.srcDead src = false → s.rd .GEY_SRC_INPUT src ≠ 1 →
      Runs (.sourceFire src .rise) s fun t => OnlyRegsIrq s t [(.GEY_SRC_INPUT, src)] ∧ t.rd .GEY_SRC_INPUT src = 1 ∧
        ∀ n, (t.pend n = true ↔ s.pend n = true ∨ (n = src ∧ s.rd .GEY_SRC_ENABLE src ≠ 0 ∧
          ¬(s.rd .GEY_SRC_LEVEL src = 1 ∧ s.rd .GEY_SRC_HELD src = 1)))) ∧
    (∀ src, s.rd .GEY_SRC_INPUT src = 1 → exec (.sourceFire src .rise) s = .next s) ∧
    (∀ src, s.srcDead src = false → Runs (.sourceFire src .fall) s fun t =>
      OnlyRegs s t [(.GEY_SRC_INPUT, src)] ∧ t.rd .GEY_SRC_INPUT src = 0) ∧
    (∀ src g, s.srcDead src = false → s.rd .GEY_SRC_ENABLE src = 1 → s.rd .GEY_SRC_GROUP src = g → g < 1024 →
      Runs (.sourceFire src .fire) s fun t =>
        (s.rd .GEY_GRP_STATE g = 0 → t.rd .GEY_GRP_ACC g = 1 ∧ t.rd .GEY_GRP_STATE g = (if s.grpCount g = 1 then 2 else 1)) ∧
        (s.rd .GEY_GRP_STATE g = 1 → t.rd .GEY_GRP_ACC g = min 255 (s.rd .GEY_GRP_ACC g + 1) ∧
          t.rd .GEY_GRP_STATE g = (if s.grpCount g ≤ min 255 (s.rd .GEY_GRP_ACC g + 1) ∨
            s.grpTime g * 100 ≤ s.rd .GEY_GRP_ELAPSED g then 2 else 1)) ∧
        (s.rd .GEY_GRP_STATE g = 2 → t.rd .GEY_GRP_ACC g = min 255 (s.rd .GEY_GRP_ACC g + 1) ∧
          t.rd .GEY_GRP_STATE g = 2)) ∧
    (∀ g, (s.rd .GEY_GRP_STATE g ≠ 1 ∨ s.rd .GEY_GRP_ELAPSED g < s.grpTime g * 100 →
        exec (.groupTimeExpiry g) s = .next s) ∧
      (s.rd .GEY_GRP_STATE g = 1 → s.grpTime g * 100 ≤ s.rd .GEY_GRP_ELAPSED g →
        (∃ src, s.pend src = true ∧ s.rd .GEY_SRC_GROUP src = g) →
        Runs (.groupTimeExpiry g) s fun t => OnlyRegsIrq s t [] ∧ t.rd .GEY_GRP_STATE g = 2 ∧
          t.rd .GEY_GRP_ACC g = s.rd .GEY_GRP_ACC g)) ∧
    (∀ g v, g < 1024 → s.served .late → Runs (.geyGrpWrite g v) s fun t =>
      OnlyRegsIrq s t [(.GEY_GRP_COUNT, g), (.GEY_GRP_TIME, g)] ∧
        t.rd .GEY_GRP_COUNT g = bits v 56 8 ∧ t.rd .GEY_GRP_TIME g = bits v 40 16 ∧
        (s.rd .GEY_GRP_STATE g = 1 → (∃ src, s.pend src = true ∧ s.rd .GEY_SRC_GROUP src = g) →
          t.rd .GEY_GRP_ACC g = s.rd .GEY_GRP_ACC g ∧ t.rd .GEY_GRP_ELAPSED g = s.rd .GEY_GRP_ELAPSED g ∧
          t.rd .GEY_GRP_STATE g = (if max 1 (bits v 56 8) ≤ s.rd .GEY_GRP_ACC g ∨
            max 1 (bits v 40 16) * 100 ≤ s.rd .GEY_GRP_ELAPSED g then 2 else 1)))

/-- A frame mkFrame builds is valid and carries its COUNT and HOPS. At a GCNT multiple of 102,400 a driven SYNC_OUT sends one
with HOPS 0 from a leader, else the received HOPS + 1; otherwise nothing changes. With ENABLE 0 a frame is ignored; an
invalid one, or one within 102,000 TCLK of the last valid one, counts FRAMES_BAD and fires source 41. For a valid frame a
follower in ACQUIRE steps GCNT by e, clears RATE, counts STEPS, enters TRACK and fires 40 and 42; in another state an |e|
above 64 keeps RATE and at the third returns to ACQUIRE; else RATE becomes the clamped RATE + e, ADJ that plus e, and the
state LOCKED after four with |e| at most 1, else TRACK. Sixteen frame periods without one in TRACK or LOCKED give HOLDOVER.
A write of TIM_CTRL stores it and enters ACQUIRE, LEADER or OFF as R483 says. A spread of ADJ over its 102,400 periods advances
GCNT by 102,400 + ADJ, and a tick advances it by the period's part. -/
def Obligations.SyncFrames : Prop :=
  (∀ h f c : Nat, h ≤ 14 → f ≤ 1 → c < 2 ^ 64 → c % 102400 = 0 →
    frameValid (mkFrame h f c) = true ∧ frameCount (mkFrame h f c) = c ∧ frameHops (mkFrame h f c) = h) ∧
  (∀ s : State,
    (s.syncDriven = true → s.gcnt % 102400 = 0 → Runs .syncFrameSend s fun t =>
      ∃ fr, t = { s with t := { s.t with framesOut := fr :: s.t.framesOut } } ∧
        fr = mkFrame (if s.rd .TIM_CTRL_MODE = 1 then 0 else s.rd .TIM_SYNC_STATUS_HOPS + 1)
          (b2n (s.rd .TIM_SYNC_STATUS_STATE == 5)) s.gcnt) ∧
    (s.syncDriven = false ∨ s.gcnt % 102400 ≠ 0 → exec .syncFrameSend s = .next s)) ∧
  (∀ (s : State) (fr l : Nat), s.rd .TIM_CTRL_ENABLE = 0 → exec (.syncFrame fr l) s = .next s) ∧
  (∀ (s : State) (fr l : Nat), s.rd .TIM_CTRL_ENABLE ≠ 0 →
    (frameValid fr = false ∨ ∃ n < 102000, s.t.sinceFrame = some n) →
    Runs (.syncFrame fr l) s fun t => OnlyRegsIrq s t [(.TIM_SYNC_STATUS_FRAMES_BAD, 0)] ∧
      t.rd .TIM_SYNC_STATUS_FRAMES_BAD = min 65535 (s.rd .TIM_SYNC_STATUS_FRAMES_BAD + 1) ∧ Raised s t 41) ∧
  (∀ (s : State) (fr l : Nat) (e : Int), s.rd .TIM_CTRL_ENABLE ≠ 0 → frameValid fr = true →
    (∀ n, s.t.sinceFrame = some n → 102000 ≤ n) → s.rd .TIM_CTRL_MODE = 2 →
    e = (frameCount fr : Int) + s.rd .TIM_SYNC_DELAY_DELAY - l →
    (s.rd .TIM_SYNC_STATUS_STATE = 2 → 0 ≤ s.gcnt + e → s.gcnt + e < 2 ^ 64 → Runs (.syncFrame fr l) s fun t =>
      (t.gcnt : Int) = s.gcnt + e ∧ t.rd .TIM_SYNC_STATUS_RATE = 0 ∧ t.t.adj = 0 ∧ t.rd .TIM_SYNC_STATUS_STATE = 3 ∧
      t.rd .TIM_SYNC_STATUS_STEPS = min 65535 (s.rd .TIM_SYNC_STATUS_STEPS + 1) ∧ t.t.good = 0 ∧ t.t.far = 0 ∧
      Raised s t 40 ∧ Raised s t 42) ∧
    (s.rd .TIM_SYNC_STATUS_STATE ≠ 2 → 64 < e.natAbs → Runs (.syncFrame fr l) s fun t =>
      t.gcnt = s.gcnt ∧ t.rd .TIM_SYNC_STATUS_RATE = s.rd .TIM_SYNC_STATUS_RATE ∧ t.t.adj = s.syncRate ∧ t.t.phase = 0 ∧
      t.t.far = s.t.far + 1 ∧
      t.rd .TIM_SYNC_STATUS_STATE = (if s.t.far = 2 then 2 else s.rd .TIM_SYNC_STATUS_STATE)) ∧
    (s.rd .TIM_SYNC_STATUS_STATE ≠ 2 → e.natAbs ≤ 64 → Runs (.syncFrame fr l) s fun t =>
      t.gcnt = s.gcnt ∧ t.syncRate = max (-256) (min 255 (s.syncRate + e)) ∧ t.t.adj = t.syncRate + e ∧ t.t.phase = 0 ∧
      t.t.far = 0 ∧ t.t.good = (if e.natAbs ≤ 1 then s.t.good + 1 else 0) ∧
      t.rd .TIM_SYNC_STATUS_STATE = (if 4 ≤ t.t.good then 4 else 3) ∧
      (t.rd .TIM_SYNC_STATUS_STATE ≠ s.rd .TIM_SYNC_STATUS_STATE → Raised s t 40))) ∧
  (∀ s : State, (s.rd .TIM_SYNC_STATUS_STATE = 3 ∨ s.rd .TIM_SYNC_STATUS_STATE = 4) →
    (s.t.frameG + 16 * 102400 ≤ s.gcnt → Runs .holdover s fun t => t.rd .TIM_SYNC_STATUS_STATE = 5 ∧
      t.t.adj = s.syncRate ∧ t.gcnt = s.gcnt ∧ Raised s t 40) ∧
    (s.gcnt < s.t.frameG + 16 * 102400 → exec .holdover s = .next s)) ∧
  (∀ (s : State) (v : Nat), s.served .island → Runs (.timCtrlWrite v) s fun t =>
    t.rd .TIM_CTRL_ENABLE = v % 2 ∧ t.rd .TIM_CTRL_MODE = v / 2 % 4 ∧ t.rd .TIM_CTRL_REPEAT = v / 8 % 2 ∧
    t.gcnt = s.gcnt ∧
    (s.rd .TIM_CTRL_MODE ≠ v / 2 % 4 ∨ s.rd .TIM_CTRL_ENABLE ≠ v % 2 → s.rd .TIM_CTRL_ENABLE < 2 →
      t.t.adj = 0 ∧ t.rd .TIM_SYNC_STATUS_STATE =
        (if v % 2 = 0 then 0 else if v / 2 % 4 = 1 then 1 else if v / 2 % 4 = 2 then 2 else 0))) ∧
  (∀ a : Int, ((List.range 102400).map (spreadInc a)).foldl (· + ·) 0 = 102400 + a) ∧
  (∀ s : State, s.t.running = true → 0 ≤ s.gcnt + spreadInc s.t.adj s.t.phase →
    s.gcnt + spreadInc s.t.adj s.t.phase < 2 ^ 64 → (s.tick.gcnt : Int) = s.gcnt + spreadInc s.t.adj s.t.phase)

/-- From a valid date a tick below SUBSEC 32,767 only adds 1 to it; at 32,767 it gives the next second with SUBSEC 0, a valid
date one second later, with DOW computed from it. After 2399-12-31 23:59:59 it wraps to 2000-01-01 00:00:00, sets WRAP and
fires source 44. DOW is 0 for Monday: 2000-01-01 reads 5, and each day's DOW follows the last modulo 7. The 400 years hold
20,871 weeks, so the wrap keeps the order. As R493 says, a LOAD of a stage out of range sets BADDATE, fires source 45 and
leaves the calendar and a pending stage; a good one becomes pending; the next tick takes it with SUBSEC 0, sets LOADED and
VALID and fires source 43. After the loss of both supplies (R494) the calendar is 2000-01-01 with VALID 0 and 46 fires. -/
def Obligations.Calendar : Prop :=
  (∀ s : State, s.date.ok = true → s.rd .CAL_CTRL_PENDING = 0 →
    (s.rd .CAL_TIME_SUBSEC < 32767 → Runs .calendarTick s fun t =>
      OnlyRegs s t [(.CAL_TIME_SUBSEC, 0)] ∧ t.rd .CAL_TIME_SUBSEC = s.rd .CAL_TIME_SUBSEC + 1) ∧
    (s.rd .CAL_TIME_SUBSEC = 32767 → Runs .calendarTick s fun t =>
      t.date.ok = true ∧ t.rd .CAL_TIME_SUBSEC = 0 ∧ t.date = (nextSecond s.date).1 ∧
      t.rd .CAL_TIME_DOW = dayOfWeek t.date.year t.date.month t.date.day ∧
      (s.date = ⟨2399, 12, 31, 23, 59, 59⟩ → t.date = ⟨2000, 1, 1, 0, 0, 0⟩ ∧ t.rd .CAL_STATUS_WRAP = 1 ∧ Raised s t 44) ∧
      (s.date ≠ ⟨2399, 12, 31, 23, 59, 59⟩ → t.date.seconds = s.date.seconds + 1 ∧
        t.rd .CAL_STATUS_WRAP = s.rd .CAL_STATUS_WRAP))) ∧
  (dayOfWeek 2000 1 1 = 5 ∧ dayNumber 2399 12 31 + 1 = 20871 * 7 ∧
    (dayOfWeek 2399 12 31 + 1) % 7 = dayOfWeek 2000 1 1 ∧
    ∀ d : DateTime, d.ok = true → (nextSecond d).2 = false → (nextSecond d).1.second = 0 →
      (nextSecond d).1.minute = 0 → (nextSecond d).1.hour = 0 →
      dayOfWeek (nextSecond d).1.year (nextSecond d).1.month (nextSecond d).1.day =
        (dayOfWeek d.year d.month d.day + 1) % 7) ∧
  (∀ s : State, s.served .island →
    ((decDate (s.rd .CAL_STAGE_DATE_TIME * 2 ^ 22)).ok = false → Runs .calLoad s fun t =>
      t.rd .CAL_STATUS_BADDATE = 1 ∧ Raised s t 45 ∧ t.date = s.date ∧ t.rd .CAL_TIME_SUBSEC = s.rd .CAL_TIME_SUBSEC ∧
      t.rd .CAL_CTRL_PENDING = s.rd .CAL_CTRL_PENDING ∧ t.t.stage = s.t.stage) ∧
    ((decDate (s.rd .CAL_STAGE_DATE_TIME * 2 ^ 22)).ok = true → Runs .calLoad s fun t =>
      t.rd .CAL_CTRL_PENDING = 1 ∧ t.t.stage = s.rd .CAL_STAGE_DATE_TIME * 2 ^ 22 ∧ t.date = s.date)) ∧
  (∀ s : State, s.rd .CAL_CTRL_PENDING = 1 → (decDate s.t.stage).ok = true → Runs .calendarTick s fun t =>
    t.date = decDate s.t.stage ∧ t.rd .CAL_TIME_SUBSEC = 0 ∧ t.rd .CAL_CTRL_PENDING = 0 ∧ t.rd .CAL_STATUS_LOADED = 1 ∧
    t.rd .CAL_STATUS_VALID = 1 ∧ Raised s t 43 ∧
    t.rd .CAL_TIME_DOW = dayOfWeek t.date.year t.date.month t.date.day) ∧
  (∀ s : State, Runs .calInvalid s fun t => t.date = ⟨2000, 1, 1, 0, 0, 0⟩ ∧ t.rd .CAL_TIME_SUBSEC = 0 ∧
    t.rd .CAL_STATUS_VALID = 0 ∧ t.rd .CAL_TIME_DOW = 5 ∧ Raised s t 46)

/-- An enabled comparator with GCNT at or beyond TARGET fires source 576 + c. A one-shot one clears ENABLE and keeps TARGET; a
periodic one adds whole RELOADs (0 acting as 1) to TARGET until it lies above GCNT, one at the least, the sum being the first
such target, and counts those beyond the first in MISSED, saturating. One that is disabled or not yet due changes nothing. A
write of TARGET, RELOAD, KEY, STREAM, INDEX or STEP stores the written half or whole and changes nothing else. The
generator's ten rounds give R495's example for zero inputs in their first two. -/
def Obligations.ComparatorsAndGenerator : Prop :=
  (∀ (s : State) (c : Nat), c < 64 → s.rd .TIM_CMP_CTRL_ENABLE c = 1 → s.rd .TIM_CMP_TARGET_TARGET c ≤ s.gcnt →
    s.rd .PWR_STATUS_STATE ≠ 3 → s.rd .PWR_STATUS_STATE ≠ 4 → Runs (.comparatorExpiry c) s fun t =>
      Raised s t (576 + c) ∧
      OnlyRegsIrq s t [(.TIM_CMP_CTRL_ENABLE, c), (.TIM_CMP_TARGET_TARGET, c), (.TIM_CMP_CTRL_MISSED, c)] ∧
      (s.rd .TIM_CMP_CTRL_PERIODIC c ≠ 1 → t.rd .TIM_CMP_CTRL_ENABLE c = 0 ∧
        t.rd .TIM_CMP_TARGET_TARGET c = s.rd .TIM_CMP_TARGET_TARGET c ∧
        t.rd .TIM_CMP_CTRL_MISSED c = s.rd .TIM_CMP_CTRL_MISSED c) ∧
      (s.rd .TIM_CMP_CTRL_PERIODIC c = 1 → s.gcnt + max 1 (s.rd .TIM_CMP_RELOAD_RELOAD c) < 2 ^ 64 →
        t.rd .TIM_CMP_CTRL_ENABLE c = 1 ∧ ∃ k : Nat,
          t.rd .TIM_CMP_TARGET_TARGET c =
            s.rd .TIM_CMP_TARGET_TARGET c + (k + 1) * max 1 (s.rd .TIM_CMP_RELOAD_RELOAD c) ∧
          s.gcnt < t.rd .TIM_CMP_TARGET_TARGET c ∧
          (k ≠ 0 → s.rd .TIM_CMP_TARGET_TARGET c + k * max 1 (s.rd .TIM_CMP_RELOAD_RELOAD c) ≤ s.gcnt) ∧
          t.rd .TIM_CMP_CTRL_MISSED c = min 65535 (s.rd .TIM_CMP_CTRL_MISSED c + k))) ∧
  (∀ (s : State) (c : Nat), 64 ≤ c ∨ s.rd .TIM_CMP_CTRL_ENABLE c ≠ 1 ∨ s.gcnt < s.rd .TIM_CMP_TARGET_TARGET c →
    exec (.comparatorExpiry c) s = .next s) ∧
  (∀ (s : State) (c half v : Nat) (i : Instr) (f : Fld), s.served .island →
    ((c < 64 ∧ ((i = .timCmpTargetWrite c half v ∧ f = .TIM_CMP_TARGET_TARGET) ∨
        (i = .timCmpReloadWrite c half v ∧ f = .TIM_CMP_RELOAD_RELOAD))) ∨
      (c = 0 ∧ ((i = .timRngInputWrite 0 half v ∧ f = .TIM_RNG_KEY_KEY) ∨
        (i = .timRngInputWrite 1 half v ∧ f = .TIM_RNG_STREAM_STREAM) ∨
        (i = .timRngInputWrite 2 half v ∧ f = .TIM_RNG_INDEX_INDEX) ∨
        (i = .timRngInputWrite 3 half v ∧ f = .TIM_RNG_STEP_STEP)))) →
    Runs i s fun t => OnlyRegs s t [(f, c)] ∧
      (half = 0 → t.rd f c = v % 2 ^ 64) ∧
      (s.rd f c < 2 ^ 64 → half = 1 → t.rd f c % 2 ^ 32 = v % 2 ^ 32 ∧ t.rd f c / 2 ^ 32 = s.rd f c / 2 ^ 32) ∧
      (s.rd f c < 2 ^ 64 → half = 2 → t.rd f c / 2 ^ 32 = v % 2 ^ 32 ∧ t.rd f c % 2 ^ 32 = s.rd f c % 2 ^ 32)) ∧
  (rngRound 0 0 ⟨0, 0, 0, 0⟩ 0 = ⟨0, 0x5DC724A9, 0x5DC724A9, 0⟩ ∧
    rngRound 0 0 ⟨0, 0x5DC724A9, 0x5DC724A9, 0⟩ 1 = ⟨0xBB8E4952, 0x19556DFB, 0x19556DFB, 0x9EC4A76B⟩)

/-- Each event of bring-up acts only in its own state and otherwise changes nothing: a PLL lock takes RESET to ROM and its
timeout to FAILED with PLL_LOCK; the multicast takes ROM to FW_LOADED, or to FAILED with FIRMWARE_INVALID without an
acceptable image, or with FUMAROLE without a vital core; the path takes FW_LOADED to TRAINING, warm exactly with a record
that R502 accepts, or to FAILED without valid certificates; then TRAINING, TESTING, CHECKING and CONFIGURING follow, with
MEMTEST_DONE fired at the end of the test and every Caldera's STATE showing the floor plan at the end of checking. A record that is due
is written with a SEQ one higher to the slot that does not hold the newest one, and fires 2; a failed write leaves both slots and fires 8. A
restart, a lost lock and a device-wide fault lead to RESET with GCNT 0 and the calendar kept, or at the fourth fault
within an hour of the first to FAILED with RESTART_LIMIT. -/
def Obligations.BringUp : Prop :=
  (∀ s : State,
    (∀ c : Instr, (c = .pllLock ∧ s.inState 0 = false) ∨ (c = .pllLockTimeout ∧ s.inState 0 = false) ∨
      (∃ fw dead, c = .firmwareMulticast fw dead ∧ s.inState 1 = false) ∨
      (∃ ok, c = .pathChosen ok ∧ s.inState 2 = false) ∨ (∃ h sp, c = .trainingDone h sp ∧ s.inState 3 = false) ∨
      (∃ w ok, c = .checkingDone w ok ∧ s.inState 5 = false) → exec c s = .next s) ∧
    (s.inState 0 = true → (Runs .pllLock s fun t => t.rd .RDY_STATUS_STATE = 1 ∧ t.t.running = true) ∧
      Runs .pllLockTimeout s fun t => t.rd .RDY_STATUS_STATE = 9 ∧ t.rd .BRG_STATE_FAIL_REASON = 2) ∧
    (∀ fw dead, s.inState 1 = true → s.pw.strapTest ≠ 1 → Runs (.firmwareMulticast fw dead) s fun t =>
      (s.pickFw fw = none → t.rd .RDY_STATUS_STATE = 9 ∧ t.rd .BRG_STATE_FAIL_REASON = 1) ∧
      (∀ i, s.pickFw fw = some i → (∃ c ∈ dead, vitalCore c = true) →
        t.rd .RDY_STATUS_STATE = 9 ∧ t.rd .BRG_STATE_FAIL_REASON = 3) ∧
      (∀ i, s.pickFw fw = some i → (∀ c ∈ dead, vitalCore c = false) →
        t.rd .RDY_STATUS_STATE = 2 ∧ t.sec.fwVersion = i.version ∧ i ∈ fw ∧ s.rd .SEC_STATUS_FW_SVN_FLOOR ≤ i.svn)) ∧
    (s.inState 2 = true → (Runs (.pathChosen false) s fun t =>
        t.rd .RDY_STATUS_STATE = 9 ∧ t.rd .BRG_STATE_FAIL_REASON = 1) ∧
      Runs (.pathChosen true) s fun t => t.rd .RDY_STATUS_STATE = 3 ∧
        (t.rd .BRG_STATE_PATH = 1 ↔ ∃ x, s.healthNow = some x ∧ s.warmOk x.2 = true)) ∧
    (∀ h sp, s.inState 3 = true → Runs (.trainingDone h sp) s fun t => t.rd .RDY_STATUS_STATE = 4 ∧
      t.rd .BRG_MEMTEST_MODE = (if s.warmPath = true then 2 else 1) ∧ Raised s t 0 ∧
      ∀ pc < 128, s.warmPath = true → s.recordRetired pc = true → t.rd .MEM_PC_STATUS_STATE pc = 5) ∧
    (∀ rows, s.inState 4 = true → Runs (.memtestDone rows) s fun t => t.rd .RDY_STATUS_STATE = 5 ∧ Raised s t 3 ∧
      Raised s t 0) ∧
    (∀ w ok, s.inState 5 = true → Runs (.checkingDone w ok) s fun t => t.rd .RDY_STATUS_STATE = 6 ∧ t.confReached = true ∧
      t.brg.cur.floor = s.buildFloor w ∧ (∀ e < 6, t.rd .CE_STATUS_STATE e = b2n (((s.buildFloor w).getD 0 0).testBit e)) ∧
      Raised s t (if ok then 2 else 8)) ∧
    (∀ ok, s.brg.dirty = true → s.inReset = false → 11 ∉ s.brg.fcDown → Runs (.healthRecordWrite ok) s fun t =>
      OnlyRegsIrq { s with brg := t.brg } t [] ∧ t.brg.dirty = false ∧
      (ok = false → t.brg.slots = s.brg.slots ∧ Raised s t 8) ∧
      (ok = true → Raised s t 2 ∧ t.brg.cur.seq = s.brg.cur.seq + 1 ∧
        t.brg.cur.fullReq = (s.rd .BRG_CTRL_NEXT_FULL == 1) ∧
        t.brg.slots = s.brg.slots.set (s.healthNow.elim 0 fun x => 1 - x.1) (some t.brg.cur))) ∧
    (∀ v ok, s.served .early → Runs (.nextFullWrite v ok) s fun t =>
      t.rd .BRG_CTRL_NEXT_FULL = v / 4 % 2 ∧ t.rd .BRG_CTRL_AUTO_RETURN = v / 2 % 2 ∧ t.rd .BRG_CTRL_AUTO_RETIRE = v % 2 ∧
      t.rd .BRG_CTRL_HEALTH_MAX_AGE = v / 256 % 256 ∧
      (s.rd .BRG_CTRL_NEXT_FULL = v / 4 % 2 → t.brg = s.brg) ∧
      (s.rd .BRG_CTRL_NEXT_FULL ≠ v / 4 % 2 → s.confReached = true →
        Raised s t (if ok then 2 else 8) ∧ (ok = true → t.brg.cur.fullReq = (v / 4 % 2 == 1))))) ∧
  (∀ (s : State) (v : Nat) (ok : Bool) (c : Instr),
    (c = .brgRestart v ok ∧ s.served .early) ∨ (c = .pllLost ∧ s.t.running = true ∧ s.inReset = false) ∨
      (c = .fatalFabricError ok ∧ s.confReached = true ∧ s.inReset = false ∧ s.pw.tripHeld = false ∧
        (s.brg.cur.faultCount = 0 ∨ s.brg.cur.faultFirst + 3600 < s.calSec ∨ s.brg.cur.faultCount ≠ 3)) →
    Runs c s fun t => t.rd .RDY_STATUS_STATE = 0 ∧ t.gcnt = 0 ∧ t.date = s.date ∧ t.confReached = false ∧
      t.pending = s.pending) ∧
  (∀ (s : State) (ok : Bool), s.confReached = true → s.inReset = false → s.pw.tripHeld = false →
    s.brg.cur.faultCount = 3 → s.calSec ≤ s.brg.cur.faultFirst + 3600 → Runs (.fatalFabricError ok) s fun t =>
      t.rd .RDY_STATUS_STATE = 9 ∧ t.rd .BRG_STATE_FAIL_REASON = 8 ∧ t.brg.cur.faultCount = 0)

/-- RETIRE of a channel IN_SERVICE or RETIRING whose partition no waiting section names makes it RETIRING and RESULT BUSY;
when no unit of its set is held and FC11 wants nothing more, the end of the move makes it RETIRED with DONE and fires 4. TEST takes a RETIRED
channel to TESTING, RETURN one whose last TEST passed to IN_SERVICE, or to FREE without its partition; in any other state each ends with
STATE_WRONG, and while RESULT is BUSY only PC is stored. A row repair spends a spare row and fires 67, and 68 at the last.
REMOVE, TEST and RETURN of a Caldera take it from IN_SERVICE to DRAINING, from OUT_OF_SERVICE to TESTING or RELOADING, or
end with STATE_WRONG; with its slots empty a draining one becomes OUT_OF_SERVICE with DONE and fires its source 12; the end
of a reload leaves its regions zero and lets it join. A partition reset ends with REFUSED for 63 and STATE_WRONG for
one unconfigured or under reset, else it is BUSY until it completes with DONE and fires 6. A restarted Fumarole fires 25. -/
def Obligations.RepairInService : Prop :=
  (∀ (s : State) (v pc : Nat), s.served .early → pc = v / 2 ^ 40 % 128 →
    (∀ c : Instr, c = .pcRetire v ∨ c = .pcTest v ∨ c = .pcReturn v → s.rd .BRG_PC_CTRL_RESULT = 1 →
      Runs c s fun t => OnlyRegs s t [(.BRG_PC_CTRL_PC, 0)] ∧ t.rd .BRG_PC_CTRL_PC = pc) ∧
    (s.rd .BRG_PC_CTRL_RESULT ≠ 1 →
      (Runs (.pcRetire v) s fun t => t.rd .BRG_PC_CTRL_PC = pc ∧
        if (s.rd .MEM_PC_STATUS_STATE pc = 1 ∨ s.rd .MEM_PC_STATUS_STATE pc = 3) ∧
            s.waitNames (s.rd .MEM_PC_STATUS_PARTITION pc) = false
        then t.rd .MEM_PC_STATUS_STATE pc = 3 ∧ t.rd .BRG_PC_CTRL_RESULT = 1
        else t.rd .BRG_PC_CTRL_RESULT = 2 ∧ t.rd .MEM_PC_STATUS_STATE pc = s.rd .MEM_PC_STATUS_STATE pc) ∧
      (Runs (.pcTest v) s fun t => t.rd .BRG_PC_CTRL_PC = pc ∧
        if s.rd .MEM_PC_STATUS_STATE pc = 5
        then t.rd .MEM_PC_STATUS_STATE pc = 4 ∧ t.rd .BRG_PC_CTRL_RESULT = 1 ∧ t.rd .BRG_MEMTEST_MODE = 3
        else t.rd .BRG_PC_CTRL_RESULT = 2 ∧ t.rd .MEM_PC_STATUS_STATE pc = s.rd .MEM_PC_STATUS_STATE pc) ∧
      Runs (.pcReturn v) s fun t =>
        if s.rd .MEM_PC_STATUS_STATE pc = 5 ∧ pc ∈ s.brg.pcTested
        then t.rd .BRG_PC_CTRL_RESULT = 0 ∧ Raised s t 4 ∧
          t.rd .MEM_PC_STATUS_STATE pc = (if s.unconfigured (s.rd .MEM_PC_STATUS_PARTITION pc) then 2 else 1)
        else t.rd .BRG_PC_CTRL_RESULT = 2 ∧ t.rd .MEM_PC_STATUS_STATE pc = s.rd .MEM_PC_STATUS_STATE pc)) ∧
  (∀ (s : State) (pc : Nat), pc < 128 → s.rd .MEM_PC_STATUS_STATE pc = 3 → s.brg.pcOp = pc →
    s.setHeld (s.rd .MEM_PC_STATUS_ISET pc) = [] → s.brg.pcWant = [] → s.rd .BRG_CTRL_AUTO_RETURN = 0 →
    Runs (.retireEnd pc) s fun t => t.rd .MEM_PC_STATUS_STATE pc = 5 ∧ t.rd .BRG_PC_CTRL_RESULT = 0 ∧
      t.rd .BRG_PC_CTRL_PAGES_LEFT = 0 ∧ Raised s t 4) ∧
  (∀ (s : State) (pc : Nat), pc < 128 → (s.rd .MEM_PC_STATUS_STATE pc = 1 ∨ s.rd .MEM_PC_STATUS_STATE pc = 3) →
    11 ∉ s.brg.fcDown → 0 < s.rd .MEM_PC_STATUS_REPAIR_LEFT pc → s.rd .MEM_PC_STATUS_REPAIR_LEFT pc < 256 →
    Runs (.rowRepaired pc) s fun t =>
      t.rd .MEM_PC_STATUS_REPAIR_LEFT pc = s.rd .MEM_PC_STATUS_REPAIR_LEFT pc - 1 ∧ t.brg.dirty = true ∧ Raised s t 67 ∧
      (s.rd .MEM_PC_STATUS_REPAIR_LEFT pc = 1 → Raised s t 68) ∧
      OnlyRegsIrq { s with brg := t.brg } t [(.MEM_PC_STATUS_REPAIR_LEFT, pc)]) ∧
  (∀ (s : State) (e v : Nat), e < 6 → s.served .late → s.rd .CE_CTRL_RESULT e ≠ 1 →
    (∀ c : Instr, c = .ceRemove e v ∧ s.rd .CE_STATUS_STATE e ≠ 1 ∨ c = .ceTest e v ∧ s.rd .CE_STATUS_STATE e ≠ 3 ∨
        c = .ceReturn e v ∧ s.ceMayReturn e = false →
      Runs c s fun t => OnlyRegs s t [(.CE_CTRL_RESULT, e)] ∧ t.rd .CE_CTRL_RESULT e = 2) ∧
    (s.rd .CE_STATUS_STATE e = 3 → Runs (.ceTest e v) s fun t =>
      t.rd .CE_STATUS_STATE e = 4 ∧ t.rd .CE_CTRL_RESULT e = 1 ∧ Raised s t (192 + 16 * e)) ∧
    (s.ceMayReturn e = true → Runs (.ceReturn e v) s fun t =>
      t.rd .CE_STATUS_STATE e = 5 ∧ t.rd .CE_CTRL_RESULT e = 1 ∧ Raised s t (192 + 16 * e)) ∧
    (s.rd .CE_STATUS_STATE e = 1 → Runs (.ceRemove e v) s fun t =>
      t.rd .CE_STATUS_STATE e = 2 ∧ t.rd .CE_CTRL_RESULT e = 1 ∧ ∀ r ∈ t.resident, r.ce ≠ e)) ∧
  (∀ (s : State) (e : Nat), e < 6 →
    (s.rd .CE_STATUS_STATE e = 2 → (∀ f ∈ s.flights, ∀ x ∈ f.slots, x.1 ≠ e) → e ∉ s.brg.ceAuto → e ∉ s.brg.ceFc →
      Runs (.removeEnd e) s fun t => t.rd .CE_STATUS_STATE e = 3 ∧ t.rd .CE_CTRL_RESULT e = 0 ∧
        Raised s t (192 + 16 * e + 12)) ∧
    (s.rd .CE_STATUS_STATE e = 5 → Runs (.reloadEnd e) s fun t =>
      e ∈ t.ceJoin ∧ (∀ u < 512, t.regionAt e u = {}) ∧ t.csr = s.csr)) ∧
  (∀ (s : State) (v p : Nat), s.served .early → v / 2 ^ 28 % 16 = 1 → p = v / 256 % 64 → s.rd .BRG_PART_RESET_RESULT ≠ 1 →
    (p = 63 → Runs (.partitionReset v) s fun t => t.rd .BRG_PART_RESET_RESULT = 3) ∧
    (p ≠ 63 → s.unconfigured p = true ∨ p ∈ s.brg.resetting →
      Runs (.partitionReset v) s fun t => t.rd .BRG_PART_RESET_RESULT = 2) ∧
    (p ≠ 63 → s.unconfigured p = false → p ∉ s.brg.resetting →
      Runs (.partitionReset v) s fun t => t.rd .BRG_PART_RESET_RESULT = 1 ∧ p ∈ t.brg.resetting ∧ t.brg.partOp = p)) ∧
  (∀ (s : State) (p : Nat), s.brg.resetting = [p] → s.brg.partOp = p → s.rd .BRG_PART_RESET_RESULT = 1 → s.img.wait = [] →
    s.sec.unlock = none →
    Runs .partResetDone s fun t => t.brg.resetting = [] ∧ t.rd .BRG_PART_RESET_RESULT = 0 ∧ Raised s t 6) ∧
  (∀ (s : State) (fc : Nat) (ok : Bool), fc ∈ s.brg.fcDown →
    Runs (.fumaroleRestarted fc ok) s fun t => fc ∉ t.brg.fcDown ∧ Raised s t 25)

/-- RAISE_FW and RAISE_STRUCT end with DONE and no fuse when the floor would not rise, with EXHAUSTED when the 32 steps are
used, else they are BUSY with one programming more; each is ignored while BUSY. PROGRAM with a slot programmed or outside
READY and DEGRADED_READY ends with STATE_WRONG, else it is BUSY. The oldest programming ends with the floor or the next
owner slot it holds. NONCE makes a nonce valid. A SUBMIT not ignored drops the nonce; a token passes only with the device's
DIE_ID, the valid nonce and a good signature, another is counted, fires 641 and leaves the level; a passing one of LEVEL 1
raises level 0 to 1, of LEVEL 2 leaves a lower level for the resets and is BUSY, of LEVEL 3 programs the next slot or ends
with EXHAUSTED. The end of the resets sets level 2, or 0 after a LOCK; LOCK sets 0; a change fires 640. -/
def Obligations.DebugAndFuses : Prop :=
  (∀ s : State, s.served .early →
    (∀ c : Instr, c = .raiseFw ∨ c = .raiseStruct → s.rd .SEC_ARB_CTRL_RESULT = 1 → exec c s = .next s) ∧
    (s.rd .SEC_ARB_CTRL_RESULT ≠ 1 →
      (Runs .raiseFw s fun t => OnlyRegs s { t with sec := s.sec } [(.SEC_ARB_CTRL_RESULT, 0)] ∧
        if s.sec.fwSvn ≤ s.rd .SEC_STATUS_FW_SVN_FLOOR then t.rd .SEC_ARB_CTRL_RESULT = 0 ∧ t.sec = s.sec
        else t.rd .SEC_ARB_CTRL_RESULT = 1 ∧ t.sec.fuses = s.sec.fuses ++ [.fwFloor s.sec.fwSvn]) ∧
      Runs .raiseStruct s fun t => OnlyRegs s { t with sec := s.sec } [(.SEC_ARB_CTRL_RESULT, 0)] ∧
        if s.rd .STRUCT_ACTIVE_SEQ_SEQ ≤ s.rd .SEC_STRUCT_FLOOR_FLOOR then t.rd .SEC_ARB_CTRL_RESULT = 0 ∧ t.sec = s.sec
        else if 32 ≤ s.rd .SEC_STATUS_ARB_STEPS then t.rd .SEC_ARB_CTRL_RESULT = 3 ∧ t.sec = s.sec
        else t.rd .SEC_ARB_CTRL_RESULT = 1 ∧
          t.sec.fuses = s.sec.fuses ++ [.structFloor (s.rd .STRUCT_ACTIVE_SEQ_SEQ)]) ∧
    (∀ v, v / 2 ^ 28 % 16 = 1 → s.rd .SEC_OWNER_CTRL_RESULT ≠ 1 → Runs (.ownerProgram v) s fun t =>
      if s.rd .SEC_STATUS_OWNER_SLOT ≠ 0 ∨ s.ready = false then t.rd .SEC_OWNER_CTRL_RESULT = 2 ∧ t.sec = s.sec
      else t.rd .SEC_OWNER_CTRL_RESULT = 1 ∧
        t.sec.fuses = s.sec.fuses ++ [.owner s.ownerDigest true (v % 2 == 1)]) ∧
    (s.rd .SEC_DBG_CTRL_RESULT ≠ 1 → Runs .dbgNonce s fun t => t.sec.nonceOk = true ∧ t.rd .SEC_DBG_CTRL_RESULT = 0 ∧
      t.rd .SEC_STATUS_DEBUG = s.rd .SEC_STATUS_DEBUG) ∧
    (s.sec.unlock = none → s.rd .SEC_DBG_CTRL_RESULT ≠ 1 → Runs .dbgLock s fun t =>
      t.rd .SEC_STATUS_DEBUG = 0 ∧ (s.rd .SEC_STATUS_DEBUG ≠ 0 → Raised s t 640)) ∧
    (s.sec.unlock ≠ none → Runs .dbgLock s fun t => t.rd .SEC_STATUS_DEBUG = 0 ∧ t.sec.lockAfter = true ∧
      t.sec.unlock = s.sec.unlock) ∧
    (∀ sig b, s.rd .SEC_DBG_CTRL_RESULT ≠ 1 →
      b = (List.range (s.rd .SEC_DBG_LEN_LEN)).map (fun i =>
        s.getByte (hostKey (s.home pf0) (s.rd .SEC_DBG_ADDR_ADDR * 8 + i))) →
      (s.tokenBad b sig = 0 → leNat ((b.drop 8).take 16) = s.dieId ∧ s.sec.nonceOk = true ∧
        (∀ i < 4, d64 b (0x18 + 8 * i) = s.rd .SEC_DBG_NONCE_NONCE i) ∧ sig = 0 ∧
        (d8 b 7 = 0 ∧ d8 b 6 ≠ 3 ∨ d8 b 7 = 1 ∧ s.rd .SEC_STATUS_OWNER_SLOT ≠ 0)) ∧
      Runs (.dbgSubmit sig) s fun t => t.sec.nonceOk = false ∧
        (s.tokenBad b sig ≠ 0 → t.rd .SEC_DBG_CTRL_RESULT = s.tokenBad b sig ∧ Raised s t 641 ∧
          t.rd .SEC_STATUS_TOKENS_REJECTED = min 255 (s.rd .SEC_STATUS_TOKENS_REJECTED + 1) ∧
          t.rd .SEC_STATUS_DEBUG = s.rd .SEC_STATUS_DEBUG ∧ t.sec.fuses = s.sec.fuses ∧ t.sec.tokens = s.sec.tokens) ∧
        (s.tokenBad b sig = 0 →
          (d8 b 6 = 1 → t.rd .SEC_DBG_CTRL_RESULT = 0 ∧
            t.rd .SEC_STATUS_DEBUG = (if s.rd .SEC_STATUS_DEBUG = 0 then 1 else s.rd .SEC_STATUS_DEBUG)) ∧
          (d8 b 6 = 2 → t.rd .SEC_STATUS_DEBUG = s.rd .SEC_STATUS_DEBUG ∧
            t.rd .SEC_DBG_CTRL_RESULT = (if 2 ≤ s.rd .SEC_STATUS_DEBUG then 0 else 1)) ∧
          (d8 b 6 = 3 → t.rd .SEC_STATUS_DEBUG = s.rd .SEC_STATUS_DEBUG ∧
            if 4 ≤ s.rd .SEC_STATUS_OWNER_SLOT then t.rd .SEC_DBG_CTRL_RESULT = 7 ∧ t.sec.fuses = s.sec.fuses
            else t.rd .SEC_DBG_CTRL_RESULT = 1 ∧
              t.sec.fuses = s.sec.fuses ++ [.owner (leNat ((b.drop 0x38).take 48)) false false])))) ∧
  (∀ (s : State) (f : Fuse) (fs : List Fuse), s.sec.fuses = f :: fs → Runs .fuseProgramDone s fun t =>
    t.sec.fuses = fs ∧
    (∀ n, f = .fwFloor n → n < 256 → t.rd .SEC_STATUS_FW_SVN_FLOOR = n ∧ t.rd .SEC_ARB_CTRL_RESULT = 0) ∧
    (∀ n, f = .structFloor n → n < 2 ^ 64 → t.rd .SEC_STRUCT_FLOOR_FLOOR = n ∧ t.rd .SEC_ARB_CTRL_RESULT = 0) ∧
    (∀ d a b, f = .owner d a b → t.sec.owners = s.sec.owners ++ [d] ∧ Raised s t 643)) ∧
  (∀ s : State, (s.sec.unlock = some [] → Runs .debugState s fun t => t.sec.unlock = none ∧
      t.rd .SEC_DBG_CTRL_RESULT = 0 ∧ t.rd .SEC_STATUS_DEBUG = (if s.sec.lockAfter = true then 0 else 2) ∧
      (t.rd .SEC_STATUS_DEBUG ≠ s.rd .SEC_STATUS_DEBUG → Raised s t 640)) ∧
    (s.sec.unlock ≠ some [] → exec .debugState s = .next s))

/-- A closed mailbox takes nothing. To an open one a request during its function's reissue gets ERROR Busy, the first after
it RequestResynch with the connection reset, and one before its turn UnexpectedRequest (that ERROR is DMTF's,
log entry 227). In its turn GET_VERSION answers with version 1.2 and begins the connection, GET_CAPABILITIES with
CTExponent 20, NEGOTIATE_ALGORITHMS with the offered algorithms or InvalidRequest when none is supported, GET_DIGESTS and
GET_CERTIFICATE with slot 0, an unsupported request with UnsupportedRequest; CHALLENGE and signed GET_MEASUREMENTS
wait for the signing engine, unsigned ones carry the blocks asked for. The engine adds a signature of 96 bytes to one response and sends
it. The end of a reissue makes the key anew, asks for a resynch and fires 642. The measured blocks have R541's lengths, with
index 4 absent before the first image. -/
def Obligations.Attestation : Prop :=
  (∀ (s : State) (port ctx : Nat) (c : Instr) (need : Nat),
    (c = .getVersion port ctx ∧ need = 0) ∨ (c = .getCapabilities port ctx ∧ need = 1) ∨
      (∃ a h m, c = .negotiateAlgorithms port ctx a h m ∧ need = 2) ∨ (c = .getDigests port ctx ∧ need = 3) ∨
      (∃ o l, c = .getCertificate port ctx 0 o l ∧ need = 3) ∨ (∃ m, c = .challenge port ctx 0 m ∧ need = 3) ∨
      (∃ i b, c = .getMeasurements port ctx 0 i b ∧ need = 3) ∨ (∃ k, c = .unsupportedRequest port ctx k ∧ need = 0) →
    (s.mailbox port ctx = false → exec c s = .next s) ∧
    (s.mailbox port ctx = true →
      (ctx ∈ s.sec.reissue → exec c s = .next (s.spdmError ctx 3 0)) ∧
      (ctx ∉ s.sec.reissue → (s.sec.conn.get {} ctx).resync = true → Runs c s fun t =>
        t.sec.replies = (ctx, [0x12, 0x7F, 0x43, 0]) :: s.sec.replies ∧ t.sec.conn.get {} ctx = {}) ∧
      (ctx ∉ s.sec.reissue → (s.sec.conn.get {} ctx).resync = false → s.spdmStage ctx < need →
        exec c s = .next (s.spdmError ctx 4 0)))) ∧
  (∀ (s : State) (port ctx : Nat), s.mailbox port ctx = true → ctx ∉ s.sec.reissue →
    (s.sec.conn.get {} ctx).resync = false →
    (Runs (.getVersion port ctx) s fun t => t.spdmStage ctx = 1 ∧
      ∃ h, t.sec.replies = (ctx, h ++ [1, 0x00, 0x12]) :: s.sec.replies) ∧
    (1 ≤ s.spdmStage ctx → Runs (.getCapabilities port ctx) s fun t => 2 ≤ t.spdmStage ctx ∧
      ∃ r, t.sec.replies = (ctx, [0x12, 0x61, 0, 0, 0, 20] ++ r) :: s.sec.replies) ∧
    (∀ a h m, 2 ≤ s.spdmStage ctx →
      (a.testBit 7 = false → h.testBit 1 = false → m.testBit 0 = false →
        exec (.negotiateAlgorithms port ctx a h m) s = .next (s.spdmError ctx 1 0)) ∧
      (a.testBit 7 = true ∨ h.testBit 1 = true ∨ m.testBit 0 = true →
        Runs (.negotiateAlgorithms port ctx a h m) s fun t => t.spdmStage ctx = 3 ∧
          ∃ r, t.sec.replies = (ctx, [0x12, 0x63] ++ r) :: s.sec.replies)) ∧
    (∀ k, Runs (.unsupportedRequest port ctx k) s fun t =>
      t.sec.replies = (ctx, [0x12, 0x7F, 7, BitVec.ofNat 8 k]) :: s.sec.replies) ∧
    (3 ≤ s.spdmStage ctx →
      (Runs (.getDigests port ctx) s fun t =>
        t.sec.replies = (ctx, [0x12, 0x01, 0, 1] ++ s.chainHash ctx) :: s.sec.replies) ∧
      (∀ o l, o < (s.slot0 ctx).length → Runs (.getCertificate port ctx 0 o l) s fun t => ∃ h, h.length = 4 ∧
        t.sec.replies = (ctx, [0x12, 0x02, 0, 0] ++ h ++ ((s.slot0 ctx).drop o).take l) :: s.sec.replies) ∧
      (∀ m, Runs (.challenge port ctx 0 m) s fun t => t.sec.replies = s.sec.replies ∧ ∃ b,
        t.sec.signing = s.sec.signing ++ [⟨ctx, b, true⟩]) ∧
      (∀ i sg, (∃ v, s.measured ctx i = some v) → i < 9 → Runs (.getMeasurements port ctx 0 i sg) s fun t =>
        ∀ v, s.measured ctx i = some v → ∃ a b,
          (sg = true → t.sec.signing = s.sec.signing ++ [⟨ctx, a ++ v ++ b, false⟩] ∧ t.sec.replies = s.sec.replies) ∧
          (sg = false → t.sec.replies = (ctx, a ++ v ++ b) :: s.sec.replies ∧ t.sec.signing = s.sec.signing)))) ∧
  (∀ (s : State) (r : SignReq), s.nextSigned = some r → Runs .signedResponse s fun t => r ∈ s.sec.signing ∧
    t.sec.signing = s.sec.signing.filter (fun x => x.ctx ≠ r.ctx) ∧
    ∃ g : List Byte, g.length = 96 ∧ t.sec.replies = (r.ctx, r.body ++ g) :: s.sec.replies) ∧
  (∀ (s : State) (ctx : Nat), ctx ∈ s.sec.reissue → Runs (.attestReissued ctx) s fun t => ctx ∉ t.sec.reissue ∧
    t.sec.keys.get (0, 0, 0) ctx = (s.partOf ctx, s.m.keyEpoch.get 0 (s.partOf ctx), s.issueTime) ∧
    (t.sec.conn.get {} ctx).resync = true ∧ Raised s t 642) ∧
  (∀ (s : State) (ctx : Nat), (s.sec.chain = none → s.measured ctx 4 = none) ∧
    ∀ i v, s.measured ctx i = some v →
      v.length = (match i with | 1 => 48 | 2 => 48 | 3 => 8 | 4 => 56 | 5 => 144 | 6 => 48 | 7 => 8 | _ => 32))

/-- A low RESET_N of 1 µs, a fall of PWR_OK or a brown-out resets: outputs float, readiness RESET, GCNT 0, calendar and both
latches kept; a shorter pulse does nothing; the release samples the straps and homes PF0. A RETAIN write ends with
STATE_WRONG and 54 where R558 refuses it, else the device enters RETAIN with Geyser saved and 53, wakes with WAKES counted,
or aborts the entry, and is ACTIVE with 53 when the wake is done. A window sets the level by R562: up when hot, down after
four cool ones, never below the floor; a change of PWR_ALERT_N and a temperature sample apply the floor at once; 48, 49,
50, 51 and 52 fire as R572 says. A trip stops the clocks, floats the outputs and sets TRIPPED. VDD_CORE stays in the part's
range in steps of 5 mV, or fires 55. A served Block Read gives 16 bytes that begin with readiness and reason. -/
def Obligations.PowerAndReset : Prop :=
  (∀ s : State,
    (∀ ns < 1000, exec (.resetNAssert ns) s = .next s) ∧ (s.pw.resetLow = true → exec .brownOut s = .next s) ∧
    (∀ c : Instr, (∃ ns, 1000 ≤ ns ∧ c = .resetNAssert ns) ∨ c = .pwrOkFall ∨ (c = .brownOut ∧ s.pw.resetLow = false) →
      Runs c s fun t => t.pw.resetLow = true ∧ t.pw.pinsFloat = true ∧ t.rd .RDY_STATUS_STATE = 0 ∧ t.gcnt = 0 ∧
        t.date = s.date ∧ t.rd .PWR_STATUS_TRIPPED = s.rd .PWR_STATUS_TRIPPED ∧
        t.rd .PWR_STATUS_PLL_LOST = s.rd .PWR_STATUS_PLL_LOST ∧ t.pending = s.pending ∧ (c = .pwrOkFall → t.pw.pwrOk = false)) ∧
    (s.pw.resetLow = false → ∀ h m e, exec (.resetNRelease h m e) s = .next s) ∧
    (s.pw.resetLow = true → s.pw.tapHold = false → ∀ h m e, Runs (.resetNRelease h m e) s fun t =>
      t.pw.resetLow = false ∧ t.pw.relGcnt = 0 ∧ t.rd .PWR_STRAPS_HOST_PRIMARY = h % 2 ∧ t.rd .PWR_STRAPS_SMB_ADDR = m % 4 ∧
      t.rd .PWR_STRAPS_TEST_EN = e % 2 ∧ t.home pf0 = (if s.is6460 then 0 else h % 2))) ∧
  (∀ s : State,
    (∀ v, s.served .island → s.rd .PWR_CTRL_RESULT ≠ 1 → Runs (.pwrRetain v) s fun t =>
      if s.retainRefused = true then t.rd .PWR_CTRL_RESULT = 2 ∧ Raised s t 54 ∧ t.rd .PWR_STATUS_STATE = s.rd .PWR_STATUS_STATE
      else t.rd .PWR_CTRL_RESULT = 1 ∧ t.rd .PWR_STATUS_STATE = 3) ∧
    (s.rd .PWR_STATUS_STATE = 3 → Runs .retainEntered s fun t => t.rd .PWR_STATUS_STATE = 4 ∧
      t.rd .PWR_CTRL_RESULT = 0 ∧ t.rd .GEY_RET_STATE = 2 ∧ Raised s t 53) ∧
    (s.rd .PWR_STATUS_STATE ≠ 3 → exec .retainEntered s = .next s) ∧
    (∀ c ok, (c = WakeCause.timer → s.rd .PWR_WAKE_TIMER = 1) → (c = WakeCause.calendar → s.rd .PWR_WAKE_CALENDAR = 1) →
      (s.rd .PWR_STATUS_STATE = 4 → Runs (.wakeEvent c ok) s fun t => t.rd .PWR_STATUS_STATE = 5 ∧
        t.rd .PWR_STATUS_WAKES = min 65535 (s.rd .PWR_STATUS_WAKES + 1) ∧ t.rd .GEY_RET_STATE = 0) ∧
      (s.rd .PWR_STATUS_STATE = 3 → Runs (.wakeEvent c ok) s fun t => t.rd .PWR_STATUS_STATE = 5 ∧
        t.rd .PWR_CTRL_RESULT = 3 ∧ Raised s t 54) ∧
      (s.rd .PWR_STATUS_STATE ≠ 3 → s.rd .PWR_STATUS_STATE ≠ 4 → exec (.wakeEvent c ok) s = .next s)) ∧
    (s.rd .PWR_STATUS_STATE = 5 → Runs .wakeDone s fun t => t.rd .PWR_STATUS_STATE = 1 ∧ Raised s t 53)) ∧
  (∀ (s : State) (mw idle modelled limit : Nat) (hot cool : Prop), s.rd .PWR_STATUS_LEVEL ≤ 8 →
    limit = min s.limitCap (s.rd .PWR_LIMIT_LIMIT_W) * 1000 →
    (hot ↔ limit < mw ∨ s.anyTemp junctions (fun x => decide (s.tThrottle ≤ x)) = true ∨
      s.anyTemp hbmSensors (fun x => decide (95 * 16 ≤ x)) = true) →
    (cool ↔ mw * 100 < 95 * limit ∧ s.anyTemp junctions (fun x => decide (s.tThrottle - 5 * 16 ≤ x)) = false ∧
      s.anyTemp hbmSensors (fun x => decide (90 * 16 ≤ x)) = false) →
    Runs (.throttleWindowEnd mw idle modelled) s fun t =>
      (hot → t.rd .PWR_STATUS_LEVEL = max (min 8 (s.rd .PWR_STATUS_LEVEL + 1)) s.floorLevel ∧ t.pw.calm = 0) ∧
      (¬hot → cool → s.pw.calm + 1 ≠ 4 →
        t.rd .PWR_STATUS_LEVEL = max (s.rd .PWR_STATUS_LEVEL) s.floorLevel ∧ t.pw.calm = s.pw.calm + 1) ∧
      (¬hot → cool → s.pw.calm + 1 = 4 →
        t.rd .PWR_STATUS_LEVEL = max (s.rd .PWR_STATUS_LEVEL - 1) s.floorLevel ∧ t.pw.calm = 0) ∧
      (¬hot → ¬cool → t.rd .PWR_STATUS_LEVEL = max (s.rd .PWR_STATUS_LEVEL) s.floorLevel ∧ t.pw.calm = 0) ∧
      (t.rd .PWR_STATUS_LEVEL ≠ s.rd .PWR_STATUS_LEVEL → Raised s t 48) ∧ t.rd .PWR_POWER_MW = mw % 2 ^ 32) ∧
  (∀ (s : State) (idle modelled : Nat), s.rd .PWR_STATUS_LEVEL ≤ 8 →
    (∀ low, s.rd .PWR_STATUS_ALERT = b2n low → exec (.pwrAlertNChange low idle modelled) s = .next s) ∧
    (∀ low, s.rd .PWR_STATUS_ALERT ≠ b2n low → Runs (.pwrAlertNChange low idle modelled) s fun t =>
      t.rd .PWR_STATUS_ALERT = b2n low ∧ Raised s t 49 ∧
      t.rd .PWR_STATUS_LEVEL = max (s.rd .PWR_STATUS_LEVEL) t.floorLevel) ∧
    (∀ temps : List Int, (∀ v ∈ temps, -32768 ≤ v ∧ v < 32768) → Runs (.tempSample temps idle modelled) s fun t =>
      t.rd .PWR_STATUS_LEVEL = max (s.rd .PWR_STATUS_LEVEL) t.floorLevel ∧
      (∀ i < 12, t.temp i = if s.sensorOn i = true then some (temps.getD i 0) else none) ∧
      (∀ i < 12, s.sensorOn i = true →
        ((if i < 8 then s.tThrottle else 95 * 16) ≤ temps.getD i 0 → s.pw.above.get 0 (i * 4) ≠ 1 → Raised s t 50) ∧
        (i < 8 → 110 * 16 ≤ temps.getD i 0 → s.pw.above.get 0 (i * 4 + 1) ≠ 1 → Raised s t 51) ∧
        (8 ≤ i → 85 * 16 ≤ temps.getD i 0 → s.pw.above.get 0 (i * 4 + 1) ≠ 1 → Raised s t 52)))) ∧
  (∀ s : State,
    (Runs .thermTrip s fun t => t.rd .PWR_STATUS_TRIPPED = 1 ∧ t.pw.tripHeld = true ∧ t.pw.pinsFloat = true ∧
      t.t.running = false) ∧
    (∀ mv, s.confReached = true →
      (Runs (.avsAdjust mv false) s fun t => t.pw.vddCore = s.pw.vddCore ∧ Raised s t 55) ∧
      Runs (.avsAdjust mv true) s fun t => t.pw.vddCore % 5 = 0 ∧
        (s.rd .SYS_ID_PART = 0x648A → 600 ≤ t.pw.vddCore ∧ t.pw.vddCore ≤ 780) ∧
        (s.rd .SYS_ID_PART ≠ 0x648A → 650 ≤ t.pw.vddCore ∧ t.pw.vddCore ≤ 850)) ∧
    (Runs .smbusStatusRead s fun t => (s.smbusUp = false → t.pw.smbus = none) ∧
      (s.smbusUp = true → ∃ l : List Nat, l.length = 14 ∧
        t.pw.smbus = some (s.rd .RDY_STATUS_STATE :: s.rd .BRG_STATE_FAIL_REASON :: l))))

/-- A request on a unit of a class for CHECKING only ends with REFUSED, on an absent or unready unit with STATE_WRONG, on a
testing one with BUSY, each with 646; else the test starts with its KIND (0 as 3) and the path reads BUSY. The end of a
running test records pass or fail by its MISR and its march, counts RUNS, fires 644 or 645, and reaches the paths that wait
for it; the end of a test that does not run changes nothing. SMBus serves tests in READY and DEGRADED_READY, with 12 bytes
of result. IDCODE reads the stepping, the part and 0x3A5; an EXTEST, CLAMP or HIGHZ puts the device in reset until
Test-Logic-Reset; BYPASS stands for DBG_OBSERVE below level 1 and DBG_CORE below level 2; a debugger at level 2 halts a
core, reads and writes its registers; a token over JTAG spends the nonce. -/
def Obligations.SelfTestAndJtag : Prop :=
  (∀ (s : State) (cls idx : Nat),
    (6 ≤ cls → cls ≤ 8 → s.tstJudge cls idx = 3) ∧ ((cls < 6 ∨ 8 < cls) → tstCount cls ≤ idx → s.tstJudge cls idx = 2) ∧
    (idx < tstCount cls → s.tstJudge cls idx =
      (if s.testing cls idx = true then 1 else if s.tstState cls idx = true then 0 else 2))) ∧
  (∀ (s : State) (c : Instr) (cls idx k : Nat) (res : State → Nat), cls < 16 → idx < 16 → k < 4 →
    ((c = .tstStart (2 ^ 28 + k * 2 ^ 8 + cls * 2 ^ 4 + idx) ∧ s.served .early ∧ s.rd .TST_CTRL_RESULT ≠ 1 ∧
        res = fun t => t.rd .TST_CTRL_RESULT) ∨
      (c = .smbusStartTest (cls * 2 ^ 4 + idx) k ∧ s.smbusTests = true ∧ res = fun t => t.tst.smbus.result) ∨
      (c = .selftest (cls * 2 ^ 12 + idx * 2 ^ 8 + k) ∧ s.inReset = false ∧ s.pw.tripHeld = false ∧
        res = fun t => t.tst.jtag.result)) →
    Runs c s fun t =>
      res t = (if s.tstJudge cls idx ≤ 1 then 1 else s.tstJudge cls idx) ∧
      (s.tstJudge cls idx = 0 → t.testing cls idx = true ∧
        t.tst.kinds.get 3 (tstUnit cls idx) = (if k = 0 then 3 else k)) ∧
      (s.tstJudge cls idx ≠ 0 → Raised s t 646 ∧ t.testing cls idx = s.testing cls idx)) ∧
  (∀ (s : State) (cls idx misr kind : Nat) (bad : Option (Nat × Nat × Nat)), idx < tstCount cls →
    (s.testing cls idx = false → exec (.testEnd cls idx misr bad) s = .next s) ∧
    (s.testing cls idx = true → s.inReset = false → (cls < 4 ∨ s.img.wait = []) → kind = s.tst.kinds.get 3 (tstUnit cls idx) →
      Runs (.testEnd cls idx misr bad) s fun t => t.testing cls idx = false ∧
        t.rd .TST_UNIT_RUNS (tstUnit cls idx) = min 65535 (s.rd .TST_UNIT_RUNS (tstUnit cls idx) + 1) ∧
        ∃ pass : Bool,
          (pass = true ↔ (kind.testBit 0 = true → misr % 2 ^ 64 = s.rd .TST_EXPECT_SIG cls) ∧
            (kind.testBit 1 = true → bad = none)) ∧
          t.rd .TST_UNIT_PASSED (tstUnit cls idx) = b2n pass ∧ t.rd .TST_UNIT_FAILED (tstUnit cls idx) = b2n !pass ∧
          Raised s t (if pass then 644 else 645) ∧
          (s.tst.jtag.unit = some (tstUnit cls idx) → s.tst.jtag.result = 1 →
            t.tst.jtag.result = (if pass then 0 else 4)) ∧
          (s.tst.smbus.unit = some (tstUnit cls idx) → s.tst.smbus.result = 1 →
            t.tst.smbus.result = (if pass then 0 else 4)))) ∧
  (∀ s : State,
    (∀ b k, s.smbusTests = false → Runs (.smbusStartTest b k) s fun t => t = { s with pw := { s.pw with smbus := none } }) ∧
    (Runs .smbusTestResult s fun t => (s.smbusTests = false → t.pw.smbus = none) ∧
      (s.smbusTests = true → ∃ l : List Nat, l.length = 11 ∧ t.pw.smbus = some (s.tst.smbus.result % 256 :: l))) ∧
    (∀ k, Runs (.bypass k) s fun t => t.tst.ir = 0xFF ∧ t.tst.dr = 0 ∧ t.csr = s.csr) ∧
    (Runs .idcode s fun t => t.csr = s.csr ∧
      (s.rd .SYS_ID_PART = 0x6480 → s.rd .SYS_ID_STEP_MAJOR = 1 → t.tst.dr = 0x1648074B)) ∧
    (∀ v, Runs (.samplePreload v) s fun t => t.tst.ir = 2 ∧ t.tst.boundary = v ∧ t.csr = s.csr ∧ t.pw = s.pw) ∧
    (Runs .testresult s fun t => t.tst.ir = 0x11 ∧ t.csr = s.csr ∧ t.tst.dr % 256 = s.tst.jtag.result % 256) ∧
    (∀ (c : Instr) (v ir : Nat), (c = .extest v ∧ ir = 3) ∨ (c = .clamp ∧ ir = 4) ∨ (c = .highz ∧ ir = 5) ∨
        (c = .extestPulse v ∧ ir = 6) ∨ (c = .extestTrain v ∧ ir = 7) → s.pw.resetLow = false →
      Runs c s fun t => t.tst.ir = ir ∧ t.pw.tapHold = true ∧ t.inReset = true ∧ t.rd .RDY_STATUS_STATE = 0 ∧ t.gcnt = 0 ∧
        t.date = s.date ∧ (t.pw.pinsFloat = true ↔ c = .highz)) ∧
    (Runs .testLogicReset s fun t => t.tst.ir = 1 ∧ t.pw.tapHold = false ∧ t.tst.pins = .mission ∧
      (s.pw.tapHold = true → t.pw.relGcnt = 0))) ∧
  (∀ s : State, s.inReset = false →
    (s.rd .SEC_STATUS_DEBUG < 1 → exec .dbgObserve s = .next s.bypass) ∧
    (1 ≤ s.rd .SEC_STATUS_DEBUG → Runs .dbgObserve s fun t => t.tst.ir = 0x21 ∧ t.csr = s.csr ∧ t.mem = s.mem) ∧
    (∀ core op, s.rd .SEC_STATUS_DEBUG < 2 → exec (.dbgCore core op) s = .next s.bypass) ∧
    (∀ core n v, 2 ≤ s.rd .SEC_STATUS_DEBUG → core < 132 →
      (Runs (.dbgCore core .halt) s fun t => (t.core core).halted = true ∧ t.tst.ir = 0x22) ∧
      (Runs (.dbgCore core .step) s fun t => (t.core core).step = (s.core core).halted ∧ t.tst.ir = 0x22) ∧
      (Runs (.dbgCore core (.readReg n)) s fun t => t.tst.dr = (s.core core).reg (n % 32) ∧ t.core core = s.core core) ∧
      (n % 32 ≠ 0 → Runs (.dbgCore core (.writeReg n v)) s fun t => (t.core core).reg (n % 32) = v % 2 ^ 64) ∧
      (∀ c', c' ≠ core → Runs (.dbgCore core .halt) s fun t => t.core c' = s.core c')) ∧
    (∀ b sig, s.pw.tripHeld = false → s.rd .SEC_DBG_CTRL_RESULT ≠ 1 → Runs (.dbgToken b sig) s fun t =>
      t.tst.ir = 0x20 ∧ t.sec.nonceOk = false))

/-- A request its port does not decode completes with Unsupported Request and changes nothing else. A decoded aligned 4-byte
write to PF0 BAR0 completes successfully. It changes nothing else where no register, MSI-X table or event word lies, where
the unit is absent, or where the size or alignment is none of R587's; where a register lies, it writes the half it
covers. A write of a whole register that has no effect of its own beside its fields, and whose values are not held now,
stores each RW field whose write has no command of its own and whose unit lets it (a head stream's plan fields stay),
clears the bits of W1C fields that are written 1, leaves every other field of the register, and nothing outside it moves. -/
def Obligations.RegisterWrites : Prop :=
  (∀ (s : State) (sp : Space) (req addr size val : Nat), 3 ≤ s.rd .RDY_STATUS_STATE → s.decodes sp req addr size = false →
    exec (.registerWrite sp req addr size val) s = .next { s with lastCpl := .unsupported }) ∧
  (∀ (s : State) (req addr val : Nat), s.decodes .pf0 req addr 4 = true → s.served (blkAt .pf0 addr) → addr % 4 = 0 →
    msixOff .pf0 addr = none → evtAt .pf0 addr = none →
    (findReg .pf0 addr = none → exec (.registerWrite .pf0 req addr 4 val) s = .next { s with lastCpl := .success }) ∧
    (s.absentAt .pf0 addr = true → exec (.registerWrite .pf0 req addr 4 val) s = .next { s with lastCpl := .success }) ∧
    (∀ r u half, findReg .pf0 addr = some (r, u, half) → s.absentAt .pf0 addr = false →
      exec (.registerWrite .pf0 req addr 4 val) s =
        .next (({ s with lastCpl := .success } : State).writeReg r u half val))) ∧
  (∀ (s : State) (req addr size val : Nat), s.decodes .pf0 req addr size = true → s.served (blkAt .pf0 addr) →
    (size ≠ 4 ∨ addr % 4 ≠ 0) → (size < 8 ∨ addr % 8 ≠ 0 ∨ size % 8 ≠ 0) →
    exec (.registerWrite .pf0 req addr size val) s = .next { s with lastCpl := .success }) ∧
  (∀ (s : State) (r : Reg) (u val : Nat), s.regHeld r u = false → r ∉ [Reg.GEY_SRC, .GEY_TGT, .VF_GEY_TGT, .PWR_LIMIT] →
    OnlyRegs s (s.writeReg r u 0 val) (r.fields.map fun f => (f, u)) ∧
    ∀ f ∈ r.fields,
      (f.info.access = .rw → f.info.ownRow = false → f ∉ headFields →
        (s.writeReg r u 0 val).rd f u = val / 2 ^ f.info.lo % 2 ^ f.info.width) ∧
      (f.info.access = .w1c → f.info.ownRow = false → ∀ i < f.info.width,
        ((s.writeReg r u 0 val).rd f u).testBit i = ((s.rd f u).testBit i && !val.testBit (f.info.lo + i))) ∧
      ((f.info.access ≠ .rw ∧ f.info.access ≠ .w1c) ∨ f.info.ownRow = true ∨
          (f ∈ headFields ∧ s.rd .EQX_STREAM_CTRL_HEAD u = 1) →
        (s.writeReg r u 0 val).rd f u = s.rd f u))
end

