-- ==== Sys2Proof/Laws/Sparse.lean ====
section
/-! SUPPORT. The laws of sparse tables: what is read after a write, and that every operation keeps the
canonical form. -/

namespace Sys2Proof.Machine

variable {α : Type}

theorem Sparse.get_put_same (d : α) (m : Sparse α) (k : Nat) (v : α) : (m.put k v).get d k = v := by
  induction m with
  | nil => simp [Sparse.put, Sparse.get]
  | cons e m ih =>
    obtain ⟨k', v'⟩ := e
    by_cases h : k < k'
    · simp [Sparse.put, Sparse.get, h]
    · by_cases h2 : k = k'
      · simp [Sparse.put, Sparse.get, h2]
      · simp [Sparse.put, Sparse.get, h, h2, Ne.symm h2, ih]

theorem Sparse.get_put_ne (d : α) (m : Sparse α) {j k : Nat} (v : α) (hj : j ≠ k) :
    (m.put k v).get d j = m.get d j := by
  induction m with
  | nil => simp [Sparse.put, Sparse.get, Ne.symm hj]
  | cons e m ih =>
    obtain ⟨k', v'⟩ := e
    by_cases h : k < k'
    · simp [Sparse.put, Sparse.get, h, Ne.symm hj]
    · by_cases h2 : k = k'
      · subst h2
        simp [Sparse.put, Sparse.get, Ne.symm hj]
      · simp [Sparse.put, Sparse.get, h, h2, ih]

theorem Sparse.get_filter_drop (d : α) (m : Sparse α) (p : Nat × α → Bool) (k : Nat)
    (h : ∀ v, p (k, v) = false) : Sparse.get d (m.filter p) k = d := by
  induction m with
  | nil => rfl
  | cons e m ih =>
    obtain ⟨k', v'⟩ := e
    by_cases hp : p (k', v') = true
    · have hk : k' ≠ k := fun he => by simp [he, h] at hp
      simp [hp, Sparse.get, hk, ih]
    · simp [hp, ih]

theorem Sparse.get_filter_keep (d : α) (m : Sparse α) (p : Nat × α → Bool) (k : Nat)
    (h : ∀ v, p (k, v) = true) : Sparse.get d (m.filter p) k = Sparse.get d m k := by
  induction m with
  | nil => rfl
  | cons e m ih =>
    obtain ⟨k', v'⟩ := e
    by_cases hk : k' = k
    · subst hk
      simp [h, Sparse.get]
    · by_cases hp : p (k', v') = true
      · simp [hp, Sparse.get, hk, ih]
      · simp [hp, Sparse.get, hk, ih]

variable [DecidableEq α]

/-- The key written reads as the value written, whatever the table held. -/
@[simp] theorem Sparse.get_set_same (d : α) (m : Sparse α) (k : Nat) (v : α) :
    (m.set d k v).get d k = v := by
  unfold Sparse.set
  split
  · rename_i h
    rw [h]
    exact Sparse.get_filter_drop d m _ k (by simp)
  · exact Sparse.get_put_same d m k v

/-- Every other key reads as before, against any default. -/
theorem Sparse.get_set_ne (d d' : α) (m : Sparse α) {j k : Nat} (v : α) (hj : j ≠ k) :
    (m.set d k v).get d' j = m.get d' j := by
  unfold Sparse.set
  split
  · exact Sparse.get_filter_keep d' m _ j (by simp [hj])
  · exact Sparse.get_put_ne d' m v hj

theorem Sparse.get_set (d : α) (m : Sparse α) (j k : Nat) (v : α) :
    (m.set d k v).get d j = if j = k then v else m.get d j := by
  split
  · rename_i h
    rw [h]
    simp
  · rename_i h
    exact Sparse.get_set_ne d d m v h

/-! ## The canonical form -/

/-- A bound on the first key may be lowered. -/
theorem Sparse.wfFrom_none (d : α) (m : Sparse α) {b : Option Nat} (h : Sparse.wfFrom d b m = true) :
    Sparse.wfFrom d none m = true := by
  cases m with
  | nil => rfl
  | cons e m =>
    obtain ⟨k, v⟩ := e
    simp [Sparse.wfFrom] at h ⊢
    exact ⟨h.1.2, h.2⟩

theorem Sparse.wfFrom_lower (d : α) (m : Sparse α) {a b : Nat} (hab : a ≤ b)
    (h : Sparse.wfFrom d (some b) m = true) : Sparse.wfFrom d (some a) m = true := by
  cases m with
  | nil => rfl
  | cons e m =>
    obtain ⟨k, v⟩ := e
    simp [Sparse.wfFrom] at h ⊢
    exact ⟨⟨by omega, h.1.2⟩, h.2⟩

theorem Sparse.wfFrom_filter (d : α) (p : Nat × α → Bool) (m : Sparse α) {b : Option Nat}
    (h : Sparse.wfFrom d b m = true) : Sparse.wfFrom d b (m.filter p) = true := by
  induction m generalizing b with
  | nil => rfl
  | cons e m ih =>
    obtain ⟨k, v⟩ := e
    simp only [Sparse.wfFrom, Bool.and_eq_true] at h
    by_cases hp : p (k, v) = true
    · simp only [List.filter_cons, hp, if_true, Sparse.wfFrom, Bool.and_eq_true]
      exact ⟨h.1, ih h.2⟩
    · simp only [List.filter_cons, hp]
      have h2 := ih h.2
      cases b with
      | none => exact Sparse.wfFrom_none d _ h2
      | some b =>
        have hb : b < k := by simpa using h.1.1
        exact Sparse.wfFrom_lower d _ (Nat.le_of_lt hb) h2

theorem Sparse.wfFrom_put (d : α) (m : Sparse α) {k : Nat} {v : α} (hv : v ≠ d) {b : Option Nat}
    (hb : ∀ c, b = some c → c < k) (h : Sparse.wfFrom d b m = true) :
    Sparse.wfFrom d b (m.put k v) = true := by
  induction m generalizing b with
  | nil => cases b <;> simp_all [Sparse.put, Sparse.wfFrom]
  | cons e m ih =>
    obtain ⟨k', v'⟩ := e
    simp only [Sparse.wfFrom, Bool.and_eq_true] at h
    by_cases h1 : k < k'
    · cases b <;> simp_all [Sparse.put, Sparse.wfFrom]
    · by_cases h2 : k = k'
      · subst h2
        cases b <;> simp_all [Sparse.put, Sparse.wfFrom]
      · have h3 := ih (b := some k') (by intro c hc; injection hc with hc; omega) h.2
        simp only [Sparse.put, if_neg h1, if_neg h2, Sparse.wfFrom, Bool.and_eq_true]
        exact ⟨h.1, h3⟩

/-- A write keeps the canonical form. -/
theorem Sparse.set_wf {d : α} {m : Sparse α} (h : m.wf d = true) (k : Nat) (v : α) :
    (m.set d k v).wf d = true := by
  unfold Sparse.set
  split
  · exact Sparse.wfFrom_filter d _ m h
  · exact Sparse.wfFrom_put d m ‹_› (by simp) h

/-- Dropping entries keeps the canonical form. -/
theorem Sparse.filter_wf {d : α} {m : Sparse α} (h : m.wf d = true) (p : Nat × α → Bool) :
    Sparse.wf d (m.filter p) = true := Sparse.wfFrom_filter d p m h

/-- Clearing a range keeps the canonical form. -/
theorem Sparse.clear_wf {d : α} {m : Sparse α} (h : m.wf d = true) (lo hi : Nat) :
    (m.clear lo hi).wf d = true := Sparse.filter_wf h _

omit [DecidableEq α] in
/-- A cleared key reads as the default. -/
theorem Sparse.get_clear_in (d : α) (m : Sparse α) {lo hi k : Nat} (h1 : lo ≤ k) (h2 : k < hi) :
    (m.clear lo hi).get d k = d :=
  Sparse.get_filter_drop d m _ k (by simp [h1, h2])

omit [DecidableEq α] in
/-- A key outside the cleared range reads as before. -/
theorem Sparse.get_clear_out (d : α) (m : Sparse α) {lo hi k : Nat} (h : k < lo ∨ hi ≤ k) :
    (m.clear lo hi).get d k = m.get d k :=
  Sparse.get_filter_keep d m _ k (by intro v; simp; omega)

end Sys2Proof.Machine
end

