-- ==== Sys2Proof/Laws/State.lean ====
section
/-! SUPPORT. What each update of the state leaves: one lemma for each field and update, and what a register field
reads after a write. -/

namespace Sys2Proof.Machine

/-! ## Register fields -/

theorem Fld.ctorIdx_lt (f : Fld) : f.ctorIdx < 1024 := by cases f <;> decide

theorem Fld.ctorIdx_inj {f g : Fld} (h : f.ctorIdx = g.ctorIdx) : f = g := by
  have := congrArg Fld.ofNat h
  simpa [Fld.ofNat_ctorIdx] using this

/-- No two units of any fields share a key. -/
theorem Fld.key_inj {f g : Fld} {u v : Nat} (h : f.key u = g.key v) : f = g ∧ u = v := by
  have hf := f.ctorIdx_lt
  have hg := g.ctorIdx_lt
  unfold Fld.key at h
  exact ⟨Fld.ctorIdx_inj (by omega), by omega⟩

/-- Every tabled reset value fits its field. -/
theorem Fld.info_reset_lt (f : Fld) : f.info.reset < 2 ^ f.info.width := by cases f <;> decide

theorem State.rd_congr {s t : State} (h : s.csr = t.csr) (f : Fld) (u : Nat) : s.rd f u = t.rd f u := by
  unfold State.rd
  rw [h]

/-- A field reads what was written, cut to its width. -/
theorem State.rd_wr_same (s : State) (f : Fld) (u v : Nat) : (s.wr f u v).rd f u = v % 2 ^ f.info.width :=
  Sparse.get_set_same _ _ _ _

/-- Every other field, and every other unit of it, reads as before. -/
theorem State.rd_wr_ne (s : State) {f g : Fld} {u w : Nat} (v : Nat) (h : ¬ (g = f ∧ w = u)) :
    (s.wr f u v).rd g w = s.rd g w :=
  Sparse.get_set_ne _ _ _ _ fun hk => h (Fld.key_inj hk)

@[simp] theorem State.rd_wr (s : State) (f g : Fld) (u v w : Nat) :
    (s.wr f u v).rd g w = if g = f ∧ w = u then v % 2 ^ f.info.width else s.rd g w := by
  split
  · rename_i h
    rw [h.1, h.2, State.rd_wr_same]
  · exact State.rd_wr_ne s v ‹_›

@[simp] theorem State.rd_inc (s : State) (f g : Fld) (u n w : Nat) :
    (s.inc f u n).rd g w =
      if g = f ∧ w = u then min (s.rd f u + n) (2 ^ f.info.width - 1) % 2 ^ f.info.width else s.rd g w :=
  State.rd_wr s f g u _ w

@[simp] theorem State.rd_resetFld (s : State) (f g : Fld) (u : Nat) :
    (s.resetFld f).rd g u = if g = f then f.resetVal u else s.rd g u := by
  have hf := f.ctorIdx_lt
  have hg := g.ctorIdx_lt
  split
  · rename_i h
    subst h
    refine Sparse.get_filter_drop _ _ _ _ fun v => ?_
    have : g.key u % 1024 = g.ctorIdx := by unfold Fld.key; omega
    simp [this]
  · rename_i h
    refine Sparse.get_filter_keep _ _ _ _ fun v => ?_
    have h1 : g.key u % 1024 = g.ctorIdx := by unfold Fld.key; omega
    have h2 : g.ctorIdx ≠ f.ctorIdx := fun he => h (Fld.ctorIdx_inj he)
    simp [h1, h2]

/-! ## Each update, field by field -/

@[simp] theorem State.wr_pending (s : State) (f : Fld) (u v : Nat) : (s.wr f u v).pending = s.pending := rfl
@[simp] theorem State.wr_mem (s : State) (f : Fld) (u v : Nat) : (s.wr f u v).mem = s.mem := rfl
@[simp] theorem State.wr_m (s : State) (f : Fld) (u v : Nat) : (s.wr f u v).m = s.m := rfl
@[simp] theorem State.wr_t (s : State) (f : Fld) (u v : Nat) : (s.wr f u v).t = s.t := rfl
@[simp] theorem State.wr_pw (s : State) (f : Fld) (u v : Nat) : (s.wr f u v).pw = s.pw := rfl
@[simp] theorem State.wr_img (s : State) (f : Fld) (u v : Nat) : (s.wr f u v).img = s.img := rfl
@[simp] theorem State.wr_brg (s : State) (f : Fld) (u v : Nat) : (s.wr f u v).brg = s.brg := rfl
@[simp] theorem State.wr_sec (s : State) (f : Fld) (u v : Nat) : (s.wr f u v).sec = s.sec := rfl
@[simp] theorem State.wr_tst (s : State) (f : Fld) (u v : Nat) : (s.wr f u v).tst = s.tst := rfl
@[simp] theorem State.wr_confReached (s : State) (f : Fld) (u v : Nat) : (s.wr f u v).confReached = s.confReached := rfl
@[simp] theorem State.wr_fn (s : State) (f : Fld) (u v : Nat) : (s.wr f u v).fn = s.fn := rfl
@[simp] theorem State.wr_msix (s : State) (f : Fld) (u v : Nat) : (s.wr f u v).msix = s.msix := rfl
@[simp] theorem State.wr_pba (s : State) (f : Fld) (u v : Nat) : (s.wr f u v).pba = s.pba := rfl
@[simp] theorem State.wr_sent (s : State) (f : Fld) (u v : Nat) : (s.wr f u v).sent = s.sent := rfl
@[simp] theorem State.wr_geyLatch (s : State) (f : Fld) (u v : Nat) : (s.wr f u v).geyLatch = s.geyLatch := rfl
@[simp] theorem State.wr_reqs (s : State) (f : Fld) (u v : Nat) : (s.wr f u v).reqs = s.reqs := rfl
@[simp] theorem State.wr_reqNext (s : State) (f : Fld) (u v : Nat) : (s.wr f u v).reqNext = s.reqNext := rfl
@[simp] theorem State.wr_move (s : State) (f : Fld) (u v : Nat) : (s.wr f u v).move = s.move := rfl
@[simp] theorem State.wr_foMoves (s : State) (f : Fld) (u v : Nat) : (s.wr f u v).foMoves = s.foMoves := rfl
@[simp] theorem State.wr_lastCpl (s : State) (f : Fld) (u v : Nat) : (s.wr f u v).lastCpl = s.lastCpl := rfl
@[simp] theorem State.wr_lastLink (s : State) (f : Fld) (u v : Nat) : (s.wr f u v).lastLink = s.lastLink := rfl
@[simp] theorem State.wr_queues (s : State) (f : Fld) (u v : Nat) : (s.wr f u v).queues = s.queues := rfl
@[simp] theorem State.wr_tensors (s : State) (f : Fld) (u v : Nat) : (s.wr f u v).tensors = s.tensors := rfl
@[simp] theorem State.wr_seqs (s : State) (f : Fld) (u v : Nat) : (s.wr f u v).seqs = s.seqs := rfl
@[simp] theorem State.wr_flights (s : State) (f : Fld) (u v : Nat) : (s.wr f u v).flights = s.flights := rfl
@[simp] theorem State.wr_vtime (s : State) (f : Fld) (u v : Nat) : (s.wr f u v).vtime = s.vtime := rfl
@[simp] theorem State.wr_wasReady (s : State) (f : Fld) (u v : Nat) : (s.wr f u v).wasReady = s.wasReady := rfl
@[simp] theorem State.wr_lastQ (s : State) (f : Fld) (u v : Nat) : (s.wr f u v).lastQ = s.lastQ := rfl
@[simp] theorem State.wr_readyAt (s : State) (f : Fld) (u v : Nat) : (s.wr f u v).readyAt = s.readyAt := rfl
@[simp] theorem State.wr_aged (s : State) (f : Fld) (u v : Nat) : (s.wr f u v).aged = s.aged := rfl
@[simp] theorem State.wr_stepNo (s : State) (f : Fld) (u v : Nat) : (s.wr f u v).stepNo = s.stepNo := rfl
@[simp] theorem State.wr_ceJoin (s : State) (f : Fld) (u v : Nat) : (s.wr f u v).ceJoin = s.ceJoin := rfl
@[simp] theorem State.wr_ceJoinG (s : State) (f : Fld) (u v : Nat) : (s.wr f u v).ceJoinG = s.ceJoinG := rfl
@[simp] theorem State.wr_epochUse (s : State) (f : Fld) (u v : Nat) : (s.wr f u v).epochUse = s.epochUse := rfl
@[simp] theorem State.wr_epochC1 (s : State) (f : Fld) (u v : Nat) : (s.wr f u v).epochC1 = s.epochC1 := rfl
@[simp] theorem State.wr_lastEpoch (s : State) (f : Fld) (u v : Nat) : (s.wr f u v).lastEpoch = s.lastEpoch := rfl
@[simp] theorem State.wr_acct (s : State) (f : Fld) (u v : Nat) : (s.wr f u v).acct = s.acct := rfl
@[simp] theorem State.wr_frac (s : State) (f : Fld) (u v : Nat) : (s.wr f u v).frac = s.frac := rfl
@[simp] theorem State.wr_energyK (s : State) (f : Fld) (u v : Nat) : (s.wr f u v).energyK = s.energyK := rfl
@[simp] theorem State.wr_calTime (s : State) (f : Fld) (u v : Nat) : (s.wr f u v).calTime = s.calTime := rfl
@[simp] theorem State.wr_calUj (s : State) (f : Fld) (u v : Nat) : (s.wr f u v).calUj = s.calUj := rfl
@[simp] theorem State.wr_resident (s : State) (f : Fld) (u v : Nat) : (s.wr f u v).resident = s.resident := rfl
@[simp] theorem State.wr_region (s : State) (f : Fld) (u v : Nat) : (s.wr f u v).region = s.region := rfl
@[simp] theorem State.wr_cores (s : State) (f : Fld) (u v : Nat) : (s.wr f u v).cores = s.cores := rfl
@[simp] theorem State.wr_emb (s : State) (f : Fld) (u v : Nat) : (s.wr f u v).emb = s.emb := rfl
@[simp] theorem State.wr_arrays (s : State) (f : Fld) (u v : Nat) : (s.wr f u v).arrays = s.arrays := rfl
@[simp] theorem State.wr_vis (s : State) (f : Fld) (u v : Nat) : (s.wr f u v).vis = s.vis := rfl
@[simp] theorem State.wr_eqx (s : State) (f : Fld) (u v : Nat) : (s.wr f u v).eqx = s.eqx := rfl
@[simp] theorem State.wr_heads (s : State) (f : Fld) (u v : Nat) : (s.wr f u v).heads = s.heads := rfl
@[simp] theorem State.wr_ports (s : State) (f : Fld) (u v : Nat) : (s.wr f u v).ports = s.ports := rfl
@[simp] theorem State.wr_fresh (s : State) (f : Fld) (u v : Nat) : (s.wr f u v).fresh = s.fresh := rfl
@[simp] theorem State.wr_data (s : State) (f : Fld) (u v : Nat) : (s.wr f u v).data = s.data := rfl

@[simp] theorem State.inc_pending (s : State) (f : Fld) (u n : Nat) : (s.inc f u n).pending = s.pending := rfl
@[simp] theorem State.inc_mem (s : State) (f : Fld) (u n : Nat) : (s.inc f u n).mem = s.mem := rfl
@[simp] theorem State.inc_m (s : State) (f : Fld) (u n : Nat) : (s.inc f u n).m = s.m := rfl
@[simp] theorem State.inc_t (s : State) (f : Fld) (u n : Nat) : (s.inc f u n).t = s.t := rfl
@[simp] theorem State.inc_pw (s : State) (f : Fld) (u n : Nat) : (s.inc f u n).pw = s.pw := rfl
@[simp] theorem State.inc_img (s : State) (f : Fld) (u n : Nat) : (s.inc f u n).img = s.img := rfl
@[simp] theorem State.inc_brg (s : State) (f : Fld) (u n : Nat) : (s.inc f u n).brg = s.brg := rfl
@[simp] theorem State.inc_sec (s : State) (f : Fld) (u n : Nat) : (s.inc f u n).sec = s.sec := rfl
@[simp] theorem State.inc_tst (s : State) (f : Fld) (u n : Nat) : (s.inc f u n).tst = s.tst := rfl
@[simp] theorem State.inc_confReached (s : State) (f : Fld) (u n : Nat) : (s.inc f u n).confReached = s.confReached := rfl
@[simp] theorem State.inc_fn (s : State) (f : Fld) (u n : Nat) : (s.inc f u n).fn = s.fn := rfl
@[simp] theorem State.inc_msix (s : State) (f : Fld) (u n : Nat) : (s.inc f u n).msix = s.msix := rfl
@[simp] theorem State.inc_pba (s : State) (f : Fld) (u n : Nat) : (s.inc f u n).pba = s.pba := rfl
@[simp] theorem State.inc_sent (s : State) (f : Fld) (u n : Nat) : (s.inc f u n).sent = s.sent := rfl
@[simp] theorem State.inc_geyLatch (s : State) (f : Fld) (u n : Nat) : (s.inc f u n).geyLatch = s.geyLatch := rfl
@[simp] theorem State.inc_reqs (s : State) (f : Fld) (u n : Nat) : (s.inc f u n).reqs = s.reqs := rfl
@[simp] theorem State.inc_reqNext (s : State) (f : Fld) (u n : Nat) : (s.inc f u n).reqNext = s.reqNext := rfl
@[simp] theorem State.inc_move (s : State) (f : Fld) (u n : Nat) : (s.inc f u n).move = s.move := rfl
@[simp] theorem State.inc_foMoves (s : State) (f : Fld) (u n : Nat) : (s.inc f u n).foMoves = s.foMoves := rfl
@[simp] theorem State.inc_lastCpl (s : State) (f : Fld) (u n : Nat) : (s.inc f u n).lastCpl = s.lastCpl := rfl
@[simp] theorem State.inc_lastLink (s : State) (f : Fld) (u n : Nat) : (s.inc f u n).lastLink = s.lastLink := rfl
@[simp] theorem State.inc_queues (s : State) (f : Fld) (u n : Nat) : (s.inc f u n).queues = s.queues := rfl
@[simp] theorem State.inc_tensors (s : State) (f : Fld) (u n : Nat) : (s.inc f u n).tensors = s.tensors := rfl
@[simp] theorem State.inc_seqs (s : State) (f : Fld) (u n : Nat) : (s.inc f u n).seqs = s.seqs := rfl
@[simp] theorem State.inc_flights (s : State) (f : Fld) (u n : Nat) : (s.inc f u n).flights = s.flights := rfl
@[simp] theorem State.inc_vtime (s : State) (f : Fld) (u n : Nat) : (s.inc f u n).vtime = s.vtime := rfl
@[simp] theorem State.inc_wasReady (s : State) (f : Fld) (u n : Nat) : (s.inc f u n).wasReady = s.wasReady := rfl
@[simp] theorem State.inc_lastQ (s : State) (f : Fld) (u n : Nat) : (s.inc f u n).lastQ = s.lastQ := rfl
@[simp] theorem State.inc_readyAt (s : State) (f : Fld) (u n : Nat) : (s.inc f u n).readyAt = s.readyAt := rfl
@[simp] theorem State.inc_aged (s : State) (f : Fld) (u n : Nat) : (s.inc f u n).aged = s.aged := rfl
@[simp] theorem State.inc_stepNo (s : State) (f : Fld) (u n : Nat) : (s.inc f u n).stepNo = s.stepNo := rfl
@[simp] theorem State.inc_ceJoin (s : State) (f : Fld) (u n : Nat) : (s.inc f u n).ceJoin = s.ceJoin := rfl
@[simp] theorem State.inc_ceJoinG (s : State) (f : Fld) (u n : Nat) : (s.inc f u n).ceJoinG = s.ceJoinG := rfl
@[simp] theorem State.inc_epochUse (s : State) (f : Fld) (u n : Nat) : (s.inc f u n).epochUse = s.epochUse := rfl
@[simp] theorem State.inc_epochC1 (s : State) (f : Fld) (u n : Nat) : (s.inc f u n).epochC1 = s.epochC1 := rfl
@[simp] theorem State.inc_lastEpoch (s : State) (f : Fld) (u n : Nat) : (s.inc f u n).lastEpoch = s.lastEpoch := rfl
@[simp] theorem State.inc_acct (s : State) (f : Fld) (u n : Nat) : (s.inc f u n).acct = s.acct := rfl
@[simp] theorem State.inc_frac (s : State) (f : Fld) (u n : Nat) : (s.inc f u n).frac = s.frac := rfl
@[simp] theorem State.inc_energyK (s : State) (f : Fld) (u n : Nat) : (s.inc f u n).energyK = s.energyK := rfl
@[simp] theorem State.inc_calTime (s : State) (f : Fld) (u n : Nat) : (s.inc f u n).calTime = s.calTime := rfl
@[simp] theorem State.inc_calUj (s : State) (f : Fld) (u n : Nat) : (s.inc f u n).calUj = s.calUj := rfl
@[simp] theorem State.inc_resident (s : State) (f : Fld) (u n : Nat) : (s.inc f u n).resident = s.resident := rfl
@[simp] theorem State.inc_region (s : State) (f : Fld) (u n : Nat) : (s.inc f u n).region = s.region := rfl
@[simp] theorem State.inc_cores (s : State) (f : Fld) (u n : Nat) : (s.inc f u n).cores = s.cores := rfl
@[simp] theorem State.inc_emb (s : State) (f : Fld) (u n : Nat) : (s.inc f u n).emb = s.emb := rfl
@[simp] theorem State.inc_arrays (s : State) (f : Fld) (u n : Nat) : (s.inc f u n).arrays = s.arrays := rfl
@[simp] theorem State.inc_vis (s : State) (f : Fld) (u n : Nat) : (s.inc f u n).vis = s.vis := rfl
@[simp] theorem State.inc_eqx (s : State) (f : Fld) (u n : Nat) : (s.inc f u n).eqx = s.eqx := rfl
@[simp] theorem State.inc_heads (s : State) (f : Fld) (u n : Nat) : (s.inc f u n).heads = s.heads := rfl
@[simp] theorem State.inc_ports (s : State) (f : Fld) (u n : Nat) : (s.inc f u n).ports = s.ports := rfl
@[simp] theorem State.inc_fresh (s : State) (f : Fld) (u n : Nat) : (s.inc f u n).fresh = s.fresh := rfl
@[simp] theorem State.inc_data (s : State) (f : Fld) (u n : Nat) : (s.inc f u n).data = s.data := rfl

@[simp] theorem State.resetFld_pending (s : State) (f : Fld) : (s.resetFld f).pending = s.pending := rfl
@[simp] theorem State.resetFld_mem (s : State) (f : Fld) : (s.resetFld f).mem = s.mem := rfl
@[simp] theorem State.resetFld_m (s : State) (f : Fld) : (s.resetFld f).m = s.m := rfl
@[simp] theorem State.resetFld_t (s : State) (f : Fld) : (s.resetFld f).t = s.t := rfl
@[simp] theorem State.resetFld_pw (s : State) (f : Fld) : (s.resetFld f).pw = s.pw := rfl
@[simp] theorem State.resetFld_img (s : State) (f : Fld) : (s.resetFld f).img = s.img := rfl
@[simp] theorem State.resetFld_brg (s : State) (f : Fld) : (s.resetFld f).brg = s.brg := rfl
@[simp] theorem State.resetFld_sec (s : State) (f : Fld) : (s.resetFld f).sec = s.sec := rfl
@[simp] theorem State.resetFld_tst (s : State) (f : Fld) : (s.resetFld f).tst = s.tst := rfl
@[simp] theorem State.resetFld_confReached (s : State) (f : Fld) : (s.resetFld f).confReached = s.confReached := rfl
@[simp] theorem State.resetFld_fn (s : State) (f : Fld) : (s.resetFld f).fn = s.fn := rfl
@[simp] theorem State.resetFld_msix (s : State) (f : Fld) : (s.resetFld f).msix = s.msix := rfl
@[simp] theorem State.resetFld_pba (s : State) (f : Fld) : (s.resetFld f).pba = s.pba := rfl
@[simp] theorem State.resetFld_sent (s : State) (f : Fld) : (s.resetFld f).sent = s.sent := rfl
@[simp] theorem State.resetFld_geyLatch (s : State) (f : Fld) : (s.resetFld f).geyLatch = s.geyLatch := rfl
@[simp] theorem State.resetFld_reqs (s : State) (f : Fld) : (s.resetFld f).reqs = s.reqs := rfl
@[simp] theorem State.resetFld_reqNext (s : State) (f : Fld) : (s.resetFld f).reqNext = s.reqNext := rfl
@[simp] theorem State.resetFld_move (s : State) (f : Fld) : (s.resetFld f).move = s.move := rfl
@[simp] theorem State.resetFld_foMoves (s : State) (f : Fld) : (s.resetFld f).foMoves = s.foMoves := rfl
@[simp] theorem State.resetFld_lastCpl (s : State) (f : Fld) : (s.resetFld f).lastCpl = s.lastCpl := rfl
@[simp] theorem State.resetFld_lastLink (s : State) (f : Fld) : (s.resetFld f).lastLink = s.lastLink := rfl
@[simp] theorem State.resetFld_queues (s : State) (f : Fld) : (s.resetFld f).queues = s.queues := rfl
@[simp] theorem State.resetFld_tensors (s : State) (f : Fld) : (s.resetFld f).tensors = s.tensors := rfl
@[simp] theorem State.resetFld_seqs (s : State) (f : Fld) : (s.resetFld f).seqs = s.seqs := rfl
@[simp] theorem State.resetFld_flights (s : State) (f : Fld) : (s.resetFld f).flights = s.flights := rfl
@[simp] theorem State.resetFld_vtime (s : State) (f : Fld) : (s.resetFld f).vtime = s.vtime := rfl
@[simp] theorem State.resetFld_wasReady (s : State) (f : Fld) : (s.resetFld f).wasReady = s.wasReady := rfl
@[simp] theorem State.resetFld_lastQ (s : State) (f : Fld) : (s.resetFld f).lastQ = s.lastQ := rfl
@[simp] theorem State.resetFld_readyAt (s : State) (f : Fld) : (s.resetFld f).readyAt = s.readyAt := rfl
@[simp] theorem State.resetFld_aged (s : State) (f : Fld) : (s.resetFld f).aged = s.aged := rfl
@[simp] theorem State.resetFld_stepNo (s : State) (f : Fld) : (s.resetFld f).stepNo = s.stepNo := rfl
@[simp] theorem State.resetFld_ceJoin (s : State) (f : Fld) : (s.resetFld f).ceJoin = s.ceJoin := rfl
@[simp] theorem State.resetFld_ceJoinG (s : State) (f : Fld) : (s.resetFld f).ceJoinG = s.ceJoinG := rfl
@[simp] theorem State.resetFld_epochUse (s : State) (f : Fld) : (s.resetFld f).epochUse = s.epochUse := rfl
@[simp] theorem State.resetFld_epochC1 (s : State) (f : Fld) : (s.resetFld f).epochC1 = s.epochC1 := rfl
@[simp] theorem State.resetFld_lastEpoch (s : State) (f : Fld) : (s.resetFld f).lastEpoch = s.lastEpoch := rfl
@[simp] theorem State.resetFld_acct (s : State) (f : Fld) : (s.resetFld f).acct = s.acct := rfl
@[simp] theorem State.resetFld_frac (s : State) (f : Fld) : (s.resetFld f).frac = s.frac := rfl
@[simp] theorem State.resetFld_energyK (s : State) (f : Fld) : (s.resetFld f).energyK = s.energyK := rfl
@[simp] theorem State.resetFld_calTime (s : State) (f : Fld) : (s.resetFld f).calTime = s.calTime := rfl
@[simp] theorem State.resetFld_calUj (s : State) (f : Fld) : (s.resetFld f).calUj = s.calUj := rfl
@[simp] theorem State.resetFld_resident (s : State) (f : Fld) : (s.resetFld f).resident = s.resident := rfl
@[simp] theorem State.resetFld_region (s : State) (f : Fld) : (s.resetFld f).region = s.region := rfl
@[simp] theorem State.resetFld_cores (s : State) (f : Fld) : (s.resetFld f).cores = s.cores := rfl
@[simp] theorem State.resetFld_emb (s : State) (f : Fld) : (s.resetFld f).emb = s.emb := rfl
@[simp] theorem State.resetFld_arrays (s : State) (f : Fld) : (s.resetFld f).arrays = s.arrays := rfl
@[simp] theorem State.resetFld_vis (s : State) (f : Fld) : (s.resetFld f).vis = s.vis := rfl
@[simp] theorem State.resetFld_eqx (s : State) (f : Fld) : (s.resetFld f).eqx = s.eqx := rfl
@[simp] theorem State.resetFld_heads (s : State) (f : Fld) : (s.resetFld f).heads = s.heads := rfl
@[simp] theorem State.resetFld_ports (s : State) (f : Fld) : (s.resetFld f).ports = s.ports := rfl
@[simp] theorem State.resetFld_fresh (s : State) (f : Fld) : (s.resetFld f).fresh = s.fresh := rfl
@[simp] theorem State.resetFld_data (s : State) (f : Fld) : (s.resetFld f).data = s.data := rfl

@[simp] theorem State.resetUnit_pending (s : State) (f : Fld) (u : Nat) : (s.resetUnit f u).pending = s.pending := rfl
@[simp] theorem State.resetUnit_mem (s : State) (f : Fld) (u : Nat) : (s.resetUnit f u).mem = s.mem := rfl
@[simp] theorem State.resetUnit_m (s : State) (f : Fld) (u : Nat) : (s.resetUnit f u).m = s.m := rfl
@[simp] theorem State.resetUnit_t (s : State) (f : Fld) (u : Nat) : (s.resetUnit f u).t = s.t := rfl
@[simp] theorem State.resetUnit_pw (s : State) (f : Fld) (u : Nat) : (s.resetUnit f u).pw = s.pw := rfl
@[simp] theorem State.resetUnit_img (s : State) (f : Fld) (u : Nat) : (s.resetUnit f u).img = s.img := rfl
@[simp] theorem State.resetUnit_brg (s : State) (f : Fld) (u : Nat) : (s.resetUnit f u).brg = s.brg := rfl
@[simp] theorem State.resetUnit_sec (s : State) (f : Fld) (u : Nat) : (s.resetUnit f u).sec = s.sec := rfl
@[simp] theorem State.resetUnit_tst (s : State) (f : Fld) (u : Nat) : (s.resetUnit f u).tst = s.tst := rfl
@[simp] theorem State.resetUnit_confReached (s : State) (f : Fld) (u : Nat) : (s.resetUnit f u).confReached = s.confReached := rfl
@[simp] theorem State.resetUnit_fn (s : State) (f : Fld) (u : Nat) : (s.resetUnit f u).fn = s.fn := rfl
@[simp] theorem State.resetUnit_msix (s : State) (f : Fld) (u : Nat) : (s.resetUnit f u).msix = s.msix := rfl
@[simp] theorem State.resetUnit_pba (s : State) (f : Fld) (u : Nat) : (s.resetUnit f u).pba = s.pba := rfl
@[simp] theorem State.resetUnit_sent (s : State) (f : Fld) (u : Nat) : (s.resetUnit f u).sent = s.sent := rfl
@[simp] theorem State.resetUnit_geyLatch (s : State) (f : Fld) (u : Nat) : (s.resetUnit f u).geyLatch = s.geyLatch := rfl
@[simp] theorem State.resetUnit_reqs (s : State) (f : Fld) (u : Nat) : (s.resetUnit f u).reqs = s.reqs := rfl
@[simp] theorem State.resetUnit_reqNext (s : State) (f : Fld) (u : Nat) : (s.resetUnit f u).reqNext = s.reqNext := rfl
@[simp] theorem State.resetUnit_move (s : State) (f : Fld) (u : Nat) : (s.resetUnit f u).move = s.move := rfl
@[simp] theorem State.resetUnit_foMoves (s : State) (f : Fld) (u : Nat) : (s.resetUnit f u).foMoves = s.foMoves := rfl
@[simp] theorem State.resetUnit_lastCpl (s : State) (f : Fld) (u : Nat) : (s.resetUnit f u).lastCpl = s.lastCpl := rfl
@[simp] theorem State.resetUnit_lastLink (s : State) (f : Fld) (u : Nat) : (s.resetUnit f u).lastLink = s.lastLink := rfl
@[simp] theorem State.resetUnit_queues (s : State) (f : Fld) (u : Nat) : (s.resetUnit f u).queues = s.queues := rfl
@[simp] theorem State.resetUnit_tensors (s : State) (f : Fld) (u : Nat) : (s.resetUnit f u).tensors = s.tensors := rfl
@[simp] theorem State.resetUnit_seqs (s : State) (f : Fld) (u : Nat) : (s.resetUnit f u).seqs = s.seqs := rfl
@[simp] theorem State.resetUnit_flights (s : State) (f : Fld) (u : Nat) : (s.resetUnit f u).flights = s.flights := rfl
@[simp] theorem State.resetUnit_vtime (s : State) (f : Fld) (u : Nat) : (s.resetUnit f u).vtime = s.vtime := rfl
@[simp] theorem State.resetUnit_wasReady (s : State) (f : Fld) (u : Nat) : (s.resetUnit f u).wasReady = s.wasReady := rfl
@[simp] theorem State.resetUnit_lastQ (s : State) (f : Fld) (u : Nat) : (s.resetUnit f u).lastQ = s.lastQ := rfl
@[simp] theorem State.resetUnit_readyAt (s : State) (f : Fld) (u : Nat) : (s.resetUnit f u).readyAt = s.readyAt := rfl
@[simp] theorem State.resetUnit_aged (s : State) (f : Fld) (u : Nat) : (s.resetUnit f u).aged = s.aged := rfl
@[simp] theorem State.resetUnit_stepNo (s : State) (f : Fld) (u : Nat) : (s.resetUnit f u).stepNo = s.stepNo := rfl
@[simp] theorem State.resetUnit_ceJoin (s : State) (f : Fld) (u : Nat) : (s.resetUnit f u).ceJoin = s.ceJoin := rfl
@[simp] theorem State.resetUnit_ceJoinG (s : State) (f : Fld) (u : Nat) : (s.resetUnit f u).ceJoinG = s.ceJoinG := rfl
@[simp] theorem State.resetUnit_epochUse (s : State) (f : Fld) (u : Nat) : (s.resetUnit f u).epochUse = s.epochUse := rfl
@[simp] theorem State.resetUnit_epochC1 (s : State) (f : Fld) (u : Nat) : (s.resetUnit f u).epochC1 = s.epochC1 := rfl
@[simp] theorem State.resetUnit_lastEpoch (s : State) (f : Fld) (u : Nat) : (s.resetUnit f u).lastEpoch = s.lastEpoch := rfl
@[simp] theorem State.resetUnit_acct (s : State) (f : Fld) (u : Nat) : (s.resetUnit f u).acct = s.acct := rfl
@[simp] theorem State.resetUnit_frac (s : State) (f : Fld) (u : Nat) : (s.resetUnit f u).frac = s.frac := rfl
@[simp] theorem State.resetUnit_energyK (s : State) (f : Fld) (u : Nat) : (s.resetUnit f u).energyK = s.energyK := rfl
@[simp] theorem State.resetUnit_calTime (s : State) (f : Fld) (u : Nat) : (s.resetUnit f u).calTime = s.calTime := rfl
@[simp] theorem State.resetUnit_calUj (s : State) (f : Fld) (u : Nat) : (s.resetUnit f u).calUj = s.calUj := rfl
@[simp] theorem State.resetUnit_resident (s : State) (f : Fld) (u : Nat) : (s.resetUnit f u).resident = s.resident := rfl
@[simp] theorem State.resetUnit_region (s : State) (f : Fld) (u : Nat) : (s.resetUnit f u).region = s.region := rfl
@[simp] theorem State.resetUnit_cores (s : State) (f : Fld) (u : Nat) : (s.resetUnit f u).cores = s.cores := rfl
@[simp] theorem State.resetUnit_emb (s : State) (f : Fld) (u : Nat) : (s.resetUnit f u).emb = s.emb := rfl
@[simp] theorem State.resetUnit_arrays (s : State) (f : Fld) (u : Nat) : (s.resetUnit f u).arrays = s.arrays := rfl
@[simp] theorem State.resetUnit_vis (s : State) (f : Fld) (u : Nat) : (s.resetUnit f u).vis = s.vis := rfl
@[simp] theorem State.resetUnit_eqx (s : State) (f : Fld) (u : Nat) : (s.resetUnit f u).eqx = s.eqx := rfl
@[simp] theorem State.resetUnit_heads (s : State) (f : Fld) (u : Nat) : (s.resetUnit f u).heads = s.heads := rfl
@[simp] theorem State.resetUnit_ports (s : State) (f : Fld) (u : Nat) : (s.resetUnit f u).ports = s.ports := rfl
@[simp] theorem State.resetUnit_fresh (s : State) (f : Fld) (u : Nat) : (s.resetUnit f u).fresh = s.fresh := rfl
@[simp] theorem State.resetUnit_data (s : State) (f : Fld) (u : Nat) : (s.resetUnit f u).data = s.data := rfl

@[simp] theorem State.setPend_pending (s : State) (n : Nat) : (s.setPend n).pending = s.pending := rfl
@[simp] theorem State.setPend_mem (s : State) (n : Nat) : (s.setPend n).mem = s.mem := rfl
@[simp] theorem State.setPend_m (s : State) (n : Nat) : (s.setPend n).m = s.m := rfl
@[simp] theorem State.setPend_t (s : State) (n : Nat) : (s.setPend n).t = s.t := rfl
@[simp] theorem State.setPend_pw (s : State) (n : Nat) : (s.setPend n).pw = s.pw := rfl
@[simp] theorem State.setPend_img (s : State) (n : Nat) : (s.setPend n).img = s.img := rfl
@[simp] theorem State.setPend_brg (s : State) (n : Nat) : (s.setPend n).brg = s.brg := rfl
@[simp] theorem State.setPend_sec (s : State) (n : Nat) : (s.setPend n).sec = s.sec := rfl
@[simp] theorem State.setPend_tst (s : State) (n : Nat) : (s.setPend n).tst = s.tst := rfl
@[simp] theorem State.setPend_confReached (s : State) (n : Nat) : (s.setPend n).confReached = s.confReached := rfl
@[simp] theorem State.setPend_fn (s : State) (n : Nat) : (s.setPend n).fn = s.fn := rfl
@[simp] theorem State.setPend_msix (s : State) (n : Nat) : (s.setPend n).msix = s.msix := rfl
@[simp] theorem State.setPend_pba (s : State) (n : Nat) : (s.setPend n).pba = s.pba := rfl
@[simp] theorem State.setPend_sent (s : State) (n : Nat) : (s.setPend n).sent = s.sent := rfl
@[simp] theorem State.setPend_geyLatch (s : State) (n : Nat) : (s.setPend n).geyLatch = s.geyLatch := rfl
@[simp] theorem State.setPend_reqs (s : State) (n : Nat) : (s.setPend n).reqs = s.reqs := rfl
@[simp] theorem State.setPend_reqNext (s : State) (n : Nat) : (s.setPend n).reqNext = s.reqNext := rfl
@[simp] theorem State.setPend_move (s : State) (n : Nat) : (s.setPend n).move = s.move := rfl
@[simp] theorem State.setPend_foMoves (s : State) (n : Nat) : (s.setPend n).foMoves = s.foMoves := rfl
@[simp] theorem State.setPend_lastCpl (s : State) (n : Nat) : (s.setPend n).lastCpl = s.lastCpl := rfl
@[simp] theorem State.setPend_lastLink (s : State) (n : Nat) : (s.setPend n).lastLink = s.lastLink := rfl
@[simp] theorem State.setPend_queues (s : State) (n : Nat) : (s.setPend n).queues = s.queues := rfl
@[simp] theorem State.setPend_tensors (s : State) (n : Nat) : (s.setPend n).tensors = s.tensors := rfl
@[simp] theorem State.setPend_seqs (s : State) (n : Nat) : (s.setPend n).seqs = s.seqs := rfl
@[simp] theorem State.setPend_flights (s : State) (n : Nat) : (s.setPend n).flights = s.flights := rfl
@[simp] theorem State.setPend_vtime (s : State) (n : Nat) : (s.setPend n).vtime = s.vtime := rfl
@[simp] theorem State.setPend_wasReady (s : State) (n : Nat) : (s.setPend n).wasReady = s.wasReady := rfl
@[simp] theorem State.setPend_lastQ (s : State) (n : Nat) : (s.setPend n).lastQ = s.lastQ := rfl
@[simp] theorem State.setPend_readyAt (s : State) (n : Nat) : (s.setPend n).readyAt = s.readyAt := rfl
@[simp] theorem State.setPend_aged (s : State) (n : Nat) : (s.setPend n).aged = s.aged := rfl
@[simp] theorem State.setPend_stepNo (s : State) (n : Nat) : (s.setPend n).stepNo = s.stepNo := rfl
@[simp] theorem State.setPend_ceJoin (s : State) (n : Nat) : (s.setPend n).ceJoin = s.ceJoin := rfl
@[simp] theorem State.setPend_ceJoinG (s : State) (n : Nat) : (s.setPend n).ceJoinG = s.ceJoinG := rfl
@[simp] theorem State.setPend_epochUse (s : State) (n : Nat) : (s.setPend n).epochUse = s.epochUse := rfl
@[simp] theorem State.setPend_epochC1 (s : State) (n : Nat) : (s.setPend n).epochC1 = s.epochC1 := rfl
@[simp] theorem State.setPend_lastEpoch (s : State) (n : Nat) : (s.setPend n).lastEpoch = s.lastEpoch := rfl
@[simp] theorem State.setPend_acct (s : State) (n : Nat) : (s.setPend n).acct = s.acct := rfl
@[simp] theorem State.setPend_frac (s : State) (n : Nat) : (s.setPend n).frac = s.frac := rfl
@[simp] theorem State.setPend_energyK (s : State) (n : Nat) : (s.setPend n).energyK = s.energyK := rfl
@[simp] theorem State.setPend_calTime (s : State) (n : Nat) : (s.setPend n).calTime = s.calTime := rfl
@[simp] theorem State.setPend_calUj (s : State) (n : Nat) : (s.setPend n).calUj = s.calUj := rfl
@[simp] theorem State.setPend_resident (s : State) (n : Nat) : (s.setPend n).resident = s.resident := rfl
@[simp] theorem State.setPend_region (s : State) (n : Nat) : (s.setPend n).region = s.region := rfl
@[simp] theorem State.setPend_cores (s : State) (n : Nat) : (s.setPend n).cores = s.cores := rfl
@[simp] theorem State.setPend_emb (s : State) (n : Nat) : (s.setPend n).emb = s.emb := rfl
@[simp] theorem State.setPend_arrays (s : State) (n : Nat) : (s.setPend n).arrays = s.arrays := rfl
@[simp] theorem State.setPend_vis (s : State) (n : Nat) : (s.setPend n).vis = s.vis := rfl
@[simp] theorem State.setPend_eqx (s : State) (n : Nat) : (s.setPend n).eqx = s.eqx := rfl
@[simp] theorem State.setPend_heads (s : State) (n : Nat) : (s.setPend n).heads = s.heads := rfl
@[simp] theorem State.setPend_ports (s : State) (n : Nat) : (s.setPend n).ports = s.ports := rfl
@[simp] theorem State.setPend_fresh (s : State) (n : Nat) : (s.setPend n).fresh = s.fresh := rfl
@[simp] theorem State.setPend_data (s : State) (n : Nat) : (s.setPend n).data = s.data := rfl

@[simp] theorem State.clrPend_pending (s : State) (n : Nat) : (s.clrPend n).pending = s.pending := rfl
@[simp] theorem State.clrPend_mem (s : State) (n : Nat) : (s.clrPend n).mem = s.mem := rfl
@[simp] theorem State.clrPend_m (s : State) (n : Nat) : (s.clrPend n).m = s.m := rfl
@[simp] theorem State.clrPend_t (s : State) (n : Nat) : (s.clrPend n).t = s.t := rfl
@[simp] theorem State.clrPend_pw (s : State) (n : Nat) : (s.clrPend n).pw = s.pw := rfl
@[simp] theorem State.clrPend_img (s : State) (n : Nat) : (s.clrPend n).img = s.img := rfl
@[simp] theorem State.clrPend_brg (s : State) (n : Nat) : (s.clrPend n).brg = s.brg := rfl
@[simp] theorem State.clrPend_sec (s : State) (n : Nat) : (s.clrPend n).sec = s.sec := rfl
@[simp] theorem State.clrPend_tst (s : State) (n : Nat) : (s.clrPend n).tst = s.tst := rfl
@[simp] theorem State.clrPend_confReached (s : State) (n : Nat) : (s.clrPend n).confReached = s.confReached := rfl
@[simp] theorem State.clrPend_fn (s : State) (n : Nat) : (s.clrPend n).fn = s.fn := rfl
@[simp] theorem State.clrPend_msix (s : State) (n : Nat) : (s.clrPend n).msix = s.msix := rfl
@[simp] theorem State.clrPend_pba (s : State) (n : Nat) : (s.clrPend n).pba = s.pba := rfl
@[simp] theorem State.clrPend_sent (s : State) (n : Nat) : (s.clrPend n).sent = s.sent := rfl
@[simp] theorem State.clrPend_geyLatch (s : State) (n : Nat) : (s.clrPend n).geyLatch = s.geyLatch := rfl
@[simp] theorem State.clrPend_reqs (s : State) (n : Nat) : (s.clrPend n).reqs = s.reqs := rfl
@[simp] theorem State.clrPend_reqNext (s : State) (n : Nat) : (s.clrPend n).reqNext = s.reqNext := rfl
@[simp] theorem State.clrPend_move (s : State) (n : Nat) : (s.clrPend n).move = s.move := rfl
@[simp] theorem State.clrPend_foMoves (s : State) (n : Nat) : (s.clrPend n).foMoves = s.foMoves := rfl
@[simp] theorem State.clrPend_lastCpl (s : State) (n : Nat) : (s.clrPend n).lastCpl = s.lastCpl := rfl
@[simp] theorem State.clrPend_lastLink (s : State) (n : Nat) : (s.clrPend n).lastLink = s.lastLink := rfl
@[simp] theorem State.clrPend_queues (s : State) (n : Nat) : (s.clrPend n).queues = s.queues := rfl
@[simp] theorem State.clrPend_tensors (s : State) (n : Nat) : (s.clrPend n).tensors = s.tensors := rfl
@[simp] theorem State.clrPend_seqs (s : State) (n : Nat) : (s.clrPend n).seqs = s.seqs := rfl
@[simp] theorem State.clrPend_flights (s : State) (n : Nat) : (s.clrPend n).flights = s.flights := rfl
@[simp] theorem State.clrPend_vtime (s : State) (n : Nat) : (s.clrPend n).vtime = s.vtime := rfl
@[simp] theorem State.clrPend_wasReady (s : State) (n : Nat) : (s.clrPend n).wasReady = s.wasReady := rfl
@[simp] theorem State.clrPend_lastQ (s : State) (n : Nat) : (s.clrPend n).lastQ = s.lastQ := rfl
@[simp] theorem State.clrPend_readyAt (s : State) (n : Nat) : (s.clrPend n).readyAt = s.readyAt := rfl
@[simp] theorem State.clrPend_aged (s : State) (n : Nat) : (s.clrPend n).aged = s.aged := rfl
@[simp] theorem State.clrPend_stepNo (s : State) (n : Nat) : (s.clrPend n).stepNo = s.stepNo := rfl
@[simp] theorem State.clrPend_ceJoin (s : State) (n : Nat) : (s.clrPend n).ceJoin = s.ceJoin := rfl
@[simp] theorem State.clrPend_ceJoinG (s : State) (n : Nat) : (s.clrPend n).ceJoinG = s.ceJoinG := rfl
@[simp] theorem State.clrPend_epochUse (s : State) (n : Nat) : (s.clrPend n).epochUse = s.epochUse := rfl
@[simp] theorem State.clrPend_epochC1 (s : State) (n : Nat) : (s.clrPend n).epochC1 = s.epochC1 := rfl
@[simp] theorem State.clrPend_lastEpoch (s : State) (n : Nat) : (s.clrPend n).lastEpoch = s.lastEpoch := rfl
@[simp] theorem State.clrPend_acct (s : State) (n : Nat) : (s.clrPend n).acct = s.acct := rfl
@[simp] theorem State.clrPend_frac (s : State) (n : Nat) : (s.clrPend n).frac = s.frac := rfl
@[simp] theorem State.clrPend_energyK (s : State) (n : Nat) : (s.clrPend n).energyK = s.energyK := rfl
@[simp] theorem State.clrPend_calTime (s : State) (n : Nat) : (s.clrPend n).calTime = s.calTime := rfl
@[simp] theorem State.clrPend_calUj (s : State) (n : Nat) : (s.clrPend n).calUj = s.calUj := rfl
@[simp] theorem State.clrPend_resident (s : State) (n : Nat) : (s.clrPend n).resident = s.resident := rfl
@[simp] theorem State.clrPend_region (s : State) (n : Nat) : (s.clrPend n).region = s.region := rfl
@[simp] theorem State.clrPend_cores (s : State) (n : Nat) : (s.clrPend n).cores = s.cores := rfl
@[simp] theorem State.clrPend_emb (s : State) (n : Nat) : (s.clrPend n).emb = s.emb := rfl
@[simp] theorem State.clrPend_arrays (s : State) (n : Nat) : (s.clrPend n).arrays = s.arrays := rfl
@[simp] theorem State.clrPend_vis (s : State) (n : Nat) : (s.clrPend n).vis = s.vis := rfl
@[simp] theorem State.clrPend_eqx (s : State) (n : Nat) : (s.clrPend n).eqx = s.eqx := rfl
@[simp] theorem State.clrPend_heads (s : State) (n : Nat) : (s.clrPend n).heads = s.heads := rfl
@[simp] theorem State.clrPend_ports (s : State) (n : Nat) : (s.clrPend n).ports = s.ports := rfl
@[simp] theorem State.clrPend_fresh (s : State) (n : Nat) : (s.clrPend n).fresh = s.fresh := rfl
@[simp] theorem State.clrPend_data (s : State) (n : Nat) : (s.clrPend n).data = s.data := rfl

@[simp] theorem State.putByte_pending (s : State) (k : Nat) (b : Byte) : (s.putByte k b).pending = s.pending := rfl
@[simp] theorem State.putByte_csr (s : State) (k : Nat) (b : Byte) : (s.putByte k b).csr = s.csr := rfl
@[simp] theorem State.putByte_m (s : State) (k : Nat) (b : Byte) : (s.putByte k b).m = s.m := rfl
@[simp] theorem State.putByte_t (s : State) (k : Nat) (b : Byte) : (s.putByte k b).t = s.t := rfl
@[simp] theorem State.putByte_pw (s : State) (k : Nat) (b : Byte) : (s.putByte k b).pw = s.pw := rfl
@[simp] theorem State.putByte_img (s : State) (k : Nat) (b : Byte) : (s.putByte k b).img = s.img := rfl
@[simp] theorem State.putByte_brg (s : State) (k : Nat) (b : Byte) : (s.putByte k b).brg = s.brg := rfl
@[simp] theorem State.putByte_sec (s : State) (k : Nat) (b : Byte) : (s.putByte k b).sec = s.sec := rfl
@[simp] theorem State.putByte_tst (s : State) (k : Nat) (b : Byte) : (s.putByte k b).tst = s.tst := rfl
@[simp] theorem State.putByte_confReached (s : State) (k : Nat) (b : Byte) : (s.putByte k b).confReached = s.confReached := rfl
@[simp] theorem State.putByte_fn (s : State) (k : Nat) (b : Byte) : (s.putByte k b).fn = s.fn := rfl
@[simp] theorem State.putByte_msix (s : State) (k : Nat) (b : Byte) : (s.putByte k b).msix = s.msix := rfl
@[simp] theorem State.putByte_pba (s : State) (k : Nat) (b : Byte) : (s.putByte k b).pba = s.pba := rfl
@[simp] theorem State.putByte_sent (s : State) (k : Nat) (b : Byte) : (s.putByte k b).sent = s.sent := rfl
@[simp] theorem State.putByte_geyLatch (s : State) (k : Nat) (b : Byte) : (s.putByte k b).geyLatch = s.geyLatch := rfl
@[simp] theorem State.putByte_reqs (s : State) (k : Nat) (b : Byte) : (s.putByte k b).reqs = s.reqs := rfl
@[simp] theorem State.putByte_reqNext (s : State) (k : Nat) (b : Byte) : (s.putByte k b).reqNext = s.reqNext := rfl
@[simp] theorem State.putByte_move (s : State) (k : Nat) (b : Byte) : (s.putByte k b).move = s.move := rfl
@[simp] theorem State.putByte_foMoves (s : State) (k : Nat) (b : Byte) : (s.putByte k b).foMoves = s.foMoves := rfl
@[simp] theorem State.putByte_lastCpl (s : State) (k : Nat) (b : Byte) : (s.putByte k b).lastCpl = s.lastCpl := rfl
@[simp] theorem State.putByte_lastLink (s : State) (k : Nat) (b : Byte) : (s.putByte k b).lastLink = s.lastLink := rfl
@[simp] theorem State.putByte_queues (s : State) (k : Nat) (b : Byte) : (s.putByte k b).queues = s.queues := rfl
@[simp] theorem State.putByte_tensors (s : State) (k : Nat) (b : Byte) : (s.putByte k b).tensors = s.tensors := rfl
@[simp] theorem State.putByte_seqs (s : State) (k : Nat) (b : Byte) : (s.putByte k b).seqs = s.seqs := rfl
@[simp] theorem State.putByte_flights (s : State) (k : Nat) (b : Byte) : (s.putByte k b).flights = s.flights := rfl
@[simp] theorem State.putByte_vtime (s : State) (k : Nat) (b : Byte) : (s.putByte k b).vtime = s.vtime := rfl
@[simp] theorem State.putByte_wasReady (s : State) (k : Nat) (b : Byte) : (s.putByte k b).wasReady = s.wasReady := rfl
@[simp] theorem State.putByte_lastQ (s : State) (k : Nat) (b : Byte) : (s.putByte k b).lastQ = s.lastQ := rfl
@[simp] theorem State.putByte_readyAt (s : State) (k : Nat) (b : Byte) : (s.putByte k b).readyAt = s.readyAt := rfl
@[simp] theorem State.putByte_aged (s : State) (k : Nat) (b : Byte) : (s.putByte k b).aged = s.aged := rfl
@[simp] theorem State.putByte_stepNo (s : State) (k : Nat) (b : Byte) : (s.putByte k b).stepNo = s.stepNo := rfl
@[simp] theorem State.putByte_ceJoin (s : State) (k : Nat) (b : Byte) : (s.putByte k b).ceJoin = s.ceJoin := rfl
@[simp] theorem State.putByte_ceJoinG (s : State) (k : Nat) (b : Byte) : (s.putByte k b).ceJoinG = s.ceJoinG := rfl
@[simp] theorem State.putByte_epochUse (s : State) (k : Nat) (b : Byte) : (s.putByte k b).epochUse = s.epochUse := rfl
@[simp] theorem State.putByte_epochC1 (s : State) (k : Nat) (b : Byte) : (s.putByte k b).epochC1 = s.epochC1 := rfl
@[simp] theorem State.putByte_lastEpoch (s : State) (k : Nat) (b : Byte) : (s.putByte k b).lastEpoch = s.lastEpoch := rfl
@[simp] theorem State.putByte_acct (s : State) (k : Nat) (b : Byte) : (s.putByte k b).acct = s.acct := rfl
@[simp] theorem State.putByte_frac (s : State) (k : Nat) (b : Byte) : (s.putByte k b).frac = s.frac := rfl
@[simp] theorem State.putByte_energyK (s : State) (k : Nat) (b : Byte) : (s.putByte k b).energyK = s.energyK := rfl
@[simp] theorem State.putByte_calTime (s : State) (k : Nat) (b : Byte) : (s.putByte k b).calTime = s.calTime := rfl
@[simp] theorem State.putByte_calUj (s : State) (k : Nat) (b : Byte) : (s.putByte k b).calUj = s.calUj := rfl
@[simp] theorem State.putByte_resident (s : State) (k : Nat) (b : Byte) : (s.putByte k b).resident = s.resident := rfl
@[simp] theorem State.putByte_region (s : State) (k : Nat) (b : Byte) : (s.putByte k b).region = s.region := rfl
@[simp] theorem State.putByte_cores (s : State) (k : Nat) (b : Byte) : (s.putByte k b).cores = s.cores := rfl
@[simp] theorem State.putByte_emb (s : State) (k : Nat) (b : Byte) : (s.putByte k b).emb = s.emb := rfl
@[simp] theorem State.putByte_arrays (s : State) (k : Nat) (b : Byte) : (s.putByte k b).arrays = s.arrays := rfl
@[simp] theorem State.putByte_vis (s : State) (k : Nat) (b : Byte) : (s.putByte k b).vis = s.vis := rfl
@[simp] theorem State.putByte_eqx (s : State) (k : Nat) (b : Byte) : (s.putByte k b).eqx = s.eqx := rfl
@[simp] theorem State.putByte_heads (s : State) (k : Nat) (b : Byte) : (s.putByte k b).heads = s.heads := rfl
@[simp] theorem State.putByte_ports (s : State) (k : Nat) (b : Byte) : (s.putByte k b).ports = s.ports := rfl
@[simp] theorem State.putByte_fresh (s : State) (k : Nat) (b : Byte) : (s.putByte k b).fresh = s.fresh := rfl
@[simp] theorem State.putByte_data (s : State) (k : Nat) (b : Byte) : (s.putByte k b).data = s.data := rfl
@[simp] theorem State.putByte_rd (s : State) (k : Nat) (b : Byte) (g : Fld) (w : Nat) : (s.putByte k b).rd g w = s.rd g w := rfl

@[simp] theorem State.setCfg_pending (s : State) (p c : Nat) (x : FnCfg) : (s.setCfg p c x).pending = s.pending := rfl
@[simp] theorem State.setCfg_csr (s : State) (p c : Nat) (x : FnCfg) : (s.setCfg p c x).csr = s.csr := rfl
@[simp] theorem State.setCfg_mem (s : State) (p c : Nat) (x : FnCfg) : (s.setCfg p c x).mem = s.mem := rfl
@[simp] theorem State.setCfg_m (s : State) (p c : Nat) (x : FnCfg) : (s.setCfg p c x).m = s.m := rfl
@[simp] theorem State.setCfg_t (s : State) (p c : Nat) (x : FnCfg) : (s.setCfg p c x).t = s.t := rfl
@[simp] theorem State.setCfg_pw (s : State) (p c : Nat) (x : FnCfg) : (s.setCfg p c x).pw = s.pw := rfl
@[simp] theorem State.setCfg_img (s : State) (p c : Nat) (x : FnCfg) : (s.setCfg p c x).img = s.img := rfl
@[simp] theorem State.setCfg_brg (s : State) (p c : Nat) (x : FnCfg) : (s.setCfg p c x).brg = s.brg := rfl
@[simp] theorem State.setCfg_sec (s : State) (p c : Nat) (x : FnCfg) : (s.setCfg p c x).sec = s.sec := rfl
@[simp] theorem State.setCfg_tst (s : State) (p c : Nat) (x : FnCfg) : (s.setCfg p c x).tst = s.tst := rfl
@[simp] theorem State.setCfg_confReached (s : State) (p c : Nat) (x : FnCfg) : (s.setCfg p c x).confReached = s.confReached := rfl
@[simp] theorem State.setCfg_msix (s : State) (p c : Nat) (x : FnCfg) : (s.setCfg p c x).msix = s.msix := rfl
@[simp] theorem State.setCfg_pba (s : State) (p c : Nat) (x : FnCfg) : (s.setCfg p c x).pba = s.pba := rfl
@[simp] theorem State.setCfg_sent (s : State) (p c : Nat) (x : FnCfg) : (s.setCfg p c x).sent = s.sent := rfl
@[simp] theorem State.setCfg_geyLatch (s : State) (p c : Nat) (x : FnCfg) : (s.setCfg p c x).geyLatch = s.geyLatch := rfl
@[simp] theorem State.setCfg_reqs (s : State) (p c : Nat) (x : FnCfg) : (s.setCfg p c x).reqs = s.reqs := rfl
@[simp] theorem State.setCfg_reqNext (s : State) (p c : Nat) (x : FnCfg) : (s.setCfg p c x).reqNext = s.reqNext := rfl
@[simp] theorem State.setCfg_move (s : State) (p c : Nat) (x : FnCfg) : (s.setCfg p c x).move = s.move := rfl
@[simp] theorem State.setCfg_foMoves (s : State) (p c : Nat) (x : FnCfg) : (s.setCfg p c x).foMoves = s.foMoves := rfl
@[simp] theorem State.setCfg_lastCpl (s : State) (p c : Nat) (x : FnCfg) : (s.setCfg p c x).lastCpl = s.lastCpl := rfl
@[simp] theorem State.setCfg_lastLink (s : State) (p c : Nat) (x : FnCfg) : (s.setCfg p c x).lastLink = s.lastLink := rfl
@[simp] theorem State.setCfg_queues (s : State) (p c : Nat) (x : FnCfg) : (s.setCfg p c x).queues = s.queues := rfl
@[simp] theorem State.setCfg_tensors (s : State) (p c : Nat) (x : FnCfg) : (s.setCfg p c x).tensors = s.tensors := rfl
@[simp] theorem State.setCfg_seqs (s : State) (p c : Nat) (x : FnCfg) : (s.setCfg p c x).seqs = s.seqs := rfl
@[simp] theorem State.setCfg_flights (s : State) (p c : Nat) (x : FnCfg) : (s.setCfg p c x).flights = s.flights := rfl
@[simp] theorem State.setCfg_vtime (s : State) (p c : Nat) (x : FnCfg) : (s.setCfg p c x).vtime = s.vtime := rfl
@[simp] theorem State.setCfg_wasReady (s : State) (p c : Nat) (x : FnCfg) : (s.setCfg p c x).wasReady = s.wasReady := rfl
@[simp] theorem State.setCfg_lastQ (s : State) (p c : Nat) (x : FnCfg) : (s.setCfg p c x).lastQ = s.lastQ := rfl
@[simp] theorem State.setCfg_readyAt (s : State) (p c : Nat) (x : FnCfg) : (s.setCfg p c x).readyAt = s.readyAt := rfl
@[simp] theorem State.setCfg_aged (s : State) (p c : Nat) (x : FnCfg) : (s.setCfg p c x).aged = s.aged := rfl
@[simp] theorem State.setCfg_stepNo (s : State) (p c : Nat) (x : FnCfg) : (s.setCfg p c x).stepNo = s.stepNo := rfl
@[simp] theorem State.setCfg_ceJoin (s : State) (p c : Nat) (x : FnCfg) : (s.setCfg p c x).ceJoin = s.ceJoin := rfl
@[simp] theorem State.setCfg_ceJoinG (s : State) (p c : Nat) (x : FnCfg) : (s.setCfg p c x).ceJoinG = s.ceJoinG := rfl
@[simp] theorem State.setCfg_epochUse (s : State) (p c : Nat) (x : FnCfg) : (s.setCfg p c x).epochUse = s.epochUse := rfl
@[simp] theorem State.setCfg_epochC1 (s : State) (p c : Nat) (x : FnCfg) : (s.setCfg p c x).epochC1 = s.epochC1 := rfl
@[simp] theorem State.setCfg_lastEpoch (s : State) (p c : Nat) (x : FnCfg) : (s.setCfg p c x).lastEpoch = s.lastEpoch := rfl
@[simp] theorem State.setCfg_acct (s : State) (p c : Nat) (x : FnCfg) : (s.setCfg p c x).acct = s.acct := rfl
@[simp] theorem State.setCfg_frac (s : State) (p c : Nat) (x : FnCfg) : (s.setCfg p c x).frac = s.frac := rfl
@[simp] theorem State.setCfg_energyK (s : State) (p c : Nat) (x : FnCfg) : (s.setCfg p c x).energyK = s.energyK := rfl
@[simp] theorem State.setCfg_calTime (s : State) (p c : Nat) (x : FnCfg) : (s.setCfg p c x).calTime = s.calTime := rfl
@[simp] theorem State.setCfg_calUj (s : State) (p c : Nat) (x : FnCfg) : (s.setCfg p c x).calUj = s.calUj := rfl
@[simp] theorem State.setCfg_resident (s : State) (p c : Nat) (x : FnCfg) : (s.setCfg p c x).resident = s.resident := rfl
@[simp] theorem State.setCfg_region (s : State) (p c : Nat) (x : FnCfg) : (s.setCfg p c x).region = s.region := rfl
@[simp] theorem State.setCfg_cores (s : State) (p c : Nat) (x : FnCfg) : (s.setCfg p c x).cores = s.cores := rfl
@[simp] theorem State.setCfg_emb (s : State) (p c : Nat) (x : FnCfg) : (s.setCfg p c x).emb = s.emb := rfl
@[simp] theorem State.setCfg_arrays (s : State) (p c : Nat) (x : FnCfg) : (s.setCfg p c x).arrays = s.arrays := rfl
@[simp] theorem State.setCfg_vis (s : State) (p c : Nat) (x : FnCfg) : (s.setCfg p c x).vis = s.vis := rfl
@[simp] theorem State.setCfg_eqx (s : State) (p c : Nat) (x : FnCfg) : (s.setCfg p c x).eqx = s.eqx := rfl
@[simp] theorem State.setCfg_heads (s : State) (p c : Nat) (x : FnCfg) : (s.setCfg p c x).heads = s.heads := rfl
@[simp] theorem State.setCfg_ports (s : State) (p c : Nat) (x : FnCfg) : (s.setCfg p c x).ports = s.ports := rfl
@[simp] theorem State.setCfg_fresh (s : State) (p c : Nat) (x : FnCfg) : (s.setCfg p c x).fresh = s.fresh := rfl
@[simp] theorem State.setCfg_data (s : State) (p c : Nat) (x : FnCfg) : (s.setCfg p c x).data = s.data := rfl
@[simp] theorem State.setCfg_rd (s : State) (p c : Nat) (x : FnCfg) (g : Fld) (w : Nat) : (s.setCfg p c x).rd g w = s.rd g w := rfl

@[simp] theorem State.setPte_pending (s : State) (c l v e : Nat) : (s.setPte c l v e).pending = s.pending := rfl
@[simp] theorem State.setPte_csr (s : State) (c l v e : Nat) : (s.setPte c l v e).csr = s.csr := rfl
@[simp] theorem State.setPte_mem (s : State) (c l v e : Nat) : (s.setPte c l v e).mem = s.mem := rfl
@[simp] theorem State.setPte_t (s : State) (c l v e : Nat) : (s.setPte c l v e).t = s.t := rfl
@[simp] theorem State.setPte_pw (s : State) (c l v e : Nat) : (s.setPte c l v e).pw = s.pw := rfl
@[simp] theorem State.setPte_img (s : State) (c l v e : Nat) : (s.setPte c l v e).img = s.img := rfl
@[simp] theorem State.setPte_brg (s : State) (c l v e : Nat) : (s.setPte c l v e).brg = s.brg := rfl
@[simp] theorem State.setPte_sec (s : State) (c l v e : Nat) : (s.setPte c l v e).sec = s.sec := rfl
@[simp] theorem State.setPte_tst (s : State) (c l v e : Nat) : (s.setPte c l v e).tst = s.tst := rfl
@[simp] theorem State.setPte_confReached (s : State) (c l v e : Nat) : (s.setPte c l v e).confReached = s.confReached := rfl
@[simp] theorem State.setPte_fn (s : State) (c l v e : Nat) : (s.setPte c l v e).fn = s.fn := rfl
@[simp] theorem State.setPte_msix (s : State) (c l v e : Nat) : (s.setPte c l v e).msix = s.msix := rfl
@[simp] theorem State.setPte_pba (s : State) (c l v e : Nat) : (s.setPte c l v e).pba = s.pba := rfl
@[simp] theorem State.setPte_sent (s : State) (c l v e : Nat) : (s.setPte c l v e).sent = s.sent := rfl
@[simp] theorem State.setPte_geyLatch (s : State) (c l v e : Nat) : (s.setPte c l v e).geyLatch = s.geyLatch := rfl
@[simp] theorem State.setPte_reqs (s : State) (c l v e : Nat) : (s.setPte c l v e).reqs = s.reqs := rfl
@[simp] theorem State.setPte_reqNext (s : State) (c l v e : Nat) : (s.setPte c l v e).reqNext = s.reqNext := rfl
@[simp] theorem State.setPte_move (s : State) (c l v e : Nat) : (s.setPte c l v e).move = s.move := rfl
@[simp] theorem State.setPte_foMoves (s : State) (c l v e : Nat) : (s.setPte c l v e).foMoves = s.foMoves := rfl
@[simp] theorem State.setPte_lastCpl (s : State) (c l v e : Nat) : (s.setPte c l v e).lastCpl = s.lastCpl := rfl
@[simp] theorem State.setPte_lastLink (s : State) (c l v e : Nat) : (s.setPte c l v e).lastLink = s.lastLink := rfl
@[simp] theorem State.setPte_queues (s : State) (c l v e : Nat) : (s.setPte c l v e).queues = s.queues := rfl
@[simp] theorem State.setPte_tensors (s : State) (c l v e : Nat) : (s.setPte c l v e).tensors = s.tensors := rfl
@[simp] theorem State.setPte_seqs (s : State) (c l v e : Nat) : (s.setPte c l v e).seqs = s.seqs := rfl
@[simp] theorem State.setPte_flights (s : State) (c l v e : Nat) : (s.setPte c l v e).flights = s.flights := rfl
@[simp] theorem State.setPte_vtime (s : State) (c l v e : Nat) : (s.setPte c l v e).vtime = s.vtime := rfl
@[simp] theorem State.setPte_wasReady (s : State) (c l v e : Nat) : (s.setPte c l v e).wasReady = s.wasReady := rfl
@[simp] theorem State.setPte_lastQ (s : State) (c l v e : Nat) : (s.setPte c l v e).lastQ = s.lastQ := rfl
@[simp] theorem State.setPte_readyAt (s : State) (c l v e : Nat) : (s.setPte c l v e).readyAt = s.readyAt := rfl
@[simp] theorem State.setPte_aged (s : State) (c l v e : Nat) : (s.setPte c l v e).aged = s.aged := rfl
@[simp] theorem State.setPte_stepNo (s : State) (c l v e : Nat) : (s.setPte c l v e).stepNo = s.stepNo := rfl
@[simp] theorem State.setPte_ceJoin (s : State) (c l v e : Nat) : (s.setPte c l v e).ceJoin = s.ceJoin := rfl
@[simp] theorem State.setPte_ceJoinG (s : State) (c l v e : Nat) : (s.setPte c l v e).ceJoinG = s.ceJoinG := rfl
@[simp] theorem State.setPte_epochUse (s : State) (c l v e : Nat) : (s.setPte c l v e).epochUse = s.epochUse := rfl
@[simp] theorem State.setPte_epochC1 (s : State) (c l v e : Nat) : (s.setPte c l v e).epochC1 = s.epochC1 := rfl
@[simp] theorem State.setPte_lastEpoch (s : State) (c l v e : Nat) : (s.setPte c l v e).lastEpoch = s.lastEpoch := rfl
@[simp] theorem State.setPte_acct (s : State) (c l v e : Nat) : (s.setPte c l v e).acct = s.acct := rfl
@[simp] theorem State.setPte_frac (s : State) (c l v e : Nat) : (s.setPte c l v e).frac = s.frac := rfl
@[simp] theorem State.setPte_energyK (s : State) (c l v e : Nat) : (s.setPte c l v e).energyK = s.energyK := rfl
@[simp] theorem State.setPte_calTime (s : State) (c l v e : Nat) : (s.setPte c l v e).calTime = s.calTime := rfl
@[simp] theorem State.setPte_calUj (s : State) (c l v e : Nat) : (s.setPte c l v e).calUj = s.calUj := rfl
@[simp] theorem State.setPte_resident (s : State) (c l v e : Nat) : (s.setPte c l v e).resident = s.resident := rfl
@[simp] theorem State.setPte_region (s : State) (c l v e : Nat) : (s.setPte c l v e).region = s.region := rfl
@[simp] theorem State.setPte_cores (s : State) (c l v e : Nat) : (s.setPte c l v e).cores = s.cores := rfl
@[simp] theorem State.setPte_emb (s : State) (c l v e : Nat) : (s.setPte c l v e).emb = s.emb := rfl
@[simp] theorem State.setPte_arrays (s : State) (c l v e : Nat) : (s.setPte c l v e).arrays = s.arrays := rfl
@[simp] theorem State.setPte_vis (s : State) (c l v e : Nat) : (s.setPte c l v e).vis = s.vis := rfl
@[simp] theorem State.setPte_eqx (s : State) (c l v e : Nat) : (s.setPte c l v e).eqx = s.eqx := rfl
@[simp] theorem State.setPte_heads (s : State) (c l v e : Nat) : (s.setPte c l v e).heads = s.heads := rfl
@[simp] theorem State.setPte_ports (s : State) (c l v e : Nat) : (s.setPte c l v e).ports = s.ports := rfl
@[simp] theorem State.setPte_fresh (s : State) (c l v e : Nat) : (s.setPte c l v e).fresh = s.fresh := rfl
@[simp] theorem State.setPte_data (s : State) (c l v e : Nat) : (s.setPte c l v e).data = s.data := rfl
@[simp] theorem State.setPte_rd (s : State) (c l v e : Nat) (g : Fld) (w : Nat) : (s.setPte c l v e).rd g w = s.rd g w := rfl

@[simp] theorem State.setFrame_pending (s : State) (n : Nat) (x : Frame) : (s.setFrame n x).pending = s.pending := rfl
@[simp] theorem State.setFrame_csr (s : State) (n : Nat) (x : Frame) : (s.setFrame n x).csr = s.csr := rfl
@[simp] theorem State.setFrame_mem (s : State) (n : Nat) (x : Frame) : (s.setFrame n x).mem = s.mem := rfl
@[simp] theorem State.setFrame_t (s : State) (n : Nat) (x : Frame) : (s.setFrame n x).t = s.t := rfl
@[simp] theorem State.setFrame_pw (s : State) (n : Nat) (x : Frame) : (s.setFrame n x).pw = s.pw := rfl
@[simp] theorem State.setFrame_img (s : State) (n : Nat) (x : Frame) : (s.setFrame n x).img = s.img := rfl
@[simp] theorem State.setFrame_brg (s : State) (n : Nat) (x : Frame) : (s.setFrame n x).brg = s.brg := rfl
@[simp] theorem State.setFrame_sec (s : State) (n : Nat) (x : Frame) : (s.setFrame n x).sec = s.sec := rfl
@[simp] theorem State.setFrame_tst (s : State) (n : Nat) (x : Frame) : (s.setFrame n x).tst = s.tst := rfl
@[simp] theorem State.setFrame_confReached (s : State) (n : Nat) (x : Frame) : (s.setFrame n x).confReached = s.confReached := rfl
@[simp] theorem State.setFrame_fn (s : State) (n : Nat) (x : Frame) : (s.setFrame n x).fn = s.fn := rfl
@[simp] theorem State.setFrame_msix (s : State) (n : Nat) (x : Frame) : (s.setFrame n x).msix = s.msix := rfl
@[simp] theorem State.setFrame_pba (s : State) (n : Nat) (x : Frame) : (s.setFrame n x).pba = s.pba := rfl
@[simp] theorem State.setFrame_sent (s : State) (n : Nat) (x : Frame) : (s.setFrame n x).sent = s.sent := rfl
@[simp] theorem State.setFrame_geyLatch (s : State) (n : Nat) (x : Frame) : (s.setFrame n x).geyLatch = s.geyLatch := rfl
@[simp] theorem State.setFrame_reqs (s : State) (n : Nat) (x : Frame) : (s.setFrame n x).reqs = s.reqs := rfl
@[simp] theorem State.setFrame_reqNext (s : State) (n : Nat) (x : Frame) : (s.setFrame n x).reqNext = s.reqNext := rfl
@[simp] theorem State.setFrame_move (s : State) (n : Nat) (x : Frame) : (s.setFrame n x).move = s.move := rfl
@[simp] theorem State.setFrame_foMoves (s : State) (n : Nat) (x : Frame) : (s.setFrame n x).foMoves = s.foMoves := rfl
@[simp] theorem State.setFrame_lastCpl (s : State) (n : Nat) (x : Frame) : (s.setFrame n x).lastCpl = s.lastCpl := rfl
@[simp] theorem State.setFrame_lastLink (s : State) (n : Nat) (x : Frame) : (s.setFrame n x).lastLink = s.lastLink := rfl
@[simp] theorem State.setFrame_queues (s : State) (n : Nat) (x : Frame) : (s.setFrame n x).queues = s.queues := rfl
@[simp] theorem State.setFrame_tensors (s : State) (n : Nat) (x : Frame) : (s.setFrame n x).tensors = s.tensors := rfl
@[simp] theorem State.setFrame_seqs (s : State) (n : Nat) (x : Frame) : (s.setFrame n x).seqs = s.seqs := rfl
@[simp] theorem State.setFrame_flights (s : State) (n : Nat) (x : Frame) : (s.setFrame n x).flights = s.flights := rfl
@[simp] theorem State.setFrame_vtime (s : State) (n : Nat) (x : Frame) : (s.setFrame n x).vtime = s.vtime := rfl
@[simp] theorem State.setFrame_wasReady (s : State) (n : Nat) (x : Frame) : (s.setFrame n x).wasReady = s.wasReady := rfl
@[simp] theorem State.setFrame_lastQ (s : State) (n : Nat) (x : Frame) : (s.setFrame n x).lastQ = s.lastQ := rfl
@[simp] theorem State.setFrame_readyAt (s : State) (n : Nat) (x : Frame) : (s.setFrame n x).readyAt = s.readyAt := rfl
@[simp] theorem State.setFrame_aged (s : State) (n : Nat) (x : Frame) : (s.setFrame n x).aged = s.aged := rfl
@[simp] theorem State.setFrame_stepNo (s : State) (n : Nat) (x : Frame) : (s.setFrame n x).stepNo = s.stepNo := rfl
@[simp] theorem State.setFrame_ceJoin (s : State) (n : Nat) (x : Frame) : (s.setFrame n x).ceJoin = s.ceJoin := rfl
@[simp] theorem State.setFrame_ceJoinG (s : State) (n : Nat) (x : Frame) : (s.setFrame n x).ceJoinG = s.ceJoinG := rfl
@[simp] theorem State.setFrame_epochUse (s : State) (n : Nat) (x : Frame) : (s.setFrame n x).epochUse = s.epochUse := rfl
@[simp] theorem State.setFrame_epochC1 (s : State) (n : Nat) (x : Frame) : (s.setFrame n x).epochC1 = s.epochC1 := rfl
@[simp] theorem State.setFrame_lastEpoch (s : State) (n : Nat) (x : Frame) : (s.setFrame n x).lastEpoch = s.lastEpoch := rfl
@[simp] theorem State.setFrame_acct (s : State) (n : Nat) (x : Frame) : (s.setFrame n x).acct = s.acct := rfl
@[simp] theorem State.setFrame_frac (s : State) (n : Nat) (x : Frame) : (s.setFrame n x).frac = s.frac := rfl
@[simp] theorem State.setFrame_energyK (s : State) (n : Nat) (x : Frame) : (s.setFrame n x).energyK = s.energyK := rfl
@[simp] theorem State.setFrame_calTime (s : State) (n : Nat) (x : Frame) : (s.setFrame n x).calTime = s.calTime := rfl
@[simp] theorem State.setFrame_calUj (s : State) (n : Nat) (x : Frame) : (s.setFrame n x).calUj = s.calUj := rfl
@[simp] theorem State.setFrame_resident (s : State) (n : Nat) (x : Frame) : (s.setFrame n x).resident = s.resident := rfl
@[simp] theorem State.setFrame_region (s : State) (n : Nat) (x : Frame) : (s.setFrame n x).region = s.region := rfl
@[simp] theorem State.setFrame_cores (s : State) (n : Nat) (x : Frame) : (s.setFrame n x).cores = s.cores := rfl
@[simp] theorem State.setFrame_emb (s : State) (n : Nat) (x : Frame) : (s.setFrame n x).emb = s.emb := rfl
@[simp] theorem State.setFrame_arrays (s : State) (n : Nat) (x : Frame) : (s.setFrame n x).arrays = s.arrays := rfl
@[simp] theorem State.setFrame_vis (s : State) (n : Nat) (x : Frame) : (s.setFrame n x).vis = s.vis := rfl
@[simp] theorem State.setFrame_eqx (s : State) (n : Nat) (x : Frame) : (s.setFrame n x).eqx = s.eqx := rfl
@[simp] theorem State.setFrame_heads (s : State) (n : Nat) (x : Frame) : (s.setFrame n x).heads = s.heads := rfl
@[simp] theorem State.setFrame_ports (s : State) (n : Nat) (x : Frame) : (s.setFrame n x).ports = s.ports := rfl
@[simp] theorem State.setFrame_fresh (s : State) (n : Nat) (x : Frame) : (s.setFrame n x).fresh = s.fresh := rfl
@[simp] theorem State.setFrame_data (s : State) (n : Nat) (x : Frame) : (s.setFrame n x).data = s.data := rfl
@[simp] theorem State.setFrame_rd (s : State) (n : Nat) (x : Frame) (g : Fld) (w : Nat) : (s.setFrame n x).rd g w = s.rd g w := rfl

@[simp] theorem State.charge_pending (s : State) (c : Nat) (n : Int) : (s.charge c n).pending = s.pending := rfl
@[simp] theorem State.charge_csr (s : State) (c : Nat) (n : Int) : (s.charge c n).csr = s.csr := rfl
@[simp] theorem State.charge_mem (s : State) (c : Nat) (n : Int) : (s.charge c n).mem = s.mem := rfl
@[simp] theorem State.charge_t (s : State) (c : Nat) (n : Int) : (s.charge c n).t = s.t := rfl
@[simp] theorem State.charge_pw (s : State) (c : Nat) (n : Int) : (s.charge c n).pw = s.pw := rfl
@[simp] theorem State.charge_img (s : State) (c : Nat) (n : Int) : (s.charge c n).img = s.img := rfl
@[simp] theorem State.charge_brg (s : State) (c : Nat) (n : Int) : (s.charge c n).brg = s.brg := rfl
@[simp] theorem State.charge_sec (s : State) (c : Nat) (n : Int) : (s.charge c n).sec = s.sec := rfl
@[simp] theorem State.charge_tst (s : State) (c : Nat) (n : Int) : (s.charge c n).tst = s.tst := rfl
@[simp] theorem State.charge_confReached (s : State) (c : Nat) (n : Int) : (s.charge c n).confReached = s.confReached := rfl
@[simp] theorem State.charge_fn (s : State) (c : Nat) (n : Int) : (s.charge c n).fn = s.fn := rfl
@[simp] theorem State.charge_msix (s : State) (c : Nat) (n : Int) : (s.charge c n).msix = s.msix := rfl
@[simp] theorem State.charge_pba (s : State) (c : Nat) (n : Int) : (s.charge c n).pba = s.pba := rfl
@[simp] theorem State.charge_sent (s : State) (c : Nat) (n : Int) : (s.charge c n).sent = s.sent := rfl
@[simp] theorem State.charge_geyLatch (s : State) (c : Nat) (n : Int) : (s.charge c n).geyLatch = s.geyLatch := rfl
@[simp] theorem State.charge_reqs (s : State) (c : Nat) (n : Int) : (s.charge c n).reqs = s.reqs := rfl
@[simp] theorem State.charge_reqNext (s : State) (c : Nat) (n : Int) : (s.charge c n).reqNext = s.reqNext := rfl
@[simp] theorem State.charge_move (s : State) (c : Nat) (n : Int) : (s.charge c n).move = s.move := rfl
@[simp] theorem State.charge_foMoves (s : State) (c : Nat) (n : Int) : (s.charge c n).foMoves = s.foMoves := rfl
@[simp] theorem State.charge_lastCpl (s : State) (c : Nat) (n : Int) : (s.charge c n).lastCpl = s.lastCpl := rfl
@[simp] theorem State.charge_lastLink (s : State) (c : Nat) (n : Int) : (s.charge c n).lastLink = s.lastLink := rfl
@[simp] theorem State.charge_queues (s : State) (c : Nat) (n : Int) : (s.charge c n).queues = s.queues := rfl
@[simp] theorem State.charge_tensors (s : State) (c : Nat) (n : Int) : (s.charge c n).tensors = s.tensors := rfl
@[simp] theorem State.charge_seqs (s : State) (c : Nat) (n : Int) : (s.charge c n).seqs = s.seqs := rfl
@[simp] theorem State.charge_flights (s : State) (c : Nat) (n : Int) : (s.charge c n).flights = s.flights := rfl
@[simp] theorem State.charge_vtime (s : State) (c : Nat) (n : Int) : (s.charge c n).vtime = s.vtime := rfl
@[simp] theorem State.charge_wasReady (s : State) (c : Nat) (n : Int) : (s.charge c n).wasReady = s.wasReady := rfl
@[simp] theorem State.charge_lastQ (s : State) (c : Nat) (n : Int) : (s.charge c n).lastQ = s.lastQ := rfl
@[simp] theorem State.charge_readyAt (s : State) (c : Nat) (n : Int) : (s.charge c n).readyAt = s.readyAt := rfl
@[simp] theorem State.charge_aged (s : State) (c : Nat) (n : Int) : (s.charge c n).aged = s.aged := rfl
@[simp] theorem State.charge_stepNo (s : State) (c : Nat) (n : Int) : (s.charge c n).stepNo = s.stepNo := rfl
@[simp] theorem State.charge_ceJoin (s : State) (c : Nat) (n : Int) : (s.charge c n).ceJoin = s.ceJoin := rfl
@[simp] theorem State.charge_ceJoinG (s : State) (c : Nat) (n : Int) : (s.charge c n).ceJoinG = s.ceJoinG := rfl
@[simp] theorem State.charge_epochUse (s : State) (c : Nat) (n : Int) : (s.charge c n).epochUse = s.epochUse := rfl
@[simp] theorem State.charge_epochC1 (s : State) (c : Nat) (n : Int) : (s.charge c n).epochC1 = s.epochC1 := rfl
@[simp] theorem State.charge_lastEpoch (s : State) (c : Nat) (n : Int) : (s.charge c n).lastEpoch = s.lastEpoch := rfl
@[simp] theorem State.charge_acct (s : State) (c : Nat) (n : Int) : (s.charge c n).acct = s.acct := rfl
@[simp] theorem State.charge_frac (s : State) (c : Nat) (n : Int) : (s.charge c n).frac = s.frac := rfl
@[simp] theorem State.charge_energyK (s : State) (c : Nat) (n : Int) : (s.charge c n).energyK = s.energyK := rfl
@[simp] theorem State.charge_calTime (s : State) (c : Nat) (n : Int) : (s.charge c n).calTime = s.calTime := rfl
@[simp] theorem State.charge_calUj (s : State) (c : Nat) (n : Int) : (s.charge c n).calUj = s.calUj := rfl
@[simp] theorem State.charge_resident (s : State) (c : Nat) (n : Int) : (s.charge c n).resident = s.resident := rfl
@[simp] theorem State.charge_region (s : State) (c : Nat) (n : Int) : (s.charge c n).region = s.region := rfl
@[simp] theorem State.charge_cores (s : State) (c : Nat) (n : Int) : (s.charge c n).cores = s.cores := rfl
@[simp] theorem State.charge_emb (s : State) (c : Nat) (n : Int) : (s.charge c n).emb = s.emb := rfl
@[simp] theorem State.charge_arrays (s : State) (c : Nat) (n : Int) : (s.charge c n).arrays = s.arrays := rfl
@[simp] theorem State.charge_vis (s : State) (c : Nat) (n : Int) : (s.charge c n).vis = s.vis := rfl
@[simp] theorem State.charge_eqx (s : State) (c : Nat) (n : Int) : (s.charge c n).eqx = s.eqx := rfl
@[simp] theorem State.charge_heads (s : State) (c : Nat) (n : Int) : (s.charge c n).heads = s.heads := rfl
@[simp] theorem State.charge_ports (s : State) (c : Nat) (n : Int) : (s.charge c n).ports = s.ports := rfl
@[simp] theorem State.charge_fresh (s : State) (c : Nat) (n : Int) : (s.charge c n).fresh = s.fresh := rfl
@[simp] theorem State.charge_data (s : State) (c : Nat) (n : Int) : (s.charge c n).data = s.data := rfl
@[simp] theorem State.charge_rd (s : State) (c : Nat) (n : Int) (g : Fld) (w : Nat) : (s.charge c n).rd g w = s.rd g w := rfl

@[simp] theorem State.setTensor_pending (s : State) (c h : Nat) (x : Tensor) : (s.setTensor c h x).pending = s.pending := rfl
@[simp] theorem State.setTensor_csr (s : State) (c h : Nat) (x : Tensor) : (s.setTensor c h x).csr = s.csr := rfl
@[simp] theorem State.setTensor_mem (s : State) (c h : Nat) (x : Tensor) : (s.setTensor c h x).mem = s.mem := rfl
@[simp] theorem State.setTensor_m (s : State) (c h : Nat) (x : Tensor) : (s.setTensor c h x).m = s.m := rfl
@[simp] theorem State.setTensor_t (s : State) (c h : Nat) (x : Tensor) : (s.setTensor c h x).t = s.t := rfl
@[simp] theorem State.setTensor_pw (s : State) (c h : Nat) (x : Tensor) : (s.setTensor c h x).pw = s.pw := rfl
@[simp] theorem State.setTensor_img (s : State) (c h : Nat) (x : Tensor) : (s.setTensor c h x).img = s.img := rfl
@[simp] theorem State.setTensor_brg (s : State) (c h : Nat) (x : Tensor) : (s.setTensor c h x).brg = s.brg := rfl
@[simp] theorem State.setTensor_sec (s : State) (c h : Nat) (x : Tensor) : (s.setTensor c h x).sec = s.sec := rfl
@[simp] theorem State.setTensor_tst (s : State) (c h : Nat) (x : Tensor) : (s.setTensor c h x).tst = s.tst := rfl
@[simp] theorem State.setTensor_confReached (s : State) (c h : Nat) (x : Tensor) : (s.setTensor c h x).confReached = s.confReached := rfl
@[simp] theorem State.setTensor_fn (s : State) (c h : Nat) (x : Tensor) : (s.setTensor c h x).fn = s.fn := rfl
@[simp] theorem State.setTensor_msix (s : State) (c h : Nat) (x : Tensor) : (s.setTensor c h x).msix = s.msix := rfl
@[simp] theorem State.setTensor_pba (s : State) (c h : Nat) (x : Tensor) : (s.setTensor c h x).pba = s.pba := rfl
@[simp] theorem State.setTensor_sent (s : State) (c h : Nat) (x : Tensor) : (s.setTensor c h x).sent = s.sent := rfl
@[simp] theorem State.setTensor_geyLatch (s : State) (c h : Nat) (x : Tensor) : (s.setTensor c h x).geyLatch = s.geyLatch := rfl
@[simp] theorem State.setTensor_reqs (s : State) (c h : Nat) (x : Tensor) : (s.setTensor c h x).reqs = s.reqs := rfl
@[simp] theorem State.setTensor_reqNext (s : State) (c h : Nat) (x : Tensor) : (s.setTensor c h x).reqNext = s.reqNext := rfl
@[simp] theorem State.setTensor_move (s : State) (c h : Nat) (x : Tensor) : (s.setTensor c h x).move = s.move := rfl
@[simp] theorem State.setTensor_foMoves (s : State) (c h : Nat) (x : Tensor) : (s.setTensor c h x).foMoves = s.foMoves := rfl
@[simp] theorem State.setTensor_lastCpl (s : State) (c h : Nat) (x : Tensor) : (s.setTensor c h x).lastCpl = s.lastCpl := rfl
@[simp] theorem State.setTensor_lastLink (s : State) (c h : Nat) (x : Tensor) : (s.setTensor c h x).lastLink = s.lastLink := rfl
@[simp] theorem State.setTensor_queues (s : State) (c h : Nat) (x : Tensor) : (s.setTensor c h x).queues = s.queues := rfl
@[simp] theorem State.setTensor_seqs (s : State) (c h : Nat) (x : Tensor) : (s.setTensor c h x).seqs = s.seqs := rfl
@[simp] theorem State.setTensor_flights (s : State) (c h : Nat) (x : Tensor) : (s.setTensor c h x).flights = s.flights := rfl
@[simp] theorem State.setTensor_vtime (s : State) (c h : Nat) (x : Tensor) : (s.setTensor c h x).vtime = s.vtime := rfl
@[simp] theorem State.setTensor_wasReady (s : State) (c h : Nat) (x : Tensor) : (s.setTensor c h x).wasReady = s.wasReady := rfl
@[simp] theorem State.setTensor_lastQ (s : State) (c h : Nat) (x : Tensor) : (s.setTensor c h x).lastQ = s.lastQ := rfl
@[simp] theorem State.setTensor_readyAt (s : State) (c h : Nat) (x : Tensor) : (s.setTensor c h x).readyAt = s.readyAt := rfl
@[simp] theorem State.setTensor_aged (s : State) (c h : Nat) (x : Tensor) : (s.setTensor c h x).aged = s.aged := rfl
@[simp] theorem State.setTensor_stepNo (s : State) (c h : Nat) (x : Tensor) : (s.setTensor c h x).stepNo = s.stepNo := rfl
@[simp] theorem State.setTensor_ceJoin (s : State) (c h : Nat) (x : Tensor) : (s.setTensor c h x).ceJoin = s.ceJoin := rfl
@[simp] theorem State.setTensor_ceJoinG (s : State) (c h : Nat) (x : Tensor) : (s.setTensor c h x).ceJoinG = s.ceJoinG := rfl
@[simp] theorem State.setTensor_epochUse (s : State) (c h : Nat) (x : Tensor) : (s.setTensor c h x).epochUse = s.epochUse := rfl
@[simp] theorem State.setTensor_epochC1 (s : State) (c h : Nat) (x : Tensor) : (s.setTensor c h x).epochC1 = s.epochC1 := rfl
@[simp] theorem State.setTensor_lastEpoch (s : State) (c h : Nat) (x : Tensor) : (s.setTensor c h x).lastEpoch = s.lastEpoch := rfl
@[simp] theorem State.setTensor_acct (s : State) (c h : Nat) (x : Tensor) : (s.setTensor c h x).acct = s.acct := rfl
@[simp] theorem State.setTensor_frac (s : State) (c h : Nat) (x : Tensor) : (s.setTensor c h x).frac = s.frac := rfl
@[simp] theorem State.setTensor_energyK (s : State) (c h : Nat) (x : Tensor) : (s.setTensor c h x).energyK = s.energyK := rfl
@[simp] theorem State.setTensor_calTime (s : State) (c h : Nat) (x : Tensor) : (s.setTensor c h x).calTime = s.calTime := rfl
@[simp] theorem State.setTensor_calUj (s : State) (c h : Nat) (x : Tensor) : (s.setTensor c h x).calUj = s.calUj := rfl
@[simp] theorem State.setTensor_resident (s : State) (c h : Nat) (x : Tensor) : (s.setTensor c h x).resident = s.resident := rfl
@[simp] theorem State.setTensor_region (s : State) (c h : Nat) (x : Tensor) : (s.setTensor c h x).region = s.region := rfl
@[simp] theorem State.setTensor_cores (s : State) (c h : Nat) (x : Tensor) : (s.setTensor c h x).cores = s.cores := rfl
@[simp] theorem State.setTensor_emb (s : State) (c h : Nat) (x : Tensor) : (s.setTensor c h x).emb = s.emb := rfl
@[simp] theorem State.setTensor_arrays (s : State) (c h : Nat) (x : Tensor) : (s.setTensor c h x).arrays = s.arrays := rfl
@[simp] theorem State.setTensor_vis (s : State) (c h : Nat) (x : Tensor) : (s.setTensor c h x).vis = s.vis := rfl
@[simp] theorem State.setTensor_eqx (s : State) (c h : Nat) (x : Tensor) : (s.setTensor c h x).eqx = s.eqx := rfl
@[simp] theorem State.setTensor_heads (s : State) (c h : Nat) (x : Tensor) : (s.setTensor c h x).heads = s.heads := rfl
@[simp] theorem State.setTensor_ports (s : State) (c h : Nat) (x : Tensor) : (s.setTensor c h x).ports = s.ports := rfl
@[simp] theorem State.setTensor_fresh (s : State) (c h : Nat) (x : Tensor) : (s.setTensor c h x).fresh = s.fresh := rfl
@[simp] theorem State.setTensor_data (s : State) (c h : Nat) (x : Tensor) : (s.setTensor c h x).data = s.data := rfl
@[simp] theorem State.setTensor_rd (s : State) (c h : Nat) (x : Tensor) (g : Fld) (w : Nat) : (s.setTensor c h x).rd g w = s.rd g w := rfl

@[simp] theorem State.setQueue_pending (s : State) (q : Nat) (x : Queue) : (s.setQueue q x).pending = s.pending := rfl
@[simp] theorem State.setQueue_csr (s : State) (q : Nat) (x : Queue) : (s.setQueue q x).csr = s.csr := rfl
@[simp] theorem State.setQueue_mem (s : State) (q : Nat) (x : Queue) : (s.setQueue q x).mem = s.mem := rfl
@[simp] theorem State.setQueue_m (s : State) (q : Nat) (x : Queue) : (s.setQueue q x).m = s.m := rfl
@[simp] theorem State.setQueue_t (s : State) (q : Nat) (x : Queue) : (s.setQueue q x).t = s.t := rfl
@[simp] theorem State.setQueue_pw (s : State) (q : Nat) (x : Queue) : (s.setQueue q x).pw = s.pw := rfl
@[simp] theorem State.setQueue_img (s : State) (q : Nat) (x : Queue) : (s.setQueue q x).img = s.img := rfl
@[simp] theorem State.setQueue_brg (s : State) (q : Nat) (x : Queue) : (s.setQueue q x).brg = s.brg := rfl
@[simp] theorem State.setQueue_sec (s : State) (q : Nat) (x : Queue) : (s.setQueue q x).sec = s.sec := rfl
@[simp] theorem State.setQueue_tst (s : State) (q : Nat) (x : Queue) : (s.setQueue q x).tst = s.tst := rfl
@[simp] theorem State.setQueue_confReached (s : State) (q : Nat) (x : Queue) : (s.setQueue q x).confReached = s.confReached := rfl
@[simp] theorem State.setQueue_fn (s : State) (q : Nat) (x : Queue) : (s.setQueue q x).fn = s.fn := rfl
@[simp] theorem State.setQueue_msix (s : State) (q : Nat) (x : Queue) : (s.setQueue q x).msix = s.msix := rfl
@[simp] theorem State.setQueue_pba (s : State) (q : Nat) (x : Queue) : (s.setQueue q x).pba = s.pba := rfl
@[simp] theorem State.setQueue_sent (s : State) (q : Nat) (x : Queue) : (s.setQueue q x).sent = s.sent := rfl
@[simp] theorem State.setQueue_geyLatch (s : State) (q : Nat) (x : Queue) : (s.setQueue q x).geyLatch = s.geyLatch := rfl
@[simp] theorem State.setQueue_reqs (s : State) (q : Nat) (x : Queue) : (s.setQueue q x).reqs = s.reqs := rfl
@[simp] theorem State.setQueue_reqNext (s : State) (q : Nat) (x : Queue) : (s.setQueue q x).reqNext = s.reqNext := rfl
@[simp] theorem State.setQueue_move (s : State) (q : Nat) (x : Queue) : (s.setQueue q x).move = s.move := rfl
@[simp] theorem State.setQueue_foMoves (s : State) (q : Nat) (x : Queue) : (s.setQueue q x).foMoves = s.foMoves := rfl
@[simp] theorem State.setQueue_lastCpl (s : State) (q : Nat) (x : Queue) : (s.setQueue q x).lastCpl = s.lastCpl := rfl
@[simp] theorem State.setQueue_lastLink (s : State) (q : Nat) (x : Queue) : (s.setQueue q x).lastLink = s.lastLink := rfl
@[simp] theorem State.setQueue_tensors (s : State) (q : Nat) (x : Queue) : (s.setQueue q x).tensors = s.tensors := rfl
@[simp] theorem State.setQueue_seqs (s : State) (q : Nat) (x : Queue) : (s.setQueue q x).seqs = s.seqs := rfl
@[simp] theorem State.setQueue_flights (s : State) (q : Nat) (x : Queue) : (s.setQueue q x).flights = s.flights := rfl
@[simp] theorem State.setQueue_vtime (s : State) (q : Nat) (x : Queue) : (s.setQueue q x).vtime = s.vtime := rfl
@[simp] theorem State.setQueue_wasReady (s : State) (q : Nat) (x : Queue) : (s.setQueue q x).wasReady = s.wasReady := rfl
@[simp] theorem State.setQueue_lastQ (s : State) (q : Nat) (x : Queue) : (s.setQueue q x).lastQ = s.lastQ := rfl
@[simp] theorem State.setQueue_readyAt (s : State) (q : Nat) (x : Queue) : (s.setQueue q x).readyAt = s.readyAt := rfl
@[simp] theorem State.setQueue_aged (s : State) (q : Nat) (x : Queue) : (s.setQueue q x).aged = s.aged := rfl
@[simp] theorem State.setQueue_stepNo (s : State) (q : Nat) (x : Queue) : (s.setQueue q x).stepNo = s.stepNo := rfl
@[simp] theorem State.setQueue_ceJoin (s : State) (q : Nat) (x : Queue) : (s.setQueue q x).ceJoin = s.ceJoin := rfl
@[simp] theorem State.setQueue_ceJoinG (s : State) (q : Nat) (x : Queue) : (s.setQueue q x).ceJoinG = s.ceJoinG := rfl
@[simp] theorem State.setQueue_epochUse (s : State) (q : Nat) (x : Queue) : (s.setQueue q x).epochUse = s.epochUse := rfl
@[simp] theorem State.setQueue_epochC1 (s : State) (q : Nat) (x : Queue) : (s.setQueue q x).epochC1 = s.epochC1 := rfl
@[simp] theorem State.setQueue_lastEpoch (s : State) (q : Nat) (x : Queue) : (s.setQueue q x).lastEpoch = s.lastEpoch := rfl
@[simp] theorem State.setQueue_acct (s : State) (q : Nat) (x : Queue) : (s.setQueue q x).acct = s.acct := rfl
@[simp] theorem State.setQueue_frac (s : State) (q : Nat) (x : Queue) : (s.setQueue q x).frac = s.frac := rfl
@[simp] theorem State.setQueue_energyK (s : State) (q : Nat) (x : Queue) : (s.setQueue q x).energyK = s.energyK := rfl
@[simp] theorem State.setQueue_calTime (s : State) (q : Nat) (x : Queue) : (s.setQueue q x).calTime = s.calTime := rfl
@[simp] theorem State.setQueue_calUj (s : State) (q : Nat) (x : Queue) : (s.setQueue q x).calUj = s.calUj := rfl
@[simp] theorem State.setQueue_resident (s : State) (q : Nat) (x : Queue) : (s.setQueue q x).resident = s.resident := rfl
@[simp] theorem State.setQueue_region (s : State) (q : Nat) (x : Queue) : (s.setQueue q x).region = s.region := rfl
@[simp] theorem State.setQueue_cores (s : State) (q : Nat) (x : Queue) : (s.setQueue q x).cores = s.cores := rfl
@[simp] theorem State.setQueue_emb (s : State) (q : Nat) (x : Queue) : (s.setQueue q x).emb = s.emb := rfl
@[simp] theorem State.setQueue_arrays (s : State) (q : Nat) (x : Queue) : (s.setQueue q x).arrays = s.arrays := rfl
@[simp] theorem State.setQueue_vis (s : State) (q : Nat) (x : Queue) : (s.setQueue q x).vis = s.vis := rfl
@[simp] theorem State.setQueue_eqx (s : State) (q : Nat) (x : Queue) : (s.setQueue q x).eqx = s.eqx := rfl
@[simp] theorem State.setQueue_heads (s : State) (q : Nat) (x : Queue) : (s.setQueue q x).heads = s.heads := rfl
@[simp] theorem State.setQueue_ports (s : State) (q : Nat) (x : Queue) : (s.setQueue q x).ports = s.ports := rfl
@[simp] theorem State.setQueue_fresh (s : State) (q : Nat) (x : Queue) : (s.setQueue q x).fresh = s.fresh := rfl
@[simp] theorem State.setQueue_data (s : State) (q : Nat) (x : Queue) : (s.setQueue q x).data = s.data := rfl
@[simp] theorem State.setQueue_rd (s : State) (q : Nat) (x : Queue) (g : Fld) (w : Nat) : (s.setQueue q x).rd g w = s.rd g w := rfl

@[simp] theorem State.setFlight_pending (s : State) (x : Flight) : (s.setFlight x).pending = s.pending := rfl
@[simp] theorem State.setFlight_csr (s : State) (x : Flight) : (s.setFlight x).csr = s.csr := rfl
@[simp] theorem State.setFlight_mem (s : State) (x : Flight) : (s.setFlight x).mem = s.mem := rfl
@[simp] theorem State.setFlight_m (s : State) (x : Flight) : (s.setFlight x).m = s.m := rfl
@[simp] theorem State.setFlight_t (s : State) (x : Flight) : (s.setFlight x).t = s.t := rfl
@[simp] theorem State.setFlight_pw (s : State) (x : Flight) : (s.setFlight x).pw = s.pw := rfl
@[simp] theorem State.setFlight_img (s : State) (x : Flight) : (s.setFlight x).img = s.img := rfl
@[simp] theorem State.setFlight_brg (s : State) (x : Flight) : (s.setFlight x).brg = s.brg := rfl
@[simp] theorem State.setFlight_sec (s : State) (x : Flight) : (s.setFlight x).sec = s.sec := rfl
@[simp] theorem State.setFlight_tst (s : State) (x : Flight) : (s.setFlight x).tst = s.tst := rfl
@[simp] theorem State.setFlight_confReached (s : State) (x : Flight) : (s.setFlight x).confReached = s.confReached := rfl
@[simp] theorem State.setFlight_fn (s : State) (x : Flight) : (s.setFlight x).fn = s.fn := rfl
@[simp] theorem State.setFlight_msix (s : State) (x : Flight) : (s.setFlight x).msix = s.msix := rfl
@[simp] theorem State.setFlight_pba (s : State) (x : Flight) : (s.setFlight x).pba = s.pba := rfl
@[simp] theorem State.setFlight_sent (s : State) (x : Flight) : (s.setFlight x).sent = s.sent := rfl
@[simp] theorem State.setFlight_geyLatch (s : State) (x : Flight) : (s.setFlight x).geyLatch = s.geyLatch := rfl
@[simp] theorem State.setFlight_reqs (s : State) (x : Flight) : (s.setFlight x).reqs = s.reqs := rfl
@[simp] theorem State.setFlight_reqNext (s : State) (x : Flight) : (s.setFlight x).reqNext = s.reqNext := rfl
@[simp] theorem State.setFlight_move (s : State) (x : Flight) : (s.setFlight x).move = s.move := rfl
@[simp] theorem State.setFlight_foMoves (s : State) (x : Flight) : (s.setFlight x).foMoves = s.foMoves := rfl
@[simp] theorem State.setFlight_lastCpl (s : State) (x : Flight) : (s.setFlight x).lastCpl = s.lastCpl := rfl
@[simp] theorem State.setFlight_lastLink (s : State) (x : Flight) : (s.setFlight x).lastLink = s.lastLink := rfl
@[simp] theorem State.setFlight_queues (s : State) (x : Flight) : (s.setFlight x).queues = s.queues := rfl
@[simp] theorem State.setFlight_tensors (s : State) (x : Flight) : (s.setFlight x).tensors = s.tensors := rfl
@[simp] theorem State.setFlight_seqs (s : State) (x : Flight) : (s.setFlight x).seqs = s.seqs := rfl
@[simp] theorem State.setFlight_vtime (s : State) (x : Flight) : (s.setFlight x).vtime = s.vtime := rfl
@[simp] theorem State.setFlight_wasReady (s : State) (x : Flight) : (s.setFlight x).wasReady = s.wasReady := rfl
@[simp] theorem State.setFlight_lastQ (s : State) (x : Flight) : (s.setFlight x).lastQ = s.lastQ := rfl
@[simp] theorem State.setFlight_readyAt (s : State) (x : Flight) : (s.setFlight x).readyAt = s.readyAt := rfl
@[simp] theorem State.setFlight_aged (s : State) (x : Flight) : (s.setFlight x).aged = s.aged := rfl
@[simp] theorem State.setFlight_stepNo (s : State) (x : Flight) : (s.setFlight x).stepNo = s.stepNo := rfl
@[simp] theorem State.setFlight_ceJoin (s : State) (x : Flight) : (s.setFlight x).ceJoin = s.ceJoin := rfl
@[simp] theorem State.setFlight_ceJoinG (s : State) (x : Flight) : (s.setFlight x).ceJoinG = s.ceJoinG := rfl
@[simp] theorem State.setFlight_epochUse (s : State) (x : Flight) : (s.setFlight x).epochUse = s.epochUse := rfl
@[simp] theorem State.setFlight_epochC1 (s : State) (x : Flight) : (s.setFlight x).epochC1 = s.epochC1 := rfl
@[simp] theorem State.setFlight_lastEpoch (s : State) (x : Flight) : (s.setFlight x).lastEpoch = s.lastEpoch := rfl
@[simp] theorem State.setFlight_acct (s : State) (x : Flight) : (s.setFlight x).acct = s.acct := rfl
@[simp] theorem State.setFlight_frac (s : State) (x : Flight) : (s.setFlight x).frac = s.frac := rfl
@[simp] theorem State.setFlight_energyK (s : State) (x : Flight) : (s.setFlight x).energyK = s.energyK := rfl
@[simp] theorem State.setFlight_calTime (s : State) (x : Flight) : (s.setFlight x).calTime = s.calTime := rfl
@[simp] theorem State.setFlight_calUj (s : State) (x : Flight) : (s.setFlight x).calUj = s.calUj := rfl
@[simp] theorem State.setFlight_resident (s : State) (x : Flight) : (s.setFlight x).resident = s.resident := rfl
@[simp] theorem State.setFlight_region (s : State) (x : Flight) : (s.setFlight x).region = s.region := rfl
@[simp] theorem State.setFlight_cores (s : State) (x : Flight) : (s.setFlight x).cores = s.cores := rfl
@[simp] theorem State.setFlight_emb (s : State) (x : Flight) : (s.setFlight x).emb = s.emb := rfl
@[simp] theorem State.setFlight_arrays (s : State) (x : Flight) : (s.setFlight x).arrays = s.arrays := rfl
@[simp] theorem State.setFlight_vis (s : State) (x : Flight) : (s.setFlight x).vis = s.vis := rfl
@[simp] theorem State.setFlight_eqx (s : State) (x : Flight) : (s.setFlight x).eqx = s.eqx := rfl
@[simp] theorem State.setFlight_heads (s : State) (x : Flight) : (s.setFlight x).heads = s.heads := rfl
@[simp] theorem State.setFlight_ports (s : State) (x : Flight) : (s.setFlight x).ports = s.ports := rfl
@[simp] theorem State.setFlight_fresh (s : State) (x : Flight) : (s.setFlight x).fresh = s.fresh := rfl
@[simp] theorem State.setFlight_data (s : State) (x : Flight) : (s.setFlight x).data = s.data := rfl
@[simp] theorem State.setFlight_rd (s : State) (x : Flight) (g : Fld) (w : Nat) : (s.setFlight x).rd g w = s.rd g w := rfl

@[simp] theorem State.dropFlight_pending (s : State) (x : Flight) : (s.dropFlight x).pending = s.pending := rfl
@[simp] theorem State.dropFlight_csr (s : State) (x : Flight) : (s.dropFlight x).csr = s.csr := rfl
@[simp] theorem State.dropFlight_mem (s : State) (x : Flight) : (s.dropFlight x).mem = s.mem := rfl
@[simp] theorem State.dropFlight_m (s : State) (x : Flight) : (s.dropFlight x).m = s.m := rfl
@[simp] theorem State.dropFlight_t (s : State) (x : Flight) : (s.dropFlight x).t = s.t := rfl
@[simp] theorem State.dropFlight_pw (s : State) (x : Flight) : (s.dropFlight x).pw = s.pw := rfl
@[simp] theorem State.dropFlight_img (s : State) (x : Flight) : (s.dropFlight x).img = s.img := rfl
@[simp] theorem State.dropFlight_brg (s : State) (x : Flight) : (s.dropFlight x).brg = s.brg := rfl
@[simp] theorem State.dropFlight_sec (s : State) (x : Flight) : (s.dropFlight x).sec = s.sec := rfl
@[simp] theorem State.dropFlight_tst (s : State) (x : Flight) : (s.dropFlight x).tst = s.tst := rfl
@[simp] theorem State.dropFlight_confReached (s : State) (x : Flight) : (s.dropFlight x).confReached = s.confReached := rfl
@[simp] theorem State.dropFlight_fn (s : State) (x : Flight) : (s.dropFlight x).fn = s.fn := rfl
@[simp] theorem State.dropFlight_msix (s : State) (x : Flight) : (s.dropFlight x).msix = s.msix := rfl
@[simp] theorem State.dropFlight_pba (s : State) (x : Flight) : (s.dropFlight x).pba = s.pba := rfl
@[simp] theorem State.dropFlight_sent (s : State) (x : Flight) : (s.dropFlight x).sent = s.sent := rfl
@[simp] theorem State.dropFlight_geyLatch (s : State) (x : Flight) : (s.dropFlight x).geyLatch = s.geyLatch := rfl
@[simp] theorem State.dropFlight_reqs (s : State) (x : Flight) : (s.dropFlight x).reqs = s.reqs := rfl
@[simp] theorem State.dropFlight_reqNext (s : State) (x : Flight) : (s.dropFlight x).reqNext = s.reqNext := rfl
@[simp] theorem State.dropFlight_move (s : State) (x : Flight) : (s.dropFlight x).move = s.move := rfl
@[simp] theorem State.dropFlight_foMoves (s : State) (x : Flight) : (s.dropFlight x).foMoves = s.foMoves := rfl
@[simp] theorem State.dropFlight_lastCpl (s : State) (x : Flight) : (s.dropFlight x).lastCpl = s.lastCpl := rfl
@[simp] theorem State.dropFlight_lastLink (s : State) (x : Flight) : (s.dropFlight x).lastLink = s.lastLink := rfl
@[simp] theorem State.dropFlight_queues (s : State) (x : Flight) : (s.dropFlight x).queues = s.queues := rfl
@[simp] theorem State.dropFlight_tensors (s : State) (x : Flight) : (s.dropFlight x).tensors = s.tensors := rfl
@[simp] theorem State.dropFlight_seqs (s : State) (x : Flight) : (s.dropFlight x).seqs = s.seqs := rfl
@[simp] theorem State.dropFlight_vtime (s : State) (x : Flight) : (s.dropFlight x).vtime = s.vtime := rfl
@[simp] theorem State.dropFlight_wasReady (s : State) (x : Flight) : (s.dropFlight x).wasReady = s.wasReady := rfl
@[simp] theorem State.dropFlight_lastQ (s : State) (x : Flight) : (s.dropFlight x).lastQ = s.lastQ := rfl
@[simp] theorem State.dropFlight_readyAt (s : State) (x : Flight) : (s.dropFlight x).readyAt = s.readyAt := rfl
@[simp] theorem State.dropFlight_aged (s : State) (x : Flight) : (s.dropFlight x).aged = s.aged := rfl
@[simp] theorem State.dropFlight_stepNo (s : State) (x : Flight) : (s.dropFlight x).stepNo = s.stepNo := rfl
@[simp] theorem State.dropFlight_ceJoin (s : State) (x : Flight) : (s.dropFlight x).ceJoin = s.ceJoin := rfl
@[simp] theorem State.dropFlight_ceJoinG (s : State) (x : Flight) : (s.dropFlight x).ceJoinG = s.ceJoinG := rfl
@[simp] theorem State.dropFlight_epochUse (s : State) (x : Flight) : (s.dropFlight x).epochUse = s.epochUse := rfl
@[simp] theorem State.dropFlight_epochC1 (s : State) (x : Flight) : (s.dropFlight x).epochC1 = s.epochC1 := rfl
@[simp] theorem State.dropFlight_lastEpoch (s : State) (x : Flight) : (s.dropFlight x).lastEpoch = s.lastEpoch := rfl
@[simp] theorem State.dropFlight_acct (s : State) (x : Flight) : (s.dropFlight x).acct = s.acct := rfl
@[simp] theorem State.dropFlight_frac (s : State) (x : Flight) : (s.dropFlight x).frac = s.frac := rfl
@[simp] theorem State.dropFlight_energyK (s : State) (x : Flight) : (s.dropFlight x).energyK = s.energyK := rfl
@[simp] theorem State.dropFlight_calTime (s : State) (x : Flight) : (s.dropFlight x).calTime = s.calTime := rfl
@[simp] theorem State.dropFlight_calUj (s : State) (x : Flight) : (s.dropFlight x).calUj = s.calUj := rfl
@[simp] theorem State.dropFlight_resident (s : State) (x : Flight) : (s.dropFlight x).resident = s.resident := rfl
@[simp] theorem State.dropFlight_region (s : State) (x : Flight) : (s.dropFlight x).region = s.region := rfl
@[simp] theorem State.dropFlight_cores (s : State) (x : Flight) : (s.dropFlight x).cores = s.cores := rfl
@[simp] theorem State.dropFlight_emb (s : State) (x : Flight) : (s.dropFlight x).emb = s.emb := rfl
@[simp] theorem State.dropFlight_arrays (s : State) (x : Flight) : (s.dropFlight x).arrays = s.arrays := rfl
@[simp] theorem State.dropFlight_vis (s : State) (x : Flight) : (s.dropFlight x).vis = s.vis := rfl
@[simp] theorem State.dropFlight_eqx (s : State) (x : Flight) : (s.dropFlight x).eqx = s.eqx := rfl
@[simp] theorem State.dropFlight_heads (s : State) (x : Flight) : (s.dropFlight x).heads = s.heads := rfl
@[simp] theorem State.dropFlight_ports (s : State) (x : Flight) : (s.dropFlight x).ports = s.ports := rfl
@[simp] theorem State.dropFlight_fresh (s : State) (x : Flight) : (s.dropFlight x).fresh = s.fresh := rfl
@[simp] theorem State.dropFlight_data (s : State) (x : Flight) : (s.dropFlight x).data = s.data := rfl
@[simp] theorem State.dropFlight_rd (s : State) (x : Flight) (g : Fld) (w : Nat) : (s.dropFlight x).rd g w = s.rd g w := rfl

@[simp] theorem State.setHead_pending (s : State) (h : Nat) (x : Head) : (s.setHead h x).pending = s.pending := rfl
@[simp] theorem State.setHead_csr (s : State) (h : Nat) (x : Head) : (s.setHead h x).csr = s.csr := rfl
@[simp] theorem State.setHead_mem (s : State) (h : Nat) (x : Head) : (s.setHead h x).mem = s.mem := rfl
@[simp] theorem State.setHead_m (s : State) (h : Nat) (x : Head) : (s.setHead h x).m = s.m := rfl
@[simp] theorem State.setHead_t (s : State) (h : Nat) (x : Head) : (s.setHead h x).t = s.t := rfl
@[simp] theorem State.setHead_pw (s : State) (h : Nat) (x : Head) : (s.setHead h x).pw = s.pw := rfl
@[simp] theorem State.setHead_img (s : State) (h : Nat) (x : Head) : (s.setHead h x).img = s.img := rfl
@[simp] theorem State.setHead_brg (s : State) (h : Nat) (x : Head) : (s.setHead h x).brg = s.brg := rfl
@[simp] theorem State.setHead_sec (s : State) (h : Nat) (x : Head) : (s.setHead h x).sec = s.sec := rfl
@[simp] theorem State.setHead_tst (s : State) (h : Nat) (x : Head) : (s.setHead h x).tst = s.tst := rfl
@[simp] theorem State.setHead_confReached (s : State) (h : Nat) (x : Head) : (s.setHead h x).confReached = s.confReached := rfl
@[simp] theorem State.setHead_fn (s : State) (h : Nat) (x : Head) : (s.setHead h x).fn = s.fn := rfl
@[simp] theorem State.setHead_msix (s : State) (h : Nat) (x : Head) : (s.setHead h x).msix = s.msix := rfl
@[simp] theorem State.setHead_pba (s : State) (h : Nat) (x : Head) : (s.setHead h x).pba = s.pba := rfl
@[simp] theorem State.setHead_sent (s : State) (h : Nat) (x : Head) : (s.setHead h x).sent = s.sent := rfl
@[simp] theorem State.setHead_geyLatch (s : State) (h : Nat) (x : Head) : (s.setHead h x).geyLatch = s.geyLatch := rfl
@[simp] theorem State.setHead_reqs (s : State) (h : Nat) (x : Head) : (s.setHead h x).reqs = s.reqs := rfl
@[simp] theorem State.setHead_reqNext (s : State) (h : Nat) (x : Head) : (s.setHead h x).reqNext = s.reqNext := rfl
@[simp] theorem State.setHead_move (s : State) (h : Nat) (x : Head) : (s.setHead h x).move = s.move := rfl
@[simp] theorem State.setHead_foMoves (s : State) (h : Nat) (x : Head) : (s.setHead h x).foMoves = s.foMoves := rfl
@[simp] theorem State.setHead_lastCpl (s : State) (h : Nat) (x : Head) : (s.setHead h x).lastCpl = s.lastCpl := rfl
@[simp] theorem State.setHead_lastLink (s : State) (h : Nat) (x : Head) : (s.setHead h x).lastLink = s.lastLink := rfl
@[simp] theorem State.setHead_queues (s : State) (h : Nat) (x : Head) : (s.setHead h x).queues = s.queues := rfl
@[simp] theorem State.setHead_tensors (s : State) (h : Nat) (x : Head) : (s.setHead h x).tensors = s.tensors := rfl
@[simp] theorem State.setHead_seqs (s : State) (h : Nat) (x : Head) : (s.setHead h x).seqs = s.seqs := rfl
@[simp] theorem State.setHead_flights (s : State) (h : Nat) (x : Head) : (s.setHead h x).flights = s.flights := rfl
@[simp] theorem State.setHead_vtime (s : State) (h : Nat) (x : Head) : (s.setHead h x).vtime = s.vtime := rfl
@[simp] theorem State.setHead_wasReady (s : State) (h : Nat) (x : Head) : (s.setHead h x).wasReady = s.wasReady := rfl
@[simp] theorem State.setHead_lastQ (s : State) (h : Nat) (x : Head) : (s.setHead h x).lastQ = s.lastQ := rfl
@[simp] theorem State.setHead_readyAt (s : State) (h : Nat) (x : Head) : (s.setHead h x).readyAt = s.readyAt := rfl
@[simp] theorem State.setHead_aged (s : State) (h : Nat) (x : Head) : (s.setHead h x).aged = s.aged := rfl
@[simp] theorem State.setHead_stepNo (s : State) (h : Nat) (x : Head) : (s.setHead h x).stepNo = s.stepNo := rfl
@[simp] theorem State.setHead_ceJoin (s : State) (h : Nat) (x : Head) : (s.setHead h x).ceJoin = s.ceJoin := rfl
@[simp] theorem State.setHead_ceJoinG (s : State) (h : Nat) (x : Head) : (s.setHead h x).ceJoinG = s.ceJoinG := rfl
@[simp] theorem State.setHead_epochUse (s : State) (h : Nat) (x : Head) : (s.setHead h x).epochUse = s.epochUse := rfl
@[simp] theorem State.setHead_epochC1 (s : State) (h : Nat) (x : Head) : (s.setHead h x).epochC1 = s.epochC1 := rfl
@[simp] theorem State.setHead_lastEpoch (s : State) (h : Nat) (x : Head) : (s.setHead h x).lastEpoch = s.lastEpoch := rfl
@[simp] theorem State.setHead_acct (s : State) (h : Nat) (x : Head) : (s.setHead h x).acct = s.acct := rfl
@[simp] theorem State.setHead_frac (s : State) (h : Nat) (x : Head) : (s.setHead h x).frac = s.frac := rfl
@[simp] theorem State.setHead_energyK (s : State) (h : Nat) (x : Head) : (s.setHead h x).energyK = s.energyK := rfl
@[simp] theorem State.setHead_calTime (s : State) (h : Nat) (x : Head) : (s.setHead h x).calTime = s.calTime := rfl
@[simp] theorem State.setHead_calUj (s : State) (h : Nat) (x : Head) : (s.setHead h x).calUj = s.calUj := rfl
@[simp] theorem State.setHead_resident (s : State) (h : Nat) (x : Head) : (s.setHead h x).resident = s.resident := rfl
@[simp] theorem State.setHead_region (s : State) (h : Nat) (x : Head) : (s.setHead h x).region = s.region := rfl
@[simp] theorem State.setHead_cores (s : State) (h : Nat) (x : Head) : (s.setHead h x).cores = s.cores := rfl
@[simp] theorem State.setHead_emb (s : State) (h : Nat) (x : Head) : (s.setHead h x).emb = s.emb := rfl
@[simp] theorem State.setHead_arrays (s : State) (h : Nat) (x : Head) : (s.setHead h x).arrays = s.arrays := rfl
@[simp] theorem State.setHead_vis (s : State) (h : Nat) (x : Head) : (s.setHead h x).vis = s.vis := rfl
@[simp] theorem State.setHead_eqx (s : State) (h : Nat) (x : Head) : (s.setHead h x).eqx = s.eqx := rfl
@[simp] theorem State.setHead_ports (s : State) (h : Nat) (x : Head) : (s.setHead h x).ports = s.ports := rfl
@[simp] theorem State.setHead_fresh (s : State) (h : Nat) (x : Head) : (s.setHead h x).fresh = s.fresh := rfl
@[simp] theorem State.setHead_data (s : State) (h : Nat) (x : Head) : (s.setHead h x).data = s.data := rfl
@[simp] theorem State.setHead_rd (s : State) (h : Nat) (x : Head) (g : Fld) (w : Nat) : (s.setHead h x).rd g w = s.rd g w := rfl

@[simp] theorem State.setCore_pending (s : State) (c : Nat) (x : Core) : (s.setCore c x).pending = s.pending := rfl
@[simp] theorem State.setCore_csr (s : State) (c : Nat) (x : Core) : (s.setCore c x).csr = s.csr := rfl
@[simp] theorem State.setCore_mem (s : State) (c : Nat) (x : Core) : (s.setCore c x).mem = s.mem := rfl
@[simp] theorem State.setCore_m (s : State) (c : Nat) (x : Core) : (s.setCore c x).m = s.m := rfl
@[simp] theorem State.setCore_t (s : State) (c : Nat) (x : Core) : (s.setCore c x).t = s.t := rfl
@[simp] theorem State.setCore_pw (s : State) (c : Nat) (x : Core) : (s.setCore c x).pw = s.pw := rfl
@[simp] theorem State.setCore_img (s : State) (c : Nat) (x : Core) : (s.setCore c x).img = s.img := rfl
@[simp] theorem State.setCore_brg (s : State) (c : Nat) (x : Core) : (s.setCore c x).brg = s.brg := rfl
@[simp] theorem State.setCore_sec (s : State) (c : Nat) (x : Core) : (s.setCore c x).sec = s.sec := rfl
@[simp] theorem State.setCore_tst (s : State) (c : Nat) (x : Core) : (s.setCore c x).tst = s.tst := rfl
@[simp] theorem State.setCore_confReached (s : State) (c : Nat) (x : Core) : (s.setCore c x).confReached = s.confReached := rfl
@[simp] theorem State.setCore_fn (s : State) (c : Nat) (x : Core) : (s.setCore c x).fn = s.fn := rfl
@[simp] theorem State.setCore_msix (s : State) (c : Nat) (x : Core) : (s.setCore c x).msix = s.msix := rfl
@[simp] theorem State.setCore_pba (s : State) (c : Nat) (x : Core) : (s.setCore c x).pba = s.pba := rfl
@[simp] theorem State.setCore_sent (s : State) (c : Nat) (x : Core) : (s.setCore c x).sent = s.sent := rfl
@[simp] theorem State.setCore_geyLatch (s : State) (c : Nat) (x : Core) : (s.setCore c x).geyLatch = s.geyLatch := rfl
@[simp] theorem State.setCore_reqs (s : State) (c : Nat) (x : Core) : (s.setCore c x).reqs = s.reqs := rfl
@[simp] theorem State.setCore_reqNext (s : State) (c : Nat) (x : Core) : (s.setCore c x).reqNext = s.reqNext := rfl
@[simp] theorem State.setCore_move (s : State) (c : Nat) (x : Core) : (s.setCore c x).move = s.move := rfl
@[simp] theorem State.setCore_foMoves (s : State) (c : Nat) (x : Core) : (s.setCore c x).foMoves = s.foMoves := rfl
@[simp] theorem State.setCore_lastCpl (s : State) (c : Nat) (x : Core) : (s.setCore c x).lastCpl = s.lastCpl := rfl
@[simp] theorem State.setCore_lastLink (s : State) (c : Nat) (x : Core) : (s.setCore c x).lastLink = s.lastLink := rfl
@[simp] theorem State.setCore_queues (s : State) (c : Nat) (x : Core) : (s.setCore c x).queues = s.queues := rfl
@[simp] theorem State.setCore_tensors (s : State) (c : Nat) (x : Core) : (s.setCore c x).tensors = s.tensors := rfl
@[simp] theorem State.setCore_seqs (s : State) (c : Nat) (x : Core) : (s.setCore c x).seqs = s.seqs := rfl
@[simp] theorem State.setCore_flights (s : State) (c : Nat) (x : Core) : (s.setCore c x).flights = s.flights := rfl
@[simp] theorem State.setCore_vtime (s : State) (c : Nat) (x : Core) : (s.setCore c x).vtime = s.vtime := rfl
@[simp] theorem State.setCore_wasReady (s : State) (c : Nat) (x : Core) : (s.setCore c x).wasReady = s.wasReady := rfl
@[simp] theorem State.setCore_lastQ (s : State) (c : Nat) (x : Core) : (s.setCore c x).lastQ = s.lastQ := rfl
@[simp] theorem State.setCore_readyAt (s : State) (c : Nat) (x : Core) : (s.setCore c x).readyAt = s.readyAt := rfl
@[simp] theorem State.setCore_aged (s : State) (c : Nat) (x : Core) : (s.setCore c x).aged = s.aged := rfl
@[simp] theorem State.setCore_stepNo (s : State) (c : Nat) (x : Core) : (s.setCore c x).stepNo = s.stepNo := rfl
@[simp] theorem State.setCore_ceJoin (s : State) (c : Nat) (x : Core) : (s.setCore c x).ceJoin = s.ceJoin := rfl
@[simp] theorem State.setCore_ceJoinG (s : State) (c : Nat) (x : Core) : (s.setCore c x).ceJoinG = s.ceJoinG := rfl
@[simp] theorem State.setCore_epochUse (s : State) (c : Nat) (x : Core) : (s.setCore c x).epochUse = s.epochUse := rfl
@[simp] theorem State.setCore_epochC1 (s : State) (c : Nat) (x : Core) : (s.setCore c x).epochC1 = s.epochC1 := rfl
@[simp] theorem State.setCore_lastEpoch (s : State) (c : Nat) (x : Core) : (s.setCore c x).lastEpoch = s.lastEpoch := rfl
@[simp] theorem State.setCore_acct (s : State) (c : Nat) (x : Core) : (s.setCore c x).acct = s.acct := rfl
@[simp] theorem State.setCore_frac (s : State) (c : Nat) (x : Core) : (s.setCore c x).frac = s.frac := rfl
@[simp] theorem State.setCore_energyK (s : State) (c : Nat) (x : Core) : (s.setCore c x).energyK = s.energyK := rfl
@[simp] theorem State.setCore_calTime (s : State) (c : Nat) (x : Core) : (s.setCore c x).calTime = s.calTime := rfl
@[simp] theorem State.setCore_calUj (s : State) (c : Nat) (x : Core) : (s.setCore c x).calUj = s.calUj := rfl
@[simp] theorem State.setCore_resident (s : State) (c : Nat) (x : Core) : (s.setCore c x).resident = s.resident := rfl
@[simp] theorem State.setCore_region (s : State) (c : Nat) (x : Core) : (s.setCore c x).region = s.region := rfl
@[simp] theorem State.setCore_emb (s : State) (c : Nat) (x : Core) : (s.setCore c x).emb = s.emb := rfl
@[simp] theorem State.setCore_arrays (s : State) (c : Nat) (x : Core) : (s.setCore c x).arrays = s.arrays := rfl
@[simp] theorem State.setCore_vis (s : State) (c : Nat) (x : Core) : (s.setCore c x).vis = s.vis := rfl
@[simp] theorem State.setCore_eqx (s : State) (c : Nat) (x : Core) : (s.setCore c x).eqx = s.eqx := rfl
@[simp] theorem State.setCore_heads (s : State) (c : Nat) (x : Core) : (s.setCore c x).heads = s.heads := rfl
@[simp] theorem State.setCore_ports (s : State) (c : Nat) (x : Core) : (s.setCore c x).ports = s.ports := rfl
@[simp] theorem State.setCore_fresh (s : State) (c : Nat) (x : Core) : (s.setCore c x).fresh = s.fresh := rfl
@[simp] theorem State.setCore_data (s : State) (c : Nat) (x : Core) : (s.setCore c x).data = s.data := rfl
@[simp] theorem State.setCore_rd (s : State) (c : Nat) (x : Core) (g : Fld) (w : Nat) : (s.setCore c x).rd g w = s.rd g w := rfl

end Sys2Proof.Machine
end

