-- ==== Sys2Proof/Laws/Geyser.lean ====
section
/-! SUPPORT. What the interrupt operations leave unchanged: an event moves the pending bits, the groups and the
targets of Geyser and the messages that go out, and nothing else. -/

namespace Sys2Proof.Machine

theorem OnlyRegsIrq.refl (s : State) : OnlyRegsIrq s s [] := ⟨rfl, fun _ _ _ _ => rfl⟩

theorem OnlyRegsIrq.trans {s t u : State} (h : OnlyRegsIrq s t []) (k : OnlyRegsIrq t u []) : OnlyRegsIrq s u [] := by
  refine ⟨?_, fun f n h1 h2 => (k.2 f n h1 h2).trans (h.2 f n h1 h2)⟩
  have a := h.1
  have b := k.1
  rw [← a, ← b]

theorem OnlyRegsIrq.wr (s : State) (f : Fld) (u v : Nat) (hf : f ∈ irqFields) : OnlyRegsIrq s (s.wr f u v) [] := by
  refine ⟨rfl, fun g w _ hg => ?_⟩
  rw [State.rd_wr, if_neg]
  rintro ⟨rfl, -⟩
  exact hg hf

theorem OnlyRegsIrq.inc (s : State) (f : Fld) (u n : Nat) (hf : f ∈ irqFields) : OnlyRegsIrq s (s.inc f u n) [] :=
  OnlyRegsIrq.wr s f u _ hf

theorem OnlyRegsIrq.each {α : Type} (g : State → α → State) (hg : ∀ s x, OnlyRegsIrq s (g s x) []) (l : List α) (s : State) :
    OnlyRegsIrq s (s.each l g) [] := by
  induction l generalizing s with
  | nil => exact .refl s
  | cons x l ih => exact (hg s x).trans (ih (g s x))

theorem OnlyRegsIrq.ite {c : Prop} [Decidable c] {s a b : State} (ha : OnlyRegsIrq s a []) (hb : OnlyRegsIrq s b []) :
    OnlyRegsIrq s (if c then a else b) [] := by
  split <;> assumption

theorem setPend_frame (s : State) (n : Nat) : OnlyRegsIrq s (s.setPend n) [] := .wr s _ _ _ (by decide)

theorem clrPend_frame (s : State) (n : Nat) : OnlyRegsIrq s (s.clrPend n) [] := .wr s _ _ _ (by decide)

theorem grpEvent_frame (s : State) (n : Nat) : OnlyRegsIrq s (s.grpEvent n) [] := by
  unfold State.grpEvent
  refine .ite (.refl s) (.ite ?_ (.inc s _ _ _ (by decide)))
  exact ((OnlyRegsIrq.wr s _ _ _ (by decide)).trans (.wr _ _ _ _ (by decide))).trans (.wr _ _ _ _ (by decide))

theorem srcEvent_frame (s : State) (n : Nat) : OnlyRegsIrq s (s.srcEvent n) [] := by
  unfold State.srcEvent
  exact .ite (.refl s) ((setPend_frame s n).trans (grpEvent_frame _ n))

theorem srcClear_frame (s : State) (n : Nat) : OnlyRegsIrq s (s.srcClear n) [] := by
  unfold State.srcClear
  refine .ite ((clrPend_frame s n).trans ?_) (.refl s)
  exact .ite (.wr _ _ _ _ (by decide)) (.refl _)

theorem tgtComplete_frame (s : State) (x l : Nat) : OnlyRegsIrq s (s.tgtComplete x l) [] := by
  unfold State.tgtComplete
  refine (OnlyRegsIrq.wr s _ _ _ (by decide)).trans (.each _ (fun s n => ?_) _ _)
  refine OnlyRegsIrq.trans (t := s.wr .GEY_SRC_HELD n 0) (.wr s _ _ _ (by decide)) ?_
  exact .ite ((setPend_frame _ n).trans (grpEvent_frame _ n)) (.refl _)

theorem grpSettle_frame (s : State) : OnlyRegsIrq s s.grpSettle [] := by
  unfold State.grpSettle
  refine .each _ (fun s g => ?_) _ _
  refine .ite (((OnlyRegsIrq.wr s _ _ _ (by decide)).trans (.wr _ _ _ _ (by decide))).trans (.wr _ _ _ _ (by decide))) ?_
  exact .ite (.wr _ _ _ _ (by decide)) (.refl _)

theorem take_frame (s : State) (x : Nat) (l : List Nat) : OnlyRegsIrq s (s.take x l) [] := by
  unfold State.take
  split
  · exact .inc _ _ _ _ (by decide)
  · exact .wr _ _ _ _ (by decide)

theorem sendVec_frame (s : State) (x v : Nat) (l : List Nat) : OnlyRegsIrq s (s.sendVec x v l) [] := by
  unfold State.sendVec
  exact (take_frame s x l).trans ⟨rfl, fun _ _ _ _ => rfl⟩

theorem sendAll_frame (s : State) (x n : Nat) : OnlyRegsIrq s (s.sendAll x n) [] := by
  induction n generalizing s with
  | zero => exact .refl s
  | succ n ih =>
    unfold State.sendAll
    simp only
    split
    · exact .refl s
    · exact (sendVec_frame s x _ _).trans (ih _)

theorem pbaSettle_frame (s : State) (x : Nat) : OnlyRegsIrq s (s.pbaSettle x) [] := by
  unfold State.pbaSettle
  refine OnlyRegsIrq.each _ (fun s v => ?_) _ _
  exact ⟨rfl, fun _ _ _ _ => rfl⟩

theorem deliver_frame (s : State) : OnlyRegsIrq s s.deliver [] := by
  unfold State.deliver
  exact (grpSettle_frame s).trans (.each _ (fun s x => (sendAll_frame s x 17).trans (pbaSettle_frame _ x)) _ _)

theorem geyEdge_frame (s : State) (a b : List Nat) (c : List (Nat × Nat)) : OnlyRegsIrq s (s.geyEdge a b c) [] := by
  unfold State.geyEdge
  split
  · exact ⟨rfl, fun _ _ _ _ => rfl⟩
  · have h1 := OnlyRegsIrq.each State.srcEvent srcEvent_frame a s
    have h2 := OnlyRegsIrq.each State.srcClear srcClear_frame b (s.each a State.srcEvent)
    refine (h1.trans h2).trans (OnlyRegsIrq.trans (OnlyRegsIrq.each _ (fun s xl => ?_) c _) (deliver_frame _))
    exact tgtComplete_frame s xl.1 xl.2

/-- Raising a source moves nothing outside Geyser. -/
theorem fire_frame (s : State) (n : Nat) : OnlyRegsIrq s (s.fire n) [] := geyEdge_frame s [n] [] []

/-- Raising a source leaves every register field outside Geyser. -/
theorem fire_rd (s : State) (n : Nat) (f : Fld) (u : Nat) (h : f ∉ irqFields) : (s.fire n).rd f u = s.rd f u :=
  (fire_frame s n).2 f u (by simp) h

/-! ## Pending bits -/

/-- The pending bits are the same in two states. -/
def SamePend (s t : State) : Prop := ∀ w, t.rd .GEY_PEND_PEND w = s.rd .GEY_PEND_PEND w

theorem SamePend.refl (s : State) : SamePend s s := fun _ => rfl

theorem SamePend.trans {s t u : State} (h : SamePend s t) (k : SamePend t u) : SamePend s u :=
  fun w => (k w).trans (h w)

theorem SamePend.wr (s : State) (f : Fld) (u v : Nat) (hf : f ≠ .GEY_PEND_PEND) : SamePend s (s.wr f u v) := by
  intro w
  rw [State.rd_wr, if_neg]
  exact fun h => hf h.1.symm

theorem SamePend.each {α : Type} (g : State → α → State) (hg : ∀ s x, SamePend s (g s x)) (l : List α) (s : State) :
    SamePend s (s.each l g) := by
  induction l generalizing s with
  | nil => exact .refl s
  | cons x l ih => exact (hg s x).trans (ih (g s x))

theorem SamePend.ite {c : Prop} [Decidable c] {s a b : State} (ha : SamePend s a) (hb : SamePend s b) :
    SamePend s (if c then a else b) := by
  split <;> assumption

theorem grpEvent_pend (s : State) (n : Nat) : SamePend s (s.grpEvent n) := by
  unfold State.grpEvent
  refine .ite (.refl s) (.ite ?_ (.wr s _ _ _ (by decide)))
  exact ((SamePend.wr s _ _ _ (by decide)).trans (.wr _ _ _ _ (by decide))).trans (.wr _ _ _ _ (by decide))

theorem grpSettle_pend (s : State) : SamePend s s.grpSettle := by
  unfold State.grpSettle
  refine .each _ (fun s g => ?_) _ _
  refine .ite (((SamePend.wr s _ _ _ (by decide)).trans (.wr _ _ _ _ (by decide))).trans (.wr _ _ _ _ (by decide))) ?_
  exact .ite (.wr _ _ _ _ (by decide)) (.refl _)

theorem sendAll_pend (s : State) (x n : Nat) : SamePend s (s.sendAll x n) := by
  induction n generalizing s with
  | zero => exact .refl s
  | succ n ih =>
    unfold State.sendAll
    simp only
    split
    · exact .refl s
    · refine SamePend.trans ?_ (ih _)
      unfold State.sendVec State.take
      dsimp only
      split
      · exact fun w => SamePend.wr s .GEY_TGT_SPURIOUS _ _ (by decide) w
      · exact fun w => SamePend.wr s .GEY_TGT_ACTIVE _ _ (by decide) w

theorem pbaSettle_pend (s : State) (x : Nat) : SamePend s (s.pbaSettle x) := by
  unfold State.pbaSettle
  refine SamePend.each _ (fun s v => ?_) _ _
  exact fun _ => rfl

theorem deliver_pend (s : State) : SamePend s s.deliver := by
  unfold State.deliver
  exact (grpSettle_pend s).trans (.each _ (fun s x => (sendAll_pend s x 17).trans (pbaSettle_pend _ x)) _ _)

theorem testBit_setBit (x i : Nat) : (setBit x i).testBit i = true := by
  unfold setBit
  split
  · assumption
  · rename_i h
    have h0 : x.testBit i = false := by simpa using h
    rw [Nat.add_comm, Nat.testBit_two_pow_add_eq, h0]
    rfl

theorem setPend_pend (s : State) (n : Nat) : (s.setPend n).pend n = true := by
  unfold State.setPend State.pend
  rw [State.rd_wr_same]
  show ((setBit (s.rd .GEY_PEND_PEND (n / 64)) (n % 64)) % 2 ^ 64).testBit (n % 64) = true
  rw [Nat.testBit_mod_two_pow, testBit_setBit]
  simp [Nat.mod_lt]

/-- Raising an enabled source makes it pending. -/
theorem fire_raised (s : State) (n : Nat) : Raised s (s.fire n) n := by
  intro h0 h1 h2
  unfold State.fire State.geyEdge
  rw [if_neg (by simp [h0])]
  have e : s.each [n] State.srcEvent = (s.setPend n).grpEvent n := by
    show s.srcEvent n = _
    unfold State.srcEvent
    simp [h1, h2]
  show (State.deliver (s.each [n] State.srcEvent)).pend n = true
  unfold State.pend
  rw [deliver_pend, e, grpEvent_pend]
  exact setPend_pend s n

end Sys2Proof.Machine
end

