-- ==== Sys2Proof/Laws/Invariant.lean ====
section
/-! SUPPORT. What the shared operations keep: the commands that wait, the canonical form of memory and the form of
the register file. -/

namespace Sys2Proof.Machine

/-! ## The register file -/

/-- Every field resets to a value it can hold. -/
theorem Fld.resetVal_lt (f : Fld) (u : Nat) : f.resetVal u < 2 ^ f.info.width := by
  unfold Fld.resetVal
  split
  all_goals first
    | exact Fld.info_reset_lt _
    | decide
    | (split <;> decide)
    | (rw [show Fld.GEY_SRC_TARGET.info.width = 10 from rfl]; split <;> omega)
    | (rw [show Fld.GEY_SRC_VECTOR.info.width = 6 from rfl]; split <;> omega)

/-- With the invariant, every register field reads within its width. -/
theorem State.Inv.rd_lt {s : State} (h : s.Inv) (f : Fld) (u : Nat) : s.rd f u < 2 ^ f.info.width := by
  have key : ∀ m : Sparse Nat, (∀ v, (f.key u, v) ∈ m → v < 2 ^ f.info.width) →
      Sparse.get (f.resetVal u) m (f.key u) < 2 ^ f.info.width := by
    intro m
    induction m with
    | nil => intro _; exact f.resetVal_lt u
    | cons e m ih =>
      intro hm
      obtain ⟨k, v⟩ := e
      by_cases hk : k = f.key u
      · subst hk; simpa [Sparse.get] using hm v (by simp)
      · simpa [Sparse.get, hk] using ih fun v hv => hm v (by simp [hv])
  exact key _ fun v hv => (h.2.2 f u v hv).1

/-- A key's place in a list with strictly rising keys. -/
theorem Sparse.mem_put {α : Type} {m : Sparse α} {k : Nat} {v : α} {x : Nat × α} (h : x ∈ m.put k v) :
    x = (k, v) ∨ (x ∈ m) := by
  induction m with
  | nil => simpa [Sparse.put] using h
  | cons e m ih =>
    obtain ⟨k', v'⟩ := e
    unfold Sparse.put at h
    split at h
    · simpa using h
    · split at h
      · simp only [List.mem_cons] at h ⊢
        tauto
      · simp only [List.mem_cons] at h ⊢
        rcases h with h | h
        · tauto
        · rcases ih h with h | h <;> tauto

theorem Sparse.pairwise_put {α : Type} {m : Sparse α} (hm : m.Pairwise fun a b => a.1 < b.1) (k : Nat) (v : α) :
    (m.put k v).Pairwise fun a b => a.1 < b.1 := by
  induction m with
  | nil => simp [Sparse.put]
  | cons e m ih =>
    obtain ⟨k', v'⟩ := e
    rw [List.pairwise_cons] at hm
    unfold Sparse.put
    split
    · rename_i h
      refine List.pairwise_cons.2 ⟨fun x hx => ?_, List.pairwise_cons.2 hm⟩
      rcases List.mem_cons.1 hx with rfl | hx
      · exact h
      · exact lt_trans h (hm.1 x hx)
    · split
      · rename_i h
        subst h
        exact List.pairwise_cons.2 hm
      · rename_i h1 h2
        refine List.pairwise_cons.2 ⟨fun x hx => ?_, ih hm.2⟩
        rcases Sparse.mem_put hx with rfl | hx
        · exact lt_of_le_of_ne (Nat.le_of_not_lt h1) (Ne.symm h2)
        · exact hm.1 x hx

/-! ## What an operation keeps -/

/-- `t` has the waiting commands of `s`, and the invariant if `s` has it. -/
def State.Keeps (s t : State) : Prop := t.pending = s.pending ∧ (s.Inv → t.Inv)

theorem State.Keeps.refl (s : State) : s.Keeps s := ⟨rfl, id⟩

theorem State.Keeps.trans {s t u : State} (h : s.Keeps t) (k : t.Keeps u) : s.Keeps u :=
  ⟨k.1.trans h.1, fun hi => k.2 (h.2 hi)⟩

/-- A change outside the register file, memory and the queue. -/
theorem State.Keeps.of_eq {s t : State} (hp : t.pending = s.pending) (hc : t.csr = s.csr) (hm : t.mem = s.mem) :
    s.Keeps t := ⟨hp, fun hi => ⟨hm ▸ hi.1, hc ▸ hi.2.1, hc ▸ hi.2.2⟩⟩

theorem State.Keeps.ite {c : Prop} [Decidable c] {s a b : State} (ha : s.Keeps a) (hb : s.Keeps b) :
    s.Keeps (if c then a else b) := by split <;> assumption

theorem State.Keeps.cond {c : Bool} {s a b : State} (ha : s.Keeps a) (hb : s.Keeps b) :
    s.Keeps (if c then a else b) := by split <;> assumption

theorem State.Keeps.each {α : Type} {g : State → α → State} (hg : ∀ (s : State) (x : α), s.Keeps (g s x)) (l : List α) (s : State) :
    s.Keeps (s.each l g) := by
  induction l generalizing s with
  | nil => exact .refl s
  | cons x l ih => exact (hg s x).trans (ih (g s x))

theorem State.Keeps.wr (s : State) (f : Fld) (u v : Nat) : s.Keeps (s.wr f u v) := by
  refine ⟨rfl, fun hi => ⟨hi.1, ?_, ?_⟩⟩
  · unfold State.wr Sparse.set
    split
    · exact hi.2.1.filter _
    · exact Sparse.pairwise_put hi.2.1 _ _
  · intro g w x hx
    unfold State.wr Sparse.set at hx
    simp only at hx
    split at hx
    · exact hi.2.2 g w x (List.mem_filter.1 hx).1
    · rename_i hne
      rcases Sparse.mem_put hx with h | h
      · simp only [Prod.mk.injEq] at h
        obtain ⟨hk, rfl⟩ := h
        obtain ⟨rfl, rfl⟩ := Fld.key_inj hk
        exact ⟨Nat.mod_lt _ (Nat.two_pow_pos _), hne⟩
      · exact hi.2.2 g w x h

theorem State.Keeps.inc (s : State) (f : Fld) (u : Nat) (n : Nat := 1) : s.Keeps (s.inc f u n) := .wr s f u _

theorem State.Keeps.resetUnit (s : State) (f : Fld) (u : Nat) : s.Keeps (s.resetUnit f u) := .wr s f u _

theorem State.Keeps.filterCsr (s : State) (p : Nat × Nat → Bool) : s.Keeps { s with csr := s.csr.filter p } :=
  ⟨rfl, fun hi => ⟨hi.1, hi.2.1.filter _, fun f u v h => hi.2.2 f u v (List.mem_filter.1 h).1⟩⟩

theorem State.Keeps.resetFld (s : State) (f : Fld) : s.Keeps (s.resetFld f) := .filterCsr s _

/-! ## Memory -/

theorem State.Keeps.putByte (s : State) (k : Nat) (b : Byte) : s.Keeps (s.putByte k b) :=
  ⟨rfl, fun hi => ⟨Sparse.set_wf hi.1 k b, hi.2⟩⟩

theorem State.Keeps.filterMem (s : State) (p : Host.Cell → Bool) : s.Keeps { s with mem := s.mem.filter p } :=
  ⟨rfl, fun hi => ⟨Sparse.filter_wf hi.1 p, hi.2⟩⟩

theorem State.Keeps.clearMem (s : State) (lo hi : Nat) : s.Keeps { s with mem := Sparse.clear s.mem lo hi } :=
  ⟨rfl, fun h => ⟨Sparse.clear_wf h.1 lo hi, h.2⟩⟩

theorem State.Keeps.putBytes (s : State) (k : Nat) (l : List Byte) : s.Keeps (s.putBytes k l) := by
  induction l generalizing s k with
  | nil => exact .refl s
  | cons b l ih => exact (State.Keeps.putByte s k b).trans (ih _ _)

theorem State.Keeps.copyFrames (s : State) (src dst k : Nat) : s.Keeps (s.copyFrames src dst k) := by
  unfold State.copyFrames
  refine .trans ?_ (.each (fun s c => .putByte s _ _) _ _)
  exact ⟨rfl, fun h => ⟨Sparse.clear_wf h.1 _ _, h.2⟩⟩

/-- A byte reads what was written to it. -/
theorem State.getByte_putByte_same (s : State) (k : Nat) (b : Byte) : (s.putByte k b).getByte k = b :=
  Sparse.get_set_same _ _ _ _

/-- Every other byte reads as before. -/
theorem State.getByte_putByte_ne (s : State) {j k : Nat} (b : Byte) (h : j ≠ k) :
    (s.putByte k b).getByte j = s.getByte j := Sparse.get_set_ne _ _ _ _ h

/-- A byte outside a written run reads as before. -/
theorem State.getByte_putBytes_out (s : State) (k : Nat) (l : List Byte) {j : Nat} (h : j < k ∨ k + l.length ≤ j) :
    (s.putBytes k l).getByte j = s.getByte j := by
  induction l generalizing s k with
  | nil => rfl
  | cons b l ih =>
    simp only [List.length_cons] at h
    rw [State.putBytes, ih _ _ (by omega), State.getByte_putByte_ne _ _ (by omega)]

/-- A byte of a written run reads what was written. -/
theorem State.getByte_putBytes_in (s : State) (k : Nat) (l : List Byte) {i : Nat} (h : i < l.length) :
    (s.putBytes k l).getByte (k + i) = l[i] := by
  induction l generalizing s k i with
  | nil => simp at h
  | cons b l ih =>
    cases i with
    | zero => rw [State.putBytes, State.getByte_putBytes_out _ _ _ (by omega)]; exact State.getByte_putByte_same s k b
    | succ i =>
      have := ih (s.putByte k b) (k + 1) (i := i) (by simpa using h)
      simpa [State.putBytes, Nat.add_assoc, Nat.add_comm 1 i] using this

/-! ## Interrupts -/

theorem State.Keeps.setPend (s : State) (n : Nat) : s.Keeps (s.setPend n) := .wr s _ _ _
theorem State.Keeps.clrPend (s : State) (n : Nat) : s.Keeps (s.clrPend n) := .wr s _ _ _

theorem State.Keeps.grpEvent (s : State) (n : Nat) : s.Keeps (s.grpEvent n) := by
  unfold State.grpEvent
  exact .ite (.refl s) (.ite (((State.Keeps.wr s _ _ _).trans (.wr _ _ _ _)).trans (.wr _ _ _ _)) (.inc s _ _ _))

theorem State.Keeps.srcEvent (s : State) (n : Nat) : s.Keeps (s.srcEvent n) := by
  unfold State.srcEvent
  exact .cond (.refl s) ((State.Keeps.setPend s n).trans (.grpEvent _ n))

theorem State.Keeps.srcClear (s : State) (n : Nat) : s.Keeps (s.srcClear n) := by
  unfold State.srcClear
  exact .cond ((State.Keeps.clrPend s n).trans (.ite (.wr _ _ _ _) (.refl _))) (.refl s)

theorem State.Keeps.tgtComplete (s : State) (x l : Nat) : s.Keeps (s.tgtComplete x l) := by
  unfold State.tgtComplete
  refine (State.Keeps.wr s _ _ _).trans (.each (fun s n => ?_) _ _)
  refine State.Keeps.trans (t := s.wr .GEY_SRC_HELD n 0) (.wr s _ _ _) ?_
  exact .ite ((State.Keeps.setPend _ n).trans (.grpEvent _ n)) (.refl _)

theorem State.Keeps.grpSettle (s : State) : s.Keeps s.grpSettle := by
  unfold State.grpSettle
  refine .each (fun s g => ?_) _ _
  exact .ite (((State.Keeps.wr s _ _ _).trans (.wr _ _ _ _)).trans (.wr _ _ _ _)) (.ite (.wr _ _ _ _) (.refl _))

theorem State.Keeps.take (s : State) (x : Nat) (l : List Nat) : s.Keeps (s.take x l) := by
  unfold State.take
  split
  · exact .inc _ _ _ _
  · exact .wr _ _ _ _

theorem State.Keeps.sendAll (s : State) (x n : Nat) : s.Keeps (s.sendAll x n) := by
  induction n generalizing s with
  | zero => exact .refl s
  | succ n ih =>
    unfold State.sendAll
    simp only
    split
    · exact .refl s
    · refine State.Keeps.trans ?_ (ih _)
      exact (State.Keeps.take s x _).trans (.of_eq rfl rfl rfl)

theorem State.Keeps.pbaSettle (s : State) (x : Nat) : s.Keeps (s.pbaSettle x) := by
  unfold State.pbaSettle
  dsimp only
  refine .each (fun s v => ?_) _ _
  exact .of_eq rfl rfl rfl

theorem State.Keeps.deliver (s : State) : s.Keeps s.deliver := by
  unfold State.deliver
  exact (State.Keeps.grpSettle s).trans (.each (fun s x => (State.Keeps.sendAll s x 17).trans (.pbaSettle _ x)) _ _)

theorem State.Keeps.geyEdge (s : State) (a b : List Nat) (c : List (Nat × Nat)) : s.Keeps (s.geyEdge a b c) := by
  unfold State.geyEdge
  split
  · exact .of_eq rfl rfl rfl
  · refine ((State.Keeps.each State.Keeps.srcEvent a s).trans (.each State.Keeps.srcClear b _)).trans ?_
    exact (State.Keeps.each (fun s (xl : Nat × Nat) => State.Keeps.tgtComplete s xl.1 xl.2) c _).trans (.deliver _)

theorem State.Keeps.fire (s : State) (n : Nat) : s.Keeps (s.fire n) := .geyEdge s [n] [] []

theorem State.Keeps.fireIf (s : State) (c : Bool) (n : Nat) : s.Keeps (s.fireIf c n) := by
  unfold State.fireIf
  exact .cond (.fire s n) (.refl s)

/-! ## Waking, access and reset -/

theorem State.Keeps.geyRestore (s : State) (ok : Bool) : s.Keeps (s.geyRestore ok) := by
  unfold State.geyRestore
  dsimp only
  refine State.Keeps.trans (t := { (s.wr .GEY_RET_STATE 0 0).inc .GEY_RET_RESTORES 0 with geyLatch := [] })
    (((State.Keeps.wr s _ _ _).trans (.inc _ _ _)).trans (.of_eq rfl rfl rfl)) ?_
  refine .cond ?_ ?_
  · refine State.Keeps.trans ?_ (.deliver _)
    refine State.Keeps.trans ?_ (.each State.Keeps.setPend _ _)
    exact .each State.Keeps.srcEvent _ _
  · refine State.Keeps.trans ?_ (.fire _ 5)
    refine State.Keeps.trans ?_ (.wr _ _ _ _)
    refine State.Keeps.trans ?_ (.resetFld _ _)
    refine State.Keeps.trans ?_ (.resetFld _ _)
    refine State.Keeps.trans ?_ (.resetFld _ _)
    refine State.Keeps.trans ?_ (.resetFld _ _)
    refine State.Keeps.trans ?_ (.resetFld _ _)
    exact .each State.Keeps.setPend _ _

theorem State.Keeps.wake (s : State) (ok : Bool) : s.Keeps (s.wake ok) := by
  unfold State.wake
  dsimp only
  refine .ite (((State.Keeps.wr s _ _ _).trans (.inc _ _ _)).trans (.geyRestore _ ok)) (.ite ?_ (.refl s))
  refine State.Keeps.trans (t := (s.wr .PWR_STATUS_STATE 0 5).wr .PWR_CTRL_RESULT 0 3)
    ((State.Keeps.wr s _ _ _).trans (.wr _ _ _ _)) ?_
  exact (State.Keeps.ite (.refl _) (.geyRestore _ ok)).trans (.fire _ 54)

theorem State.Keeps.fireIsland (s : State) (n : Nat) : s.Keeps (s.fireIsland n) := by
  unfold State.fireIsland
  dsimp only
  exact (State.Keeps.fire s n).trans (.cond (.wake _ true) (.refl _))

/-- An access to a block keeps what its change keeps. -/
theorem State.Keeps.accessed (s : State) (b : Blk) {g : State → State} (hg : ∀ s : State, s.Keeps (g s)) :
    s.Keeps (s.accessed b g) := by
  unfold State.accessed State.access
  split
  · rename_i t h
    refine State.Keeps.trans (t := t) ?_ (hg t)
    split at h
    · cases h
    · cases b
      · cases h; exact .refl s
      · cases h; exact .wake s true
      · simp only at h
        split at h
        · cases h; exact .wake s true
        · cases h
      · cases h
  · exact .refl s

theorem State.Keeps.hardReset (s : State) : s.Keeps s.hardReset := by
  refine ⟨rfl, fun hi => ⟨Sparse.filter_wf hi.1 _, hi.2.1.filter _, ?_⟩⟩
  exact fun f u v h => hi.2.2 f u v (List.mem_filter.1 h).1

theorem State.Keeps.applyStraps (s : State) : s.Keeps s.applyStraps := by
  unfold State.applyStraps
  dsimp only
  refine State.Keeps.trans ?_ (.each (fun s w => .wr s _ _ _) _ _)
  exact (((State.Keeps.wr s _ _ _).trans (.wr _ _ _ _)).trans (.wr _ _ _ _)).trans (.wr _ _ _ _)

theorem State.Keeps.restart (s : State) : s.Keeps s.restart :=
  (State.Keeps.hardReset s).trans (.applyStraps _)

end Sys2Proof.Machine
end

