-- ==== Sys2Proof/WellFormed.lean ====
section
/-! DEFINITION. Well-formed commands: every operand that names a unit, a context, a queue or a part of a
register names one that the address map can name (R6, R132, R458, R585). A command outside these bounds is
still given a meaning; it names nothing the block has. -/

namespace Sys2Proof

/-- A tenant, or PF0 (R6). -/
def ctxOk (n : Nat) : Bool := decide (n ≤ 512)
/-- A queue of a context (R131). -/
def queueOk (n : Nat) : Bool := decide (n < 512)
def tenantOk (n : Nat) : Bool := decide (n < 512)
def ceOk (n : Nat) : Bool := decide (n < 6)
def headOk (n : Nat) : Bool := decide (n < 8)
def laneOk (n : Nat) : Bool := decide (n < 4)
def streamOk (n : Nat) : Bool := decide (n < 64)
/-- A pseudo-channel (R70). -/
def chanOk (n : Nat) : Bool := decide (n < 128)
def partOk (n : Nat) : Bool := decide (n < 64)
def fcOk (n : Nat) : Bool := decide (n < 12)
/-- A programmable core: Fumaroles, sequencers, shader cores. -/
def coreOk (n : Nat) : Bool := decide (n < 132)
def srcOk (n : Nat) : Bool := decide (n < 8192)
def targetOk (n : Nat) : Bool := decide (n < 525)
/-- The whole, the low or the high half of a register (R587). -/
def halfOk (n : Nat) : Bool := decide (n ≤ 2)
/-- A word of the pending bits. -/
def wordOk (n : Nat) : Bool := decide (n < 128)
def groupOk (n : Nat) : Bool := decide (n < 1024)
def hostPortOk (n : Nat) : Bool := decide (n < 2)
def videoPortOk (n : Nat) : Bool := decide (n < 8)
def vcOk (n : Nat) : Bool := decide (n < 16)
def dtOk (n : Nat) : Bool := decide (n < 64)
def levelOk (n : Nat) : Bool := decide (n < 16)
def cmpOk (n : Nat) : Bool := decide (n < 64)
def tstClassOk (n : Nat) : Bool := decide (n ≤ 8)
def spaceOk : Space → Bool
  | .pf0 => true
  | .vf t => tenantOk t
  | .cfg c => ctxOk c

/-- Every operand names something the block can have. [DESIGN CHOICE: log 5] -/
def Instr.wellFormed (i : Instr) : Bool :=
  match i with
  | .registerWrite space _ _ _ _ => spaceOk space
  | .structLoad _ => true
  | .structCancel _ => true
  | .fetchEnd _ => true
  | .validationEnd _ => true
  | .flashImageLoad _ => true
  | .drainLimitExpiry partition => partOk partition
  | .partitionDrained partition => partOk partition
  | .scrubRead pc _ => chanOk pc
  | .rowRepaired pc => chanOk pc
  | .copyOnWrite ctx _ => ctxOk ctx
  | .vfMap ctx _ => ctxOk ctx
  | .vfUnmap ctx _ => ctxOk ctx
  | .vfShare ctx _ => ctxOk ctx
  | .mapRequestEnd ctx => ctxOk ctx
  | .pownAlloc _ => true
  | .pownFree _ => true
  | .pownMap _ => true
  | .pownUnmap _ => true
  | .pownRequestEnd => true
  | .ttCapWrite ctx _ => ctxOk ctx
  | .ttRead ctx _ => ctxOk ctx
  | .victimSwappedOut ctx => ctxOk ctx
  | .linkTrained port _ _ _ _ => hostPortOk port
  | .completionTimeout _ => true
  | .readCompletion _ _ => true
  | .poisonedWrite port _ _ => hostPortOk port
  | .standbyRequest port ctx _ _ => hostPortOk port && ctxOk ctx
  | .vfEnable port _ _ => hostPortOk port
  | .doorbell ctx q half _ => ctxOk ctx && queueOk q && halfOk half
  | .dlDown port => hostPortOk port
  | .dllpTimeout port => hostPortOk port
  | .failoverDone => true
  | .moveOneTenant tenant _ => tenantOk tenant
  | .moveOtherPort _ => true
  | .movePf0 _ => true
  | .moveDone => true
  | .holdExpiry ctx => ctxOk ctx
  | .linkUp port => hostPortOk port
  | .perst port => hostPortOk port
  | .vfFlr tenant => tenantOk tenant
  | .pf0Flr => true
  | .standbyFlr port ctx => hostPortOk port && ctxOk ctx
  | .d3hot port ctx => hostPortOk port && ctxOk ctx
  | .queueCreate ctx _ => ctxOk ctx
  | .queueDestroy ctx => ctxOk ctx
  | .destroyEnd ctx q => ctxOk ctx && queueOk q
  | .queueResume ctx => ctxOk ctx
  | .nopCmd ctx q => ctxOk ctx && queueOk q
  | .copyCmd ctx q => ctxOk ctx && queueOk q
  | .tensorDefine ctx q => ctxOk ctx && queueOk q
  | .tensorRelease ctx q => ctxOk ctx && queueOk q
  | .fenceWait ctx q => ctxOk ctx && queueOk q
  | .fencePoll ctx q => ctxOk ctx && queueOk q
  | .fenceTimeout ctx q => ctxOk ctx && queueOk q
  | .fenceSignal ctx q => ctxOk ctx && queueOk q
  | .versionCommit ctx q => ctxOk ctx && queueOk q
  | .versionAbort ctx q => ctxOk ctx && queueOk q
  | .matmul ctx q => ctxOk ctx && queueOk q
  | .vector ctx q => ctxOk ctx && queueOk q
  | .conv ctx q => ctxOk ctx && queueOk q
  | .pool ctx q => ctxOk ctx && queueOk q
  | .cropResize ctx q => ctxOk ctx && queueOk q
  | .argmax ctx q => ctxOk ctx && queueOk q
  | .regroup ctx q => ctxOk ctx && queueOk q
  | .codec ctx q => ctxOk ctx && queueOk q
  | .attention ctx q => ctxOk ctx && queueOk q
  | .seqCreate ctx q => ctxOk ctx && queueOk q
  | .seqFork ctx q => ctxOk ctx && queueOk q
  | .seqFree ctx q => ctxOk ctx && queueOk q
  | .kvSwapOut ctx q => ctxOk ctx && queueOk q
  | .kvSwapIn ctx q => ctxOk ctx && queueOk q
  | .visionRun ctx q => ctxOk ctx && queueOk q
  | .emberPass ctx q => ctxOk ctx && queueOk q
  | .eqxFrame ctx q _ => ctxOk ctx && queueOk q
  | .compose ctx q => ctxOk ctx && queueOk q
  | .headStart ctx q => ctxOk ctx && queueOk q
  | .headStop ctx q => ctxOk ctx && queueOk q
  | .portStart ctx q => ctxOk ctx && queueOk q
  | .portStop ctx q => ctxOk ctx && queueOk q
  | .attemptEnd ctx q _ _ => ctxOk ctx && queueOk q
  | .commitCmd ctx q => ctxOk ctx && queueOk q
  | .inPlaceLimitExpiry ctx q _ => ctxOk ctx && queueOk q
  | .schedulerEpoch => true
  | .batchStepPlace => true
  | .batchWaitExpiry => true
  | .aging => true
  | .runLimitExpiry ctx q => ctxOk ctx && queueOk q
  | .teardown tenant _ => ctxOk tenant
  | .teardownDone tenant => tenantOk tenant
  | .energyCalibration _ _ => true
  | .ceRemove ce _ => ceOk ce
  | .removeEnd ce => ceOk ce
  | .ceTest ce _ => ceOk ce
  | .ceReturn ce _ => ceOk ce
  | .reloadEnd ce => ceOk ce
  | .sequencerBind ce => ceOk ce
  | .regionZeroed ce _ => ceOk ce
  | .regionWait ctx q => ctxOk ctx && queueOk q
  | .arrayParity ce _ => ceOk ce
  | .seqWatchdog ce _ => ceOk ce
  | .unitEnd core _ _ _ _ _ => coreOk core
  | .nopInstruction i => coreOk i.core
  | .tInteger i _ _ => coreOk i.core
  | .compareToPredicate i _ _ => coreOk i.core
  | .scalarFloat i _ _ => coreOk i.core
  | .tLd i _ => coreOk i.core
  | .tLdu i _ => coreOk i.core
  | .tSt i _ => coreOk i.core
  | .tFence i => coreOk i.core
  | .amoadd i _ => coreOk i.core
  | .amoswap i _ => coreOk i.core
  | .amocas i _ => coreOk i.core
  | .amomax i _ => coreOk i.core
  | .tBr i _ _ _ _ => coreOk i.core
  | .loopSetup i _ _ _ _ => coreOk i.core
  | .mtmode i _ => coreOk i.core
  | .mfcr i _ _ => coreOk i.core
  | .mtcr i _ _ => coreOk i.core
  | .tEret i => coreOk i.core
  | .tTrap i _ => coreOk i.core
  | .brk i _ => coreOk i.core
  | .tWfi i => coreOk i.core
  | .interruptTake fc _ => fcOk fc
  | .arrLoad i _ => coreOk i.core
  | .arrPass i _ => coreOk i.core
  | .arrDrain i _ => coreOk i.core
  | .vecRun i _ => coreOk i.core
  | .opuRun i _ => coreOk i.core
  | .dmaIn i _ => coreOk i.core
  | .dmaOut i _ => coreOk i.core
  | .tokSig i _ _ => coreOk i.core
  | .tokWait i _ _ => coreOk i.core
  | .tokClr i _ => coreOk i.core
  | .seqEnd i _ => coreOk i.core
  | .vectorArithmetic i _ _ => coreOk i.core
  | .vld i _ _ => coreOk i.core
  | .vst i _ _ => coreOk i.core
  | .tex i _ => coreOk i.core
  | .texl i _ => coreOk i.core
  | .ilkAcq i => coreOk i.core
  | .ilkRel i => coreOk i.core
  | .interlockTimeout core => coreOk core
  | .expC i _ _ => coreOk i.core
  | .expMv i _ => coreOk i.core
  | .expZ i _ => coreOk i.core
  | .tDiscard i => coreOk i.core
  | .expEnd i => coreOk i.core
  | .visEnable lane => laneOk lane
  | .visDisable lane => laneOk lane
  | .visTrigAdd lane _ => laneOk lane
  | .pyramidRunStart lane => laneOk lane
  | .pyrDone lane _ => laneOk lane
  | .motionRunStart lane => laneOk lane
  | .motDone lane _ => laneOk lane
  | .refineRunStart lane => laneOk lane
  | .frameDone lane _ => laneOk lane
  | .issuePoint stream => streamOk stream
  | .lineMatchA head => headOk head
  | .lineMatchB head => headOk head
  | .stripeWarpDone head => headOk head
  | .eqxStart stream _ => streamOk stream
  | .eqxStop stream _ => streamOk stream
  | .homogCommit stream _ => streamOk stream
  | .eqxMemReadWrite stream _ => streamOk stream
  | .layerFlip head _ => headOk head
  | .hpdRise head _ => headOk head
  | .unplug head => headOk head
  | .plug head _ => headOk head
  | .trainingAttemptEnd head _ _ => headOk head
  | .auxStart head _ => headOk head
  | .auxDone head _ _ => headOk head
  | .vblankStart head => headOk head
  | .lineMatch head _ => headOk head
  | .headFrameDone head => headOk head
  | .line0 head => headOk head
  | .underrun head _ _ => headOk head
  | .planeFlip head _ => headOk head
  | .frameStart port vc => videoPortOk port && vcOk vc
  | .longPacket port vc dt _ _ _ => videoPortOk port && vcOk vc && dtOk dt
  | .frameEnd port vc => videoPortOk port && vcOk vc
  | .shortPacket port vc dt _ => videoPortOk port && vcOk vc && dtOk dt
  | .vinVcRelWrite port vc half _ => videoPortOk port && vcOk vc && halfOk half
  | .sourceFire src _ => srcOk src
  | .geyPendWrite word _ => wordOk word
  | .geyPendSetWrite word _ => wordOk word
  | .geyTgtComplete target level => targetOk target && levelOk level
  | .geyGrpWrite group _ => groupOk group
  | .vfGeyPendWrite tenant _ => tenantOk tenant
  | .vfGeySetWrite tenant _ => tenantOk tenant
  | .vfGeyComplete tenant level => tenantOk tenant && levelOk level
  | .groupTimeExpiry group => groupOk group
  | .syncFrameSend => true
  | .syncFrame _ _ => true
  | .holdover => true
  | .timCtrlWrite _ => true
  | .comparatorExpiry c => cmpOk c
  | .timCmpTargetWrite c half _ => cmpOk c && halfOk half
  | .timCmpReloadWrite c half _ => cmpOk c && halfOk half
  | .timGcntRead _ half => halfOk half
  | .calendarTick => true
  | .calLoad => true
  | .calInvalid => true
  | .timRngOutLoRead => true
  | .timRngInputWrite _ half _ => halfOk half
  | .pllLock => true
  | .pllLockTimeout => true
  | .pllLost => true
  | .firmwareMulticast _ _ => true
  | .pathChosen _ => true
  | .trainingDone _ _ => true
  | .memtestDone _ => true
  | .checkingDone _ _ => true
  | .healthRecordWrite _ => true
  | .brgRestart _ _ => true
  | .nextFullWrite _ _ => true
  | .pcRetire _ => true
  | .retireEnd pc => chanOk pc
  | .pcTest _ => true
  | .pcReturn _ => true
  | .partitionReset _ => true
  | .partResetDone => true
  | .fumaroleRestarted fc _ => fcOk fc
  | .getVersion port ctx => hostPortOk port && ctxOk ctx
  | .getCapabilities port ctx => hostPortOk port && ctxOk ctx
  | .negotiateAlgorithms port ctx _ _ _ => hostPortOk port && ctxOk ctx
  | .getDigests port ctx => hostPortOk port && ctxOk ctx
  | .getCertificate port ctx _ _ _ => hostPortOk port && ctxOk ctx
  | .challenge port ctx _ _ => hostPortOk port && ctxOk ctx
  | .getMeasurements port ctx _ _ _ => hostPortOk port && ctxOk ctx
  | .unsupportedRequest port ctx _ => hostPortOk port && ctxOk ctx
  | .signedResponse => true
  | .attestReissued ctx => ctxOk ctx
  | .raiseFw => true
  | .raiseStruct => true
  | .ownerProgram _ => true
  | .fuseProgramDone => true
  | .dbgNonce => true
  | .dbgSubmit _ => true
  | .dbgLock => true
  | .debugState => true
  | .resetNAssert _ => true
  | .resetNRelease _ _ _ => true
  | .pwrOkFall => true
  | .brownOut => true
  | .pwrRetain _ => true
  | .retainEntered => true
  | .wakeEvent _ _ => true
  | .wakeDone => true
  | .throttleWindowEnd _ _ _ => true
  | .pwrAlertNChange _ _ _ => true
  | .tempSample _ _ _ => true
  | .thermTrip => true
  | .avsAdjust _ _ => true
  | .smbusStatusRead => true
  | .smbusStartTest _ _ => true
  | .smbusTestResult => true
  | .tstStart _ => true
  | .testEnd cls _ _ _ => tstClassOk cls
  | .bypass _ => true
  | .idcode => true
  | .samplePreload _ => true
  | .extest _ => true
  | .clamp => true
  | .highz => true
  | .extestPulse _ => true
  | .extestTrain _ => true
  | .selftest _ => true
  | .testresult => true
  | .dbgToken _ _ => true
  | .dbgObserve => true
  | .dbgCore core _ => coreOk core
  | .testLogicReset => true
  | .rdyStatusRead half => halfOk half
  | .rdyDropsRead half => halfOk half
  | .structStatusRead half => halfOk half
  | .memPcStatusRead pc half => chanOk pc && halfOk half
  | .vfQctrlRead ctx half => ctxOk ctx && halfOk half
  | .hostPortStatusRead port half => hostPortOk port && halfOk half
  | .schCeStatusRead ce half => ceOk ce && halfOk half
  | .ceSramErrRead ce half => ceOk ce && halfOk half
  | .ceCodecErrRead ce => ceOk ce
  | .embErrRead half => halfOk half
  | .dspLinkRead head half => headOk head && halfOk half
  | .dspUnderrunRead head half => headOk head && halfOk half
  | .vinErrRead port half => videoPortOk port && halfOk half
  | .geyRetRead half => halfOk half
  | .geyTgtRead target half => targetOk target && halfOk half
  | .timSyncStatusRead half => halfOk half
  | .timCmpCtrlRead c => cmpOk c
  | .eqxStreamStatRead stream half => streamOk stream && halfOk half
  | .eqxStreamStat2Read stream half => streamOk stream && halfOk half
  | .brgMemtestRead half => halfOk half
  | .secStatusRead half => halfOk half
  | .pwrStatusRead half => halfOk half
  | .tstUnitRead cls _ => tstClassOk cls
  | .phyError port => videoPortOk port
  | .fatalFabricError _ => true
  | .busMasterEnableWrite port ctx _ => hostPortOk port && ctxOk ctx
  | .msixMaskWrite port ctx _ _ => hostPortOk port && ctxOk ctx
  | .timingGeneratorStart head => headOk head
  | .stripeEntryFreed head => headOk head

end Sys2Proof
end

