-- ==== Sys2Proof/Tests/Slice0.lean ====
section
/-! SUPPORT. Tests of single commands on small states, ill-formed commands that the check refuses, and for each
statement states and operands that meet its hypotheses. -/

namespace Sys2Proof.Tests

open Sys2Proof Sys2Proof.Machine

set_option Elab.async false

/-- A state with some register fields set. -/
def put (l : List (Fld × Nat × Nat)) (s : State) : State := l.foldl (fun s x => s.wr x.1 x.2.1 x.2.2) s

/-- The machine in READY, with every block served. -/
def up : State := put [(.RDY_STATUS_STATE, 0, 7)] { State.reset with confReached := true }

/-- A memory with some bytes written from an address on. -/
def poke (k : Nat) (l : List Byte) (s : State) : State :=
  (l.foldl (fun (p : State × Nat) b => (p.1.putByte p.2 b, p.2 + 1)) (s, k)).1

/-! ## Witnesses: chapters 2 and 3 -/

def fetching : State := put [(.STRUCT_STATUS_STATE, 0, 1)] up

theorem witness_StructLoadsAndCancels :
    (up.served .early ∧ bit 1 0 = true ∧ bit 1 1 = false ∧ up.rd .STRUCT_STATUS_STATE = 0 ∧ 6 ≤ up.rd .RDY_STATUS_STATE ∧
      up.rd .RDY_STATUS_STATE ≠ 9) ∧
    (fetching.served .early ∧ fetching.rd .STRUCT_STATUS_STATE = 1) ∧
    (State.reset.served .early ∧ State.reset.rd .RDY_STATUS_STATE < 6 ∧ State.reset.img.failedAs = 0) ∧
    (bit 2 0 = false ∧ bit 2 1 = true ∧ fetching.img.failedAs = 0) := by
  unfold State.served
  decide +kernel

/-- A record of a section (R46). -/
def record (tag : Nat) (v : List Byte) : List Byte := natLe 2 tag ++ natLe 2 v.length ++ v

/-- Table entries of sections one after another from an offset on (R43). -/
def sectTable : Nat → Nat → List (List Byte) → List Byte
  | _, _, [] => []
  | n, off, b :: bs => natLe 2 n ++ natLe 2 0 ++ natLe 4 off ++ natLe 4 b.length ++ natLe 4 (wordSum b) ++
      sectTable (n + 1) (off + (b.length + 7) / 8 * 8) bs

/-- The sections of a full image: partition 0 with every tenant, partition 63 with none (R47, R48). -/
def fullSects : List (List Byte) :=
  let z := List.replicate
  [record 0x10 (z 24 0) ++ record 0x11 (z 4 0), record 0x20 [6, 0, 44, 1],
    record 0x30 (natLe 8 0 ++ natLe 16 3 ++ natLe 8 1) ++ record 0x30 (natLe 8 63 ++ natLe 16 12 ++ natLe 8 2) ++
      record 0x31 (natLe 4 0 ++ z 64 0xFF) ++ record 0x31 (natLe 4 63 ++ z 64 0), [], [], [], [], [], []]

/-- A full image for the KTV-6480 with SEQ 5, and a signature block of the right shape (R42, R55). -/
def fullImage : List Byte :=
  let body := fullSects.flatMap fun b => b ++ List.replicate ((8 - b.length % 8) % 8) 0
  let sigOff := 0x40 + 144 + body.length
  natLe 4 0x4C525343 ++ natLe 2 1 ++ [1, 9] ++ natLe 2 0x6480 ++ natLe 2 0 ++ natLe 4 (sigOff + 104) ++ natLe 8 5 ++
    natLe 8 0 ++ natLe 4 sigOff ++ natLe 4 104 ++ natLe 8 0 ++ List.replicate 16 0 ++
    sectTable 1 (0x40 + 144) fullSects ++ body ++ (natLe 2 1 ++ natLe 2 1 ++ natLe 4 0 ++ List.replicate 96 0)

def configuring : State := put [(.RDY_STATUS_STATE, 0, 6)] up

def okImage (s : State) (b : List Byte) : Bool := match s.validate b 0 with | .ok im => im.hdr.kind == 1 && im.hdr.seq == 5 | .error _ => false

/-- A load with a copy of the image, in a state of STRUCT_STATUS. -/
def loading (b : List Byte) (st : Nat) : State :=
  put [(.STRUCT_STATUS_STATE, 0, st)] { configuring with img := { configuring.img with load := some { len := 4, bytes := b } } }

def failed (s : State) (b : List Byte) (sig : Nat) : Option Bad := match s.validate b sig with | .ok _ => none | .error e => some e

theorem witness_ImageFetchAndValidation :
    ((loading [] 1).img.load.isSome ∧ (loading [] 1).rd .STRUCT_STATUS_STATE = 1 ∧ (loading [] 1).img.failedAs = 0) ∧
    ((loading [1, 2, 3] 2).img.load.isSome ∧ (loading [1, 2, 3] 2).rd .STRUCT_STATUS_STATE = 2 ∧
      failed (loading [1, 2, 3] 2) [1, 2, 3] 0 = some (1, 0xFF, 0)) ∧
    okImage (loading fullImage 2) fullImage = true ∧
    (configuring.rd .RDY_STATUS_STATE = 6 ∧ configuring.inReset = false ∧ configuring.pw.tripHeld = false ∧
      configuring.img.load.isNone ∧ configuring.rd .STRUCT_STATUS_STATE ≠ 4 ∧
      okImage configuring (slotBytes (fullImage.map fun b => b.toNat)) = true) := by
  decide +kernel

/-- A byte of an image changed, its first section's sum no longer holds; a signature of no image root is refused. -/
theorem test_image_sum : failed configuring (fullImage.set 212 1) 0 = some (0x05, 0, 208) := by decide +kernel
theorem test_image_root : failed configuring fullImage 7 = some (0x07, 0xFF, 472) := by decide +kernel

def draining (g : Nat) : State :=
  put [(.TIM_GCNT_COUNT, 0, g)] { up with
    img := { up.img with draining := [3], recs := [⟨0x30, natLe 8 3 ++ List.replicate 24 0, 0, 0⟩] } }

def flying (gq : Nat) (d : List Byte) (s : State) : State := { s with flights := s.flights ++ [{ gq := gq, slot := 0, desc := d, phase := .running }] }

theorem witness_PartitionDrains :
    ((draining 100000).img.draining.contains 3 = true ∧ (((draining 100000).partRec 3).map fun r => d16 r.val 6) = some 0 ∧
      (draining 100000).img.applyG + 1000 * 100 ≤ (draining 100000).gcnt ∧ (draining 99999).gcnt < 1000 * 100 ∧
      (draining 0).partFlights 3 = []) ∧
    (flying (qKey 7 0) [] (put [(.VF_STATUS_PARTITION, 7, 3)] up)).partFlights 3 ≠ [] := by
  decide +kernel

theorem witness_MappingRequests :
    (up.served (up.ctxBlk 0) ∧ up.served (up.ctxBlk 512) ∧ up.rd .VF_MAP_CTRL_STATUS 0 ≠ 1) ∧
    ((put [(.VF_MAP_CTRL_STATUS, 5, 1)] up).served ((put [(.VF_MAP_CTRL_STATUS, 5, 1)] up).ctxBlk 5) ∧ (put [(.VF_MAP_CTRL_STATUS, 5, 1)] up).rd .VF_MAP_CTRL_STATUS 5 = 1) ∧
    up.leaf 0 0 = none ∧
    ((up.setPte 0 3 0 (mkPte 0 true 0 3 false)).leaf 0 0 = some (3, mkPte 0 true 0 3 false) ∧
      pteS (mkPte 0 true 0 3 false) = true ∧ pteW (mkPte 0 true 0 3 false) = true ∧
      ((up.setPte 0 3 0 (mkPte 0 true 0 3 false)).frame 0).ref ≤ 1) := by
  unfold State.served
  decide +kernel

theorem witness_PartitionOwnedFrames :
    up.served .late ∧ up.rd .MEM_POWN_CTRL_RESULT ≠ 1 ∧ bits (3 * 2 ^ 46) 46 2 = 3 ∧
      (put [(.MEM_POWN_CTRL_RESULT, 0, 1)] up).rd .MEM_POWN_CTRL_RESULT = 1 := by
  unfold State.served
  decide +kernel

def scrubbing (i : Nat) : State :=
  put [(.MEM_PC_STATUS_ISET, 5, 0)] { up with m := { up.m with scrubPos := Sparse.set 0 [] 5 i } }

theorem witness_PatrolScrub :
    (up.rd .MEM_PC_STATUS_ISET 5 = 0xFF) ∧
    ((scrubbing 0).rd .MEM_SCRUB_CTRL_ENABLE ≠ 0 ∧ (scrubbing 0).rd .MEM_PC_STATUS_ISET 5 ≠ 0xFF ∧
      (scrubbing 0).m.scrubPos.get 0 5 + 1 ≠ pcLines ∧ (scrubbing 0).lineAt 5 0 = some 0) ∧
    ((scrubbing (pcLines - 1)).m.scrubPos.get 0 5 + 1 = pcLines) := by
  decide +kernel

/-! ## Chapter 4 -/

def linked (p : Nat) : State := put [(.HOST_PORT_STATUS_LINK, p, 3)] up

theorem witness_LinkStates :
    (up.portDead 1 = false ∧ up.inReset = false) ∧
    ((linked 1).rd .HOST_PORT_STATUS_LINK 1 = 3 ∧ (linked 1).rd .PWR_STATUS_STATE = 1) ∧
    up.rd .HOST_PORT_STATUS_LINK 0 = 0 ∧
    ((linked 1).portDead 1 = false ∧ ∀ c ∈ (linked 1).contexts, (linked 1).home c ≠ 1) := by
  decide +kernel

def req0 : HostReq := ⟨7, 0, 0, 0, 0, false, 0, 0⟩
def waiting (held : Bool) (g : Nat) : State :=
  put [(.TIM_GCNT_COUNT, 0, g)] { up with reqs := [{ req0 with held := held }], flights := [{ gq := 0, slot := 0, desc := [], phase := .running }] }

theorem witness_CompletionsAndHolds :
    ((waiting false 0).reqs.find? (fun r => r.id == 7 && !r.held) = some req0 ∧
      (((waiting false 0).dropReq 7).flights.find? (fun f => f.gq == 0 && f.slot == 0)).isSome) ∧
    ((waiting false 5000000).reqs.find? (fun r => r.id == 7 && !r.held && decide (r.since + 5000000 ≤ (waiting false 5000000).gcnt))
      = some req0) ∧
    (∀ r ∈ (waiting false 4999999).reqs, r.id = 7 → r.held = true ∨ (waiting false 4999999).gcnt < r.since + 5000000) ∧
    (standbyDecodes 512 0x70000 4 = true ∧ standbyDecodes 512 0x6F000 4 = false ∧ standbyDecodes 0 0x607C 4 = true) ∧
    (∀ r ∈ (waiting true 4999999).reqs, r.ctx = 0 → r.held = true → (waiting true 4999999).gcnt < r.since + (waiting true 0).holdTime) ∧
    ((waiting true 5000000).holdTime ≤ (waiting true 5000000).gcnt) := by
  decide +kernel

def enabledOn (p ctx : Nat) (s : State) : State := s.setCfg p ctx { s.cfg p ctx with mse := true, bme := true, vfEnable := true, numVFs := 512 }

/-- PF0 and tenant 0 can move to port 1. -/
def movable : State := enabledOn 1 0 (enabledOn 1 512 (linked 1))

theorem witness_Moves :
    (up.served .island ∧ up.rd .HOST_MOVE_STATUS ≠ 1 ∧ (put [(.HOST_MOVE_STATUS, 0, 1)] up).rd .HOST_MOVE_STATUS = 1) ∧
    (up.rd .HOST_PORT_STATUS_LINK 1 ≠ 3) ∧
    ((linked 1).rd .HOST_PORT_STATUS_LINK 1 = 3 ∧ (linked 1).eligiblePort 1 0 = false) ∧
    (movable.eligiblePort 1 512 = true ∧ movable.eligiblePort 1 0 = true ∧ movable.home 512 ≠ 1 ∧ movable.home 0 ≠ 1) ∧
    ((put [(.HOST_CTRL_PF0_HOME, 0, 1)] movable).eligiblePort 1 512 = true ∧ (put [(.HOST_CTRL_PF0_HOME, 0, 1)] movable).home 512 = 1) ∧
    (∀ r ∈ (waiting true 0).reqs, r.ctx ∈ [0] → r.held = true) ∧ up.foMoves.Nodup ∧ up.rd .HOST_CTRL_PF0_HOME < 2 := by
  unfold State.served
  decide +kernel

theorem witness_ConfigurationWrites :
    (up.served .island ∧ 3 ≤ up.rd .RDY_STATUS_STATE ∧ up.portDead 1 = false ∧ 1 ≠ up.home 512 ∧ 0 = up.home 512) ∧
    (configuring.ready = false ∧ up.ready = true ∧ (up.cfg 1 pf0).vfEnable = false ∧ (movable.cfg 1 pf0).vfEnable = true) ∧
    (let s : State := { up with img := { up.img with parts := Sparse.set {} [] 0 { used := true } } }
     s.home 0 = 0 ∧ s.rd .VF_STATUS_STATE 0 = 0 ∧ s.unconfigured (s.partOf 0) = false ∧ s.ready = true) ∧
    ((put [(.VF_STATUS_STATE, 511, 1)] up).rd .VF_STATUS_STATE 511 = 1 ∧ 511 < up.tenants) := by
  unfold State.served
  decide +kernel

theorem witness_RegisterReads :
    (up.served .early ∧ up.served .island ∧ up.served .late ∧ up.tgtDead 524 = false) ∧
    (State.reset.rd .RDY_STATUS_STATE < 3 ∧ 3 ≤ up.rd .RDY_STATUS_STATE) := by
  unfold State.served
  decide +kernel
/-! ## Chapter 5 -/

/-- A descriptor with a header (R138) and some body fields: offset, bytes, value. -/
def dsc (op flags ext : Nat) (l : List (Nat × Nat × Nat)) : List Byte :=
  l.foldl (fun d x => d.take x.1 ++ natLe x.2.1 x.2.2 ++ d.drop (x.1 + x.2.1))
    (natLe 3 (op + flags * 256 + ext * 65536) ++ List.replicate (61 + 64 * ext) 0)

/-- A state whose compositor queue M0 holds one descriptor (its ring stands in the state itself). -/
def m0 (d : List Byte) (s : State) : State :=
  ({ s with eqx := { s.eqx with m0 := Sparse.set [] s.eqx.m0 0 d } }).setQueue qM0
    { st := .active, sqLog := 6, cqLog := 6, sqTail := d.length / 64 }

/-- PF0 with a tensor table of 2,048 handles; handles 1 and 2 are PLAIN, 3 is FREE. -/
def tabled : State :=
  let t : Tensor := { kind := .plain, bytes := 65536 }
  ((put [(.VF_TT_CAP_TT_CAP, 512, 2048)] up).setTensor 512 1 t).setTensor 512 2 { t with pending := true, deferred := true }

/-- A state whose context has one page of its host's memory mapped at 0x1000, readable and writable. -/
def hosted (ctx : Nat) (s : State) : State :=
  (enabledOn 0 ctx (put [(.HOST_PORT_STATUS_LINK, 0, 3)] { s with m := { s.m with hostMap := [(ctx, 1, 1)] } })).setPte ctx 3 0x1000
    (mkPte (2 ^ 45 + 0x1000) false 0 7 false)

def dNop : List Byte := dsc 0 0 0 []
def dDefine : List Byte := dsc 2 0 0 [(0x10, 4, 3), (0x14, 1, 1), (0x18, 8, 0x10000), (0x20, 8, 0x20000), (0x28, 8, 65536)]
def dRelease : List Byte := dsc 3 0 0 [(0x10, 4, 1)]
def dSignal : List Byte := dsc 5 0 0 [(0x10, 8, 0x1000), (0x18, 8, 1)]
def dAbort : List Byte := dsc 7 0 0 [(0x10, 4, 1), (0x14, 4, 2)]
def dWait : List Byte := dsc 4 0 0 [(0x10, 8, 0x1000), (0x18, 8, 5), (0x20, 4, 10)]

def okPlan (x : Except (Nat × Nat) Plan) : Option Plan := match x with | .ok p => some p | .error _ => none
def errOf {α : Type} (x : Except (Nat × Nat) α) : Option (Nat × Nat) := match x with | .ok _ => none | .error e => some e

/-- The descriptor is the candidate of M0 and starts on a clear queue. -/
def m0Starts (op : Nat) (d : List Byte) (s : State) : Bool :=
  decide ((m0 d s).candidate qM0 = some (.ok ⟨0, d, none⟩)) && decide (dOp d = op) && (m0 d s).mayStart qM0 0 d && headerOk qM0 d &&
    ((m0 d s).flightsOf qM0).isEmpty && ((m0 d s).queue qM0).cqRoom && !((m0 d s).ringHeld pf0 ((m0 d s).queue qM0).cqVA)

def stalledQ : State := up.setQueue 0 { st := .stalled }
def destroyQ : State := up.setQueue 0 { st := .destroying }
def createVal : Nat := 6 * 2 ^ 24 + 16 * 2 ^ 16 + 2 * 2 ^ 8
def usable : State := { up with img := { up.img with parts := Sparse.set {} [] 0 { used := true } } }

theorem witness_QueueControl :
    (usable.served (usable.ctxBlk 0) ∧ usable.rd .VF_QCTRL_RESULT 0 ≠ 1 ∧ usable.selQueue 0 ≠ qKey pf0 0 ∧
      (usable.queue (usable.selQueue 0)).st = .disabled ∧ 6 ≤ bits createVal 24 5 ∧ bits createVal 16 5 ≤ 16 ∧
      classOk 0 (bits createVal 8 3) = true ∧ usable.unconfigured (usable.partOf 0) = false) ∧
    (up.selQueue 512 = qKey pf0 0 ∧ up.served (up.ctxBlk 512)) ∧
    ((stalledQ.queue (stalledQ.selQueue 0)).st = .stalled) ∧
    ((destroyQ.queue (qKey 0 0)).st = .destroying ∧ destroyQ.flightsOf (qKey 0 0) = []) := by
  unfold State.served
  decide +kernel

def fencing : State :=
  { up with flights := [{ gq := 0, slot := 0, desc := dWait, phase := .running, until_ := 1000 }] }

theorem witness_DoorbellWrites :
    (stalledQ.served (stalledQ.bellBlk 0 0) ∧ stalledQ.ready = true ∧ stalledQ.rd .PWR_STATUS_STATE = 1 ∧ stalledQ.rd .VF_STATUS_STATE 0 ≠ 2 ∧
      (stalledQ.queue (qKey 0 0)).st = .stalled ∧ stalledQ.waitOf (qKey 0 0) = none) ∧
    ((fencing.waitOf (qKey 0 0)).isSome ∧ doorbellAccepted { st := .active, sqLog := 6, cqLog := 6 } 0 3 = true) ∧
    (destroyQ.queue (qKey 0 0)).st = .destroying ∧ configuring.ready = false ∧
    (put [(.VF_STATUS_STATE, 5, 2)] up).rd .VF_STATUS_STATE 5 = 2 ∧ configuring.served (configuring.bellBlk 512 63) ∧
    (put [(.SYS_ID_PART, 0, 0x6460)] up).tenants = 128 := by
  unfold State.served
  decide +kernel

theorem witness_TableCommands :
    m0Starts 0x00 dNop tabled = true ∧ m0Starts 0x02 dDefine tabled = true ∧ m0Starts 0x03 dRelease tabled = true ∧
    m0Starts 0x05 dSignal (hosted 512 tabled) = true ∧ m0Starts 0x07 dAbort tabled = true ∧
    okPlan (nopCheck (m0 dNop tabled) dNop) = some {} ∧
    okPlan (defineCheck qM0 (m0 dDefine tabled) dDefine) = some {} ∧ okPlan (releaseCheck qM0 (m0 dRelease tabled) dRelease) = some {} ∧
    okPlan (signalCheck qM0 (m0 dSignal (hosted 512 tabled)) dSignal) = some {} ∧
    okPlan (versionCheck qM0 (m0 dAbort tabled) dAbort) = some {} ∧ errOf (releaseCheck qM0 (m0 dDefine tabled) (dsc 3 0 0 [(0x10, 4, 3)])) = some (5, 3) := by
  decide +kernel

/-- A wait of tenant 0 for a fence of its host that reads a value. -/
def polling (v g : Nat) : State :=
  put [(.TIM_GCNT_COUNT, 0, g)] (poke (hostKey 0 0x1000) (natLe 8 v) (hosted 0 fencing))

def bytesOf {α : Type} (x : Except α (List Byte)) : List Byte := match x with | .ok b => b | .error _ => []

theorem witness_FenceWaits :
    (m0Starts 0x04 dWait up = true ∧ d64 dWait 0x10 % 8 = 0) ∧
    ((polling 5 0).waitOf (qKey 0 0)).isSome ∧
    bytesOf ((polling 5 0).ldBytes 0 0x1000 8) = natLe 8 5 ∧ d64 dWait 0x18 ≤ 5 ∧
    bytesOf ((polling 4 0).ldBytes 0 0x1000 8) = natLe 8 4 ∧ 4 < d64 dWait 0x18 ∧
    bytesOf ((polling (2 ^ 63) 0).ldBytes 0 0x1000 8) = natLe 8 (2 ^ 63) ∧
    errOf (fencing.ldBytes 0 0x1000 8) = some (2, 0x1000) ∧
    (∀ f ∈ (polling 4 1000).flights, f.until_ ≠ 0 ∧ f.until_ ≤ (polling 4 1000).gcnt) ∧
    (∀ f ∈ (polling 4 999).flights, (polling 4 999).gcnt < f.until_) := by
  decide +kernel

/-- M0 with one attempt that has ended with a status; its completion ring is mapped in host memory. -/
def endedWith (st : Nat) (d : List Byte) (outs : List Nat) (q : Queue) : State :=
  { (hosted 512 tabled).setQueue qM0 { q with cqVA := 0x1000, cqLog := 6, sqLog := 6 } with
    flights := [{ gq := qM0, slot := 0, desc := d, phase := .ended, outs := outs, res := { status := st } }] }

theorem witness_CommitWritesTheRecord :
    (up.commitNext (qKey 0 0) = none) ∧
    (((endedWith 0 dNop [2] { st := .active }).commitNext qM0).isSome ∧
      ((endedWith 0 dNop [2] { st := .active }).queue qM0).st = .active ∧
      ((endedWith 0 dNop [2] { st := .active }).queue qM0).cqRoom = true ∧
      (endedWith 0 dNop [2] { st := .active }).ringHeld (gqCtx qM0) 0x1000 = false ∧ [2].Nodup ∧ dOp dNop = 0) ∧
    (((endedWith 8 dNop [] { st := .active }).commitNext qM0).isSome ∧ failing 8 = true ∧
      ((endedWith 8 dNop [] { st := .active }).queue qM0).cont = false) ∧
    ((endedWith 0 dNop [] { st := .active, cqTail := 64 }).queue qM0).cqRoom = false := by
  decide +kernel

theorem witness_TensorTableRegisters :
    (up.served (up.ctxBlk 512) ∧ up.ttCapOk 512 0 = true) ∧ ((tabled.tensor 512 1).kind ≠ .free) ∧ tabled.rd .VF_TT_CAP_TT_CAP 512 = 2048 := by
  unfold State.served
  decide +kernel
/-! ## Chapters 6 to 9 -/

/-- A tenant's class-2 queue whose command, killed before, is ready for a Caldera; Calderas 0 and 5 are in service. -/
def ready1 : State :=
  { (put [(.CE_STATUS_STATE, 0, 1), (.CE_STATUS_STATE, 5, 1), (.CE_STATUS_SEQS, 0, 0xFFFF)] up).setQueue 7
      { st := .active, cls := 2, sqLog := 6, cqLog := 6, sqTail := 1, sqStart := 1 } with
    flights := [{ gq := 7, slot := 0, desc := dsc 0x1B 0 0 [], phase := .waiting }] }

theorem witness_PlacementStaysInItsPartition :
    up.readyQueues = [] ∧ ready1.readyQueues = [7] ∧ (ready1.noteReady.readyStep 7).isSome = true ∧
    (ready1.noteReady.readyStep 7).all (fun k => !k.joins && decide (partsOf k.desc = (1, 1))) = true ∧
    (ready1.noteReady.chooseCes (gqCtx 7) 2 1 1 false (ready1.noteReady.weightFrames 0 (dsc 0x1B 0 0 []))) = some [0] := by
  decide +kernel

def running (g : Nat) (d : List Byte) : State :=
  put [(.TIM_GCNT_COUNT, 0, g)] { up with
    flights := [{ gq := 7, slot := 0, desc := d, phase := .running }], img := { up.img with inPlaceLimit := 10 } }

theorem witness_EpochsAndLimits :
    (up.gcnt / 10000 ≤ up.lastEpoch) ∧
    (let s := put [(.TIM_GCNT_COUNT, 0, 10000)] up
     s.lastEpoch < s.gcnt / 10000 ∧ s.ceJoin = [] ∧ s.img.wait = [] ∧ s.readyQueues = [] ∧ s.flights = []) ∧
    (let s : State := { ready1 with readyAt := Sparse.set 0 [] 8 1 }
     s.readyQueues = [7]) ∧
    ((running 99 dNop).runLimit 7 ≠ 0 ∧ ((running ((running 0 dNop).runLimit 7) dNop).flightsOf (qKey 0 7)).length = 1 ∧
      (running ((running 0 dNop).runLimit 7) dNop).runLimit 7 ≤ (running ((running 0 dNop).runLimit 7) dNop).gcnt) ∧
    (dInPlace (dsc 1 1 0 []) = true ∧ (running 999 (dsc 1 1 0 [])).gcnt < (running 0 dNop).img.inPlaceLimit * 100 ∧
      (running 0 dNop).img.inPlaceLimit * 100 ≤ (running 1000 (dsc 1 1 0 [])).gcnt) := by
  decide +kernel

theorem witness_TeardownOfATenant :
    (up.served .late ∧ 511 < up.tenants ∧ up.rd .SCH_TENANT_RESULT 511 ≠ 1 ∧ up.rd .VF_STATUS_STATE 511 ≠ 1 ∧
      up.rd .VF_STATUS_STATE 511 ≠ 2) ∧
    ((put [(.VF_STATUS_STATE, 511, 1)] up).rd .VF_STATUS_STATE 511 = 1 ∧
      (put [(.VF_STATUS_STATE, 511, 2)] up).rd .VF_STATUS_STATE 511 = 2) := by
  unfold State.served
  decide +kernel

theorem witness_AttemptsAndAccounts :
    (∀ f ∈ up.flightsOf (qKey 0 7), f.slot = 0 → f.phase ≠ .running) ∧
    (∀ r ∈ (waiting false 0).reqs, r.gq = qKey 0 0 ∧ r.slot = 0) ∧
    (((running 0 dNop).flightsOf (qKey 0 7)).length = 1 ∧ dOp dNop = 0 ∧ (running 0 dNop).reqs = [] ∧
      ((running 0 dNop).flightsOf (qKey 0 7)).all (running 0 dNop).allBound = true) ∧
    (((put [(.PWR_ENERGY_UJ, 0, 800)] up).rd .PWR_ENERGY_UJ + 2 ^ 64 - up.calUj) % 2 ^ 64 * 10000 / 1000 = 8000) ∧
    (((put [(.PWR_ENERGY_UJ, 0, 799)] up).rd .PWR_ENERGY_UJ + 2 ^ 64 - up.calUj) % 2 ^ 64 * 10000 / 1000 < 8000) := by
  decide +kernel

def isFin : Val → Bool
  | .fin .. => true
  | _ => false

theorem witness_NarrowingInvertsDecoding : ∀ c ∈ List.range 11, isFin (decElem c 1) = true ∧ 1 < 2 ^ fmtBits c := by
  decide +kernel

def satState (n : Nat) (re : Bool) : State := { up with img := { up.img with satLimit := n, satRerun := re } }
def satFlight (ip : Nat) (a b fmt : Nat) : Flight :=
  { gq := 7, slot := 0, desc := dsc 0x10 ip 0 [], phase := .running, fmt := fmt, res := { satOperand := a, satOutput := b } }

theorem witness_SaturationPolicies :
    (satState 0 true).img.satLimit = 0 ∧
    ((satState 2 true).img.satLimit ≤ 1 + 1 ∧ dInPlace (satFlight 1 1 1 0).desc = true) ∧
    (dInPlace (satFlight 0 1 1 0).desc = false ∧ (satState 2 false).img.satRerun = false ∧ (satState 2 true).img.satRerun = true) ∧
    ((satFlight 0 2 0 9).res.satOperand = 2) ∧
    (satFlight 0 2 0 9) ∈ ({ up with flights := [satFlight 0 2 0 9] } : State).flights := by
  decide +kernel

/-- PF0's table with handle 2 free to be written, and an attempt of M0 in no slot yet. -/
def placed (d : List Byte) : State :=
  { tabled.setTensor 512 2 { kind := .plain, buf0 := 0x10000, buf1 := 0x20000, bytes := 65536 } with
    flights := [{ gq := qM0, slot := 0, desc := d, phase := .placed }] }

def dArgmax : List Byte :=
  dsc 0x1B 0 0 [(0x10, 4, 1), (0x14, 4, 2), (0x1C, 1, 1), (0x20, 4, 3), (0x24, 2, 1), (0x26, 2, 4), (0x28, 4, 64), (0x2C, 4, 64),
    (0x30, 4, 64), (0x38, 2, 1), (0x3A, 2, 8)]

/-- A command of a Caldera is accepted at its start. -/
def accepted (s : State) (x : Except (Nat × Nat) CeCmd) : Bool :=
  match x with
  | .ok k => !k.wait && s.canAcquire qM0 false k.plan && k.grow.isEmpty && decide ((k.go s k.fmtN).1.flights = s.flights)
  | .error _ => false

theorem witness_CalderaCommandsStart :
    (up.flightIn qM0 (fun f => f.phase == .placed && dOp f.desc == 0x1B) = none) ∧
    (((placed dArgmax).flightIn qM0 fun f => f.phase == .placed && dOp f.desc == 0x1B).isSome = true ∧
      headerOk qM0 dArgmax = true ∧ accepted (placed dArgmax) (jobCheck argmaxJob (placed dArgmax) qM0 dArgmax) = true) ∧
    headerOk qM0 (dsc 0x1B 0x80 0 []) = false ∧
    errOf (jobCheck argmaxJob up qM0 (dsc 0x1B 0 0 [])) = some (6, 0) := by
  decide +kernel

def slotWaits : State :=
  { put [(.CE_STATUS_STATE, 5, 1), (.CE_STATUS_SEQS, 5, 0xFFFF), (.CE_SLOT_STATE, 5 * 32 + 31, 2)] up with
    flights := [{ gq := 7, slot := 0, desc := dArgmax, phase := .ready, slots := [(5, 31)], bound := true }] }

theorem witness_SequencersRegionsAndParity :
    up.waitingSlots 0 = [] ∧ ((slotWaits.waitingSlots 5).map (·.1) = [31]) ∧
    (((slotWaits.seqsOf 5).filter fun i => !(slotWaits.seqBound 5 i)).head? = some 0) ∧
    0 ∈ (slotWaits.seqsOf 5).take ((slotWaits.seqsOf 5).length - 2) ∧
    (let s := put [(.TIM_GCNT_COUNT, 0, 100000)] { placed dArgmax with
       flights := [{ gq := 7, slot := 0, desc := dArgmax, phase := .placed, slots := [(5, 31)], bound := true }] }
     (s.flightsOf (qKey 0 7)).length = 1 ∧ 100000 ≤ s.gcnt) ∧
    (slotWaits.rd .CE_STATUS_STATE 5 = 1 ∧ (slotWaits.inSlot 5 0).isNone = true ∧ slotWaits.rd .CE_STATUS_STATE 0 = 0) := by
  decide +kernel

def dFill : List Byte := dsc 1 0 0 []

def okRows (x : Except (Nat × Nat) (List (List Byte))) : Bool := match x with | .ok _ => true | .error _ => false

theorem witness_CopyRows :
    (m0Starts 0x01 dFill tabled = true ∧ errOf (copyCheck qM0 (m0 dFill tabled) dFill) = some (6, 0)) ∧
    (okRows (up.copyRows 512 { copyBody dFill with op := 1 }) = true) ∧
    (okRows (up.copyRows 512 { copyBody dFill with op := 0 }) = true) := by
  decide +kernel

theorem witness_CodecBlocks :
    (List.replicate 15 255 ++ [248]).length = 16 ∧ (∀ v ∈ List.replicate 15 255 ++ [248], v ≤ 255) ∧
    listMax (List.replicate 15 255 ++ [248]) - listMin (List.replicate 15 255 ++ [248]) ≤ 7 := by
  decide +kernel
/-! ## Chapter 11 -/

/-- Cores: Fumarole 3, sequencer 0 of Caldera 0, shader core 0. -/
def fc : TI := { core := 3 }
def sq : TI := { core := 12 }
def sh : TI := { core := 108 }

/-- Sequencer 0 of Caldera 0 is bound to slot 0, with a region of 1 unit. -/
def seqUp : State :=
  { put [(.CE_SLOT_STATE, 0, 3), (.CE_SLOT_SEQ, 0, 0)] up with
    flights := [{ gq := 7, slot := 0, desc := dArgmax, phase := .ready, slots := [(0, 0)], bound := true, sram := 1 }] }

/-- Shader core 0 runs a group of a pass of tenant 0 at an address of its host. -/
def shadeUp : State :=
  let s := hosted 0 { up with flights := [{ gq := 7, slot := 0, desc := dsc 0x30 0 1 [], phase := .running }] }
  { s with emb := { on := true, gq := 7, run := [(0, { draw := 0, frag := true, live := 3, g := [], v := [], pix := [(0, 0), (1, 0)] })]
                    texs := [List.replicate 32 0] } }.setCore 108 { pc := 0x1000 }

def onCore (id : Nat) (c : Core) (s : State) : State := s.setCore id c

theorem witness_IntegerInstructions :
    up.plainAt fc ∧ seqUp.plainAt sq ∧ (2 ^ 64 - 1 < 2 ^ 64) := by
  unfold State.plainAt State.quietAt
  decide +kernel

theorem witness_ComparesAndFloat :
    up.plainAt fc ∧ predLogic CmpOp.eq 0 0 = none ∧ cmpTypeOk .eq 1 = true ∧ predLogic .pand 1 1 = some 1 ∧
    fltTypeOk .add fmtFP32 0 = true ∧ shadeUp.plainAt sh ∧ profile 108 = 1 ∧
    ((fltOp .sub 0 fmtFP32 0 0x7F800000 0x7F800000 0).2.enc = 0x7FC00000) ∧
    (up.quietAt { fc with pred := 1 } ∧ (up.awake 3).cond { fc with pred := 1 } = false) := by
  unfold State.plainAt State.quietAt
  decide +kernel

def memAt (base space : Nat) (off : Int) : TMem := { data := 1, base := base, size := 3, space := space, off := off }
def okOf {α β : Type} (x : α × Except β Core) : Bool := match x.2 with | .ok _ => true | .error _ => false
def ldOf {α : Type} (x : α × Except Raise Nat) : Option Nat := match x.2 with | .ok v => some v | .error _ => none

theorem witness_LoadsStoresAtomics :
    (up.plainAt fc ∧ memBad fc (memAt 0 1 65528) = false ∧ (up.awake 3).memAddr (memAt 0 1 65528) + 8 ≤ 65536 ∧
      65536 < (up.awake 3).memAddr (memAt 0 1 65536) + 8 ∧ (up.awake 3).memAddr (memAt 0 1 4) % 8 ≠ 0 ∧ (up.awake 3).exl = false) ∧
    ((hosted 512 up).plainAt fc ∧ memBad fc (memAt 0 0 0x1000) = false ∧
      ldOf ((hosted 512 up).coreLoad fc ((hosted 512 up).awake 3) 0 0x1000 8) = some 0 ∧
      okOf ((hosted 512 up).coreStore fc ((hosted 512 up).awake 3) 0 0x1000 8 5) = true) := by
  unfold State.plainAt State.quietAt
  decide +kernel

def atSlot : State := onCore 3 { pc := 0x40, slot := some (0x38, 0x100, true) } up
def inLoop (n lc : Nat) : State := onCore 3 { pc := 0x40, lact := 2 ^ n, le := Sparse.set 0 [] n 0x40, lc := Sparse.set 0 [] n lc } up

theorem witness_BranchesAndLoops :
    up.quietAt fc ∧ ofSigned 64 ((((up.awake 3).pc : Nat) : Int) + (-1) * 8) % 8 = 0 ∧
    (atSlot.coreOn 3 = true ∧ atSlot.fetchRaise fc (atSlot.awake 3) = none ∧ (atSlot.core 3).slot = some (0x38, 0x100, true)) ∧
    up.plainAt fc ∧ (up.awake 3).pc ≠ ((up.awake 3).pc + 8) % 2 ^ 64 ∧
    ((inLoop 3 2).coreOn 3 = true ∧ ((inLoop 3 2).core 3).lact = 2 ^ 3 ∧ ((inLoop 3 2).core 3).le.get 0 3 = ((inLoop 3 2).core 3).pc ∧
      1 < ((inLoop 3 2).awake 3).lc.get 0 3) ∧
    (((inLoop 0 1).core 3).lact = 2 ^ 0 ∧ ((inLoop 0 1).awake 3).lc.get 0 0 = 1 ∧
      (inLoop 0 1).fetchRaise fc ((inLoop 0 1).awake 3) = none) := by
  unfold State.plainAt State.quietAt
  decide +kernel

def user3 : State := onCore 3 { mode := 0 } up
def handler : State := onCore 3 (({ pc := 0x40, mode := 7, lact := 5, shadow := some (1, 3) } : Core).enter 0x09 0) up

theorem witness_SystemInstructions :
    (up.plainAt fc ∧ (up.core 3).exl = false) ∧
    (handler.coreOn 3 = true ∧ handler.fetchRaise fc (handler.awake 3) = none ∧ (handler.awake 3).cond fc = true) ∧
    ((up.core 3).super = true ∧ (up.awake 3).reg 1 < 16 ∧ crKnown 2 = true ∧ crKnown 5 = true ∧ crKnown 6 = true) ∧
    (user3.plainAt fc ∧ (user3.core 3).super = false ∧ (user3.core 3).exl = false ∧
      (∃ n ∈ List.range 64, crKnown n = true ∧ crUserRead n = false) ∧ ∃ n ∈ List.range 64, crKnown n = true ∧ crUserWrite n = false) ∧
    (up.rd .SEC_STATUS_DEBUG 0 ≠ 2 ∧ (put [(.SEC_STATUS_DEBUG, 0, 2)] up).rd .SEC_STATUS_DEBUG 0 = 2) ∧
    (let s := onCore 3 { mode := 4, evec := 0x80 } up
     s.coreOn 3 = true ∧ (s.core 3).ie = true ∧ (s.core 3).exl = false ∧ (s.core 3).slot = none) := by
  unfold State.plainAt State.quietAt
  decide +kernel

theorem witness_SequencerInstructions :
    (seqUp.plainAt sq ∧ profile 12 = 0 ∧ (seqUp.awake 12).tokOver.contains 0 = false ∧ (∀ e ∈ (seqUp.awake 12).tokErr, e.tk ≠ 0)) ∧
    (let s := onCore 12 { tokOver := [0] } seqUp
     s.plainAt sq ∧ (s.awake 12).tokOver.contains 0 = true) ∧
    (let s := onCore 12 { tokErr := [⟨0, 0x1000, 2⟩] } seqUp
     s.plainAt sq ∧ ((s.awake 12).tokErr.find? (·.tk == 0)).isSome = true) ∧
    (seqUp.localSize 12 = 65536 ∧ (seqUp.awake 12).reg 2 + bits 65536 0 32 * bits 65536 32 16 ≤ 65536 ∧
      65536 < (seqUp.awake 12).reg 2 + bits (65537 + 2 ^ 32) 0 32 * bits (65537 + 2 ^ 32) 32 16) ∧
    (seqUp.coreFlight 12).isSome = true ∧ seqUp.seqSlot 12 = some 0 ∧
    ((onCore 12 { runs := [⟨1, .opu 0 0⟩] } seqUp).core 12).runs[0]? = some ⟨1, .opu 0 0⟩ ∧
    up.coreFlight (seqCore 5 15) = none := by
  unfold State.plainAt State.quietAt
  decide +kernel

theorem witness_ShaderInstructions :
    (shadeUp.quietAt sh ∧ profile 108 = 1 ∧ vecTypeOk .add fmtFP32 0 = true) ∧
    (laneBad {} 2 = false ∧ misLane (shadeUp.awake 108) {} 4 [] = none ∧ laneBad { dst := 63 } 3 = true) ∧
    (texBad { dst := 60, s1 := 0 } 3 = false ∧ texBad { dst := 61 } 3 = true ∧ texBad { dst := 4, s1 := 3 } 4 = true) ∧
    ((shadeUp.groupOf 108).isSome = true ∧ (shadeUp.coreFlight 108).isSome = true ∧ shadeUp.emb.texs[0]?.isSome = true) ∧
    (shadeUp.inFrag sh = true ∧ shadeUp.coreOn 108 = true ∧ (shadeUp.groupOf 108).all (fun g => decide ([0].foldl clrBit g.live ≠ 0)) = true) := by
  unfold State.quietAt
  decide +kernel
/-! ## Chapters 10, 12, 13 and 14 -/

def dSeqCreate : List Byte := dsc 0x21 0 0 [(0x10, 4, 3), (0x14, 1, 1), (0x16, 2, 1), (0x18, 2, 64), (0x1A, 1, 0x11)]
def dSeqFork : List Byte := dsc 0x22 0 0 [(0x10, 4, 4), (0x14, 4, 3), (0x18, 4, 5), (0x1C, 1, 2)]
def dSeqFree : List Byte := dsc 0x23 0 0 [(0x10, 4, 4)]
def dSwapOut : List Byte := dsc 0x24 0 0 [(0x10, 4, 4)]
def dSwapIn : List Byte := dsc 0x25 0 0 [(0x10, 4, 4)]

/-- PF0 holds a sequence of 10 tokens at handle 4, and its swap arena is enabled. -/
def sequenced (swapped : Bool) : State :=
  ((put [(.VF_SWAP_BASE_ENABLE, 512, 1), (.VF_SWAP_SIZE_SIZE, 512, 64)] tabled).setTensor 512 4
    { kind := .sequence, length := 10, swapped := swapped }).setSeq 512 4 { layers := 1, kvHeads := 1, headDim := 64, fmtK := 1, fmtV := 1 }

theorem witness_SequenceCommands :
    (m0Starts 0x21 dSeqCreate tabled = true ∧ dInPlace dSeqCreate = false ∧ dDefer dSeqCreate = false ∧ gqCtx (qKey 512 0) = 512 ∧
      okPlan (seqCreateCheck qM0 (m0 dSeqCreate tabled) dSeqCreate) = some {} ∧ ((m0 dSeqCreate tabled).freeWindow 512).isSome = true) ∧
    errOf (seqCreateCheck qM0 tabled (dsc 0x21 0 0 [])) = some (6, 0) ∧
    (m0Starts 0x22 dSeqFork (sequenced false) = true ∧
      okPlan (seqForkCheck qM0 (m0 dSeqFork (sequenced false)) dSeqFork) = some { ins := [4] } ∧
      (m0 dSeqFork (sequenced false)).handleFree 512 4 = false ∧ (m0 dSeqFork (sequenced false)).heldInPlace 512 4 = false ∧
      (m0 dSeqFork (sequenced false)).seqMarked 512 4 = false) ∧
    (m0Starts 0x23 dSeqFree (sequenced false) = true ∧ okPlan (seqHandleCheck qM0 (m0 dSeqFree (sequenced false)) dSeqFree) = some {} ∧
      (m0 dSeqFree (sequenced false)).seqBusy qM0 4 = false) := by
  decide +kernel

theorem witness_Swapping :
    (m0Starts 0x24 dSwapOut (sequenced false) = true ∧ okPlan (swapOutCheck qM0 (m0 dSwapOut (sequenced false)) dSwapOut) = some {} ∧
      (m0 dSwapOut (sequenced false)).seqBusy qM0 4 = false) ∧
    (handleOk (d32 dSwapOut 0x10) = true ∧ dZero dSwapOut 0x14 0x100 = true ∧ tabled.isSeq 512 4 = false ∧
      (sequenced true).isSeq 512 4 = true ∧ ((sequenced true).tensor 512 4).swapped = true) ∧
    (up.arenaOn 512 = false) ∧
    (m0Starts 0x25 dSwapIn (sequenced true) = true ∧ okPlan (swapInCheck qM0 (m0 dSwapIn (sequenced true)) dSwapIn) = some {} ∧
      (m0 dSwapIn (sequenced true)).canSupply 512 0 = true) ∧
    (∀ kv ∈ (sequenced false).seqs, kv.2.marked = false) := by
  decide +kernel

/-- Interleave set 0, of channels 0 and 1, belongs to partition 0. -/
def hbm (s : State) : State :=
  put ([0, 1].flatMap fun pc => [(.MEM_PC_STATUS_ISET, pc, 0), (.MEM_PC_STATUS_PARTITION, pc, 0), (.MEM_PC_STATUS_STATE, pc, 2)]) s

/-- Vision lane 3 with the geometry of a 64 by 64 plane of format 0 and one level. -/
def lane3 (st en p m r : Nat) (x : VisLane) : State :=
  hbm { put [(.VIS_STATUS_STATE, 3, st), (.VIS_CTRL_ENABLE, 3, en), (.VIS_PARAM_LEVELS, 3, 1), (.VIS_IN_GEOM_W, 3, 64),
    (.VIS_IN_GEOM_H, 3, 64), (.VIS_IN_GEOM_PITCH, 3, 1), (.VIS_IN_GEOM_ENTRY, 3, 1), (.VIS_STATUS_PARTITION, 3, 0),
    (.VIS_TRIG_PYR, 3, p), (.VIS_TRIG_MOT, 3, m), (.VIS_TRIG_REF, 3, r)] up with vis := Sparse.set {} [] 3 x }

def pyrFree (s : State) : Bool :=
  (s.visStray 3 [(s.visIn 3 0, 64)]).isNone && !(s.paBad (s.visIn 3 0) 16) && decide (leNat (s.paBytes (s.visIn 3 0) 8) = 0) &&
    (match s.visGeom 3 with
     | some g => (s.visStray 3 [(s.visIn 3 0 + 64, g.planeBytes), (s.visPyr 3 0 g, pyrBytes g.sizes)]).isNone &&
        (s.visStray 3 [(s.visPyr 3 0 g, pyrBytes g.sizes), (s.visPyr 3 2 g, pyrBytes g.sizes), (s.visOut 3 0 g, g.outBytes)]).isNone
     | none => false)

theorem witness_VisionRouteMode :
    (let s := lane3 1 0 0 0 0 {}
     s.served .late ∧ s.rd .VIS_STATUS_STATE 3 = 1 ∧ s.rd .VIS_CTRL_ENABLE 3 = 0 ∧ (s.visGeom 3).isSome = true ∧
       s.testing 3 3 = false ∧ s.testFailed 3 3 = false) ∧
    up.visGeom 3 = none ∧
    ((lane3 2 1 200 0 0 {}).rd .VIS_STATUS_STATE 3 = 2 ∧ (lane3 2 1 200 0 0 {}).rd .VIS_TRIG_PYR 3 + 55 % 256 = 255) ∧
    ((lane3 2 1 1 0 0 { kP := 2 }).visGeom 3).isSome = true ∧ (lane3 2 1 1 0 0 { kP := 2 }).visBusy 3 0 = false ∧
    (((lane3 2 1 1 0 0 { kP := 2 }).lane 3).kP = 2 ∧ ((lane3 2 1 1 0 0 { kP := 2 }).lane 3).kM < 2 - 1) ∧
    pyrFree (lane3 2 1 1 1 1 {}) = true ∧
    (let s := put [(.VIS_STATUS_PARTITION, 3, 5)] (lane3 2 1 1 0 0 {})
     (s.visStray 3 [(s.visIn 3 0, 64)]).isSome = true) ∧
    leNat ((poke 0 [9] (lane3 2 1 1 0 0 {})).paBytes ((poke 0 [9] (lane3 2 1 1 0 0 {})).visIn 3 0) 8) ≠ 0 ∧
    (∀ u < 3, (put [(.VIS_STATUS_BUSY, 3, 7)] (lane3 2 1 0 0 0 {})).visBusy 3 u = true) := by
  unfold State.served
  decide +kernel

def dVision : List Byte :=
  dsc 0x28 0 0 [(0x10, 4, 1), (0x18, 4, 3), (0x28, 2, 64), (0x2A, 2, 64), (0x2C, 4, 64), (0x30, 1, 4), (0x31, 1, 1)]

/-- Lane 2 is idle and bound to no port; handle 3 can take a pyramid. -/
def visReady : State :=
  put [(.VIS_STATUS_STATE, 2, 1)] (tabled.setTensor 512 3 { kind := .plain, bytes := 65536 })

theorem witness_VisionCommandsAndSearch :
    (m0Starts 0x28 dVision visReady = true ∧ (okPlan (visCheck qM0 (m0 dVision visReady) dVision)).isSome = true ∧
      (m0 dVision visReady).freeVisLane = some 2 ∧ (m0 dVision visReady).canAcquire qM0 false { ins := [1], outs := [3] } = true ∧
      okPlan (visCheck qM0 (m0 dVision visReady) dVision) = some { ins := [1], outs := [3] }) ∧
    errOf (visCheck qM0 (m0 dVision tabled) dVision) = some (5, 3) ∧ (visBody dVision).pyrOnly = true ∧
    ((visBody (dVision.set 0x31 9)).levels = 9 ∧ (visBody (dVision.set 0x30 3)).fmt = 3) := by
  decide +kernel

def dPass (targets samples : Nat) : List Byte :=
  dsc 0x30 0 1 ([(0x10, 4, 1), (0x14, 2, 1), (0x16, 2, 16), (0x18, 2, 16), (0x1A, 1, samples), (0x1B, 1, targets), (0x1C, 4, 1)] ++
    (List.range targets).map fun k => (0x46 + 8 * k, 1, 0))

theorem witness_EmberPasses :
    (m0Starts 0x30 (dPass 1 1) tabled = true ∧ errOf (passCheck qM0 (m0 (dPass 1 1) tabled) (dPass 1 1)) = some (0x0A, 0) ∧
      tabled.rd .EMB_STATUS_STATE = 0 ∧ (put [(.EMB_STATUS_STATE, 0, 1)] tabled).freeUnit 0x30 1 = some 0) ∧
    (0 < triArea { xs := [0, 16, 0], ys := [0, 0, 16], zs := [], ws := [], offs := [] } ∧
      edgeFn { xs := [0, 16, 0], ys := [0, 0, 16], zs := [], ws := [], offs := [] } 0 1 8 0 = 0) ∧
    (stencilOn (dPass 1 1) = false ∧ (d8 (dPass 1 1) 0x26).testBit 3 = false) ∧ (decFP32 0x7FC00000).isNaN = true := by
  decide +kernel

def eqxVal (q : Nat) : Nat := q * 2 ^ 42 + 4 * 2 ^ 36 + 2 ^ 34

/-- PF0's queue 9 can carry a stream; network 1 and scratch 2 are defined; the ring has 4 slots. -/
def eqxReady : State :=
  put [(.EQX_STREAM_NET_NET, 63, 1), (.EQX_STREAM_NET_SCRATCH, 63, 2), (.EQX_STREAM_RING_DEPTH, 63, 4), (.EQX_STREAM_GEOM_OUT_W, 63, 64),
    (.EQX_STREAM_GEOM_OUT_H, 63, 64), (.EQX_STREAM_GEOM_PERIOD, 63, 100000)]
    (tabled.setQueue (qKey pf0 9) { st := .active, cls := 1, cont := true, sqLog := 6 })

def runningStream (x : Stream) (st c : Nat) : State :=
  { put [(.EQX_STREAM_CTRL_STATE, 63, st), (.EQX_STREAM_TRIG_COUNT, 63, c)] eqxReady with
    eqx := { eqxReady.eqx with streams := Sparse.set {} [] 63 x } }

def periodic : Stream := { par := { queue := 9, period := 100000, mult := 2 }, src := some { id := 1 } }

theorem witness_StreamControl :
    (let s1 := eqxReady.eqxCtrlFields 63 (eqxVal 9)
     eqxReady.served .late ∧ eqxReady.rd .EQX_STREAM_CTRL_RESULT 63 ≠ 1 ∧ s1.eqxQueueOk (s1.eqxRegs 63).queue = true ∧
       ¬ (10000 * s1.floorCes.length < s1.otherShares 63 + s1.rd .EQX_STREAM_CTRL_CLASS1_SHARE 63) ∧
       s1.eqxFieldsOk (s1.eqxRegs 63) = true ∧ eqxReady.rd .EQX_STREAM_CTRL_HEAD 63 = 0) ∧
    ((eqxReady.eqxCtrlFields 63 0).eqxQueueOk ((eqxReady.eqxCtrlFields 63 0).eqxRegs 63).queue = false) ∧
    (let s1 := (put [(.EQX_STREAM_RING_DEPTH, 63, 3)] eqxReady).eqxCtrlFields 63 (eqxVal 9)
     s1.eqxFieldsOk (s1.eqxRegs 63) = false) ∧
    ((runningStream periodic 2 0).rd .EQX_STREAM_CTRL_STATE 63 = 2 ∧ ((runningStream periodic 2 0).stream 63).out = 0 ∧
      ((runningStream { periodic with out := 1 } 2 0).stream 63).out ≠ 0) ∧
    ((runningStream periodic 2 2).eqxRuns 63 = true ∧ ((runningStream periodic 2 2).stream 63).stopping = false ∧
      (runningStream periodic 2 2).brg.fcDown.contains 9 = false ∧ (runningStream periodic 2 2).issueDue 63 0 = true ∧
      1 ≤ (runningStream periodic 2 2).rd .EQX_STREAM_TRIG_COUNT 63 ∧
      ((runningStream periodic 2 2).queue (qKey pf0 9)).st ≠ .disabled) ∧
    (let s := runningStream { periodic with used := some { id := 1 } } 2 1
     (s.stream 63).used.isSome = true ∧ (s.stream 63).gens + 1 < (s.stream 63).par.mult) := by
  unfold State.served
  decide +kernel

def dFrame (kind : Nat) (drop : Nat) : List Byte :=
  dsc 0x38 0 0 [(0x10, 1, 63), (0x11, 1, kind), (0x14, 4, 1), (0x18, 4, 4), (0x20, 4, 3), (0x30, 8, drop)]

def framing (kind g : Nat) : State :=
  put [(.TIM_GCNT_COUNT, 0, g), (.EQX_STREAM_CTRL_STATE, 63, 2), (.CE_STATUS_STATE, 0, 1)]
    { (sequenced false).setTensor 512 3 { kind := .plain, bytes := 65536 } with
      flights := [{ gq := qKey pf0 9, slot := 0, desc := dFrame kind 5, phase := .placed }]
      eqx := { up.eqx with streams := Sparse.set {} [] 63 { periodic with ring := [{}] } } }

/-- Head 7 is on and shows stream 63, with a warp under way. -/
def headOn (sel : Bool) : State :=
  let route : Rec := ⟨0x40, natLe 8 (0x0705 * 2 ^ 24 + 0x3F04 * 2 ^ 8), 0, 0⟩
  put [(.EQX_STREAM_CTRL_STATE, 63, 2)]
    { up with
      img := { up.img with recs := [route] }
      heads := Sparse.set {} [] 7 { on := true, warps := [{ stripe := 0, refresh := 0, slot := some 0, on := true }] }
      eqx := { up.eqx with streams := Sparse.set {} [] 63 { par := { head := some 7 }, composing := sel } } }

theorem witness_FramesAndStripes :
    (((framing 1 6).flightIn (qKey pf0 9) fun f => f.phase == .placed && dOp f.desc == 0x38).isSome = true ∧
      headerOk (qKey pf0 9) (dFrame 1 5) = true ∧ d8 (dFrame 1 5) 0x10 = 63 ∧ d64 (dFrame 1 5) 0x30 < (framing 1 6).gcnt) ∧
    (d8 (dFrame 0 5) 0x11 ≠ 1 ∧ (framing 0 6).acquirable 63 = some 0 ∧ okPlan ((eqxCheck true (framing 0 6) (qKey pf0 9) (dFrame 0 5)).map (·.plan)) =
      some { ins := [1, 4], outs := [3, 4] }) ∧
    (headOn true).warping 7 = some 63 ∧
    (((headOn false).stream 63).select ((headOn false).head 7).aR = none ∧ ((headOn false).stream 63).composing = false ∧
      (headOn false).brg.fcDown.contains 10 = false) ∧
    (((headOn true).stream 63).composing = true ∧ ((headOn true).head 7).warps.length = 1 ∧ ((headOn true).head 7).ents.length = 4) := by
  decide +kernel
/-! ## Chapters 15 and 16 -/

def sink4 : Sink := { lanes := 4, rate := 3, dsc := false, slice := 0, async := false, lttprs := 0 }

def plan7 : HeadPlan :=
  { enabled := true, lanes := 4, rate := 3, hActive := 64, hTotal := 100, vActive := 10, vTotal := 20, pixclk := 1 }

/-- Head 7 in a state of DSP_STATUS, with a plan and a sink or none. -/
def head7 (st : Nat) (x : Head) : State :=
  put [(.DSP_STATUS_STATE, 7, st), (.DSP_LINEMATCH_LINE_C, 7, 5)]
    { up with
      heads := Sparse.set {} [] 7 x
      img := { up.img with heads := Sparse.set {} [] 7 plan7 } }

theorem witness_DisplayLinks :
    (((head7 1 {}).head 7).sink = none ∧ (head7 1 {}).rd .DSP_STATUS_STATE 7 ≠ 0 ∧ ((head7 1 { on := true }).head 7).on = true ∧
      (head7 1 {}).dscBad 7 sink4 = false ∧ ((head7 1 {}).plan 7).fits 24 4 3 = true ∧ ((head7 1 {}).plan 7).fits 24 0 3 = false) ∧
    (let s := head7 3 { lanes := 4, rate := 3 }
     s.rd .DSP_STATUS_STATE 7 = 3 ∧ (s.head 7).irqLost = none ∧ (s.head 7).lanes = 4 ∧ (s.head 7).rate = 3) ∧
    (((head7 3 { lanes := 4, rate := 0 }).head 7).rate = 0) ∧
    (((head7 4 { sink := some sink4 }).head 7).sink = some sink4) ∧
    (up.served .late ∧ up.rd .DSP_AUX_CTRL_RESULT 7 ≠ 1 ∧ bits (2 ^ 60) 60 4 = 1) ∧
    ((put [(.DSP_AUX_CTRL_RESULT, 7, 1)] (head7 1 {})).rd .DSP_AUX_CTRL_RESULT 7 = 1 ∧ ((head7 1 {}).head 7).auxWait = false) := by
  unfold State.served
  decide +kernel

def dHead (op : Nat) : List Byte := dsc op 0 0 [(0x10, 1, 7)]

theorem witness_DisplayRaster :
    (m0Starts 0x3C (dHead 0x3C) (head7 1 {}) = true ∧ okPlan (headStartCheck (m0 (dHead 0x3C) (head7 1 {})) (dHead 0x3C)) = some {} ∧
      (m0 (dHead 0x3C) (head7 1 {})).canAcquire qM0 false {} = true ∧ (head7 1 {}).lockWaits 7 = false ∧
      (put [(.DSP_LOCK_CTRL_ENABLE, 7, 1), (.DSP_LOCK_GCNT_GCNT, 7, 10 ^ 12)] (head7 1 {})).lockWaits 7 = true ∧
      errOf (headStartCheck up (dHead 0x3C)) = some (0x0A, 0)) ∧
    (m0Starts 0x3D (dHead 0x3D) (head7 4 { on := true }) = true ∧
      okPlan (headStopCheck (m0 (dHead 0x3D) (head7 4 { on := true })) (dHead 0x3D)) = some {} ∧
      (head7 4 { on := true }).waits ((head7 4 { on := true }).head 7).stop = none) ∧
    (let s : State := { head7 1 { wait := some (qM0, 0) } with flights := [{ gq := qM0, slot := 0, desc := dHead 0x3C, phase := .running }] }
     (s.waits (s.head 7).wait).isSome = true ∧ s.lockWaits 7 = false ∧ s.testing 4 7 = false ∧ s.testFailed 4 7 = false ∧
       s.headStreamBad 7 = none) ∧
    ((head7 4 { on := true }).img.wait = [] ∧ ((head7 4 { on := true, limit := true }).head 7).limit = true) ∧
    (((head7 4 { on := true, lineC := 19 }).head 7).lineC < ((head7 4 {}).plan 7).vTotal ∧
      ((head7 4 {}).plan 7).vTotal ≤ ((head7 4 { on := true }).head 7).lineC) ∧
    (let s := head7 4 { on := true, refs := 1 }
     (s.head 7).under = false ∧ (s.head 7).refs ≠ 0 ∧ 9 < (s.plan 7).vActive ∧ 63 < (s.plan 7).hActive ∧ ∀ e ∈ (s.head 7).ents, e = none) ∧
    (let s := head7 4 { on := true, ents := [some ⟨0, 0, true⟩, none, none, none] }
     (s.head 7).ents.getD ((s.head 7).fS % 4) none = some ⟨0, 0, true⟩) := by
  decide +kernel

/-- Port 7 with a plan of 4 by 2 pixels of RAW10, and frames in progress on virtual channel 15. -/
def port7 (st act rel : Nat) (x : VinPort) : State :=
  let plan : List Byte := natLe 4 (7 + 2 ^ 8 + 2 ^ 16) ++ natLe 4 1000 ++ [0x2B, 0xFF] ++ natLe 2 4 ++ natLe 2 2 ++ natLe 2 0
  hbm (put [(.VIN_STATUS_STATE, 7, st), (.VIN_STATUS_ACTIVE_VC, 7, act), (.VIN_STATUS_VC_MASK, 7, 2 ^ 15), (.VIN_VC_REL_RELEASED, 127, rel),
    (.VIN_VC_REL_PUBLISHED, 127, 3), (.VIN_VC_RING_ENTRY, 127, 1), (.VIN_STATUS_PARTITION, 7, 0)]
    { up with ports := Sparse.set {} [] 7 x, img := { up.img with recs := [⟨0x60, plan, 0, 0⟩] } })

def busyPort (lines : Nat) : VinPort := { cur := Sparse.set ⟨0, 0⟩ [] 15 ⟨1, lines⟩, rings := Sparse.set (0, 0, 0) [] 15 (1, 0, 4) }

theorem witness_VideoInputPorts :
    (m0Starts 0x3E (dHead 0x3E) (port7 1 0 0 {}) = true ∧
      okPlan (portStartCheck (m0 (dHead 0x3E) (port7 1 0 0 {})) (dHead 0x3E)) = some {} ∧ (m0 (dHead 0x3E) (port7 1 0 0 {})).canAcquire qM0 false {} = true ∧
      errOf (portStartCheck up (dHead 0x3E)) = some (0x0A, 0)) ∧
    (m0Starts 0x3F (dHead 0x3F) (port7 2 0 0 {}) = true ∧ okPlan (portStopCheck (port7 2 0 0 {}) (dHead 0x3F)) = some {} ∧
      (port7 2 0 0 {}).waits ((port7 2 0 0 {}).vport 7).stop = none) ∧
    ((port7 2 0 0 (busyPort 0)).inMask 7 15 = true ∧ (port7 2 0 0 (busyPort 0)).vinFrame 7 15 = none ∧
      (port7 2 0 0 (busyPort 0)).vinFree 7 15 0 = true ∧ (port7 2 0 1 { k := Sparse.set 0 [] 15 5, rings := (busyPort 0).rings }).vinFree 7 15 5 = false) ∧
    (let s := port7 2 (2 ^ 15) 0 (busyPort 1)
     s.vinFrame 7 15 = some ⟨1, 1⟩ ∧ planDt (s.portPlan 7) = 0x2B ∧ lineBytes 0x2B (planW (s.portPlan 7)) = 5 ∧ 1 < planH (s.portPlan 7) ∧
       ((s.setVinFrame 7 15 (some ⟨1, 2⟩)).vinWrite 7 (lineChunks 0x2B 4 2 (s.vinEntry 7 15 0) 1 [1, 2, 3, 4, 5])).rd .VIN_STATUS_STATE 7 = 2) ∧
    (let s := port7 2 (2 ^ 15) 0 (busyPort 2)
     s.vinFrame 7 15 = some ⟨1, 2⟩ ∧ planH (s.portPlan 7) = 2 ∧
       (s.vinWrite 7 [⟨s.vinEntry 7 15 0 + 8, vinHeaderBytes ⟨1, 2⟩ 15 0x2B 0⟩, ⟨s.vinEntry 7 15 0, natLe 8 0⟩]).rd .VIN_STATUS_STATE 7 = 2) ∧
    ((port7 2 0 0 {}).inMask 7 0 = false) ∧
    (sub32 3 0 ≤ sub32 ((port7 2 0 0 {}).rd .VIN_VC_REL_PUBLISHED 127) 0 ∧ sub32 ((port7 2 0 0 {}).rd .VIN_VC_REL_PUBLISHED 127) 0 < sub32 4 0) := by
  decide +kernel
/-! ## Chapters 16 to 18 -/

/-- Source 5 is an enabled level source of priority 3 at target 2, in group 4. -/
def routed (l : List (Fld × Nat × Nat)) : State :=
  put ([(.GEY_SRC_LEVEL, 5, 1), (.GEY_SRC_ENABLE, 5, 1), (.GEY_SRC_TARGET, 5, 2), (.GEY_SRC_PRIORITY, 5, 3), (.GEY_SRC_GROUP, 5, 4)] ++ l) up

theorem witness_GeyserPendingAndCompletion :
    ((routed []).served .late ∧ (routed []).rd .GEY_RET_STATE = 0 ∧ 1 < (routed []).tenants ∧ (routed []).tgtDead 2 = false ∧
      (routed []).tgtDead 14 = false ∧ 5 ∈ wordSrcs 0 (2 ^ 5) ∧ tenantSrcs 1 1 = [1032]) ∧
    ((routed [(.GEY_PEND_PEND, 0, 2 ^ 5)]).pend 5 = true ∧ 5 ∉ wordSrcs 0 (2 ^ 6)) ∧
    ((routed [(.GEY_SRC_HELD, 5, 1), (.GEY_SRC_INPUT, 5, 1)]).rd .GEY_SRC_HELD 5 = 1) ∧
    ((routed [(.GEY_TGT_ACTIVE, 2, 8)]).rd .GEY_TGT_ACTIVE 2).testBit 3 = true := by
  unfold State.served
  decide +kernel

theorem witness_GeyserSources :
    ((routed []).rd .PWR_STATUS_STATE ≠ 3 ∧ (routed []).rd .PWR_STATUS_STATE ≠ 4 ∧ (routed []).srcDead 5 = false ∧
      (routed []).rd .GEY_SRC_INPUT 5 ≠ 1 ∧ (routed [(.GEY_SRC_INPUT, 5, 1)]).rd .GEY_SRC_INPUT 5 = 1 ∧
      (routed []).rd .GEY_GRP_STATE 4 = 0) ∧
    ((routed [(.GEY_GRP_STATE, 4, 1)]).rd .GEY_GRP_ELAPSED 4 < (routed [(.GEY_GRP_STATE, 4, 1)]).grpTime 4 * 100) ∧
    (let s := routed [(.GEY_GRP_STATE, 4, 1), (.GEY_GRP_ELAPSED, 4, 100), (.GEY_PEND_PEND, 0, 2 ^ 5)]
     s.grpTime 4 * 100 ≤ s.rd .GEY_GRP_ELAPSED 4 ∧ s.pend 5 = true ∧ s.rd .GEY_SRC_GROUP 5 = 4) ∧
    ((routed [(.GEY_GRP_STATE, 4, 2)]).rd .GEY_GRP_STATE 4 = 2) := by
  decide +kernel

/-- A follower in a state of TIM_SYNC_STATUS. -/
def follower (st : Nat) : State :=
  put [(.TIM_CTRL_ENABLE, 0, 1), (.TIM_CTRL_MODE, 0, 2), (.TIM_SYNC_STATUS_STATE, 0, st), (.TIM_GCNT_COUNT, 0, 102400)] up

theorem witness_SyncFrames :
    (frameValid (mkFrame 14 1 102400) = true ∧ frameCount (mkFrame 14 1 102400) = 102400) ∧
    (let s := put [(.TIM_CTRL_ENABLE, 0, 1), (.TIM_CTRL_MODE, 0, 1)] up
     s.syncDriven = true ∧ s.gcnt % 102400 = 0 ∧ up.syncDriven = false) ∧
    (up.rd .TIM_CTRL_ENABLE = 0 ∧ (follower 2).rd .TIM_CTRL_ENABLE ≠ 0 ∧ frameValid 0 = false) ∧
    ((follower 2).t.sinceFrame = none ∧ (follower 2).rd .TIM_CTRL_MODE = 2 ∧
      (follower 2).rd .TIM_SYNC_STATUS_STATE = 2 ∧ (follower 3).rd .TIM_SYNC_STATUS_STATE ≠ 2 ∧
      ((frameCount (mkFrame 0 0 102400) : Int) + (follower 2).rd .TIM_SYNC_DELAY_DELAY - 102300) = 100 ∧ 64 < (100 : Int).natAbs ∧
      (0 : Int) ≤ (follower 2).gcnt + 100) ∧
    ((put [(.TIM_GCNT_COUNT, 0, 16 * 102400)] (follower 3)).t.frameG + 16 * 102400 ≤ (put [(.TIM_GCNT_COUNT, 0, 16 * 102400)] (follower 3)).gcnt ∧
      (follower 4).gcnt < (follower 4).t.frameG + 16 * 102400) ∧
    (up.served .island ∧ up.rd .TIM_CTRL_MODE ≠ 1) ∧
    (let s : State := { up with t := { up.t with running := true } }
     s.t.running = true ∧ (0 : Int) ≤ s.gcnt + spreadInc s.t.adj s.t.phase) := by
  unfold State.served
  decide +kernel

/-- A calendar at a date. -/
def dated (y mo d h mi sec sub : Nat) : State :=
  put [(.CAL_TIME_YEAR, 0, y), (.CAL_TIME_MONTH, 0, mo), (.CAL_TIME_DAY, 0, d), (.CAL_TIME_HOUR, 0, h), (.CAL_TIME_MINUTE, 0, mi),
    (.CAL_TIME_SECOND, 0, sec), (.CAL_TIME_SUBSEC, 0, sub)] up

theorem witness_Calendar :
    ((dated 2399 12 31 23 59 59 32767).date = ⟨2399, 12, 31, 23, 59, 59⟩ ∧ (dated 2399 12 31 23 59 59 32767).date.ok = true ∧
      (dated 2399 12 31 23 59 59 32767).rd .CAL_TIME_SUBSEC = 32767) ∧
    ((dated 2024 2 29 0 0 0 5).date.ok = true ∧ (dated 2024 2 29 0 0 0 5).rd .CAL_TIME_SUBSEC < 32767 ∧
      (dated 2024 2 29 0 0 0 5).rd .CAL_CTRL_PENDING = 0) ∧
    (let d : DateTime := ⟨2024, 2, 28, 23, 59, 59⟩
     d.ok = true ∧ (nextSecond d).2 = false ∧ (nextSecond d).1 = ⟨2024, 2, 29, 0, 0, 0⟩) ∧
    (up.served .island ∧ (decDate (up.rd .CAL_STAGE_DATE_TIME * 2 ^ 22)).ok = false) ∧
    (let st := (DateTime.encode ⟨2024, 2, 29, 1, 2, 3⟩) / 2 ^ 22
     (decDate ((put [(.CAL_STAGE_DATE_TIME, 0, st)] up).rd .CAL_STAGE_DATE_TIME * 2 ^ 22)).ok = true ∧
      (put [(.CAL_CTRL_PENDING, 0, 1)] { up with t := { up.t with stage := st * 2 ^ 22 } }).rd .CAL_CTRL_PENDING = 1) := by
  unfold State.served
  decide +kernel

/-- Comparator 3 with a target of 100 and a reload of 30, and GCNT. -/
def comparing (per g : Nat) : State :=
  put [(.TIM_CMP_CTRL_ENABLE, 3, 1), (.TIM_CMP_CTRL_PERIODIC, 3, per), (.TIM_CMP_TARGET_TARGET, 3, 100), (.TIM_CMP_RELOAD_RELOAD, 3, 30),
    (.TIM_GCNT_COUNT, 0, g)] up

theorem witness_ComparatorsAndGenerator :
    ((comparing 0 170).rd .TIM_CMP_CTRL_ENABLE 3 = 1 ∧ (comparing 0 170).rd .TIM_CMP_TARGET_TARGET 3 ≤ (comparing 0 170).gcnt ∧
      (comparing 0 170).rd .TIM_CMP_CTRL_PERIODIC 3 ≠ 1 ∧ (comparing 1 170).rd .TIM_CMP_CTRL_PERIODIC 3 = 1 ∧
      (comparing 1 170).rd .PWR_STATUS_STATE ≠ 3 ∧ (comparing 1 170).rd .PWR_STATUS_STATE ≠ 4) ∧
    ((comparing 1 99).gcnt < (comparing 1 99).rd .TIM_CMP_TARGET_TARGET 3) ∧
    (up.served .island ∧ up.rd .TIM_CMP_TARGET_TARGET 3 < 2 ^ 64) := by
  unfold State.served
  decide +kernel

def inBringUp (st : Nat) : State := put [(.RDY_STATUS_STATE, 0, st)] State.reset

def fwGood : FwImage := { ok := true, version := 0x10000, svn := 0, digest := 0 }

/-- In FW_LOADED with a record of this die in slot 1 that lets it take the warm path. -/
def warmed : State :=
  put [(.CAL_STATUS_VALID, 0, 1), (.BRG_STATE_PATH, 0, 1)]
    { inBringUp 2 with brg := { State.reset.brg with slots := [none, some { dieId := State.reset.dieId, part := State.reset.rd .SYS_ID_PART, fullTime := 0 }] } }

theorem witness_BringUp :
    ((∀ st < 6, (inBringUp st).inState st = true) ∧ (inBringUp 7).inState 0 = false ∧ (inBringUp 1).pw.strapTest ≠ 1 ∧
      (inBringUp 1).pickFw [fwGood] = some fwGood ∧ (inBringUp 1).pickFw [] = none ∧ vitalCore 11 = true ∧ vitalCore 12 = false) ∧
    (warmed.healthNow.any (fun x => warmed.warmOk x.2) = true ∧ (put [(.RDY_STATUS_STATE, 0, 3)] warmed).warmPath = true) ∧
    (let s : State := { up with brg := { up.brg with dirty := true } }
     s.brg.dirty = true ∧ s.inReset = false ∧ 11 ∉ s.brg.fcDown) ∧
    (up.served .early ∧ up.confReached = true ∧ up.rd .BRG_CTRL_NEXT_FULL = 0) ∧
    (let s : State := { up with t := { up.t with running := true } }
     s.t.running = true ∧ s.inReset = false ∧ s.pw.tripHeld = false ∧ s.brg.cur.faultCount = 0) ∧
    (let s : State := { up with brg := { up.brg with cur := { up.brg.cur with faultCount := 3 } } }
     s.brg.cur.faultCount = 3 ∧ s.calSec ≤ s.brg.cur.faultFirst + 3600) := by
  unfold State.served
  decide +kernel

/-- Channel 4 and Caldera 2 in given service states. -/
def serving (pc ce : Nat) : State :=
  put [(.MEM_PC_STATUS_STATE, 4, pc), (.MEM_PC_STATUS_PARTITION, 4, 1), (.MEM_PC_STATUS_ISET, 4, 9), (.CE_STATUS_STATE, 2, ce)] up

theorem witness_RepairInService :
    ((serving 1 1).served .early ∧ (serving 1 1).served .late ∧ (serving 1 1).rd .BRG_PC_CTRL_RESULT ≠ 1 ∧
      (serving 1 1).rd .MEM_PC_STATUS_STATE 4 = 1 ∧ (serving 1 1).waitNames ((serving 1 1).rd .MEM_PC_STATUS_PARTITION 4) = false ∧
      4 * 2 ^ 40 / 2 ^ 40 % 128 = 4 ∧ (put [(.BRG_PC_CTRL_RESULT, 0, 1)] up).rd .BRG_PC_CTRL_RESULT = 1) ∧
    ((serving 5 3).rd .MEM_PC_STATUS_STATE 4 = 5 ∧
      4 ∈ ({ serving 5 3 with brg := { (serving 5 3).brg with pcTested := [4] } } : State).brg.pcTested) ∧
    (let s : State := put [(.BRG_CTRL_AUTO_RETURN, 0, 0)] { serving 3 1 with brg := { (serving 3 1).brg with pcOp := 4 } }
     s.rd .MEM_PC_STATUS_STATE 4 = 3 ∧ s.brg.pcOp = 4 ∧ s.setHeld (s.rd .MEM_PC_STATUS_ISET 4) = [] ∧ s.brg.pcWant = [] ∧
       s.rd .BRG_CTRL_AUTO_RETURN = 0) ∧
    (let s := put [(.MEM_PC_STATUS_REPAIR_LEFT, 4, 1)] (serving 1 1)
     11 ∉ s.brg.fcDown ∧ s.rd .MEM_PC_STATUS_REPAIR_LEFT 4 = 1) ∧
    ((serving 1 1).rd .CE_CTRL_RESULT 2 ≠ 1 ∧ (serving 1 3).rd .CE_STATUS_STATE 2 ≠ 1 ∧ (serving 1 1).rd .CE_STATUS_STATE 2 ≠ 3 ∧
      (serving 1 1).ceMayReturn 2 = false ∧
      ({ serving 1 3 with brg := { (serving 1 3).brg with ceTested := [2] } } : State).ceMayReturn 2 = true) ∧
    ((serving 1 2).rd .CE_STATUS_STATE 2 = 2 ∧ (serving 1 2).flights = [] ∧ 2 ∉ (serving 1 2).brg.ceAuto ∧ 2 ∉ (serving 1 2).brg.ceFc ∧
      (serving 1 5).rd .CE_STATUS_STATE 2 = 5) ∧
    ((2 ^ 28 + 63 * 256) / 2 ^ 28 % 16 = 1 ∧ (2 ^ 28 + 63 * 256) / 256 % 64 = 63 ∧ up.rd .BRG_PART_RESET_RESULT ≠ 1 ∧ up.unconfigured 2 = true ∧
      ({ up with img := { up.img with parts := Sparse.set {} [] 2 { used := true } } } : State).unconfigured 2 = false) ∧
    (let s : State := put [(.BRG_PART_RESET_RESULT, 0, 1)] { up with brg := { up.brg with resetting := [2], partOp := 2 } }
     s.brg.resetting = [2] ∧ s.brg.partOp = 2 ∧ s.rd .BRG_PART_RESET_RESULT = 1 ∧ s.img.wait = [] ∧ s.sec.unlock = none) ∧
    10 ∈ ({ up with brg := { up.brg with fcDown := [10] } } : State).brg.fcDown := by
  unfold State.served
  decide +kernel

/-! ## Chapters 19 to 22 -/

/-- A token of LEVEL 1 and authority 0 for this die, with a nonce of zeros, its chain empty, at host address 8. -/
def token : List Byte :=
  natLe 4 0x4742444B ++ natLe 2 1 ++ [1, 0] ++ natLe 16 State.reset.dieId ++ List.replicate (0x70 + 96 - 0x18) 0

def submitting : State :=
  poke (hostKey (up.home pf0) 8) token
    (put [(.SEC_DBG_LEN_LEN, 0, token.length), (.SEC_DBG_ADDR_ADDR, 0, 1), (.SEC_DBG_CTRL_RESULT, 0, 0)]
      { up with sec := { up.sec with nonceOk := true } })

theorem witness_DebugAndFuses :
    (up.served .early ∧ up.rd .SEC_ARB_CTRL_RESULT ≠ 1 ∧ up.sec.fwSvn ≤ up.rd .SEC_STATUS_FW_SVN_FLOOR ∧
      (put [(.SEC_ARB_CTRL_RESULT, 0, 1)] up).rd .SEC_ARB_CTRL_RESULT = 1) ∧
    (up.rd .STRUCT_ACTIVE_SEQ_SEQ ≤ up.rd .SEC_STRUCT_FLOOR_FLOOR) ∧
    (up.rd .SEC_OWNER_CTRL_RESULT ≠ 1 ∧ up.rd .SEC_STATUS_OWNER_SLOT = 0 ∧ up.ready = true ∧ 2 ^ 28 / 2 ^ 28 % 16 = 1) ∧
    (up.rd .SEC_DBG_CTRL_RESULT ≠ 1 ∧ up.sec.unlock = none) ∧
    (let b := (List.range (submitting.rd .SEC_DBG_LEN_LEN)).map fun i =>
        submitting.getByte (hostKey (submitting.home pf0) (submitting.rd .SEC_DBG_ADDR_ADDR * 8 + i))
     submitting.tokenBad b 0 = 0 ∧ submitting.tokenBad b 1 = 5 ∧ d8 b 6 = 1) ∧
    (let s : State := { up with sec := { up.sec with fuses := [.fwFloor 3], unlock := some [] } }
     s.sec.fuses = [.fwFloor 3] ∧ s.sec.unlock = some [] ∧ up.sec.unlock ≠ some []) := by
  unfold State.served
  decide +kernel

/-- PF0's SPDM connection in a stage. -/
def talking (st : Nat) (re : Bool) : State :=
  { up with sec := { up.sec with conn := Sparse.set {} [] pf0 { stage := st, resync := re } } }

theorem witness_Attestation :
    ((talking 3 false).mailbox 0 pf0 = true ∧ pf0 ∉ (talking 3 false).sec.reissue ∧ State.reset.mailbox 0 pf0 = false) ∧
    (pf0 ∈ ({ talking 3 false with sec := { (talking 3 false).sec with reissue := [pf0] } } : State).sec.reissue) ∧
    (((talking 0 true).sec.conn.get {} pf0).resync = true ∧ ((talking 0 false).sec.conn.get {} pf0).resync = false ∧
      (talking 0 false).spdmStage pf0 < 1 ∧ 3 ≤ (talking 3 false).spdmStage pf0 ∧ (talking 3 false).spdmStage pf0 = 3) ∧
    ((Nat.testBit 0x80 7) = true ∧ Nat.testBit 0 7 = false) ∧
    (((talking 3 false).measured pf0 7).isSome = true) ∧
    (let s : State := { up with sec := { up.sec with signing := [⟨pf0, [], true⟩] } }
     s.nextSigned = some ⟨pf0, [], true⟩) := by
  decide +kernel

theorem witness_AttestationChain : 0 < ((talking 3 false).slot0 pf0).length := by
  simp [State.slot0, natLe]

def powered (st : Nat) : State := put [(.PWR_STATUS_STATE, 0, st)] up

theorem witness_PowerAndReset :
    (up.pw.resetLow = false ∧ ({ up with pw := { up.pw with resetLow := true } } : State).pw.resetLow = true ∧
      ({ up with pw := { up.pw with resetLow := true } } : State).pw.tapHold = false) ∧
    (up.served .island ∧ up.rd .PWR_CTRL_RESULT ≠ 1 ∧ up.retainRefused = false ∧ (powered 3).retainRefused = true ∧
      (powered 3).rd .PWR_STATUS_STATE = 3 ∧ (powered 4).rd .PWR_STATUS_STATE = 4 ∧ (powered 4).rd .PWR_WAKE_TIMER = 1 ∧
      (powered 5).rd .PWR_STATUS_STATE = 5) ∧
    (up.rd .PWR_STATUS_LEVEL ≤ 8 ∧ min up.limitCap (up.rd .PWR_LIMIT_LIMIT_W) * 1000 = 360000 ∧
      up.anyTemp junctions (fun x => decide (up.tThrottle - 5 * 16 ≤ x)) = false ∧
      up.anyTemp hbmSensors (fun x => decide (90 * 16 ≤ x)) = false ∧ 1000 * 100 < 95 * 360000 ∧
      ({ up with pw := { up.pw with calm := 3 } } : State).pw.calm + 1 = 4) ∧
    (up.rd .PWR_STATUS_ALERT = b2n false ∧ up.rd .PWR_STATUS_ALERT ≠ b2n true ∧ up.sensorOn 7 = true ∧ up.tThrottle ≤ 120 * 16 ∧
      up.pw.above.get 0 28 ≠ 1) ∧
    (up.confReached = true ∧ up.smbusUp = false ∧
      ({ up with pw := { up.pw with relGcnt := 5000000 } } : State).smbusUp = true ∧ up.rd .SYS_ID_PART ≠ 0x648A) := by
  unfold State.served
  decide +kernel

def tested (l : List (Fld × Nat × Nat)) : State := put l { up with pw := { up.pw with relGcnt := 5000000 } }

theorem witness_SelfTestAndJtag :
    (up.tstJudge 1 2 = 2 ∧ (serving 1 3).tstJudge 1 2 = 0 ∧ up.tstJudge 6 0 = 3 ∧ tstCount 1 = 6 ∧ up.rd .TST_CTRL_RESULT ≠ 1 ∧
      up.served .early) ∧
    ((tested []).smbusTests = true ∧ up.smbusTests = false ∧ up.inReset = false ∧ up.pw.tripHeld = false) ∧
    (let s := tested [(.TST_UNIT_TESTING, tstUnit 3 1, 1)]
     s.testing 3 1 = true ∧ s.inReset = false ∧ s.tst.kinds.get 3 (tstUnit 3 1) = 3 ∧ up.testing 3 1 = false ∧ up.img.wait = []) ∧
    (let s : State := { up with tst := { up.tst with jtag := { unit := some (tstUnit 3 1), result := 1 }, smbus := { unit := some (tstUnit 3 1), result := 1 } } }
     s.tst.jtag.unit = some (tstUnit 3 1) ∧ s.tst.jtag.result = 1 ∧ s.tst.smbus.result = 1) ∧
    (up.rd .SYS_ID_PART = 0x6480 ∧ (tested [(.SYS_ID_STEP_MAJOR, 0, 1)]).rd .SYS_ID_STEP_MAJOR = 1 ∧ up.pw.resetLow = false ∧
      ({ up with pw := { up.pw with tapHold := true } } : State).pw.tapHold = true) ∧
    (up.rd .SEC_STATUS_DEBUG < 1 ∧ 1 ≤ (tested [(.SEC_STATUS_DEBUG, 0, 1)]).rd .SEC_STATUS_DEBUG ∧
      2 ≤ (tested [(.SEC_STATUS_DEBUG, 0, 2)]).rd .SEC_STATUS_DEBUG ∧ up.rd .SEC_DBG_CTRL_RESULT ≠ 1) := by
  unfold State.served
  decide +kernel

theorem witness_RegisterWrites :
    (3 ≤ up.rd .RDY_STATUS_STATE ∧ up.decodes (.vf 1) 0 0x1000 4 = false ∧ up.decodes .pf0 2 0x20000 4 = true ∧
      up.served (blkAt .pf0 0x20000)) ∧
    (findReg .pf0 0x3FFC = none ∧ msixOff .pf0 0x3FFC = none ∧ evtAt .pf0 0x3FFC = none ∧ up.absentAt .pf0 0x5C0000 = true) ∧
    (up.decodes .pf0 2 0x20000 2 = true ∧ (2 : Nat) ≠ 4) ∧
    (up.regHeld .TIM_CMP_TARGET 3 = false ∧ Reg.TIM_CMP_TARGET ∉ [Reg.GEY_SRC, .GEY_TGT, .VF_GEY_TGT, .PWR_LIMIT]) := by
  unfold State.served
  decide +kernel

/-! ## All commands -/

theorem reset_inv : State.reset.Inv := by
  refine ⟨by decide, ?_, ?_⟩ <;> simp [State.reset]

theorem witness_StepRunsTheCommand :
    ({ State.reset with pending := [.pllLock] } : State).pending = [.pllLock] ∧ State.reset.pending = [] := by
  decide

theorem witness_EveryStepKeepsTheInvariant : up.csr ≠ [] ∧ up.Inv :=
  ⟨by decide +kernel, (State.Keeps.wr _ _ _ _).2
    ((State.Keeps.of_eq (s := State.reset) rfl rfl rfl).2 reset_inv)⟩

/-! ## Ill-formed commands -/

theorem ill_contexts :
    (Instr.copyOnWrite 513 0).wellFormed = false ∧ (Instr.doorbell 0 512 0 0).wellFormed = false ∧
      (Instr.vfFlr 512).wellFormed = false ∧ (Instr.registerWrite (.vf 512) 0 0 4 0).wellFormed = false ∧
      (Instr.doorbell 0 0 3 0).wellFormed = false ∧ (Instr.doorbell 512 511 2 0).wellFormed = true := by decide

theorem ill_units :
    (Instr.ceRemove 6 0).wellFormed = false ∧ (Instr.lineMatchA 8).wellFormed = false ∧ (Instr.visEnable 4).wellFormed = false ∧
      (Instr.issuePoint 64).wellFormed = false ∧ (Instr.rowRepaired 128).wellFormed = false ∧
      (Instr.drainLimitExpiry 64).wellFormed = false ∧ (Instr.fumaroleRestarted 12 true).wellFormed = false ∧
      (Instr.nopInstruction { core := 132 }).wellFormed = false ∧ (Instr.linkTrained 2 0 0 0 0).wellFormed = false := by
  decide

theorem ill_interrupts :
    (Instr.sourceFire 8192 .fire).wellFormed = false ∧ (Instr.geyTgtRead 525 0).wellFormed = false ∧
      (Instr.geyTgtComplete 0 16).wellFormed = false ∧ (Instr.geyPendWrite 128 0).wellFormed = false ∧
      (Instr.geyGrpWrite 1024 0).wellFormed = false ∧ (Instr.comparatorExpiry 64).wellFormed = false ∧
      (Instr.tstUnitRead 9 0).wellFormed = false := by decide

theorem ill_ports :
    (Instr.frameStart 8 0).wellFormed = false ∧ (Instr.frameStart 0 16).wellFormed = false ∧
      (Instr.shortPacket 0 0 64 .clean).wellFormed = false ∧ (Instr.shortPacket 7 15 63 .clean).wellFormed = true := by decide

/-! ## Single commands: the worked examples of the spec -/

/-- Example under R194. -/
theorem test_narrow : (narrow 6 (decFP32 0xC06CCCCD) 0).1 = 0xC6 ∧ (narrow 5 (decFP32 0xC06CCCCD) 0).1 = 0x36 := by decide +kernel

/-- Example under R71. -/
theorem test_locate :
    (put ([8, 9, 40, 41].map fun pc => (.MEM_PC_STATUS_ISET, pc, 3)) up).locate 3 0x12345 = some (40, 0x4845) := by decide +kernel

def block16 : List Nat := [10, 12, 14, 16, 11, 13, 15, 17, 20, 24, 28, 30, 22, 26, 29, 31]

/-- Example under R105: both modes of the codec. -/
theorem test_codec :
    enc21 block16 = 0x0B23B1A24024020A ∧ dec21 0x0B23B1A24024020A = [12, 12, 16, 16, 12, 12, 16, 16, 20, 24, 28, 32, 24, 28, 28, 32] ∧
      enc41 block16 = 0x9B4A100A ∧ dec41 0x9B4A100A = [11, 11, 15, 15, 11, 11, 15, 15, 23, 23, 29, 29, 23, 23, 29, 29] := by
  decide +kernel

/-- Example under R256. -/
theorem test_crop_positions :
    (List.range 4).map (samplePos 0x10000 0x20000 4) = [0x10000, 0x15555, 0x1AAAA, 0x1FFFF] := by decide +kernel

/-- Example under R384: an RGBA8_UNORM texture of 100 by 60 texels with 3 levels. -/
theorem test_texel :
    let t := dsc 0 0 0 [(4, 1, 0), (5, 1, 2), (6, 2, 100), (8, 2, 60), (0xC, 1, 3)]
    layerBytes t = 65536 ∧ texelOff t 0 0 37 21 = 6348 ∧ texelOff t 0 1 18 10 = 34352 := by decide +kernel

/-- Example under R373. -/
theorem test_tile_memory :
    tileNeed (dsc 0x30 0 1 [(0x1A, 1, 4), (0x1B, 1, 2), (0x27, 1, 1), (0x46, 1, 4), (0x4E, 1, 2)]) = 72 := by decide +kernel

/-- Example under R493. -/
theorem test_calendar_stages :
    DateTime.ok ⟨2100, 2, 29, 12, 0, 0⟩ = false ∧ DateTime.ok ⟨2000, 2, 29, 12, 0, 0⟩ = true ∧ dayOfWeek 2000 2 29 = 1 ∧
      DateTime.ok ⟨2024, 2, 29, 8, 30, 0⟩ = true ∧ DateTime.ok ⟨2100, 3, 1, 0, 0, 60⟩ = false ∧
      DateTime.ok ⟨2400, 1, 1, 0, 0, 0⟩ = false := by decide +kernel

/-- Example under R589: the register of each address. -/
theorem test_addresses :
    findReg .pf0 0x654050 = some (.DSP_LINEMATCH, 5, 1) ∧ findReg .pf0 0x4C0138 = some (.CE_SLOT, 3 * 32 + 7, 1) ∧
      findReg .pf0 0x1303C0 = some (.GEY_TGT, 30, 1) ∧ findReg .pf0 0x600C00 = some (.EQX_STREAM_CTRL, 12, 1) ∧
      findReg (.vf 17) 0x102C = some (.VF_QCTRL, 17, 2) ∧ findReg .pf0 0x68000 = none := by decide +kernel

/-- R489: a periodic comparator at GCNT 170 with target 100 and reload 30 goes to 190 and has missed two. -/
theorem test_comparator :
    (match exec (.comparatorExpiry 3) (comparing 1 170) with
     | .next t => (t.rd .TIM_CMP_TARGET_TARGET 3, t.rd .TIM_CMP_CTRL_MISSED 3)
     | _ => (0, 0)) = (190, 2) := by decide +kernel

/-- R492: the last second of 2399 wraps. -/
theorem test_calendar_wrap :
    (match exec .calendarTick (dated 2399 12 31 23 59 59 32767) with
     | .next t => (t.rd .CAL_TIME_YEAR, t.rd .CAL_TIME_DAY, t.rd .CAL_TIME_DOW, t.rd .CAL_STATUS_WRAP)
     | _ => (0, 0, 0, 0)) = (2000, 1, 5, 1) := by decide +kernel

/-- FIPS 180-4: SHA-384 of the three bytes "abc". -/
theorem test_sha384 :
    sha384 [0x61, 0x62, 0x63] =
      0xCB00753F45A35E8BB5A03D699AC65007272C32AB0EDED1631A8B605A43FF5BED8086072BA1E7CC2358BAECA134C825A7 := by decide +kernel

/-- R582: IDCODE of the first stepping reads the part and Kerold's code. -/
theorem test_idcode :
    (match exec .idcode (tested [(.SYS_ID_STEP_MAJOR, 0, 1)]) with | .next t => t.tst.dr | _ => 0) = 0x1648074B := by decide +kernel

end Sys2Proof.Tests
end

section
/-! What every step keeps: the rules of `State.Keeps` that all operations share. A step answers a next state in which
the queue is as it was and the register file and memory are as good as they were (`State.Answers`); the sections below
show it operation by operation, in the order of the model's files. -/

namespace Sys2Proof.Machine

/-- What comes first stands last: the rules of one operation chain in the order the model writes them. -/
theorem State.Keeps.after {s t u : State} (k : t.Keeps u) (h : s.Keeps t) : s.Keeps u := h.trans k

theorem State.Keeps.thenWr {s t : State} {f : Fld} {u v : Nat} (h : s.Keeps t) : s.Keeps (t.wr f u v) :=
  .after (.wr _ _ _ _) h

/-- An update of anything but the queue, the register file and memory. -/
theorem State.Keeps.update {s : State}
    {m' t' pw' img' brg' sec' tst' confReached' fn' msix' pba' sent' geyLatch' reqs' reqNext' move' foMoves'
      lastCpl' lastLink' queues' tensors' seqs' flights' vtime' wasReady' lastQ' readyAt' aged' stepNo'
      ceJoin' ceJoinG' epochUse' epochC1' lastEpoch' acct' frac' energyK' calTime' calUj' resident' region'
      cores' emb' arrays' vis' eqx' heads' ports' fresh' data'} :
    s.Keeps ⟨s.pending, s.csr, s.mem, m', t', pw', img', brg', sec', tst', confReached', fn', msix', pba',
      sent', geyLatch', reqs', reqNext', move', foMoves', lastCpl', lastLink', queues', tensors', seqs',
      flights', vtime', wasReady', lastQ', readyAt', aged', stepNo', ceJoin', ceJoinG', epochUse', epochC1',
      lastEpoch', acct', frac', energyK', calTime', calUj', resident', region', cores', emb', arrays', vis',
      eqx', heads', ports', fresh', data'⟩ :=
  .of_eq rfl rfl rfl

theorem State.Keeps.foldl {α : Type} {g : State → α → State} {l : List α} {s : State}
    (hg : ∀ (s : State) (x : α), s.Keeps (g s x)) : s.Keeps (l.foldl g s) := .each hg l s

theorem State.Keeps.forEach {α : Type} {g : State → α → State} {l : List α} {s : State}
    (hg : ∀ (s : State) (x : α), s.Keeps (g s x)) : s.Keeps (s.each l g) := .each hg l s

theorem State.Keeps.onAccess {s : State} {b : Blk} {g : State → State} (hg : ∀ s : State, s.Keeps (g s)) :
    s.Keeps (s.accessed b g) := .accessed s b hg

theorem State.Keeps.getD {s d : State} {o : Option State} (h : ∀ t, o = some t → s.Keeps t) (hd : s.Keeps d) :
    s.Keeps (o.getD d) := by
  cases o with
  | none => exact hd
  | some t => exact h t rfl

theorem State.Keeps.pair {α : Type} {s t : State} {x : α} (h : s.Keeps t) : s.Keeps (t, x).1 := h

theorem State.Keeps.of_fst {α : Type} {s t : State} {x : α} {p : State × α} (k : s.Keeps p.1) (h : p = (t, x)) :
    s.Keeps t := by
  subst h
  exact k

theorem State.Keeps.ite_fst {c : Prop} [Decidable c] {α : Type} {s : State} {a b : State × α} (ha : s.Keeps a.1)
    (hb : s.Keeps b.1) : s.Keeps (if c then a else b).1 := by split <;> assumption

theorem State.Keeps.foldl_fst {α β : Type} {g : State × β → α → State × β} {l : List α} {p : State × β}
    (hg : ∀ (p : State × β) (x : α), p.1.Keeps (g p x).1) : p.1.Keeps (l.foldl g p).1 := by
  induction l generalizing p with
  | nil => exact .refl _
  | cons x l ih => exact (hg p x).trans ih

/-- An outcome that is a next state, with the queue, the register file and memory kept. -/
def State.Answers (s : State) (o : Host.Outcome State Fault Refusal) : Prop := ∃ t, o = .next t ∧ s.Keeps t

theorem State.Answers.next {s t : State} (h : s.Keeps t) : s.Answers (.next t) := ⟨t, rfl, h⟩

end Sys2Proof.Machine
end

section
/-! What is kept: the operations every unit uses: functions, interrupts, memory, pages and frames. -/

namespace Sys2Proof.Machine

theorem State.Keeps.setCfg {s : State} {port ctx : Nat} {c : FnCfg} : s.Keeps (s.setCfg port ctx c) :=
  .update

theorem State.Keeps.setHome {s : State} {ctx port : Nat} : s.Keeps (s.setHome ctx port) :=
  .ite (.wr _ _ _ _) (.wr _ _ _ _)

theorem State.Keeps.access {s t : State} {b : Blk} (h : s.access b = some t) : s.Keeps t := by
  simpa only [State.accessed, h] using State.Keeps.accessed s b State.Keeps.refl

theorem State.Keeps.pcState {s : State} {pc st : Nat} : s.Keeps (s.pcState pc st) :=
  .ite (.refl _) (.after (.fire _ _) (.wr _ _ _ _))

theorem State.Keeps.startRetire {s : State} {pc : Nat} : s.Keeps (s.startRetire pc) :=
  .ite (.thenWr <| .thenWr <| .after .pcState .update) (.wr _ _ _ _)

theorem State.Keeps.nextRetire {s : State} : s.Keeps s.nextRetire := by
  unfold State.nextRetire
  split
  · exact .refl _
  split
  · exact .refl _
  · exact .after .startRetire <| .thenWr .update

theorem State.Keeps.wantRetire {s : State} {pc : Nat} : s.Keeps (s.wantRetire pc) :=
  .ite (.refl _) (.after .nextRetire .update)

theorem State.Keeps.noteUE {s : State} {pc : Nat} : s.Keeps (s.noteUE pc) :=
  .ite (.after .wantRetire .update) .update

theorem State.Keeps.firstUE {s : State} {line : Nat} : s.Keeps (s.firstUE line) := by
  unfold State.firstUE
  refine .after (.fire _ _) ?_
  split
  · exact .after .noteUE <| .after (.inc _ _ _ _) <| .thenWr <| .thenWr .update
  · exact .thenWr <| .thenWr .update

theorem State.Keeps.setPte {s : State} {ctx lvl va e : Nat} : s.Keeps (s.setPte ctx lvl va e) :=
  .update

theorem State.Keeps.touch {s : State} {ctx va : Nat} {write : Bool} : s.Keeps (s.touch ctx va write) := by
  unfold State.touch
  split
  · exact .refl _
  · exact .setPte

theorem State.Keeps.setFrame {s : State} {n : Nat} {f : Frame} : s.Keeps (s.setFrame n f) :=
  .update

theorem State.Keeps.charge {s : State} {ctx : Nat} {n : Int} : s.Keeps (s.charge ctx n) :=
  .update

theorem State.Keeps.markFrames {s : State} {n k : Nat} {f : Frame} : s.Keeps (s.markFrames n k f) :=
  .forEach fun _ _ => .setFrame

theorem State.Keeps.takeUnit {s t : State} {ctx u n : Nat} (h : s.takeUnit ctx u = some (t, n)) :
    s.Keeps t := by
  unfold State.takeUnit at h
  dsimp only at h
  split at h
  · obtain ⟨n', -, he⟩ := Option.map_eq_some_iff.1 h
    cases he
    exact .after .charge .markFrames
  · cases h

theorem State.Keeps.retireFrame {s : State} {n : Nat} : s.Keeps (s.retireFrame n) := by
  unfold State.retireFrame
  dsimp only
  split
  · split
    · split
      · exact .after .wantRetire <| .after .update <| .after (.fire _ _) .setFrame
      · exact .after .update <| .after (.fire _ _) .setFrame
    · exact .after .update <| .after (.fire _ _) .setFrame
  · exact .after .update <| .after (.fire _ _) .setFrame

theorem State.Keeps.releaseFrames {s : State} {n k : Nat} : s.Keeps (s.releaseFrames n k) :=
  .forEach fun _ _ => .ite .retireFrame .setFrame

theorem State.Keeps.decRef {s : State} {ctx n : Nat} : s.Keeps (s.decRef ctx n) := by
  unfold State.decRef
  dsimp only
  split
  · exact .setFrame
  · exact .ite (.after .charge .releaseFrames) .setFrame
  · exact .refl _

theorem State.Keeps.mapUnit {s : State} {ctx lvl va pa : Nat} {big sh : Bool} {cache xwr : Nat} :
    s.Keeps (s.mapUnit ctx lvl va pa big sh cache xwr) :=
  .ite (.forEach fun _ _ => .setPte) .setPte

theorem State.Keeps.repoint {s : State} {ctx lvl base pa : Nat} {big : Bool} :
    s.Keeps (s.repoint ctx lvl base pa big) :=
  .forEach fun _ _ => .setPte

theorem State.Keeps.cow {s t : State} {ctx va : Nat} (h : s.cow ctx va = some t) : s.Keeps t := by
  unfold State.cow at h
  split at h
  · cases h
    exact .refl _
  split at h
  · cases h
    exact .refl _
  dsimp only at h
  split at h
  · cases h
    exact .repoint
  split at h
  · cases h
  cases h
  exact .after .setFrame <| .after .repoint <| .after (.copyFrames _ _ _ _) (.takeUnit ‹_›)

theorem State.Keeps.dropTiles {s : State} {frame : Nat} : s.Keeps (s.dropTiles frame) :=
  .ite .update (.refl _)

theorem State.Keeps.stLine {s : State} {ctx va : Nat} {bs : List Byte} : s.Keeps (s.stLine ctx va bs).1 := by
  unfold State.stLine
  split
  · exact .refl _
  split
  · exact .fire _ _
  split
  · exact .cow ‹_›
  · exact .ite_fst (.after (.ite .firstUE (.refl _)) <| .after .touch (.cow ‹_›)) <|
      .after (.putBytes _ _ _) <| .after (.ite .dropTiles (.refl _)) <| .after (.ite .update (.refl _)) <|
      .after .touch (.cow ‹_›)

theorem State.Keeps.stBytes {s : State} {ctx va : Nat} {bs : List Byte} {fuel : Nat} :
    s.Keeps (s.stBytes ctx va bs fuel).1 := by
  induction fuel generalizing s va bs with
  | zero => exact .refl _
  | succ fuel ih =>
    unfold State.stBytes
    split
    · exact .refl _
    dsimp only
    split
    · exact .after ih (.of_fst .stLine ‹_›)
    · exact .after ih (.of_fst .stLine ‹_›)
    · exact .of_fst .stLine ‹_›

theorem State.Keeps.stChunks {s : State} {ctx : Nat} {cs : List Chunk} : s.Keeps (s.stChunks ctx cs).1 := by
  induction cs generalizing s with
  | nil => exact .refl _
  | cons c cs ih =>
    unfold State.stChunks
    split
    · exact .after ih (.of_fst .stBytes ‹_›)
    · exact .after ih (.of_fst .stBytes ‹_›)
    · exact .of_fst .stBytes ‹_›

theorem State.Keeps.detect {s : State} {ctx va : Nat} : s.Keeps (s.detect ctx va) := by
  unfold State.detect
  split
  · exact .ite .firstUE (.refl _)
  · exact .refl _

theorem State.Keeps.freeBytes {s : State} {ctx va n : Nat} : s.Keeps (s.freeBytes ctx va n) := by
  induction n generalizing s va with
  | zero => exact .refl _
  | succ n ih =>
    unfold State.freeBytes
    split
    · exact .after ih <| .after (.putByte _ _ _) .update
    · exact ih

theorem State.Keeps.setTensor {s : State} {ctx h : Nat} {t : Tensor} : s.Keeps (s.setTensor ctx h t) :=
  .update

theorem State.Keeps.setQueue {s : State} {gq : Nat} {q : Queue} : s.Keeps (s.setQueue gq q) :=
  .update

theorem State.Keeps.setFlight {s : State} {f : Flight} : s.Keeps (s.setFlight f) :=
  .update

theorem State.Keeps.dropFlight {s : State} {f : Flight} : s.Keeps (s.dropFlight f) :=
  .update

theorem State.Keeps.setHead {s : State} {h : Nat} {x : Head} : s.Keeps (s.setHead h x) :=
  .update

theorem State.Keeps.setCore {s : State} {id : Nat} {c : Core} : s.Keeps (s.setCore id c) :=
  .update

theorem State.Keeps.startFirmware {s : State} {id : Nat} {locFree : Bool} :
    s.Keeps (s.startFirmware id locFree) :=
  .after .setCore .update

end Sys2Proof.Machine
end

section
/-! What is kept: the operations on queues, flights and fences. -/

namespace Sys2Proof.Machine

theorem State.Keeps.acquire {s : State} {gq k : Nat} {inPlace : Bool} {outs : List Nat} :
    s.Keeps (s.acquire gq k inPlace outs) :=
  .ite (.refl _) (.forEach fun _ _ => .setTensor)

theorem State.Keeps.freeSlots {s : State} {f : Flight} : s.Keeps (s.freeSlots f) :=
  .forEach fun _ _ => .after .update (.forEach fun _ _ => .resetUnit _ _ _)

theorem State.Keeps.abortOuts {s : State} {f : Flight} : s.Keeps (s.abortOuts f) :=
  .ite (.refl _) (.forEach fun _ _ => .ite (.after (.ite .freeBytes (.refl _)) .setTensor) (.refl _))

theorem State.Keeps.embPerf {s : State} {i n : Nat} : s.Keeps (s.embPerf i n) :=
  .after (.fireIf _ _ _) (.wr _ _ _ _)

theorem State.Keeps.freeEmber {s : State} {f : Flight} {killed : Bool} : s.Keeps (s.freeEmber f killed) :=
  .ite (.after (.ite (.after (.fire _ _) (.wr _ _ _ _)) (.refl _)) <| .after (.ite .embPerf (.refl _)) <|
      .after (.forEach fun _ _ => .setCore) .update) (.refl _)

theorem State.Keeps.setLane {s : State} {l : Nat} {v : VisLane} : s.Keeps (s.setLane l v) :=
  .update

theorem State.Keeps.visState {s : State} {l st : Nat} : s.Keeps (s.visState l st) :=
  .ite (.refl _) (.after (.fire _ _) (.wr _ _ _ _))

theorem State.Keeps.laneSettle {s : State} {l : Nat} : s.Keeps (s.laneSettle l) := by
  unfold State.laneSettle
  dsimp only
  split
  · exact .refl _
  split
  · exact .after (.ite (.refl _) (.after .setLane <| .thenWr (.wr _ _ _ _))) <| .ite (.after .visState <|
        .after .setLane (.wr _ _ _ _)) (.ite .visState (.refl _))
  · exact .ite (.after .visState <| .after .setLane (.wr _ _ _ _)) (.ite .visState (.refl _))

theorem State.Keeps.freeLane {s : State} {f : Flight} : s.Keeps (s.freeLane f) := by
  unfold State.freeLane
  split
  · exact .refl _
  · exact .after .laneSettle <| .after .setLane <| .thenWr (.forEach fun _ _ => .wr _ _ _ _)

theorem State.Keeps.setStream {s : State} {i : Nat} {x : Stream} : s.Keeps (s.setStream i x) :=
  .update

theorem State.Keeps.freeRingSlot {s : State} {f : Flight} : s.Keeps (s.freeRingSlot f) :=
  .ite .setStream (.refl _)

theorem State.Keeps.dropReqs {s : State} {f : Flight} : s.Keeps (s.dropReqs f) :=
  .after (.ite .update (.refl _)) <| .after (.forEach fun _ _ => .after .charge .releaseFrames) <|
    .after .update <| .after .freeRingSlot <| .after .freeLane .freeEmber

theorem State.Keeps.releaseTails {s : State} {gq : Nat} : s.Keeps (s.releaseTails gq) :=
  .forEach fun _ _ => .update

theorem State.Keeps.kill {s : State} {f : Flight} : s.Keeps (s.kill f) :=
  .after .setFlight <| .after .dropReqs <| .after .freeSlots .abortOuts

theorem State.Keeps.preempt {s : State} {f : Flight} {strike : Bool} : s.Keeps (s.preempt f strike) :=
  .after .kill (.forEach fun _ _ => .thenWr (.inc _ _ _ _))

theorem State.Keeps.failFlight {s : State} {f : Flight} {status addr : Nat} :
    s.Keeps (s.failFlight f status addr) :=
  .after .setFlight <| .after .dropReqs <| .after .abortOuts .freeEmber

theorem State.Keeps.addAcct {s : State} {ctx i n : Nat} : s.Keeps (s.addAcct ctx i n) :=
  .update

theorem State.Keeps.chargeUse {s : State} {ctx : Nat} {u : Usage} : s.Keeps (s.chargeUse ctx u) :=
  .after (.ite (.after (.fire _ _) (.wr _ _ _ _)) (.refl _)) <| .after .addAcct <| .after .addAcct <|
    .after .addAcct <| .after .addAcct <| .after .addAcct <| .after .addAcct <| .after .addAcct <|
    .after .addAcct .update

theorem State.Keeps.commitOuts {s : State} {f : Flight} : s.Keeps (s.commitOuts f) :=
  .forEach fun _ _ => .ite .setTensor (.ite (.refl _) (.ite .setTensor .setTensor))

theorem State.Keeps.putRecord {s : State} {gq tag status satFlags slot g : Nat} :
    s.Keeps (s.putRecord gq tag status satFlags slot g) :=
  .after .setQueue (.ite (.refl _) .stBytes)

theorem State.Keeps.noteFault {s : State} {gq status slot addr : Nat} :
    s.Keeps (s.noteFault gq status slot addr) :=
  .ite (.refl _) (.ite (.wr _ _ _ _) (.ite (.thenWr <| .thenWr <| .thenWr <| .thenWr (.wr _ _ _ _)) (.refl _)))

theorem State.Keeps.stallQueue {s : State} {gq : Nat} : s.Keeps (s.stallQueue gq) :=
  .after .setQueue <| .after .releaseTails <| .forEach fun _ _ => .after .dropFlight <| .after .dropReqs <|
    .after .freeSlots .abortOuts

theorem State.Keeps.recordFires {s : State} {gq : Nat} {d : List Byte} {st : Nat} :
    s.Keeps (s.recordFires gq d st) :=
  .after (.fireIf _ _ _) <| .after (.fireIf _ _ _) (.fireIf _ _ _)

theorem State.Keeps.tryCommit {s : State} {gq op : Nat} {act : State → Flight → State}
    (hact : ∀ (s : State) (f : Flight), s.Keeps (act s f)) : s.Keeps (s.tryCommit gq op act) := by
  unfold State.tryCommit
  split
  · exact .refl _
  · exact .ite (.refl _) <| .after (.ite .stallQueue (.refl _)) <| .after (.ite .releaseTails (.refl _)) <|
      .after .recordFires <| .after .chargeUse <| .after .noteFault <| .after .dropFlight <|
      .after .freeSlots <| .after .setQueue <| .after .putRecord <|
      .after (.ite (hact _ _) (.refl _)) .commitOuts

theorem State.Keeps.noAct {s : State} {f : Flight} : s.Keeps (noAct s f) :=
  .refl _

theorem State.Keeps.enter {s : State} {gq : Nat} {c : Cand} {f : Flight} : s.Keeps (s.enter gq c f) := by
  unfold State.enter
  split
  · exact .setFlight
  · exact .after .setQueue .update

theorem State.Keeps.endNow {s : State} {gq : Nat} {c : Cand} {st addr : Nat} {act : State → Flight → State}
    (hact : ∀ (s : State) (f : Flight), s.Keeps (act s f)) : s.Keeps (s.endNow gq c st addr act) :=
  .after (.tryCommit hact) .enter

theorem State.Keeps.issueReads {s : State} {f : Flight} : s.Keeps (s.issueReads f) := by
  unfold State.issueReads
  refine .forEach fun s x => ?_
  split
  · exact .ite .update (.refl _)
  · exact .refl _

theorem State.Keeps.touchBinds {s : State} {f : Flight} : s.Keeps (s.touchBinds f) :=
  .forEach fun _ _ => .touch

theorem State.Keeps.fetchFault {s : State} {gq slot st addr : Nat} {act : State → Flight → State}
    (hact : ∀ (s : State) (f : Flight), s.Keeps (act s f)) : s.Keeps (s.fetchFault gq slot st addr act) :=
  .endNow hact

theorem State.Keeps.startCmd {s : State} {gq op : Nat} {act : State → Flight → State}
    (hact : ∀ (s : State) (f : Flight), s.Keeps (act s f)) {check : State → List Byte → Except (Nat × Nat) Plan}
    {blocked : State → List Byte → Bool} {go : State → Flight → Plan → State × Flight}
    (hgo : ∀ (s : State) (f : Flight) (p : Plan), s.Keeps (go s f p).1) {fin : State → State}
    (hfin : ∀ s : State, s.Keeps (fin s)) : s.Keeps (s.startCmd gq op act check blocked go fin) := by
  unfold State.startCmd
  split
  · exact .refl _
  · exact .ite (.fetchFault hact) (.refl _)
  refine .ite (.refl _) (.ite (.endNow hact) ?_)
  split
  · exact .endNow hact
  dsimp only
  split
  · exact .endNow hact
  · exact .ite (.refl _) <| .after (hfin _) <| .after .touchBinds <| .after .issueReads <| .after .enter <|
      .after (hgo _ _ _) .acquire

theorem State.Keeps.startShort {s : State} {gq op : Nat} {act : State → Flight → State}
    (hact : ∀ (s : State) (f : Flight), s.Keeps (act s f)) {check : State → List Byte → Except (Nat × Nat) Plan}
    : s.Keeps (s.startShort gq op act check) :=
  .startCmd hact (fun _ _ _ => .refl _) fun _ => .tryCommit hact

end Sys2Proof.Machine
end

section
/-! What is kept: the start of a job on a Caldera. -/

namespace Sys2Proof.Machine

theorem State.Keeps.touchRows {s : State} {ctx n : Nat} {vas : List Nat} : s.Keeps (s.touchRows ctx n vas) :=
  .forEach fun _ _ => .forEach fun _ _ => .touch

theorem State.Keeps.runJob {s : State} {ctx : Nat} {ip : Bool} {n : Nat} {j : Job} :
    s.Keeps (s.runJob ctx ip n j).1 := by
  unfold State.runJob
  dsimp only
  split
  · exact .detect
  · exact .forEach fun _ _ => .touchRows

end Sys2Proof.Machine
end

section
/-! What is kept: the reads of registers that have an effect. -/

namespace Sys2Proof.Machine

theorem State.Keeps.readReg {s : State} {r : Reg} {u half : Nat} : s.Keeps (s.readReg r u half) :=
  .after (.forEach fun _ _ => .wr _ _ _ _) .update

theorem State.Keeps.readBlk {s : State} {b : Blk} {r : Reg} {u half : Nat} :
    s.Keeps (s.readBlk b r u half) := by
  unfold State.readBlk
  split
  · exact .after .readReg (.access ‹_›)
  · exact .update

end Sys2Proof.Machine
end

section
/-! What is kept: the mapping requests and the frames a partition owns. -/

namespace Sys2Proof.Machine

theorem State.Keeps.takePage {s t : State} {ctx pa : Nat} (h : s.takePage ctx = some (t, pa)) : s.Keeps t := by
  unfold State.takePage at h
  split at h
  · cases h
    exact .setFrame
  obtain ⟨r, hr, he⟩ := Option.map_eq_some_iff.1 h
  cases he
  exact .takeUnit hr

theorem State.Keeps.takeSized {s t : State} {ctx sz pa : Nat} (h : s.takeSized ctx sz = some (t, pa)) :
    s.Keeps t := by
  unfold State.takeSized at h
  split at h
  · exact .takePage h
  obtain ⟨r, hr, he⟩ := Option.map_eq_some_iff.1 h
  cases he
  exact .takeUnit hr

theorem State.Keeps.mapNew {s t : State} {r : MapReq} {vas : List Nat} (h : s.mapNew r vas = some t) :
    s.Keeps t := by
  induction vas generalizing s with
  | nil =>
    cases h
    exact .refl _
  | cons va vas ih =>
    unfold State.mapNew at h
    split at h
    · cases h
    · exact .after (ih h) <| .after .mapUnit (.takeSized ‹_›)

theorem State.Keeps.doMap {s : State} {r : MapReq} : s.Keeps (s.doMap r).1 := by
  unfold State.doMap
  split
  · exact .refl _
  split
  · exact .mapNew ‹_›
  · exact .refl _

theorem State.Keeps.setShared {s : State} {ctx va : Nat} : s.Keeps (s.setShared ctx va) := by
  unfold State.setShared
  split
  · exact .refl _
  · exact .forEach fun _ _ => .setPte

theorem State.Keeps.shareUnit {s t : State} {r : MapReq} {va src : Nat} (h : s.shareUnit r va src = some t) :
    s.Keeps t := by
  unfold State.shareUnit at h
  split at h
  · cases h
  dsimp only at h
  split at h
  · cases h
  split at h
  · cases h
    exact .after .mapUnit .setFrame
  cases h
  exact .after .setShared <| .after .mapUnit .setFrame

theorem State.Keeps.shareAll {s t : State} {r : MapReq} {vs : List (Nat × Nat)} (h : s.shareAll r vs = some t) :
    s.Keeps t := by
  induction vs generalizing s with
  | nil =>
    cases h
    exact .refl _
  | cons v vs ih =>
    unfold State.shareAll at h
    split at h
    · cases h
    · exact .after (ih h) (.shareUnit ‹_›)

theorem State.Keeps.doShare {s : State} {r : MapReq} : s.Keeps (s.doShare r).1 := by
  unfold State.doShare
  split
  · exact .refl _
  split
  · exact .refl _
  split
  · exact .shareAll ‹_›
  · exact .refl _

theorem State.Keeps.unmapUnit {s : State} {ctx va : Nat} : s.Keeps (s.unmapUnit ctx va) := by
  unfold State.unmapUnit
  split
  · exact .refl _
  · exact .after (.ite (.refl _) .decRef) (.forEach fun _ _ => .setPte)

theorem State.Keeps.doUnmap {s : State} {r : MapReq} : s.Keeps (s.doUnmap r).1 :=
  .ite_fst (.refl _) (.forEach fun _ _ => .unmapUnit)

theorem State.Keeps.mapCtrl {s : State} {ctx val : Nat} {op : State → MapReq → State × Nat}
    (hop : ∀ (s : State) (r : MapReq), s.Keeps (op s r).1) : s.Keeps (s.mapCtrl ctx val op) :=
  .onAccess fun _ => .after (.ite (.refl _) (.after .update <| .thenWr (hop _ _))) <| .thenWr <| .thenWr <|
    .thenWr (.wr _ _ _ _)

theorem execVfMap_answers {ctx val : Nat} {s : State} : s.Answers (execVfMap ctx val s) :=
  .next (.mapCtrl fun _ _ => .doMap)

theorem execVfUnmap_answers {ctx val : Nat} {s : State} : s.Answers (execVfUnmap ctx val s) :=
  .next (.mapCtrl fun _ _ => .doUnmap)

theorem execVfShare_answers {ctx val : Nat} {s : State} : s.Answers (execVfShare ctx val s) :=
  .next (.mapCtrl fun _ _ => .doShare)

theorem execMapRequestEnd_answers {ctx : Nat} {s : State} : s.Answers (execMapRequestEnd ctx s) :=
  .next (.ite (.after .update (.wr _ _ _ _)) (.refl _))

theorem execCopyOnWrite_answers {ctx va : Nat} {s : State} : s.Answers (execCopyOnWrite ctx va s) := by
  refine .next ?_
  split
  · exact .cow ‹_›
  · exact .fire _ _

theorem State.Keeps.pownAlloc {s : State} {r : PownReq} : s.Keeps (s.pownAlloc r).1 := by
  unfold State.pownAlloc
  split
  · exact .refl _
  refine .ite_fst (.refl _) ?_
  split
  · exact .refl _
  · exact .after .update <| .after (.ite .update (.refl _)) (.forEach fun _ _ => .setFrame)

theorem State.Keeps.pownFree {s : State} {r : PownReq} : s.Keeps (s.pownFree r).1 := by
  unfold State.pownFree
  split
  · exact .refl _
  · exact .ite_fst (.refl _) (.ite_fst (.refl _) (.after .update .releaseFrames))

theorem State.Keeps.pownMap {s : State} {r : PownReq} : s.Keeps (s.pownMap r).1 := by
  unfold State.pownMap
  split
  · exact .refl _
  · exact .ite_fst (.refl _) (.forEach fun _ _ => .after .mapUnit .setFrame)

theorem State.Keeps.pownUnmap {s : State} {r : PownReq} : s.Keeps (s.pownUnmap r).1 := by
  unfold State.pownUnmap
  split
  · exact .refl _
  · exact .ite_fst (.refl _) (.forEach fun _ _ => .unmapUnit)

theorem State.Keeps.pownCtrl {s : State} {val : Nat} {op : State → PownReq → State × Nat}
    (hop : ∀ (s : State) (r : PownReq), s.Keeps (op s r).1) : s.Keeps (s.pownCtrl val op) :=
  .onAccess fun _ => .after (.ite (.refl _) (.after .update <| .thenWr (hop _ _))) <| .thenWr <| .thenWr <|
    .thenWr <| .thenWr <| .thenWr <| .thenWr (.wr _ _ _ _)

theorem execPownAlloc_answers {val : Nat} {s : State} : s.Answers (execPownAlloc val s) :=
  .next (.pownCtrl fun _ _ => .pownAlloc)

theorem execPownFree_answers {val : Nat} {s : State} : s.Answers (execPownFree val s) :=
  .next (.pownCtrl fun _ _ => .pownFree)

theorem execPownMap_answers {val : Nat} {s : State} : s.Answers (execPownMap val s) :=
  .next (.pownCtrl fun _ _ => .pownMap)

theorem execPownUnmap_answers {val : Nat} {s : State} : s.Answers (execPownUnmap val s) :=
  .next (.pownCtrl fun _ _ => .pownUnmap)

theorem execPownRequestEnd_answers {s : State} : s.Answers (execPownRequestEnd s) :=
  .next (.ite (.after .update <| .after (.ite (.refl _) (.wr _ _ _ _)) (.wr _ _ _ _)) (.refl _))

theorem execMemPcStatusRead_answers {pc half : Nat} {s : State} : s.Answers (execMemPcStatusRead pc half s) :=
  .next .readBlk

end Sys2Proof.Machine
end

section
/-! What is kept: the operations Equinox shares with the units around it. -/

namespace Sys2Proof.Machine

theorem State.Keeps.eqxFire {s : State} {k bit : Nat} : s.Keeps (s.eqxFire k bit) :=
  .after (.fire _ _) .update

theorem State.Keeps.eqxTenantLate {s : State} {i : Nat} : s.Keeps (s.eqxTenantLate i) :=
  .ite (.fire _ _) (.refl _)

theorem State.Keeps.eqxState {s : State} {i st : Nat} : s.Keeps (s.eqxState i st) :=
  .ite (.refl _) (.after .eqxFire (.wr _ _ _ _))

theorem State.Keeps.eqxTrigger {s : State} {i : Nat} {src : Option Source} : s.Keeps (s.eqxTrigger i src) :=
  .ite (.refl _) (.after (.ite (.after .eqxFire (.wr _ _ _ _)) (.wr _ _ _ _)) (.ite .setStream (.refl _)))

theorem State.Keeps.eqxCommitted {s : State} {ctx h : Nat} {geom : Option (Nat × Nat × Nat × Nat)} :
    s.Keeps (s.eqxCommitted ctx h geom) :=
  .forEach fun _ _ => .eqxTrigger

theorem State.Keeps.eqxLose {s : State} {t : Nat} : s.Keeps (s.eqxLose t) :=
  .forEach fun _ _ => .setStream

end Sys2Proof.Machine
end

section
/-! What is kept: the commands of queues and fences. -/

namespace Sys2Proof.Machine

theorem State.Keeps.wrQctrl {s : State} {ctx val : Nat} : s.Keeps (s.wrQctrl ctx val) :=
  .thenWr <| .thenWr <| .thenWr (.wr _ _ _ _)

theorem execQueueCreate_answers {ctx val : Nat} {s : State} : s.Answers (execQueueCreate ctx val s) :=
  .next <| .onAccess fun _ => .after (.ite (.refl _) <| .ite (.wr _ _ _ _) <| .ite (.wr _ _ _ _) <|
      .ite (.wr _ _ _ _) (.ite (.wr _ _ _ _) (.thenWr .setQueue))) .wrQctrl

theorem State.Keeps.abortDeferred {s : State} {gq : Nat} : s.Keeps (s.abortDeferred gq) :=
  .forEach fun _ _ => .ite (.after (.ite .freeBytes (.refl _)) .setTensor) (.refl _)

theorem State.Keeps.erase {s : State} {f : Flight} : s.Keeps (s.erase f) :=
  .after .dropFlight <| .after .dropReqs <| .after .freeSlots .abortOuts

theorem execQueueDestroy_answers {ctx : Nat} {s : State} : s.Answers (execQueueDestroy ctx s) :=
  .next <| .onAccess fun _ => .ite (.refl _) <| .ite (.wr _ _ _ _) <| .ite (.wr _ _ _ _) <| .thenWr <|
    .after .setQueue (.forEach fun _ _ => .erase)

/-- A structural recursion on fuel keeps its state if each round does when the recursive calls do. -/
theorem State.Keeps.brecOn
    {F : (n : Nat) → Nat.below (motive := fun _ => State → Nat → State) n → State → Nat → State}
    (hzero : ∀ rec (s : State) k, s.Keeps (F 0 rec s k))
    (hsucc : ∀ n rec, (∀ (s : State) k, s.Keeps (rec.1 s k)) → ∀ (s : State) k, s.Keeps (F (n + 1) rec s k))
    (n : Nat) (s : State) (k : Nat) : s.Keeps (Nat.brecOn (motive := fun _ => State → Nat → State) n F s k) := by
  induction n generalizing s k with
  | zero => exact hzero _ s k
  | succ n ih => exact hsucc n _ ih s k

/-- The function has no equation lemmas: the kernel would evaluate the read of the ring that its case split is on. -/
theorem State.Keeps.killedRecords {s : State} {gq k fuel : Nat} : s.Keeps (s.killedRecords gq k fuel) := by
  delta State.killedRecords
  refine .brecOn (fun _ s k => .refl s) (fun n rec ih s k => ?_) fuel s k
  delta State.killedRecords._f
  refine .ite (.refl _) ?_
  split
  · exact .after (ih _ _) <| .after .setQueue <| .after (.fire _ _) .putRecord
  · exact .refl _

theorem State.Keeps.endUnrecorded {s : State} {f : Flight} : s.Keeps (s.endUnrecorded f) :=
  .after .chargeUse <| .after .dropFlight <| .after .freeSlots .commitOuts

theorem execDestroyEnd_answers {ctx q : Nat} {s : State} : s.Answers (execDestroyEnd ctx q s) :=
  .next <| .ite (.thenWr <| .after .setQueue <| .after .releaseTails <| .after .killedRecords <|
      .after .abortDeferred (.forEach fun _ _ => .endUnrecorded)) (.refl _)

theorem execQueueResume_answers {ctx : Nat} {s : State} : s.Answers (execQueueResume ctx s) :=
  .next (.onAccess fun _ => .ite (.refl _) (.ite (.thenWr .setQueue) (.wr _ _ _ _)))

theorem execVfQctrlRead_answers {ctx half : Nat} {s : State} : s.Answers (execVfQctrlRead ctx half s) :=
  .next (.after (.ite .setQueue (.refl _)) .readBlk)

/-- The function is unfolded before it is applied: with its arguments in place the kernel would evaluate the read of
the fence that its first case split is on. -/
theorem State.Keeps.pollFence {s : State} {f : Flight} : s.Keeps (s.pollFence f) := by
  have key : ∀ p, p = State.pollFence → s.Keeps (p s f) := by
    intro p hp
    delta State.pollFence at hp
    subst hp
    beta_reduce
    split
    · exact .after (.tryCommit fun _ _ => .noAct) .failFlight
    split
    · exact .refl _
    · exact .after (.tryCommit fun _ _ => .noAct) .setFlight
  exact key _ rfl

theorem execDoorbell_answers {ctx q half val : Nat} {s : State} :
    s.Answers (execDoorbell ctx q half val s) := by
  unfold execDoorbell
  refine .next ?_
  dsimp only
  refine .onAccess fun s => ?_
  split
  · exact .inc _ _ _ _
  split
  · exact .wake _ _
  split
  · exact .after .setQueue (.wake _ _)
  split
  · split
    · exact .after .pollFence <| .after .setQueue (.wake _ _)
    · exact .after .setQueue (.wake _ _)
  · exact .after .setQueue (.wake _ _)

theorem execFenceWait_answers {ctx q : Nat} {s : State} : s.Answers (execFenceWait ctx q s) := by
  unfold execFenceWait
  refine .next ?_
  dsimp only
  split
  · exact .after (.ite .pollFence (.refl _)) <| .startCmd (fun _ _ => .noAct) (fun _ _ _ => .refl _) fun _ =>
      .refl _
  · exact .startCmd (fun _ _ => .noAct) (fun _ _ _ => .refl _) fun _ => .refl _

theorem execFencePoll_answers {ctx q : Nat} {s : State} : s.Answers (execFencePoll ctx q s) := by
  refine .next ?_
  split
  · exact .pollFence
  · exact .refl _

theorem execFenceTimeout_answers {ctx q : Nat} {s : State} : s.Answers (execFenceTimeout ctx q s) := by
  refine .next ?_
  split
  · exact .ite (.after (.tryCommit fun _ _ => .noAct) .failFlight) (.refl _)
  · exact .refl _

theorem State.Keeps.signalAct {s : State} {f : Flight} : s.Keeps (signalAct s f) :=
  .after (.forEach fun _ _ => .pollFence) <| .after (.fireIf _ _ _) .stBytes

theorem execFenceSignal_answers {ctx q : Nat} {s : State} : s.Answers (execFenceSignal ctx q s) :=
  .next (.startShort fun _ _ => .signalAct)

theorem execNopCmd_answers {ctx q : Nat} {s : State} : s.Answers (execNopCmd ctx q s) :=
  .next (.startShort fun _ _ => .noAct)

theorem State.Keeps.defineAct {s : State} {f : Flight} : s.Keeps (defineAct s f) :=
  .setTensor

theorem execTensorDefine_answers {ctx q : Nat} {s : State} : s.Answers (execTensorDefine ctx q s) :=
  .next (.startShort fun _ _ => .defineAct)

theorem State.Keeps.releaseAct {s : State} {f : Flight} : s.Keeps (releaseAct s f) :=
  .setTensor

theorem execTensorRelease_answers {ctx q : Nat} {s : State} : s.Answers (execTensorRelease ctx q s) :=
  .next (.startShort fun _ _ => .releaseAct)

theorem State.Keeps.versionCommitAct {s : State} {f : Flight} : s.Keeps (versionCommitAct s f) :=
  .forEach fun _ _ => .after .eqxCommitted .setTensor

theorem State.Keeps.versionAbortAct {s : State} {f : Flight} : s.Keeps (versionAbortAct s f) :=
  .forEach fun _ _ => .after (.ite .freeBytes (.refl _)) .setTensor

theorem execVersionCommit_answers {ctx q : Nat} {s : State} : s.Answers (execVersionCommit ctx q s) :=
  .next (.startShort fun _ _ => .versionCommitAct)

theorem execVersionAbort_answers {ctx q : Nat} {s : State} : s.Answers (execVersionAbort ctx q s) :=
  .next (.startShort fun _ _ => .versionAbortAct)

theorem execTtRead_answers {ctx handle : Nat} {s : State} : s.Answers (execTtRead ctx handle s) :=
  .next (.onAccess fun _ => .forEach fun _ _ => .wr _ _ _ _)

theorem execTtCapWrite_answers {ctx val : Nat} {s : State} : s.Answers (execTtCapWrite ctx val s) :=
  .next (.onAccess fun _ => .ite (.thenWr <| .after .update .charge) (.refl _))

end Sys2Proof.Machine
end

section
/-! What is kept: the commands of sequences, swapping and the tensor table. -/

namespace Sys2Proof.Machine

theorem State.Keeps.setSeq {s : State} {ctx h : Nat} {q : Seq} : s.Keeps (s.setSeq ctx h q) :=
  .update

theorem State.Keeps.mapPage {s : State} {ctx va : Nat} : s.Keeps (s.mapPage ctx va) := by
  unfold State.mapPage
  split
  · exact .after .mapUnit (.takeUnit ‹_›)
  · exact .refl _

theorem State.Keeps.growMap {s : State} {ctx : Nat} {g : List (Nat × Nat × Nat)} : s.Keeps (s.growMap ctx g) :=
  .forEach fun _ _ => .after (.forEach fun _ _ => .mapPage) <| .forEach fun _ _ => .getD (fun _ h => .cow h)
    (.refl _)

theorem State.Keeps.swapPage {s : State} {ctx h va : Nat} : s.Keeps (s.swapPage ctx h va) :=
  .after .unmapUnit <| .after .update <| .after .setSeq (.putBytes _ _ _)

theorem State.Keeps.swapOut {s : State} {ctx h : Nat} : s.Keeps (s.swapOut ctx h) :=
  .after .setTensor <| .after .setSeq (.forEach fun _ _ => .swapPage)

theorem State.Keeps.swapIn {s : State} {ctx h : Nat} {frames : List Nat} : s.Keeps (s.swapIn ctx h frames) :=
  .after .setTensor <| .after .setSeq <| .after .update (.forEach fun _ _ => .after (.putBytes _ _ _) .mapUnit)

theorem State.Keeps.failPark {s : State} {f : Flight} : s.Keeps (s.failPark f) :=
  .after (.fire _ _) <| .thenWr .failFlight

theorem State.Keeps.takeFrames {s : State} {ctx n : Nat} : s.Keeps (s.takeFrames ctx n).1 := by
  induction n generalizing s with
  | zero => exact .refl _
  | succ n ih =>
    unfold State.takeFrames
    split
    · exact .refl _
    · exact .after ih (.takeUnit ‹_›)

theorem State.Keeps.resumePark {s : State} {f : Flight} : s.Keeps (s.resumePark f) :=
  .after (.ite (.after .setFlight .takeFrames) (.after .setFlight .growMap)) (.wr _ _ _ _)

theorem State.Keeps.resolvePark {s : State} {ctx fuel : Nat} : s.Keeps (s.resolvePark ctx fuel) := by
  induction fuel generalizing s with
  | zero => exact .refl _
  | succ fuel ih =>
    unfold State.resolvePark
    split
    · exact .refl _
    refine .ite (.after ih .resumePark) ?_
    split
    · exact .after ih .failPark
    · exact .ite (.after ih .failPark) .setSeq

theorem State.Keeps.park {s : State} {f : Flight} {need : Nat} : s.Keeps (s.park f need) :=
  .after (.ite .failPark (.ite .resolvePark (.refl _))) <| .after (.fire _ _) <| .thenWr <| .thenWr <|
    .thenWr <| .thenWr <| .thenWr <| .thenWr <| .after .setFlight .freeSlots

theorem execVictimSwappedOut_answers {ctx : Nat} {s : State} : s.Answers (execVictimSwappedOut ctx s) := by
  refine .next ?_
  split
  · exact .refl _
  · exact .after .resolvePark <| .after (.inc _ _ _ _) .swapOut

theorem State.Keeps.newSeq {s : State} {ctx h : Nat} {q : Seq} {len : Nat} : s.Keeps (s.newSeq ctx h q len) :=
  .after .setSeq .setTensor

theorem State.Keeps.seqCreateAct {s : State} {f : Flight} : s.Keeps (seqCreateAct s f) :=
  .newSeq

theorem execSeqCreate_answers {ctx q : Nat} {s : State} : s.Answers (execSeqCreate ctx q s) :=
  .next (.startShort fun _ _ => .seqCreateAct)

theorem State.Keeps.seqForkAct {s : State} {f : Flight} : s.Keeps (seqForkAct s f) :=
  .after (.forEach fun _ _ => .getD (fun _ h => .shareUnit h) (.refl _)) .newSeq

theorem execSeqFork_answers {ctx q : Nat} {s : State} : s.Answers (execSeqFork ctx q s) :=
  .next (.startCmd (fun _ _ => .seqForkAct) (fun _ _ _ => .refl _) fun _ => .tryCommit fun _ _ => .seqForkAct)

theorem State.Keeps.freeSeq {s : State} {ctx h : Nat} : s.Keeps (s.freeSeq ctx h) :=
  .after .setTensor <| .after .setSeq <| .after .update (.forEach fun _ _ => .unmapUnit)

theorem State.Keeps.seqFreeAct {s : State} {f : Flight} : s.Keeps (seqFreeAct s f) :=
  .freeSeq

theorem execSeqFree_answers {ctx q : Nat} {s : State} : s.Answers (execSeqFree ctx q s) :=
  .next (.startCmd (fun _ _ => .seqFreeAct) (fun _ _ _ => .refl _) fun _ => .tryCommit fun _ _ => .seqFreeAct)

theorem State.Keeps.swapOutAct {s : State} {f : Flight} : s.Keeps (swapOutAct s f) :=
  .swapOut

theorem execKvSwapOut_answers {ctx q : Nat} {s : State} : s.Answers (execKvSwapOut ctx q s) :=
  .next (.startCmd (fun _ _ => .swapOutAct) (fun _ _ _ => .setSeq) fun _ => .refl _)

theorem State.Keeps.swapInAct {s : State} {f : Flight} : s.Keeps (swapInAct s f) :=
  .swapIn

theorem execKvSwapIn_answers {ctx q : Nat} {s : State} : s.Answers (execKvSwapIn ctx q s) := by
  refine .next ?_
  refine .startCmd (fun _ _ => .swapInAct) (fun _ _ _ => .ite_fst .takeFrames (.refl _)) fun s => ?_
  split
  · exact .park
  · exact .refl _

end Sys2Proof.Machine
end

section
/-! What is kept: the commands the Calderas run, and their steps. -/

namespace Sys2Proof.Machine

theorem State.Keeps.takeRegion {s : State} {e slot n ctx : Nat} : s.Keeps (s.takeRegion e slot n ctx) :=
  .forEach fun _ _ => .update

theorem State.Keeps.slotState {s : State} {f : Flight} {st : Nat} : s.Keeps (s.slotState f st) :=
  .forEach fun _ _ => .wr _ _ _ _

theorem State.Keeps.tryRegion {s : State} {f : Flight} : s.Keeps (s.tryRegion f) :=
  .ite (.after .setFlight <| .after .slotState (.forEach fun _ _ => .takeRegion)) .setFlight

theorem State.Keeps.ceFail {s : State} {f : Flight} {st addr : Nat} : s.Keeps (s.ceFail f st addr) :=
  .after .failFlight .slotState

theorem State.Keeps.takeTails {s : State} {gq : Nat} {c : CeCmd} : s.Keeps (s.takeTails gq c) :=
  .forEach fun _ _ => .after (.ite .setTensor (.refl _)) .setSeq

/-- A check of a Caldera command's body gives computations that keep what they start from. -/
def GoKeeps (x : Except (Nat × Nat) CeCmd) : Prop := ∀ c, x = .ok c → ∀ (s : State) (n : Nat), s.Keeps (c.go s n).1

theorem GoKeeps.error {e : Nat × Nat} : GoKeeps (.error e) := fun _ h => nomatch h

theorem GoKeeps.ok {c : CeCmd} (h : ∀ (s : State) (n : Nat), s.Keeps (c.go s n).1) : GoKeeps (.ok c) := by
  rintro _ ⟨⟩
  exact h

theorem GoKeeps.ite {p : Prop} [Decidable p] {a b : Except (Nat × Nat) CeCmd} (ha : GoKeeps a) (hb : GoKeeps b)
    : GoKeeps (if p then a else b) := by split <;> assumption

theorem State.Keeps.ceStart {s : State} {gq op : Nat}
    {check : State → Nat → List Byte → Except (Nat × Nat) CeCmd}
    (hcheck : ∀ (s : State) (gq : Nat) (d : List Byte), GoKeeps (check s gq d)) :
    s.Keeps (s.ceStart gq op check) := by
  unfold State.ceStart
  split
  · exact .refl _
  refine .ite .tryRegion (.ite .ceFail ?_)
  split
  · exact .after .ceFail (.ite .detect (.refl _))
  have hgo := hcheck _ _ _ _ ‹_›
  exact .ite .ceFail <| .ite (.refl _) <| .ite .park <| .after .tryRegion <| .after .issueReads <|
    .after (.forEach fun _ _ => .wr _ _ _ _) <| .after .takeTails <| .after .acquire <|
    .after (hgo _ _) .growMap

theorem execSequencerBind_answers {ce : Nat} {s : State} : s.Answers (execSequencerBind ce s) := by
  unfold execSequencerBind
  refine .next ?_
  dsimp only
  split
  · exact .refl _
  · exact .after .startFirmware <| .after .setFlight <| .thenWr (.wr _ _ _ _)

theorem execRegionZeroed_answers {ce slot : Nat} {s : State} : s.Answers (execRegionZeroed ce slot s) :=
  .next .update

theorem execRegionWait_answers {ctx q : Nat} {s : State} : s.Answers (execRegionWait ctx q s) := by
  refine .next ?_
  split
  · exact .fire _ _
  · exact .refl _

theorem State.Keeps.stopInPlace {s : State} {f : Flight} {st : Nat} : s.Keeps (s.stopInPlace f st) :=
  .after .failFlight <| .after .slotState <| .after .stChunks .update

theorem State.Keeps.killSlots {s : State} {f : Flight} : s.Keeps (s.killSlots f) :=
  .after .kill (.forEach fun _ _ => .wr _ _ _ _)

theorem State.Keeps.loseUnit {s : State} {f : Flight} : s.Keeps (s.loseUnit f) :=
  .ite .killSlots .stopInPlace

theorem State.Keeps.setCe {s : State} {e st : Nat} : s.Keeps (s.setCe e st) :=
  .ite (.refl _) (.after (.fire _ _) (.wr _ _ _ _))

theorem State.Keeps.ceDone {s : State} {e res : Nat} : s.Keeps (s.ceDone e res) :=
  .after (.fire _ _) (.wr _ _ _ _)

theorem State.Keeps.ceTakeOut {s : State} {e : Nat} : s.Keeps (s.ceTakeOut e) :=
  .after .update <| .after (.forEach fun _ _ => .killSlots) <| .thenWr .setCe

theorem State.Keeps.ceFault {s : State} {e : Nat} : s.Keeps (s.ceFault e) :=
  .ite (.after .update .ceTakeOut) (.refl _)

end Sys2Proof.Machine
end

section
/-! What is kept: the keys of memory. -/

namespace Sys2Proof.Machine

theorem State.Keeps.issueKey {s : State} {ctx : Nat} : s.Keeps (s.issueKey ctx) :=
  .update

theorem State.Keeps.issueBoot {s : State} : s.Keeps s.issueBoot :=
  .after .issueKey .update

theorem State.Keeps.endConn {s : State} {ctx : Nat} : s.Keeps (s.endConn ctx) :=
  .update

end Sys2Proof.Machine
end

section
/-! What is kept: bring-up, resets, memory tests and the error records of memory. -/

namespace Sys2Proof.Machine

theorem State.Keeps.openM0 {s : State} : s.Keeps s.openM0 :=
  .after .setQueue .update

theorem State.Keeps.setReadiness {s : State} {st reason : Nat} : s.Keeps (s.setReadiness st reason) :=
  .ite (.refl _) <| .after (.fire _ _) <| .after .update <| .after (.ite .openM0 (.refl _)) <|
    .thenWr (.wr _ _ _ _)

theorem State.Keeps.failed {s : State} {reason : Nat} : s.Keeps (s.failed reason) :=
  .setReadiness

theorem execPllLock_answers {s : State} : s.Answers (execPllLock s) :=
  .next (.ite (.after .setReadiness .update) (.refl _))

theorem execPllLockTimeout_answers {s : State} : s.Answers (execPllLockTimeout s) :=
  .next (.ite .failed (.refl _))

theorem execPllLost_answers {s : State} : s.Answers (execPllLost s) :=
  .next (.ite (.thenWr (.restart _)) (.refl _))

theorem State.Keeps.firmwareRoute {s : State} {src : Nat} : s.Keeps (s.firmwareRoute src) :=
  .thenWr <| .after (.resetUnit _ _ _) <| .thenWr <| .thenWr <| .thenWr (.wr _ _ _ _)

theorem State.Keeps.firmwareRouting {s : State} : s.Keeps s.firmwareRouting :=
  .after (.forEach fun _ _ => .firmwareRoute) .update

theorem execFirmwareMulticast_answers {fw : List FwImage} {dead : List Nat} {s : State} :
    s.Answers (execFirmwareMulticast fw dead s) := by
  refine .next ?_
  split
  · exact .refl _
  split
  · exact .failed
  · exact .ite .failed <| .after (.forEach fun _ _ => .startFirmware) <| .after .issueBoot <|
      .after .firmwareRouting <| .after .setReadiness .update

theorem execPathChosen_answers {certs : Bool} {s : State} : s.Answers (execPathChosen certs s) :=
  .next <| .ite (.refl _) <| .ite .failed <| .after .setReadiness <| .thenWr <| .after (.forEach fun _ _ =>
      .wr _ _ _ _) .update

theorem execTrainingDone_answers {hbms : List (Nat × Nat × Nat)} {spares : List Nat} {s : State} :
    s.Answers (execTrainingDone hbms spares s) :=
  .next <| .ite (.refl _) <| .after .setReadiness <| .thenWr <| .after (.forEach fun _ _ => .ite .pcState
      (.ite (.thenWr .pcState) .pcState)) <| .forEach fun _ _ => .ite (.thenWr <| .thenWr (.wr _ _ _ _))
    (.refl _)

theorem State.Keeps.pcCount {s : State} {pc lo n : Nat} : s.Keeps (s.pcCount pc lo n) :=
  .update

theorem State.Keeps.repairRow {s : State} {pc : Nat} : s.Keeps (s.repairRow pc) :=
  .after (.fireIf _ _ _) <| .after .update <| .after (.fire _ _) <| .after .pcCount (.wr _ _ _ _)

theorem State.Keeps.testRows {s : State} {pc : Nat} {rows : List Nat} : s.Keeps (s.testRows pc rows).1 := by
  induction rows generalizing s with
  | nil => exact .refl _
  | cons r rows ih =>
    unfold State.testRows
    exact .ite_fst (.refl _) <| .after ih <| .after (.inc _ _ _ _) <| .after .update .repairRow

theorem State.Keeps.testChannel {s : State} {pc : Nat} {rows : List Nat} : s.Keeps (s.testChannel pc rows).1 :=
  .after .testRows <| .after (.inc _ _ _ _) .update

theorem State.Keeps.endMemtest {s : State} {rows : List Nat} : s.Keeps (s.endMemtest rows) := by
  unfold State.endMemtest
  refine .after .setReadiness ?_
  refine .after (.fire _ _) ?_
  refine .thenWr ?_
  split
  · refine .forEach fun s x => ?_
    split
    · split
      · exact .of_fst .testChannel ‹_›
      · exact .after (.inc _ _ _ _) <| .after .pcState (.of_fst .testChannel ‹_›)
    · exact .refl _
  refine .after .update ?_
  refine .forEach fun s x => ?_
  split
  · split
    · exact .of_fst .testChannel ‹_›
    · exact .after (.inc _ _ _ _) <| .after .pcState (.of_fst .testChannel ‹_›)
  · exact .refl _

/-- Forgetting a set clears its bytes. -/
theorem State.Keeps.clearSet {s : State} {lo hi : Nat} {m' : MemState} :
    s.Keeps { s with mem := Sparse.clear s.mem lo hi, m := m' } :=
  (State.Keeps.clearMem s lo hi).trans .update

theorem State.Keeps.dropSet {s : State} {n : Nat} : s.Keeps (s.dropSet n) :=
  .after (.forEach fun _ _ => .wr _ _ _ _) .clearSet

theorem State.Keeps.keepRetired {s : State} {pc frame : Nat} : s.Keeps (s.keepRetired pc frame) :=
  .ite .setFrame (.refl _)

theorem State.Keeps.restoreBad {s : State} {l : List (Nat × Nat × Nat)} : s.Keeps (s.restoreBad l) := by
  unfold State.restoreBad
  refine .forEach fun s x => ?_
  split
  · exact .refl _
  · exact .ite .update (.ite (.after .keepRetired .update) .keepRetired)

theorem State.Keeps.keepRecorded {s : State} {p n k : Nat} : s.Keeps (s.keepRecorded p n k) :=
  .after .update (.forEach fun _ _ => .setFrame)

theorem State.Keeps.formSets {s : State} {p : Nat} {chans : List Nat} : s.Keeps (s.formSets p chans) :=
  .forEach fun _ _ => .after .keepRecorded (.forEach fun _ _ => .after .pcState <| .thenWr (.wr _ _ _ _))

theorem State.Keeps.regroup {s : State} {p : Nat} {added gone : List Nat} : s.Keeps (s.regroup p added gone) :=
  .after .restoreBad <| .after .formSets (.forEach fun _ _ => .dropSet)

theorem State.Keeps.setFloor {s : State} {i v : Nat} : s.Keeps (s.setFloor i v) :=
  .update

theorem State.Keeps.refloorPcs {s : State} : s.Keeps s.refloorPcs :=
  .ite (.refl _) (.after (.fire _ _) <| .after .setFloor <| .after .setFloor .setFloor)

theorem State.Keeps.showFloor {s : State} : s.Keeps s.showFloor :=
  .thenWr <| .thenWr <| .thenWr <| .thenWr <| .after (.forEach fun _ _ => .wr _ _ _ _) <|
    .after (.forEach fun _ _ => .thenWr (.wr _ _ _ _)) <| .forEach fun _ _ => .thenWr <| .thenWr <|
    .thenWr (.wr _ _ _ _)

theorem State.Keeps.writeHealth {s : State} {ok : Bool} : s.Keeps (s.writeHealth ok) :=
  .ite (.after (.fire _ _) .update) (.after (.fire _ _) .update)

theorem execHealthRecordWrite_answers {ok : Bool} {s : State} : s.Answers (execHealthRecordWrite ok s) :=
  .next (.ite .writeHealth (.refl _))

theorem State.Keeps.brgCtrl {s : State} {val : Nat} : s.Keeps (s.brgCtrl val) :=
  .thenWr <| .thenWr <| .thenWr (.wr _ _ _ _)

theorem execNextFullWrite_answers {val : Nat} {ok : Bool} {s : State} :
    s.Answers (execNextFullWrite val ok s) :=
  .next (.onAccess fun _ => .after (.ite .writeHealth (.refl _)) .brgCtrl)

theorem State.Keeps.showTests {s : State} : s.Keeps s.showTests :=
  .after (.fire _ _) (.forEach fun _ _ => .after (.inc _ _ _ _) (.wr _ _ _ _))

theorem execCheckingDone_answers {words : List Nat} {ok : Bool} {s : State} :
    s.Answers (execCheckingDone words ok s) :=
  .next <| .ite (.refl _) <| .after .setReadiness <| .after .writeHealth <| .after .showTests <|
    .after .showFloor .update

theorem State.Keeps.pcCtrl {s : State} {val : Nat} {op : State → Nat → State}
    (hop : ∀ (s : State) (n : Nat), s.Keeps (op s n)) : s.Keeps (s.pcCtrl val op) :=
  .after (.ite (.refl _) (hop _ _)) (.wr _ _ _ _)

theorem State.Keeps.pcDone {s : State} {res : Nat} : s.Keeps (s.pcDone res) :=
  .after .nextRetire <| .after (.fire _ _) (.wr _ _ _ _)

theorem execPcRetire_answers {val : Nat} {s : State} : s.Answers (execPcRetire val s) :=
  .next (.onAccess fun _ => .pcCtrl fun _ _ => .startRetire)

theorem State.Keeps.moveUnit {s : State} {src dst k : Nat} : s.Keeps (s.moveUnit src dst k) :=
  .after .update <| .after (.forEach fun _ _ => .after .setFrame .setFrame) (.copyFrames _ _ _ _)

theorem State.Keeps.moveOut {s : State} {p n fuel : Nat} : s.Keeps (s.moveOut p n fuel) := by
  induction fuel generalizing s with
  | zero => exact .refl _
  | succ fuel ih =>
    unfold State.moveOut
    split
    · exact .refl _
    dsimp only
    split
    · exact .refl _
    · exact .after ih .moveUnit

theorem State.Keeps.retireEnd {s : State} {pc : Nat} : s.Keeps (s.retireEnd pc) :=
  .after (.ite .pcDone <| .after (.ite (.thenWr <| .thenWr <| .after .pcState <| .after (.fire _ _)
          (.wr _ _ _ _)) .pcDone) <| .after (.fireIf _ _ _) <| .after .refloorPcs <| .after .update <|
      .after .pcState .regroup) <| .thenWr .moveOut

theorem execRetireEnd_answers {pc : Nat} {s : State} : s.Answers (execRetireEnd pc s) :=
  .next (.ite .retireEnd (.refl _))

theorem execPcTest_answers {val : Nat} {s : State} : s.Answers (execPcTest val s) :=
  .next <| .onAccess fun _ => .pcCtrl fun _ _ => .ite (.thenWr <| .thenWr <| .after .pcState .update)
    (.wr _ _ _ _)

theorem State.Keeps.returnPc {s : State} {pc : Nat} : s.Keeps (s.returnPc pc) :=
  .after (.fire _ _) <| .thenWr <| .after .refloorPcs <| .after .update (.ite .pcState .formSets)

theorem execPcReturn_answers {val : Nat} {s : State} : s.Answers (execPcReturn val s) :=
  .next (.onAccess fun _ => .pcCtrl fun _ _ => .ite .returnPc (.wr _ _ _ _))

theorem State.Keeps.endPcTest {s : State} {rows : List Nat} : s.Keeps (s.endPcTest rows) :=
  .after (.ite (.after (.ite (.after .nextRetire .returnPc) .nextRetire) <| .after (.fire _ _) <|
        .thenWr .update) (.after .pcDone .update)) <| .after (.fire _ _) <| .thenWr <|
    .after .pcState .testChannel

theorem execMemtestDone_answers {rows : List Nat} {s : State} : s.Answers (execMemtestDone rows s) :=
  .next (.ite .endMemtest (.ite .endPcTest (.refl _)))

theorem execRowRepaired_answers {pc : Nat} {s : State} : s.Answers (execRowRepaired pc s) :=
  .next (.ite (.refl _) (.ite .wantRetire .repairRow))

theorem execScrubRead_answers {pc : Nat} {found : EccResult} {s : State} :
    s.Answers (execScrubRead pc found s) := by
  refine .next (.ite (.refl _) ?_)
  extract_lets _ line _ _ _ s1 _ s2 s3
  clear_value line
  have h2 : s.Keeps s2 := .after .update (.inc _ _ _ _)
  have h3 : s.Keeps s3 := by
    refine .ite ?_ (.ite (.after (.fireIf _ _ _) h2) (.refl _))
    split
    · exact .firstUE
    · exact .refl _
  exact .ite (.after (.fire _ _) <| .after .update h3) (.after .update h3)

theorem execBrgMemtestRead_answers {half : Nat} {s : State} : s.Answers (execBrgMemtestRead half s) :=
  .next .readBlk

theorem State.Keeps.ceCtrl {s : State} {e : Nat} {op : State → State} (hop : ∀ s : State, s.Keeps (op s)) :
    s.Keeps (s.ceCtrl e op) :=
  .ite (.refl _) (hop _)

theorem execCeRemove_answers {ce val : Nat} {s : State} : s.Answers (execCeRemove ce val s) :=
  .next (.onAccess fun _ => .ceCtrl fun _ => .ite .ceTakeOut (.wr _ _ _ _))

theorem State.Keeps.ceTestStart {s : State} {e : Nat} : s.Keeps (s.ceTestStart e) :=
  .thenWr <| .thenWr .setCe

theorem execCeTest_answers {ce val : Nat} {s : State} : s.Answers (execCeTest ce val s) :=
  .next (.onAccess fun _ => .ceCtrl fun _ => .ite .ceTestStart (.wr _ _ _ _))

theorem State.Keeps.ceReload {s : State} {e : Nat} : s.Keeps (s.ceReload e) :=
  .thenWr .setCe

theorem execCeReturn_answers {ce val : Nat} {s : State} : s.Answers (execCeReturn ce val s) :=
  .next (.onAccess fun _ => .ceCtrl fun _ => .ite .ceReload (.wr _ _ _ _))

theorem execRemoveEnd_answers {ce : Nat} {s : State} : s.Answers (execRemoveEnd ce s) :=
  .next (.ite (.refl _) (.after (.ite .ceTestStart (.ite .ceReload (.refl _))) <| .after .ceDone .setCe))

theorem execReloadEnd_answers {ce : Nat} {s : State} : s.Answers (execReloadEnd ce s) :=
  .next (.ite (.refl _) .update)

theorem State.Keeps.ceFailCount {s : State} {e : Nat} : s.Keeps (s.ceFailCount e) :=
  .update

theorem State.Keeps.ceTestEnd {s : State} {e : Nat} {pass : Bool} : s.Keeps (s.ceTestEnd e pass) :=
  .after (.ite (.after (.ite .ceReload (.refl _)) <| .after .ceDone <| .after (.fire _ _) .update) <|
      .after .update <| .after .ceDone <| .after (.fire _ _) <| .after .ceFailCount .update) .setCe

theorem State.Keeps.deviceFault {s : State} {ok : Bool} : s.Keeps (s.deviceFault ok) :=
  .after (.ite .failed (.restart _)) <| .after .writeHealth .update

theorem execFatalFabricError_answers {ok : Bool} {s : State} : s.Answers (execFatalFabricError ok s) :=
  .next (.ite (.refl _) .deviceFault)

theorem State.Keeps.fumaroleHalt {s : State} {fc : Nat} {ok : Bool} : s.Keeps (s.fumaroleHalt fc ok) :=
  .after (.ite (.after .deviceFault .update) <| .ite (.after .update <| .after .ceTakeOut .update) .update)
    (.fire _ _)

theorem execFumaroleRestarted_answers {fc : Nat} {ok : Bool} {s : State} :
    s.Answers (execFumaroleRestarted fc ok s) :=
  .next <| .ite (.refl _) <| .after (.ite .writeHealth (.refl _)) <| .after (.ite .nextRetire (.refl _)) <|
    .after (.ite .ceReload (.refl _)) <| .after .startFirmware <| .after (.fire _ _) .update

theorem execBrgRestart_answers {val : Nat} {ok : Bool} {s : State} : s.Answers (execBrgRestart val ok s) :=
  .next (.onAccess fun _ => .after (.restart _) <| .after (.ite .writeHealth (.refl _)) .brgCtrl)

end Sys2Proof.Machine
end

section
/-! What is kept: the start of an ATTENTION. -/

namespace Sys2Proof.Machine

theorem State.Keeps.attGo {s : State} {ctx : Nat} {b : AttBody} {ents : List Ent} :
    s.Keeps (s.attGo ctx b ents).1 := by
  unfold State.attGo
  dsimp only
  split
  · exact .detect
  split
  · exact .detect
  · exact .after (.ite (.refl _) <| .forEach fun _ _ => .forEach fun _ _ => .touchRows) (.forEach fun _ _ =>
        .touchRows)

theorem State.Keeps.attAct {s : State} {f : Flight} : s.Keeps (attAct s f) := by
  unfold Sys2Proof.Machine.attAct
  dsimp only
  split
  · refine .forEach fun s x => ?_
    split
    · exact .ite .setSeq (.refl _)
    · exact .refl _
  · exact .refl _

end Sys2Proof.Machine
end

section
/-! What is kept: the steps of the batch scheduler. -/

namespace Sys2Proof.Machine

theorem State.Keeps.noteReady {s : State} : s.Keeps s.noteReady := by
  unfold State.noteReady
  refine .after (.forEach fun _ _ => .ite .update (.refl _)) ?_
  refine .after .update ?_
  refine .forEach fun s x => ?_
  split
  · exact .refl _
  · exact .update

theorem State.Keeps.addVtime {s : State} {gq n : Nat} : s.Keeps (s.addVtime gq n) :=
  .update

theorem State.Keeps.displace {s : State} {ctx cls : Nat} {ip : Bool} {fr : List Nat} :
    s.Keeps (s.displace ctx cls ip fr) := by
  unfold State.displace
  dsimp only
  split
  · split
    · exact .refl _
    split
    · exact .refl _
    split
    · exact .preempt
    · exact .refl _
  split
  · split
    · exact .refl _
    split
    · exact .preempt
    · exact .refl _
  · exact .refl _

theorem State.Keeps.makeRoom {s : State} {e : Nat} {keep : Nat × Nat} {need fuel : Nat} :
    s.Keeps (s.makeRoom e keep need fuel) := by
  induction fuel generalizing s with
  | zero => exact .refl _
  | succ fuel ih =>
    unfold State.makeRoom
    refine .ite (.refl _) ?_
    split
    · exact .refl _
    · exact .after ih <| .after (.fireIf _ _ _) .update

theorem State.Keeps.reside {s : State} {e p m : Nat} {fr : List Nat} : s.Keeps (s.reside e p m fr) :=
  .ite (.refl _) (.after .update .makeRoom)

theorem State.Keeps.fillSlot {s : State} {gq e i : Nat} {f : Flight} : s.Keeps (s.fillSlot gq e i f) :=
  .thenWr <| .thenWr <| .thenWr <| .thenWr <| .thenWr <| .thenWr <| .thenWr <| .thenWr (.wr _ _ _ _)

theorem State.Keeps.placeOne {s : State} {gq : Nat} {c : Cand} {es : List Nat} {k : Nat} :
    s.Keeps (s.placeOne gq c es k) :=
  .after .update <| .after .enter (.forEach fun _ _ => .fillSlot)

theorem State.Keeps.placeStep {s t : State} {gq : Nat} {late : Bool} (h : s.placeStep gq late = some t) :
    s.Keeps t := by
  unfold State.placeStep at h
  split at h
  · cases h
  dsimp only at h
  split at h
  · cases h
  obtain ⟨es, -, he⟩ := Option.map_eq_some_iff.1 h
  subst he
  exact .after (.forEach fun _ _ => .reside) <| .after (.forEach fun _ _ => .placeOne) <| .after .update <|
    .ite (.refl _) .displace

/-- The first step that can be placed, if any, is placed on the state of the picks. -/
theorem State.Keeps.placeFirst {s : State} {qs : List Nat} {late : Bool} :
    s.Keeps ((qs.findSome? fun gq => s.placeStep gq late).getD s) :=
  .getD (fun _ h => have ⟨_, _, hp⟩ := List.exists_of_findSome?_eq_some h; .placeStep hp) (.refl _)

theorem execBatchStepPlace_answers {s : State} : s.Answers (execBatchStepPlace s) :=
  .next (.after .placeFirst .noteReady)

theorem execBatchWaitExpiry_answers {s : State} : s.Answers (execBatchWaitExpiry s) :=
  .next (.after .placeFirst .noteReady)

theorem execAging_answers {s : State} : s.Answers (execAging s) :=
  .next (.after (.forEach fun _ _ => .ite .update (.refl _)) .noteReady)

theorem State.Keeps.reserveKills {s : State} : s.Keeps s.reserveKills := by
  unfold State.reserveKills
  refine .forEach fun s x => ?_
  split
  · exact .refl _
  split
  · exact .preempt
  · exact .refl _

theorem State.Keeps.fairKills {s : State} : s.Keeps s.fairKills := by
  unfold State.fairKills
  refine .forEach fun s x => ?_
  split
  · exact .refl _
  refine .forEach fun s x => ?_
  split
  · exact .preempt
  · exact .refl _

theorem State.Keeps.rescale {s : State} : s.Keeps s.rescale :=
  .ite (.refl _) (.after (.fire _ _) (.wr _ _ _ _))

theorem State.Keeps.countAttempt {s : State} {f : Flight} {u : Usage} : s.Keeps (s.countAttempt f u) :=
  .after (.forEach fun _ _ => .ite .embPerf (.after (.fireIf _ _ _) (.wr _ _ _ _))) <|
    .after (.ite .embPerf (.refl _)) <| .after (.ite (.forEach fun _ _ => .update) (.refl _)) <|
    .after (.ite .update (.refl _)) .addVtime

end Sys2Proof.Machine
end

section
/-! What is kept: the Caldera commands of a queue. -/

namespace Sys2Proof.Machine

theorem ofJob_goKeeps {s : State} {gq : Nat} {d : List Byte} {j : Job} : GoKeeps (ofJob s gq d j) := by
  unfold ofJob
  split
  · exact .error
  · exact .ite .error (.ok fun _ _ => .runJob)

theorem jobCheck_goKeeps {mk : State → List Byte → Except (Nat × Nat) Job} (s : State) (gq : Nat)
    (d : List Byte) : GoKeeps (jobCheck mk s gq d) := by
  unfold jobCheck
  split
  · exact .error
  · exact ofJob_goKeeps

theorem execMatmul_answers {ctx q : Nat} {s : State} : s.Answers (execMatmul ctx q s) :=
  .next (.ceStart jobCheck_goKeeps)

theorem execVector_answers {ctx q : Nat} {s : State} : s.Answers (execVector ctx q s) :=
  .next (.ceStart jobCheck_goKeeps)

theorem execConv_answers {ctx q : Nat} {s : State} : s.Answers (execConv ctx q s) :=
  .next (.ceStart jobCheck_goKeeps)

theorem execPool_answers {ctx q : Nat} {s : State} : s.Answers (execPool ctx q s) :=
  .next (.ceStart jobCheck_goKeeps)

theorem execCropResize_answers {ctx q : Nat} {s : State} : s.Answers (execCropResize ctx q s) :=
  .next (.ceStart jobCheck_goKeeps)

theorem execArgmax_answers {ctx q : Nat} {s : State} : s.Answers (execArgmax ctx q s) :=
  .next (.ceStart jobCheck_goKeeps)

theorem execRegroup_answers {ctx q : Nat} {s : State} : s.Answers (execRegroup ctx q s) :=
  .next (.ceStart jobCheck_goKeeps)

theorem execCodec_answers {ctx q : Nat} {s : State} : s.Answers (execCodec ctx q s) :=
  .next (.ceStart jobCheck_goKeeps)

theorem attCheck_goKeeps (s : State) (gq : Nat) (d : List Byte) : GoKeeps (attCheck s gq d) := by
  unfold attCheck
  refine .ite .error ?_
  split
  · exact .error
  refine .ite .error ?_
  split
  · exact .error
  refine .ite .error (.ite .error ?_)
  dsimp only
  split
  · exact .error
  split
  · exact .error
  refine .ite .error (.ite .error (.ite .error (.ite .error ?_)))
  split
  · exact .error
  · exact .ite .error (.ok fun _ _ => .attGo)

theorem execAttention_answers {ctx q : Nat} {s : State} : s.Answers (execAttention ctx q s) :=
  .next (.ceStart attCheck_goKeeps)

theorem State.Keeps.satEvent {s : State} {f : Flight} {fmtTo action : Nat} :
    s.Keeps (s.satEvent f fmtTo action) :=
  .after (.fire _ _) <| .thenWr <| .thenWr <| .thenWr <| .thenWr <| .thenWr <| .thenWr <| .thenWr (.wr _ _ _ _)

theorem State.Keeps.endOk {s : State} {f : Flight} {event : Bool} : s.Keeps (s.endOk f event) :=
  .after .setFlight <| .after .slotState <| .after .freeLane .freeEmber

theorem State.Keeps.rerun {s : State} {f : Flight} {n : Nat} : s.Keeps (s.rerun f n) :=
  .after .killSlots <| .after .chargeUse .satEvent

theorem State.Keeps.codecErrors {s : State} {f : Flight} : s.Keeps (s.codecErrors f) :=
  .ite (.refl _) (.after (.fire _ _) (.inc _ _ _ _))

theorem State.Keeps.finish {s : State} {f : Flight} {u : Usage} : s.Keeps (s.finish f u) := by
  unfold State.finish
  dsimp only
  split
  · exact .after .failFlight <| .after .slotState <| .after .codecErrors .countAttempt
  split
  · exact .after .failFlight <| .after .slotState <| .after (.of_fst .stChunks ‹_›) <|
      .after .codecErrors .countAttempt
  split
  · exact .after .endOk <| .after (.of_fst .stChunks ‹_›) <| .after .codecErrors .countAttempt
  · exact .after .endOk <| .after .satEvent <| .after (.of_fst .stChunks ‹_›) <|
      .after .codecErrors .countAttempt
  · exact .after .rerun <| .after (.of_fst .stChunks ‹_›) <| .after .codecErrors .countAttempt

theorem execAttemptEnd_answers {ctx q slot : Nat} {use : Usage} {s : State} :
    s.Answers (execAttemptEnd ctx q slot use s) := by
  refine .next ?_
  split
  · exact .refl _
  · exact .ite (.refl _) .finish

theorem execInPlaceLimitExpiry_answers {ctx q written : Nat} {s : State} :
    s.Answers (execInPlaceLimitExpiry ctx q written s) := by
  refine .next ?_
  split
  · exact .refl _
  · exact .after .failFlight <| .after .slotState .stChunks

theorem execRunLimitExpiry_answers {ctx q : Nat} {s : State} : s.Answers (execRunLimitExpiry ctx q s) := by
  refine .next ?_
  split
  · exact .refl _
  · exact .after .failFlight <| .after .slotState (.forEach fun _ _ => .thenWr (.inc _ _ _ _))

theorem execArrayParity_answers {ce slot : Nat} {s : State} : s.Answers (execArrayParity ce slot s) := by
  refine .next ?_
  split
  · refine .after .ceFault ?_
    split
    · exact .after .loseUnit (.fire _ _)
    · exact .fire _ _
  · exact .refl _

theorem State.Keeps.sramCorrected {s : State} {ce : Nat} : s.Keeps (s.sramCorrected ce) :=
  .after (.fire _ _) (.inc _ _ _ _)

theorem State.Keeps.sramUncorrectable {s : State} {ce mem bank off slot : Nat} :
    s.Keeps (s.sramUncorrectable ce mem bank off slot) := by
  unfold State.sramUncorrectable
  dsimp only
  split
  · exact .after (.fire _ _) <| .thenWr <| .thenWr <| .thenWr (.inc _ _ _ _)
  split
  · exact .after (.fire _ _) <| .thenWr <| .thenWr <| .thenWr (.inc _ _ _ _)
  · exact .after (.ite .killSlots .stopInPlace) <| .after (.fire _ _) <| .thenWr <| .thenWr <|
      .thenWr (.inc _ _ _ _)

theorem execCeSramErrRead_answers {ce half : Nat} {s : State} : s.Answers (execCeSramErrRead ce half s) :=
  .next .readBlk

theorem execCeCodecErrRead_answers {ce : Nat} {s : State} : s.Answers (execCeCodecErrRead ce s) :=
  .next .readBlk

theorem execSchCeStatusRead_answers {ce half : Nat} {s : State} : s.Answers (execSchCeStatusRead ce half s) :=
  .next .readBlk

end Sys2Proof.Machine
end

section
/-! What is kept: the copy commands. -/

namespace Sys2Proof.Machine

theorem State.Keeps.copyGo {s : State} {f : Flight} {p : Plan} : s.Keeps (copyGo s f p).1 := by
  unfold Sys2Proof.Machine.copyGo
  dsimp only
  split
  · exact .detect
  · exact .ite (.refl _) .touchRows

theorem State.Keeps.clearUnit {s : State} {op n cls : Nat} : s.Keeps (s.clearUnit op n cls) := by
  unfold State.clearUnit
  split
  · exact .refl _
  split
  · exact .kill
  · exact .refl _

theorem execCopyCmd_answers {ctx q : Nat} {s : State} : s.Answers (execCopyCmd ctx q s) :=
  .next <| .startCmd (fun _ _ => .noAct) (fun _ _ _ => .after .copyGo .clearUnit) fun _ => .tryCommit fun _ _ =>
    .noAct

end Sys2Proof.Machine
end

section
/-! What is kept: the vision lanes. -/

namespace Sys2Proof.Machine

theorem State.Keeps.paDetect {s : State} {pa n : Nat} : s.Keeps (s.paDetect pa n) :=
  .forEach fun _ _ => .firstUE

theorem State.Keeps.paWrite {s : State} {pa : Nat} {bs : List Byte} {fuel : Nat} :
    s.Keeps (s.paWrite pa bs fuel) := by
  induction fuel generalizing s pa bs with
  | zero => exact .refl _
  | succ fuel ih =>
    unfold State.paWrite
    exact .ite (.refl _) <| .after ih <| .after .dropTiles <| .ite (.after (.putBytes _ _ _) .update) <|
      .ite (.ite .firstUE (.refl _)) (.putBytes _ _ _)

theorem State.Keeps.paChunks {s : State} {cs : List Chunk} : s.Keeps (s.paChunks cs) :=
  .forEach fun _ _ => .paWrite

theorem State.Keeps.visFire {s : State} {l k : Nat} : s.Keeps (s.visFire l k) :=
  .fire _ _

theorem State.Keeps.visAdd {s : State} {l : Nat} {trg ovf : Fld} {n : Nat} : s.Keeps (s.visAdd l trg ovf n) :=
  .ite (.after .visFire <| .thenWr (.wr _ _ _ _)) (.wr _ _ _ _)

theorem State.Keeps.visTake {s : State} {l : Nat} {trg : Fld} : s.Keeps (s.visTake l trg) :=
  .wr _ _ _ _

theorem State.Keeps.visSetBusy {s : State} {l b : Nat} {on : Bool} : s.Keeps (s.visSetBusy l b on) :=
  .wr _ _ _ _

theorem State.Keeps.visStop {s : State} {l : Nat} : s.Keeps (s.visStop l) :=
  .after (.ite (.after .laneSettle .visState) .laneSettle) <| .after .setLane (.forEach fun _ _ => .wr _ _ _ _)

theorem State.Keeps.visFault {s : State} {l pa : Nat} : s.Keeps (s.visFault l pa) :=
  .after (.ite .visStop (.refl _)) <| .after .visState <| .after .visFire <| .thenWr (.wr _ _ _ _)

theorem State.Keeps.visCmdEnd {s : State} {l : Nat} {ecc : Bool} {next : State → State}
    (hnext : ∀ s : State, s.Keeps (next s)) : s.Keeps (s.visCmdEnd l ecc next) := by
  unfold State.visCmdEnd
  split
  · exact .ite .kill (hnext _)
  · exact .refl _

theorem State.Keeps.visCmdDone {s : State} {l : Nat} : s.Keeps (s.visCmdDone l) :=
  .setLane

theorem execVisEnable_answers {lane : Nat} {s : State} : s.Answers (execVisEnable lane s) :=
  .next <| .onAccess fun _ => .ite (.refl _) <| .after .visState <| .after .setLane <|
    .thenWr (.forEach fun _ _ => .resetUnit _ _ _)

theorem execVisDisable_answers {lane : Nat} {s : State} : s.Answers (execVisDisable lane s) :=
  .next <| .onAccess fun _ => .ite (.refl _) <| .after (.ite (.after .visState (.wr _ _ _ _)) .laneSettle)
    (.wr _ _ _ _)

theorem execVisTrigAdd_answers {lane val : Nat} {s : State} : s.Answers (execVisTrigAdd lane val s) :=
  .next (.onAccess fun _ => .ite .visAdd (.refl _))

theorem State.Keeps.pyrStart {s : State} {l : Nat} {g : VisGeom} : s.Keeps (s.pyrStart l g) := by
  unfold State.pyrStart
  extract_lets _ s1 _
  have h1 : s.Keeps s1 := .visTake
  clear_value s1
  split
  · exact .after .visFault h1
  refine .ite (.after .laneSettle <| .after .visFire <| .after .paDetect h1) <| .ite (.after .laneSettle <|
      .after .visFire h1) ?_
  split
  · exact .after .visFault h1
  · exact .after .visSetBusy h1

theorem execPyramidRunStart_answers {lane : Nat} {s : State} : s.Answers (execPyramidRunStart lane s) := by
  unfold execPyramidRunStart
  refine .next ?_
  dsimp only
  split
  · exact .refl _
  split
  · exact .after .visSetBusy .visTake
  split
  · exact .refl _
  split
  · exact .pyrStart
  · exact .refl _

theorem State.Keeps.pyrEnd {s : State} {l : Nat} {ecc : Bool} {g : VisGeom} : s.Keeps (s.pyrEnd l ecc g) :=
  .after .laneSettle <| .after .visFire <| .after (.ite .visFire (.refl _)) <| .after .visAdd <|
    .after .visSetBusy <| .thenWr <| .after .setLane (.ite .paDetect (.after .paChunks .update))

theorem execPyrDone_answers {lane : Nat} {ecc : Bool} {s : State} : s.Answers (execPyrDone lane ecc s) := by
  refine .next ?_
  split
  · exact .refl _
  split
  · exact .visCmdEnd fun _ => .after (.ite .visCmdDone (.wr _ _ _ _)) .visSetBusy
  split
  · exact .pyrEnd
  · exact .refl _

theorem execMotionRunStart_answers {lane : Nat} {s : State} : s.Answers (execMotionRunStart lane s) := by
  unfold execMotionRunStart
  refine .next ?_
  dsimp only
  split
  · exact .refl _
  split
  · exact .after .visSetBusy .visTake
  split
  · exact .visTake
  split
  · exact .after .visFault .visTake
  · exact .after .visSetBusy <| .after .paWrite .visTake

theorem State.Keeps.motEnd {s : State} {l : Nat} {ecc : Bool} {g : VisGeom} : s.Keeps (s.motEnd l ecc g) :=
  .after .laneSettle <| .after .visFire <| .after (.ite .visFire (.refl _)) <| .after .visAdd <|
    .after .visSetBusy <| .after .setLane <| .ite (.after .paDetect .paDetect) <| .after .paChunks <|
    .after .paWrite .update

theorem execMotDone_answers {lane : Nat} {ecc : Bool} {s : State} : s.Answers (execMotDone lane ecc s) := by
  refine .next ?_
  split
  · exact .refl _
  split
  · exact .visCmdEnd fun _ => .thenWr .visSetBusy
  split
  · exact .motEnd
  · exact .refl _

theorem execRefineRunStart_answers {lane : Nat} {s : State} : s.Answers (execRefineRunStart lane s) :=
  .next (.ite (.refl _) (.after .visSetBusy .visTake))

theorem State.Keeps.refEnd {s : State} {l : Nat} {ecc : Bool} {g : VisGeom} : s.Keeps (s.refEnd l ecc g) :=
  .after .laneSettle <| .after .visFire <| .after (.ite .visFire (.refl _)) <| .after (.forEach fun _ _ =>
      .eqxTrigger) <| .after .visSetBusy <| .thenWr <| .after .setLane <| .ite (.refl _) <| .after .paWrite <|
    .after .paWrite .paChunks

theorem execFrameDone_answers {lane : Nat} {ecc : Bool} {s : State} : s.Answers (execFrameDone lane ecc s) := by
  refine .next ?_
  split
  · exact .refl _
  split
  · exact .visCmdEnd fun _ => .after .visCmdDone .visSetBusy
  split
  · exact .refEnd
  · exact .refl _

theorem State.Keeps.visGo {s : State} {f : Flight} {p : Plan} : s.Keeps (visGo s f p).1 := by
  unfold Sys2Proof.Machine.visGo
  dsimp only
  split
  · exact .detect
  split
  · exact .detect
  · exact .after (.ite (.refl _) .touchRows) <| .after .touchRows .update

theorem State.Keeps.visBegin {s : State} {f : Flight} {p : Plan} : s.Keeps (s.visBegin f p).1 := by
  unfold State.visBegin
  exact .after .visGo <| .after .setLane <| .thenWr <| .thenWr <| .thenWr (.wr _ _ _ _)

theorem State.Keeps.visClear {s : State} {cls : Nat} : s.Keeps (s.visClear cls) := by
  unfold State.visClear
  split
  · exact .refl _
  split
  · exact .kill
  · exact .refl _

theorem execVisionRun_answers {ctx q : Nat} {s : State} : s.Answers (execVisionRun ctx q s) :=
  .next <| .startCmd (fun _ _ => .noAct) (fun _ _ _ => .after .visBegin .visClear) fun _ =>
    .tryCommit fun _ _ => .noAct

theorem State.Keeps.visRebind {s : State} {l port part : Nat} : s.Keeps (s.visRebind l port part) :=
  .after .laneSettle <| .after .setLane (.ite .visStop (.refl _))

end Sys2Proof.Machine
end

section
/-! What is kept: the warp lines. -/

namespace Sys2Proof.Machine

theorem State.Keeps.layerLine {s : State} {h refresh wa y : Nat} {line : List Rgb} :
    s.Keeps (s.layerLine h refresh wa y line).1 := by
  refine .foldl_fst (p := (s, line)) fun p j => ?_
  dsimp only
  split
  · exact .refl _
  · exact .after .eqxFire .setHead

theorem State.Keeps.writeStripe {s : State} {h i : Nat} {w : Warp} {k : Nat} :
    s.Keeps (s.writeStripe h i w k) :=
  .forEach fun _ _ => .after .stBytes .layerLine

theorem State.Keeps.tryWarp {s : State} {h : Nat} : s.Keeps (s.tryWarp h) := by
  unfold State.tryWarp
  dsimp only
  split
  · exact .ite .setHead (.refl _)
  · exact .refl _

theorem State.Keeps.fillWaits {s : State} {i : Nat} : s.Keeps (s.fillWaits i) := by
  unfold State.fillWaits
  split
  · exact .refl _
  · exact .ite (.refl _) (.after .tryWarp <| .after .eqxFire .setHead)

end Sys2Proof.Machine
end

section
/-! What is kept: the streams of Equinox. -/

namespace Sys2Proof.Machine

theorem State.Keeps.eqxSeq {s t : State} {i : Nat} {p : StreamPar} (h : s.eqxSeq i p = some t) : s.Keeps t := by
  unfold State.eqxSeq at h
  split at h
  · dsimp only at h
    split at h
    · cases h
    cases h
    exact .after .setStream <| .after .newSeq .update
  · cases h

theorem State.Keeps.eqxBegin {s t : State} {i : Nat} {p : StreamPar} (h : s.eqxBegin i p = some t) :
    s.Keeps t := by
  obtain ⟨u, hu, he⟩ := Option.map_eq_some_iff.1 h
  subst he
  exact .after .eqxState <| .after (.forEach fun _ _ => .resetUnit _ _ _) <| .after .setStream <|
    .after (.eqxSeq hu) .setStream

theorem State.Keeps.eqxEnd {s : State} {i : Nat} : s.Keeps (s.eqxEnd i) :=
  .after (.ite (.wr _ _ _ _) (.refl _)) <| .after .eqxState <| .thenWr <| .after .setStream <|
    .after (.ite (.refl _) .freeSeq) .freeSeq

theorem State.Keeps.eqxSettle {s : State} {i : Nat} : s.Keeps (s.eqxSettle i) := by
  unfold State.eqxSettle
  dsimp only
  split
  · exact .refl _
  split
  · exact .eqxEnd
  split
  · exact .eqxEnd
  · exact .after (.ite .setStream (.refl _)) <| .after (.eqxBegin ‹_›) .eqxEnd

theorem State.Keeps.eqxStopNow {s : State} {i : Nat} : s.Keeps (s.eqxStopNow i) :=
  .ite (.after .eqxSettle .setStream) (.refl _)

theorem State.Keeps.eqxRestart {s : State} {i : Nat} {keep : Bool} {p : StreamPar} :
    s.Keeps (s.eqxRestart i keep p) :=
  .ite (.after .eqxSettle .setStream) (.getD (fun _ h => .eqxBegin h) (.refl _))

theorem State.Keeps.eqxCtrlFields {s : State} {i val : Nat} : s.Keeps (s.eqxCtrlFields i val) :=
  .after (.ite (.refl _) (.wr _ _ _ _)) <| .thenWr <| .thenWr <| .thenWr <| .thenWr (.wr _ _ _ _)

theorem execEqxStart_answers {stream val : Nat} {s : State} : s.Answers (execEqxStart stream val s) := by
  unfold execEqxStart
  refine .next ?_
  dsimp only
  refine .onAccess fun s => ?_
  split
  · exact .refl _
  split
  · exact .eqxCtrlFields
  split
  · exact .thenWr .eqxCtrlFields
  split
  · exact .thenWr .eqxCtrlFields
  split
  · exact .thenWr .eqxCtrlFields
  split
  · exact .thenWr <| .after (.eqxBegin ‹_›) .eqxCtrlFields
  · exact .thenWr .eqxCtrlFields

theorem execEqxStop_answers {stream val : Nat} {s : State} : s.Answers (execEqxStop stream val s) :=
  .next <| .onAccess fun _ => .ite (.refl _) <| .after (.ite (.refl _) <| .ite (.wr _ _ _ _) <|
      .ite (.wr _ _ _ _) (.after .eqxStopNow (.wr _ _ _ _))) .eqxCtrlFields

theorem State.Keeps.eqxSubmit {s : State} {i : Nat} {desc : List Byte} : s.Keeps (s.eqxSubmit i desc) :=
  .ite (.refl _) (.after .setStream <| .after .setQueue .stBytes)

theorem State.Keeps.eqxRotate {s : State} {i : Nat} : s.Keeps (s.eqxRotate i) := by
  unfold State.eqxRotate
  dsimp only
  split
  · exact .refl _
  split
  · exact .after .setStream .newSeq
  · exact .refl _

theorem State.Keeps.eqxIssue {s : State} {i n kind : Nat} {src : Source} : s.Keeps (s.eqxIssue i n kind src) :=
  .after .eqxSubmit <| .after .setStream <| .after .update (.ite .eqxRotate (.refl _))

theorem State.Keeps.issuePoint {s : State} {i : Nat} : s.Keeps (s.issuePoint i) := by
  unfold State.issuePoint
  extract_lets x n c s1 newer up beyond s2
  have h2 : s.Keeps s2 :=
    .after (.forEach fun _ _ => .eqxTenantLate) <| .after (.inc _ _ _ _) <| .after (.wr _ _ _ _) (.wr _ _ _ _)
  refine .after ?_ h2
  split
  · refine .ite .eqxIssue ?_
    split
    · exact .ite .eqxIssue (.refl _)
    · exact .refl _
  · exact .ite .eqxIssue (.refl _)
  · exact .refl _

theorem execIssuePoint_answers {stream : Nat} {s : State} : s.Answers (execIssuePoint stream s) :=
  .next (.ite (.refl _) .issuePoint)

theorem State.Keeps.takeSlot {s : State} {i gq op : Nat} {r : RingSlot} : s.Keeps (s.takeSlot i gq op r) := by
  unfold State.takeSlot
  split
  · exact .setStream
  · exact .refl _

theorem State.Keeps.eqxGo {s : State} {i gq : Nat} {d : List Byte} : s.Keeps (s.eqxGo i gq d).1 :=
  .after .takeSlot .update

theorem State.Keeps.eqxDropped {s : State} {f : Flight} : s.Keeps (s.eqxDropped f) :=
  .after .eqxFire <| .after (.inc _ _ _ _) <| .after .setFlight .slotState

theorem State.Keeps.eqxNoSlot {s : State} {f : Flight} : s.Keeps (s.eqxNoSlot f) :=
  .ite (.after .eqxFire .setStream) (.refl _)

theorem State.Keeps.eqxReserved {s : State} {i : Nat} {go : State → State} (hgo : ∀ s : State, s.Keeps (go s)) :
    s.Keeps (s.eqxReserved i go) :=
  .after .setStream <| .after (hgo _) .setStream

theorem eqxCheck_goKeeps (fits : Bool) (s : State) (gq : Nat) (d : List Byte) :
    GoKeeps (eqxCheck fits s gq d) := by
  unfold eqxCheck
  refine .ite .error ?_
  dsimp only
  split
  · exact .error
  · exact .ite .error (.ok fun _ _ => .eqxGo)

theorem execEqxFrame_answers {ctx q : Nat} {fits : Bool} {s : State} :
    s.Answers (execEqxFrame ctx q fits s) := by
  refine .next ?_
  split
  · exact .refl _
  · exact .ite .tryRegion <| .ite .eqxDropped <|
      .ite (.after (.eqxReserved fun _ => .ceStart (eqxCheck_goKeeps fits)) .eqxNoSlot)
      (.ceStart (eqxCheck_goKeeps fits))

theorem State.Keeps.writeCompose {s : State} {i n : Nat} : s.Keeps (s.writeCompose i n) :=
  .after .eqxTenantLate <| .after .eqxFire <| .after .setStream <| .after .setQueue .update

theorem composeCheck_goKeeps (s : State) (gq : Nat) (d : List Byte) : GoKeeps (composeCheck s gq d) :=
  .ite .error (.ok fun _ _ => .after .takeSlot .update)

theorem execCompose_answers {ctx q : Nat} {s : State} : s.Answers (execCompose ctx q s) :=
  .next (.ceStart composeCheck_goKeeps)

theorem State.Keeps.publish {s : State} {i : Nat} {f : Flight} : s.Keeps (s.publish i f) := by
  unfold State.publish
  dsimp only
  split
  · exact .refl _
  · exact .after .fillWaits <| .thenWr <| .after .stBytes .setStream

theorem State.Keeps.eqxRotated {s : State} {i : Nat} : s.Keeps (s.eqxRotated i) :=
  .ite (.refl _) (.ite .setStream (.after .eqxFire <| .after .setStream .freeSeq))

theorem State.Keeps.freeTails {s : State} {f : Flight} : s.Keeps (s.freeTails f) :=
  .forEach fun _ _ => .ite .setSeq (.refl _)

theorem State.Keeps.eqxAct {s : State} {f : Flight} : s.Keeps (eqxAct s f) :=
  .ite (.refl _) <| .after (.ite .freeRingSlot <| .after (.ite (.after (.ite .eqxTenantLate (.refl _)) <|
          .after .eqxFire (.inc _ _ _ _)) (.refl _)) <| .after (.inc _ _ _ _) .publish) <|
    .after (.ite .eqxRotated (.refl _)) .freeTails

theorem State.Keeps.composeAct {s : State} {f : Flight} : s.Keeps (composeAct s f) :=
  .ite .freeRingSlot (.after (.inc _ _ _ _) .publish)

theorem State.Keeps.consume {s : State} {gq : Nat} : s.Keeps (s.consume gq) :=
  .setQueue

theorem State.Keeps.eqxRecorded {s : State} {f : Flight} {st : Nat} : s.Keeps (s.eqxRecorded f st) :=
  .ite (.ite (.after .consume <| .after .setStream .update) (.after .consume .update)) <|
    .ite (.after .eqxSettle <| .after .consume <| .after (.ite (.after .eqxState .eqxFire) (.refl _)) <|
      .after (.ite (.inc _ _ _ _) (.refl _)) .setStream) (.refl _)

theorem execHomogCommit_answers {stream val : Nat} {s : State} : s.Answers (execHomogCommit stream val s) :=
  .next (.onAccess fun _ => .ite (.refl _) .setStream)

theorem execEqxMemReadWrite_answers {stream val : Nat} {s : State} :
    s.Answers (execEqxMemReadWrite stream val s) :=
  .next (.onAccess fun _ => .ite (.refl _) (.wr _ _ _ _))

theorem execEqxStreamStatRead_answers {stream half : Nat} {s : State} :
    s.Answers (execEqxStreamStatRead stream half s) :=
  .next .readBlk

theorem execEqxStreamStat2Read_answers {stream half : Nat} {s : State} :
    s.Answers (execEqxStreamStat2Read stream half s) :=
  .next .readBlk

end Sys2Proof.Machine
end

section
/-! What is kept: the video input ports. -/

namespace Sys2Proof.Machine

theorem State.Keeps.vinFire {s : State} {n k : Nat} : s.Keeps (s.vinFire n k) :=
  .fire _ _

theorem State.Keeps.vinState {s : State} {n st : Nat} : s.Keeps (s.vinState n st) :=
  .ite (.refl _) (.after .vinFire (.wr _ _ _ _))

theorem State.Keeps.setVport {s : State} {n : Nat} {x : VinPort} : s.Keeps (s.setVport n x) :=
  .update

theorem State.Keeps.setVinFrame {s : State} {n vc : Nat} {f : Option VinFrame} :
    s.Keeps (s.setVinFrame n vc f) := by
  unfold State.setVinFrame
  split
  · exact .thenWr .setVport
  · exact .thenWr .setVport

theorem State.Keeps.vinDamage {s : State} {n vc : Nat} : s.Keeps (s.vinDamage n vc) :=
  .ite (.after .vinFire <| .after (.inc _ _ _ _) .setVinFrame) (.refl _)

theorem State.Keeps.vinDropAll {s : State} {n : Nat} : s.Keeps (s.vinDropAll n) :=
  .thenWr .setVport

theorem State.Keeps.vinFault {s : State} {n : Nat} : s.Keeps (s.vinFault n) :=
  .after .vinState <| .after .vinFire .vinDropAll

theorem State.Keeps.vinWrite {s : State} {n : Nat} {cs : List Chunk} : s.Keeps (s.vinWrite n cs) := by
  induction cs generalizing s with
  | nil => exact .refl _
  | cons c cs ih =>
    unfold State.vinWrite
    split
    · exact .vinFault
    · exact .after ih .paWrite

theorem State.Keeps.vinDiscard {s : State} {n : Nat} : s.Keeps (s.vinDiscard n) :=
  .after .vinFire (.inc _ _ _ _)

theorem State.Keeps.vinHeader {s : State} {n vc : Nat} {ecc : EccResult} : s.Keeps (s.vinHeader n vc ecc) := by
  unfold State.vinHeader
  split
  · exact .refl _
  · exact .inc _ _ _ _
  · exact .after .vinDamage <| .after .vinFire (.inc _ _ _ _)

theorem State.Keeps.frameStart {s : State} {n vc : Nat} : s.Keeps (s.frameStart n vc) :=
  .ite .vinDiscard <| .after (.ite (.refl _) <| .ite (.after .vinFire .setVinFrame)
      (.after .vinFire (.inc _ _ _ _))) .vinDamage

theorem State.Keeps.longPacket {s : State} {n vc dt : Nat} {payload : List Byte} {ecc : EccResult}
    {crcOk : Bool} : s.Keeps (s.longPacket n vc dt payload ecc crcOk) := by
  unfold State.longPacket
  dsimp only
  split
  · exact .vinHeader
  split
  · exact .after .vinDiscard .vinHeader
  split
  · exact .after (.ite (.refl _) (.inc _ _ _ _)) .vinHeader
  · exact .after (.ite .vinDamage <| .after (.ite (.refl _) .vinWrite) .setVinFrame) <|
      .after (.ite (.refl _) (.inc _ _ _ _)) .vinHeader

theorem State.Keeps.vinPublish {s : State} {n vc : Nat} {f : VinFrame} : s.Keeps (s.vinPublish n vc f) := by
  unfold State.vinPublish
  dsimp only
  split
  · exact .vinWrite
  split
  · exact .after (.ite .visAdd (.refl _)) <| .after .vinFire <| .thenWr <| .after .setVport <|
      .after .setVinFrame .vinWrite
  · exact .after .vinFire <| .thenWr <| .after .setVport <| .after .setVinFrame .vinWrite

theorem State.Keeps.frameEnd {s : State} {n vc : Nat} : s.Keeps (s.frameEnd n vc) := by
  unfold State.frameEnd
  split
  · exact .vinDiscard
  split
  · exact .refl _
  · exact .ite .vinDamage .vinPublish

theorem State.Keeps.portBegin {s : State} {n : Nat} : s.Keeps (s.portBegin n) :=
  .after .vinState <| .after .vinDropAll <| .after .setVport (.forEach fun _ _ => .thenWr (.wr _ _ _ _))

theorem State.Keeps.portReset {s : State} {n : Nat} : s.Keeps (s.portReset n) := by
  unfold State.portReset
  dsimp only
  split
  · exact .after (.tryCommit fun _ _ => .noAct) <| .after .setFlight <| .after .vinState <|
      .after .setVport .vinDropAll
  · exact .after .vinState <| .after .setVport .vinDropAll

theorem State.Keeps.portSettle {s : State} {n : Nat} : s.Keeps (s.portSettle n) :=
  .ite .portReset (.ite .portReset (.refl _))

theorem execPortStart_answers {ctx q : Nat} {s : State} : s.Answers (execPortStart ctx q s) :=
  .next (.startCmd (fun _ _ => .noAct) (fun _ _ _ => .pair .portBegin) fun _ => .tryCommit fun _ _ => .noAct)

theorem execPortStop_answers {ctx q : Nat} {s : State} : s.Answers (execPortStop ctx q s) :=
  .next <| .startCmd (fun _ _ => .noAct) (fun _ _ _ => .after .vinState .setVport) fun _ => .forEach fun _ _ =>
    .portSettle

theorem execVinVcRelWrite_answers {port vc half val : Nat} {s : State} :
    s.Answers (execVinVcRelWrite port vc half val s) :=
  .next (.onAccess fun _ => .ite (.refl _) (.wr _ _ _ _))

theorem execPhyError_answers {port : Nat} {s : State} : s.Answers (execPhyError port s) :=
  .next (.ite .vinFire (.refl _))

theorem execVinErrRead_answers {port half : Nat} {s : State} : s.Answers (execVinErrRead port half s) :=
  .next .readBlk

end Sys2Proof.Machine
end

section
/-! What is kept: the heads. -/

namespace Sys2Proof.Machine

theorem State.Keeps.dspFire {s : State} {h k : Nat} : s.Keeps (s.dspFire h k) :=
  .fire _ _

theorem State.Keeps.linked {s : State} {h : Nat} {sure : Bool} {g : State → State}
    (hg : ∀ s : State, s.Keeps (g s)) : s.Keeps (s.linked h sure g) :=
  .after (.fireIf _ _ _) <| .after (.ite (.refl _) .setHead) (hg _)

theorem State.Keeps.linkState {s : State} {h st reason : Nat} : s.Keeps (s.linkState h st reason) :=
  .thenWr (.wr _ _ _ _)

theorem State.Keeps.linkDown {s : State} {h : Nat} : s.Keeps (s.linkDown h) :=
  .forEach fun _ _ => .resetUnit _ _ _

theorem State.Keeps.ladder {s : State} {h lanes r : Nat} : s.Keeps (s.ladder h lanes r) :=
  .after (.ite .linkState .linkState) <| .after .linkDown .setHead

theorem State.Keeps.train {s : State} {h : Nat} {start : Option (Nat × Nat)} : s.Keeps (s.train h start) := by
  unfold State.train
  dsimp only
  split
  · exact .after .linkState .linkDown
  · exact .after (.ite .linkState .ladder) <| .after .linkDown <| .after .setHead
      (.ite (.refl _) (.inc _ _ _ _))

theorem State.Keeps.linkUp {s : State} {h : Nat} : s.Keeps (s.linkUp h) :=
  .thenWr <| .thenWr <| .thenWr <| .thenWr <| .thenWr <| .thenWr .linkState

theorem State.Keeps.irqAct {s : State} {h : Nat} {lost : Bool} : s.Keeps (s.irqAct h lost) :=
  .ite (.refl _) (.ite .train (.ite .train (.refl _)))

theorem State.Keeps.ladderDown {s : State} {h held : Nat} : s.Keeps (s.ladderDown h held) :=
  .ite .ladder (.ite .ladder (.ite (.after .linkState .linkDown) .ladder))

theorem execHpdRise_answers {head : Nat} {lost : Bool} {s : State} : s.Answers (execHpdRise head lost s) :=
  .next (.ite (.refl _) (.linked fun _ => .after (.ite .setHead .irqAct) (.wr _ _ _ _)))

theorem execUnplug_answers {head : Nat} {s : State} : s.Answers (execUnplug head s) :=
  .next <| .ite (.refl _) <| .after (.ite (.refl _) <| .linked fun _ => .ite (.after .linkState .linkDown)
      (.refl _)) .setHead

theorem execPlug_answers {head : Nat} {sink : Sink} {s : State} : s.Answers (execPlug head sink s) :=
  .next (.ite (.refl _) (.after (.ite (.refl _) (.linked fun _ => .ite .train (.refl _))) .setHead))

theorem execTrainingAttemptEnd_answers {head : Nat} {ok : Bool} {held : Nat} {s : State} :
    s.Answers (execTrainingAttemptEnd head ok held s) := by
  unfold execTrainingAttemptEnd
  refine .next ?_
  dsimp only
  split
  · exact .refl _
  refine .linked fun s => ?_
  split
  · exact .after .irqAct <| .after .setHead (.ite .linkUp .ladderDown)
  · exact .ite .linkUp .ladderDown

theorem execAuxStart_answers {head val : Nat} {s : State} : s.Answers (execAuxStart head val s) :=
  .next <| .onAccess fun _ => .ite (.refl _) <| .after (.ite (.refl _) <|
      .after (.ite (.wr _ _ _ _) (.after .setHead (.wr _ _ _ _))) (.wr _ _ _ _)) <| .thenWr <|
    .thenWr (.wr _ _ _ _)

theorem execAuxDone_answers {head res : Nat} {reply : List Byte} {s : State} :
    s.Answers (execAuxDone head res reply s) :=
  .next <| .ite (.refl _) <| .after (.ite (.refl _) <| .after (.forEach fun _ _ => .wr _ _ _ _) (.wr _ _ _ _))
    (.wr _ _ _ _)

theorem State.Keeps.warpLines {s : State} {h : Nat} : s.Keeps (s.warpLines h) :=
  .ite (.thenWr (.wr _ _ _ _)) (.thenWr (.wr _ _ _ _))

theorem State.Keeps.dropDirect {s : State} {i r : Nat} : s.Keeps (s.dropDirect i r) :=
  .setStream

theorem State.Keeps.eventA {s : State} {h i : Nat} : s.Keeps (s.eventA h i) :=
  .after .warpLines <| .after .setHead <| .after (.ite .writeCompose (.refl _)) <|
    .after (.ite .dropDirect (.refl _)) .dspFire

theorem execLineMatchA_answers {head : Nat} {s : State} : s.Answers (execLineMatchA head s) := by
  refine .next ?_
  split
  · exact .ite (.refl _) .eventA
  · exact .refl _

theorem State.Keeps.eventB {s : State} {h i : Nat} : s.Keeps (s.eventB h i) :=
  .after .tryWarp <| .after .warpLines <| .after .setHead <| .after (.ite (.inc _ _ _ _) (.refl _)) .dspFire

theorem execLineMatchB_answers {head : Nat} {s : State} : s.Answers (execLineMatchB head s) := by
  refine .next ?_
  split
  · exact .ite (.refl _) .eventB
  · exact .refl _

theorem execStripeWarpDone_answers {head : Nat} {s : State} : s.Answers (execStripeWarpDone head s) := by
  refine .next ?_
  split
  · split
    · exact .after .tryWarp <| .after .setHead .writeStripe
    · exact .refl _
  · exact .refl _

theorem State.Keeps.planeLine {s : State} {h refresh wa y : Nat} {line : List Rgb} :
    s.Keeps (s.planeLine h refresh wa y line).1 := by
  refine .foldl_fst (p := (s, line)) fun p j => ?_
  dsimp only
  split
  · exact .refl _
  · exact .setHead

theorem State.Keeps.underrun {s : State} {h line pixel : Nat} : s.Keeps (s.underrun h line pixel) :=
  .after .tryWarp <| .after .warpLines <| .after .setHead <| .thenWr <| .thenWr <| .after (.inc _ _ _ _) <|
    .after (.inc _ _ _ _) .dspFire

theorem State.Keeps.fetchLines {s : State} {h refresh : Nat} {ys : List Nat} :
    s.Keeps (s.fetchLines h refresh ys) := by
  induction ys generalizing s with
  | nil => exact .refl _
  | cons y ys ih =>
    unfold State.fetchLines
    refine .ite (.refl _) ?_
    split
    · exact .ite .underrun .setHead
    · exact .after ih <| .after .setHead .planeLine

theorem execStripeEntryFreed_answers {head : Nat} {s : State} : s.Answers (execStripeEntryFreed head s) := by
  unfold execStripeEntryFreed
  refine .next ?_
  dsimp only
  split
  · exact .ite (.refl _) (.after .tryWarp <| .after .setHead (.ite .fetchLines (.refl _)))
  · exact .refl _

theorem execUnderrun_answers {head line pixel : Nat} {s : State} : s.Answers (execUnderrun head line pixel s) :=
  .next (.ite (.refl _) (.after (.ite (.refl _) .underrun) .fetchLines))

theorem execHeadFrameDone_answers {head : Nat} {s : State} : s.Answers (execHeadFrameDone head s) :=
  .next (.ite (.refl _) (.after (.ite (.refl _) (.wr _ _ _ _)) <| .after .setHead .dspFire))

theorem State.Keeps.lockStep {s : State} {h : Nat} : s.Keeps (s.lockStep h) :=
  .after (.ite .setHead <| .thenWr <| .after .setHead (.ite .update (.refl _))) <| .thenWr <| .after .setHead
    (.wr _ _ _ _)

theorem State.Keeps.line0 {s : State} {h : Nat} : s.Keeps (s.line0 h) :=
  .after (.ite (.refl _) .fetchLines) <| .after (.ite .lockStep (.thenWr <| .thenWr .setHead)) <|
    .thenWr .setHead

theorem execLine0_answers {head : Nat} {s : State} : s.Answers (execLine0 head s) :=
  .next (.ite (.refl _) .line0)

theorem execLineMatch_answers {head : Nat} {d : Bool} {s : State} : s.Answers (execLineMatch head d s) :=
  .next (.ite (.refl _) .dspFire)

theorem execLayerFlip_answers {head val : Nat} {s : State} : s.Answers (execLayerFlip head val s) :=
  .next (.onAccess fun _ => .ite (.refl _) (.thenWr .setHead))

theorem execPlaneFlip_answers {head val : Nat} {s : State} : s.Answers (execPlaneFlip head val s) :=
  .next (.onAccess fun _ => .ite (.refl _) (.thenWr .setHead))

theorem State.Keeps.takeFlips {s : State} {h : Nat} : s.Keeps (s.takeFlips h) :=
  .after (.forEach fun _ _ => .after .eqxFire (.wr _ _ _ _)) <| .thenWr <| .thenWr .setHead

theorem State.Keeps.headBegin {s : State} {h : Nat} : s.Keeps (s.headBegin h) := by
  unfold State.headBegin
  refine .after .warpLines ?_
  refine .after (.linked fun _ => .train) ?_
  split
  · exact .after (.getD (fun _ h => .eqxBegin h) (.refl _)) <| .after (.forEach fun _ _ => .wr _ _ _ _) .setHead
  · exact .after (.forEach fun _ _ => .wr _ _ _ _) .setHead

theorem execHeadStart_answers {ctx q : Nat} {s : State} : s.Answers (execHeadStart ctx q s) :=
  .next <| .startCmd (fun _ _ => .noAct) (fun _ _ _ => .ite_fst (.pair .setHead) (.pair .headBegin)) fun _ =>
    .tryCommit fun _ _ => .noAct

theorem execTimingGeneratorStart_answers {head : Nat} {s : State} :
    s.Answers (execTimingGeneratorStart head s) := by
  refine .next ?_
  split
  · exact .refl _
  split
  · exact .refl _
  refine .after (.tryCommit fun _ _ => .noAct) ?_
  split
  · exact .after .failFlight .setHead
  · exact .after .setFlight .headBegin

theorem State.Keeps.headEnd {s : State} {h reason : Nat} : s.Keeps (s.headEnd h reason) := by
  unfold State.headEnd
  refine .after .warpLines ?_
  refine .after (.linked fun _ => .after .linkState .linkDown) ?_
  split
  · exact .after .eqxStopNow .setHead
  · exact .setHead

theorem execHeadStop_answers {ctx q : Nat} {s : State} : s.Answers (execHeadStop ctx q s) :=
  .next (.startCmd (fun _ _ => .noAct) (fun _ _ _ => .setHead) fun _ => .refl _)

theorem State.Keeps.headStops {s : State} {h : Nat} : s.Keeps (s.headStops h) := by
  unfold State.headStops
  dsimp only
  split
  · exact .after (.tryCommit fun _ _ => .noAct) <| .after .setFlight .headEnd
  · exact .ite .headEnd .setHead

theorem State.Keeps.vblank {s : State} {h : Nat} : s.Keeps (s.vblank h) :=
  .after .headStops <| .after .dspFire <| .after .warpLines <| .after .takeFlips .setHead

theorem execDspLinkRead_answers {head half : Nat} {s : State} : s.Answers (execDspLinkRead head half s) :=
  .next .readBlk

theorem execDspUnderrunRead_answers {head half : Nat} {s : State} :
    s.Answers (execDspUnderrunRead head half s) :=
  .next .readBlk

end Sys2Proof.Machine
end

section
/-! What is kept: the links of the host ports and what comes with a port. -/

namespace Sys2Proof.Machine

theorem State.Keeps.readmit {s : State} {ctx : Nat} : s.Keeps (s.readmit ctx) :=
  .ite .update (.refl _)

theorem State.Keeps.readmitPort {s : State} {p : Nat} : s.Keeps (s.readmitPort p) :=
  .after (.deliver _) (.forEach fun _ _ => .readmit)

theorem State.Keeps.holdPort {s : State} {p : Nat} : s.Keeps (s.holdPort p) :=
  .update

theorem State.Keeps.linkL0 {s : State} {p : Nat} : s.Keeps (s.linkL0 p) :=
  .after .readmitPort (.wr _ _ _ _)

theorem execLinkTrained_answers {port rate width bus : Nat} {flit : Bool} {s : State} :
    s.Answers (execLinkTrained port rate width bus flit s) :=
  .next <| .ite (.refl _) <| .after .linkL0 <| .after (.fireIf _ _ _) <| .after .update <| .thenWr <| .thenWr <|
    .thenWr <| .thenWr (.wr _ _ _ _)

theorem execLinkUp_answers {port : Nat} {s : State} : s.Answers (execLinkUp port s) :=
  .next (.ite (.refl _) .linkL0)

theorem execHostPortStatusRead_answers {port half : Nat} {s : State} :
    s.Answers (execHostPortStatusRead port half s) :=
  .next .readBlk

theorem State.Keeps.dropReq {s : State} {id : Nat} : s.Keeps (s.dropReq id) :=
  .update

theorem State.Keeps.failReq {s : State} {r : HostReq} {st : Nat} : s.Keeps (s.failReq r st) := by
  unfold State.failReq
  split
  · exact .after .failFlight .slotState
  · exact .refl _

theorem execCompletionTimeout_answers {id : Nat} {s : State} : s.Answers (execCompletionTimeout id s) := by
  refine .next ?_
  split
  · exact .after .failReq .dropReq
  · exact .refl _

theorem execReadCompletion_answers {id : Nat} {st : CplStatus} {s : State} :
    s.Answers (execReadCompletion id st s) := by
  refine .next ?_
  split
  · split
    · exact .dropReq
    · exact .after .failReq .dropReq
    · exact .after .failReq .dropReq
    · exact .after .failReq .dropReq
  · exact .refl _

theorem execPoisonedWrite_answers {_port _addr _val : Nat} {s : State} :
    s.Answers (execPoisonedWrite _port _addr _val s) :=
  .next (.refl _)

theorem execStandbyRequest_answers {port ctx addr size : Nat} {s : State} :
    s.Answers (execStandbyRequest port ctx addr size s) :=
  .next (.ite (.refl _) .update)

theorem State.Keeps.moveFn {s : State} {ctx port : Nat} : s.Keeps (s.moveFn ctx port) :=
  .after (.ite (.refl _) <| .after (.fire _ _) <| .after (.inc _ _ _ _) (.wr _ _ _ _)) <| .after (.deliver _) <|
    .after .update .setHome

theorem State.Keeps.declareDown {s : State} {p : Nat} : s.Keeps (s.declareDown p) :=
  .ite (.refl _) <| .after (.fireIsland _ _) <| .after .update <| .after (.wake _ _) <| .after .holdPort <|
    .after (.inc _ _ _ _) (.wr _ _ _ _)

theorem execDlDown_answers {port : Nat} {s : State} : s.Answers (execDlDown port s) :=
  .next .declareDown

theorem execDllpTimeout_answers {port : Nat} {s : State} : s.Answers (execDllpTimeout port s) :=
  .next (.ite .declareDown (.refl _))

theorem execFailoverDone_answers {s : State} : s.Answers (execFailoverDone s) :=
  .next (.ite .update (.after (.fire _ _) <| .after (.forEach fun _ _ => .moveFn) .update))

theorem State.Keeps.startMove {s : State} {scope tenant target : Nat} {fns : List Nat} :
    s.Keeps (s.startMove scope tenant target fns) :=
  .ite .update <| .after (.ite (.wr _ _ _ _) <| .ite (.wr _ _ _ _) <| .ite (.wr _ _ _ _)
      (.after .update (.wr _ _ _ _))) <| .thenWr (.wr _ _ _ _)

theorem execMoveOneTenant_answers {tenant target : Nat} {s : State} :
    s.Answers (execMoveOneTenant tenant target s) :=
  .next (.onAccess fun _ => .startMove)

theorem execMoveOtherPort_answers {target : Nat} {s : State} : s.Answers (execMoveOtherPort target s) :=
  .next (.onAccess fun _ => .startMove)

theorem execMovePf0_answers {target : Nat} {s : State} : s.Answers (execMovePf0 target s) :=
  .next (.onAccess fun _ => .startMove)

theorem execMoveDone_answers {s : State} : s.Answers (execMoveDone s) := by
  refine .next ?_
  split
  · exact .refl _
  · exact .ite (.refl _) (.thenWr <| .after (.fireIf _ _ _) <| .after (.forEach fun _ _ => .moveFn) .update)

theorem execHoldExpiry_answers {ctx : Nat} {s : State} : s.Answers (execHoldExpiry ctx s) :=
  .next (.forEach fun _ _ => .ite .killSlots (.after .failFlight .slotState))

theorem State.Keeps.cfgAccessed {s : State} {g : State → State} (hg : ∀ s : State, s.Keeps (g s)) :
    s.Keeps (s.cfgAccessed g) :=
  .ite (.refl _) (.onAccess hg)

theorem execBusMasterEnableWrite_answers {port ctx : Nat} {on : Bool} {s : State} :
    s.Answers (execBusMasterEnableWrite port ctx on s) :=
  .next (.cfgAccessed fun _ => .ite (.refl _) (.after (.ite (.after (.deliver _) .readmit) (.refl _)) .setCfg))

theorem execMsixMaskWrite_answers {port ctx : Nat} {vec : Option Nat} {masked : Bool} {s : State} :
    s.Answers (execMsixMaskWrite port ctx vec masked s) := by
  refine .next ?_
  refine .cfgAccessed fun s => ?_
  split
  · exact .refl _
  refine .after (.deliver _) ?_
  split
  · exact .setCfg
  · exact .update

theorem execD3hot_answers {port ctx : Nat} {s : State} : s.Answers (execD3hot port ctx s) :=
  .next (.cfgAccessed fun _ => .ite (.refl _) .setCfg)

theorem State.Keeps.clearPort {s : State} {p : Nat} : s.Keeps (s.clearPort p) :=
  .update

theorem execPerst_answers {port : Nat} {s : State} : s.Answers (execPerst port s) :=
  .next (.ite (.refl _) (.after .clearPort (.ite .declareDown (.ite (.refl _) (.thenWr .holdPort)))))

theorem execStandbyFlr_answers {port ctx : Nat} {s : State} : s.Answers (execStandbyFlr port ctx s) :=
  .next (.cfgAccessed fun _ => .ite (.refl _) (.after .endConn .setCfg))

end Sys2Proof.Machine
end

section
/-! What is kept: the teardown of a tenant. -/

namespace Sys2Proof.Machine

theorem State.Keeps.killContext {s : State} {ctx : Nat} : s.Keeps (s.killContext ctx) :=
  .forEach fun _ _ => .after .dropFlight <| .after .dropReqs <| .after .freeSlots <| .after .abortOuts
    (.ite .stopInPlace (.refl _))

theorem State.Keeps.startTeardown {s : State} {t : Nat} : s.Keeps (s.startTeardown t) :=
  .ite (.refl _) (.after .killContext (.wr _ _ _ _))

theorem State.Keeps.fenceErrors {s : State} {ctx : Nat} : s.Keeps (s.fenceErrors ctx) :=
  .forEach fun _ _ => .forEach fun _ _ => .after (.forEach fun _ _ => .pollFence) .stBytes

theorem State.Keeps.unmapAll {s : State} {ctx : Nat} : s.Keeps (s.unmapAll ctx) :=
  .after .update (.forEach fun _ _ => .forEach fun _ _ => .unmapUnit)

theorem State.Keeps.dropTensors {s : State} {ctx : Nat} : s.Keeps (s.dropTensors ctx) :=
  .after .charge .update

theorem State.Keeps.dropBound {s : State} {t : Nat} : s.Keeps (s.dropBound t) :=
  .after (.forEach fun _ _ => .after .failFlight .slotState) .eqxLose

theorem State.Keeps.geyTarget0 {s : State} {x : Nat} : s.Keeps (s.geyTarget0 x) :=
  .after .update <| .thenWr (.wr _ _ _ _)

theorem State.Keeps.geyTear {s : State} {t : Nat} : s.Keeps (s.geyTear t) :=
  .after .geyTarget0 <| .forEach fun _ _ => .after (.ite (.thenWr <| .thenWr (.wr _ _ _ _)) (.refl _)) <|
    .thenWr (.clrPend _ _)

theorem State.Keeps.dropQueues {s : State} {t : Nat} : s.Keeps (s.dropQueues t) :=
  .after (.deliver _) <| .after .geyTear <| .after (.forEach fun _ _ => .resetUnit _ _ _) <|
    .after (.forEach fun _ _ => .resetUnit _ _ _) .update

theorem State.Keeps.endTeardown {s : State} {t : Nat} : s.Keeps (s.endTeardown t) :=
  .after (.fire _ _) <| .thenWr <| .thenWr <| .after .dropBound <| .after .dropQueues <| .after .unmapAll <|
    .after .dropTensors .fenceErrors

theorem execTeardown_answers {tenant val : Nat} {s : State} : s.Answers (execTeardown tenant val s) :=
  .next <| .onAccess fun _ => .ite (.refl _) <| .after (.ite (.refl _) <| .ite (.wr _ _ _ _)
      (.after .startTeardown (.wr _ _ _ _))) <| .thenWr (.wr _ _ _ _)

theorem execTeardownDone_answers {tenant : Nat} {s : State} : s.Answers (execTeardownDone tenant s) :=
  .next (.ite .endTeardown (.refl _))

theorem execVfFlr_answers {tenant : Nat} {s : State} : s.Answers (execVfFlr tenant s) :=
  .next <| .cfgAccessed fun _ => .ite (.refl _) <| .after (.ite .startTeardown (.refl _)) <|
    .after .endConn .setCfg

theorem State.Keeps.emptyPf0 {s : State} : s.Keeps s.emptyPf0 :=
  .after (.forEach fun _ _ => .after .setQueue <| .after .releaseTails .abortDeferred) <|
    .after (.forEach fun _ _ => .setStream) <| .after .update .killContext

theorem execPf0Flr_answers {s : State} : s.Answers (execPf0Flr s) :=
  .next <| .cfgAccessed fun _ => .after .endConn <| .after .setCfg <| .after .emptyPf0 <| .after .geyTarget0 <|
    .after (.forEach fun _ _ => .geyTear) (.forEach fun _ _ => .startTeardown)

theorem execVfEnable_answers {port numVFs : Nat} {enable : Bool} {s : State} :
    s.Answers (execVfEnable port numVFs enable s) :=
  .next <| .cfgAccessed fun _ => .ite (.refl _) <| .ite (.after (.inc _ _ _ _) .setCfg) <|
    .after (.ite (.after (.forEach fun _ _ => .thenWr (.wr _ _ _ _)) (.forEach fun _ _ => .issueKey)) <|
      .ite (.forEach fun _ _ => .startTeardown) (.refl _)) .setCfg

end Sys2Proof.Machine
end

section
/-! What is kept: the image, its switch points and the reset of partitions. -/

namespace Sys2Proof.Machine

theorem State.Keeps.routeSource {s : State} {src target prio level enable group : Nat} :
    s.Keeps (s.routeSource src target prio level enable group) :=
  .after (.ite (.setPend _ _) (.refl _)) <| .after (.ite (.refl _) (.wr _ _ _ _)) <| .thenWr <| .thenWr <|
    .thenWr <| .thenWr <| .thenWr (.wr _ _ _ _)

theorem State.Keeps.applyRange {s : State} {v : List Byte} : s.Keeps (s.applyRange v) :=
  .forEach fun _ _ => .routeSource

theorem State.Keeps.applyThreshold {s : State} {v : List Byte} : s.Keeps (s.applyThreshold v) :=
  .thenWr .update

theorem State.Keeps.applyCoalesce {s : State} {count time : Nat} : s.Keeps (s.applyCoalesce count time) :=
  .forEach fun _ _ => .thenWr (.wr _ _ _ _)

theorem State.Keeps.applyTimer {s : State} {v : List Byte} : s.Keeps (s.applyTimer v) :=
  .after (.ite (.wr _ _ _ _) (.ite (.refl _) (.thenWr (.wr _ _ _ _)))) <| .thenWr (.wr _ _ _ _)

theorem State.Keeps.applyPolicy {s : State} {r : Rec} : s.Keeps (s.applyPolicy r) := by
  unfold State.applyPolicy
  split
  · exact .after .update (.wr _ _ _ _)
  · exact .update
  · exact .update
  · exact .update
  · exact .applyCoalesce
  · exact .applyTimer
  · exact .applyRange
  · exact .applyThreshold
  · exact .refl _

theorem State.Keeps.showStreams {s : State} : s.Keeps s.showStreams := by
  unfold State.showStreams
  refine .forEach fun s x => ?_
  split
  · exact .thenWr <| .thenWr <| .thenWr <| .thenWr <| .thenWr <| .thenWr <| .thenWr <| .thenWr <| .thenWr <|
      .thenWr <| .thenWr (.wr _ _ _ _)
  · exact .ite (.refl _) (.forEach fun _ _ => .resetUnit _ _ _)

theorem State.Keeps.sumShares {s : State} : s.Keeps s.sumShares :=
  .update

theorem State.Keeps.showHead {s : State} {h : Nat} : s.Keeps (s.showHead h) :=
  .thenWr <| .thenWr <| .thenWr <| .thenWr <| .thenWr <| .thenWr <| .thenWr .update

theorem State.Keeps.showPort {s : State} {n : Nat} : s.Keeps (s.showPort n) :=
  .ite (.thenWr <| .thenWr (.wr _ _ _ _)) (.thenWr <| .thenWr (.wr _ _ _ _))

theorem State.Keeps.showLanes {s : State} : s.Keeps s.showLanes :=
  .forEach fun _ _ => .ite (.refl _) .visRebind

theorem State.Keeps.putRecs {s : State} {rs : List Rec} : s.Keeps (s.putRecs rs) :=
  .update

/-- A route that is gone stops its stream. -/
theorem State.Keeps.stopRoute {s : State} {o : Option Nat} :
    s.Keeps (match o with | some i => s.eqxStopNow i | none => s) := by
  cases o with
  | some i => exact .eqxStopNow
  | none => exact .refl _

theorem State.Keeps.headSwitch {s : State} {h : Nat} {rs : List Rec} : s.Keeps (s.headSwitch h rs) := by
  unfold State.headSwitch
  extract_lets _ _ _ s1 s2 _ i1 s3 _ _ s4 _ s5 s6
  have h2 : s.Keeps s2 := .after .showStreams <| .after .sumShares <| .after (.ite .showHead (.refl _)) .putRecs
  have h4 : s.Keeps s4 := .after (.ite (.refl _) .setHead) <|
    .after (.ite (.refl _) (.linked fun _ => .train) : s2.Keeps s3) h2
  have h5 : s4.Keeps s5 := .stopRoute
  clear_value i1 s4 s5
  have h6 : s4.Keeps s6 := by
    refine .ite ?_ (.after ?_ h5)
    · split
      · exact .ite .eqxRestart (.refl _)
      · exact .refl _
    split
    · exact .eqxRestart
    · exact .refl _
  exact .ite h2 <| .ite (.after .headEnd (.after .stopRoute h2)) <| .after .warpLines (.after h6 h4)

theorem State.Keeps.portSwitch {s : State} {n : Nat} {rs : List Rec} : s.Keeps (s.portSwitch n rs) :=
  .after (.ite .portReset (.refl _)) <| .after .showStreams <| .after .showLanes <| .after .showPort .putRecs

theorem State.Keeps.reissueKeys {s : State} {ctxs : List Nat} : s.Keeps (s.reissueKeys ctxs) :=
  .update

theorem State.Keeps.newKey {s : State} {p : Nat} : s.Keeps (s.newKey p) :=
  .after .reissueKeys .update

theorem State.Keeps.setPartCfg {s : State} {p : Nat} {c : PartCfg} : s.Keeps (s.setPartCfg p c) :=
  .update

theorem State.Keeps.settleChans {s : State} {p : Nat} {changed : Bool} : s.Keeps (s.settleChans p changed) :=
  .ite (.refl _) (.after (.forEach fun _ _ => .thenWr .pcState) .regroup)

theorem State.Keeps.settleUnits {s : State} : s.Keeps s.settleUnits := by
  unfold State.settleUnits
  dsimp only
  refine .after (.forEach fun _ _ => .setPartCfg) ?_
  refine .after (.forEach fun s x => ?_) (.forEach fun _ _ => .update)
  split
  · exact .thenWr (.wr _ _ _ _)
  · exact .thenWr (.wr _ _ _ _)

theorem State.Keeps.settleHot {s : State} : s.Keeps s.settleHot :=
  .update

theorem State.Keeps.settleTenants {s : State} {r : Rec} : s.Keeps (s.settleTenants r) :=
  .after .reissueKeys (.forEach fun _ _ => .wr _ _ _ _)

theorem State.Keeps.settleVfs {s : State} : s.Keeps s.settleVfs :=
  .forEach fun _ _ => .ite (.wr _ _ _ _) (.ite (.wr _ _ _ _) (.refl _))

theorem State.Keeps.settlePart {s : State} {p : Nat} : s.Keeps (s.settlePart p) := by
  unfold State.settlePart
  split
  · exact .ite (.refl _) (.after .newKey .setPartCfg)
  · exact .ite .setPartCfg (.refl _)

theorem State.Keeps.partSwitch {s : State} {p : Nat} {rs : List Rec} : s.Keeps (s.partSwitch p rs) :=
  .after .update <| .after .settleVfs <| .after .settleHot <| .after .settleUnits <| .after (.forEach fun _ _ =>
      .settleChans) <| .after .settleChans <| .after (.forEach fun _ _ => .settleTenants) <|
    .after .settlePart .putRecs

theorem State.Keeps.recheck {s : State} : s.Keeps s.recheck :=
  .ite .setReadiness (.refl _)

theorem State.Keeps.unapply {s : State} : s.Keeps s.unapply :=
  .after .update <| .after (.forEach fun _ _ => .ite (.refl _) <| .after (.forEach fun _ _ =>
        .ite (.thenWr .pcState) (.refl _)) .dropSet) <| .after (.ite (.after .unmapAll .dropTensors) (.refl _))
    (.forEach fun _ _ => .wr _ _ _ _)

theorem State.Keeps.defaultRouting {s : State} : s.Keeps s.defaultRouting :=
  .after .applyCoalesce <| .after (.resetFld _ _) <| .after (.forEach fun _ _ => .forEach fun _ _ =>
      .resetUnit _ _ _) (.forEach fun _ _ => .firmwareRoute)

theorem State.Keeps.applyFull {s : State} {own : List Rec} {seq digest : Nat} :
    s.Keeps (s.applyFull own seq digest) :=
  .after .setReadiness <| .after (.fire _ _) <| .thenWr <| .thenWr <| .thenWr <| .after .update <|
    .after (.deliver _) <| .after (.forEach fun _ _ => .applyPolicy) <| .after .defaultRouting <|
    .after (.forEach fun _ _ => .ite (.refl _) .applyPolicy) <| .after .showStreams <| .after .showLanes <|
    .after .sumShares <| .after (.forEach fun _ _ => .showPort) <| .after (.forEach fun _ _ => .showHead) <|
    .after .settleVfs <| .after .settleHot <| .after .settleUnits <| .after (.forEach fun _ _ =>
      .settleChans) <| .after (.forEach fun _ _ => .settlePart) <| .after (.forEach fun _ _ =>
      .settleTenants) <| .after .putRecs <| .after .update .unapply

theorem State.Keeps.deltaSettle {s : State} : s.Keeps s.deltaSettle :=
  .after (.ite (.refl _) (.after (.fire _ _) <| .thenWr <| .thenWr .update)) (.wr _ _ _ _)

theorem State.Keeps.switchAt {s : State} {pt : SwitchPt} : s.Keeps (s.switchAt pt) := by
  unfold State.switchAt
  dsimp only
  split
  · exact .refl _
  refine .after .deltaSettle ?_
  refine .after .recheck ?_
  split
  · exact .after .headSwitch .update
  · exact .after .portSwitch .update
  · exact .after .partSwitch .update
  · exact .after (.deliver _) <| .after (.forEach fun _ _ => .applyPolicy) <| .after .showStreams <|
      .after .putRecs .update

theorem State.Keeps.startDelta {s : State} {own : List Rec} {seq digest : Nat} :
    s.Keeps (s.startDelta own seq digest) :=
  .after (.forEach fun _ _ => .switchAt) <| .after .deltaSettle <| .thenWr .update

theorem State.Keeps.reject {s : State} {b : Bad} : s.Keeps (s.reject b) :=
  .after (.ite .update (.after .setReadiness .update)) <| .after (.fire _ _) <| .thenWr <| .thenWr <|
    .thenWr (.wr _ _ _ _)

theorem State.Keeps.judge {s : State} {b : List Byte} {sig : Nat} : s.Keeps (s.judge b sig) := by
  unfold State.judge
  split
  · exact .reject
  · exact .ite (.after .applyFull .update) (.after .startDelta .update)

theorem State.Keeps.cancelLoad {s : State} : s.Keeps s.cancelLoad :=
  .ite (.refl _) <| .after (.ite .update (.after .setReadiness .update)) <| .after (.fire _ _) <| .thenWr <|
    .thenWr <| .thenWr (.wr _ _ _ _)

theorem State.Keeps.startLoad {s : State} : s.Keeps s.startLoad :=
  .ite (.after (.fire _ _) (.wr _ _ _ _)) <| .ite .reject <|
    .after (.ite (.after .setReadiness .update) .update) <| .thenWr <| .thenWr <| .thenWr (.wr _ _ _ _)

theorem State.Keeps.structCtrl {s : State} {val : Nat} : s.Keeps (s.structCtrl val) :=
  .after (.ite .startLoad (.refl _)) (.ite .cancelLoad (.refl _))

theorem execStructLoad_answers {val : Nat} {s : State} : s.Answers (execStructLoad val s) :=
  .next (.onAccess fun _ => .structCtrl)

theorem execStructCancel_answers {val : Nat} {s : State} : s.Answers (execStructCancel val s) :=
  .next (.onAccess fun _ => .structCtrl)

theorem execFetchEnd_answers {ok : Bool} {s : State} : s.Answers (execFetchEnd ok s) := by
  refine .next ?_
  split
  · exact .refl _
  · exact .ite (.refl _) (.ite (.after .reject .update) (.thenWr .update))

theorem execValidationEnd_answers {sig : Nat} {s : State} : s.Answers (execValidationEnd sig s) := by
  refine .next ?_
  split
  · exact .refl _
  · exact .ite .judge (.refl _)

theorem execFlashImageLoad_answers {slots : List (List Nat × Nat)} {s : State} :
    s.Answers (execFlashImageLoad slots s) := by
  unfold execFlashImageLoad
  refine .next ?_
  dsimp only
  split
  · exact .refl _
  split
  · exact .judge
  · exact .forEach fun _ _ => .judge

theorem execDrainLimitExpiry_answers {partition : Nat} {s : State} :
    s.Answers (execDrainLimitExpiry partition s) :=
  .next (.ite (.refl _) (.forEach fun _ _ => .kill))

theorem execPartitionDrained_answers {partition : Nat} {s : State} :
    s.Answers (execPartitionDrained partition s) :=
  .next (.ite .switchAt (.refl _))

theorem State.Keeps.resetPart {s : State} {p : Nat} : s.Keeps (s.resetPart p) :=
  .after (.forEach fun _ _ => .portReset) <| .after (.forEach fun _ _ => .visStop) <|
    .after (.forEach fun _ _ => .startTeardown) .update

theorem execPartitionReset_answers {val : Nat} {s : State} : s.Answers (execPartitionReset val s) :=
  .next <| .onAccess fun _ => .after (.ite (.refl _) <| .ite (.wr _ _ _ _) <| .ite (.wr _ _ _ _) <|
      .after .resetPart <| .after .update (.wr _ _ _ _)) (.wr _ _ _ _)

theorem State.Keeps.wipePart {s : State} {p : Nat} : s.Keeps (s.wipePart p) :=
  .after .newKey <| .after .regroup <| .after (.forEach fun _ _ => .retireEnd) <| .after (.forEach fun _ _ =>
      .clearSet) (.forEach fun _ _ => .endTeardown)

theorem State.Keeps.partResetDone {s : State} {p : Nat} : s.Keeps (s.partResetDone p) := by
  unfold State.partResetDone
  extract_lets s1 _ s2 s3
  have h1 : s.Keeps s1 := .wipePart
  clear_value s1
  have h3 : s2.Keeps s3 := .ite (.wr _ _ _ _) (.refl _)
  exact .after .switchAt <| .after (.fire _ _) <| .after h3 <| .after .update h1

theorem execStructStatusRead_answers {half : Nat} {s : State} : s.Answers (execStructStatusRead half s) :=
  .next .readBlk

theorem execVblankStart_answers {head : Nat} {s : State} : s.Answers (execVblankStart head s) :=
  .next (.ite (.refl _) (.after (.ite .vblank .dspFire) .switchAt))

theorem State.Keeps.portEvent {s : State} {n : Nat} : s.Keeps (s.portEvent n) :=
  .after (.ite .switchAt (.refl _)) .portSettle

theorem execFrameStart_answers {port vc : Nat} {s : State} : s.Answers (execFrameStart port vc s) :=
  .next (.ite (.after .portEvent .frameStart) (.refl _))

theorem execLongPacket_answers {port vc dt : Nat} {payload : List Byte} {ecc : EccResult} {crcOk : Bool}
    {s : State} : s.Answers (execLongPacket port vc dt payload ecc crcOk s) :=
  .next (.ite (.after .portEvent .longPacket) (.refl _))

theorem execFrameEnd_answers {port vc : Nat} {s : State} : s.Answers (execFrameEnd port vc s) :=
  .next (.ite (.after .portEvent .frameEnd) (.refl _))

theorem execShortPacket_answers {port vc dt : Nat} {ecc : EccResult} {s : State} :
    s.Answers (execShortPacket port vc dt ecc s) :=
  .next (.ite (.refl _) (.after .portEvent <| .after (.ite (.refl _) .vinDiscard) .vinHeader))

end Sys2Proof.Machine
end

section
/-! What is kept: the cores of Tephra. -/

namespace Sys2Proof.Machine

theorem State.Keeps.seqLost {s : State} {id : Nat} : s.Keeps (s.seqLost id) := by
  unfold State.seqLost
  refine .after .ceFault ?_
  split
  · exact .loseUnit
  · exact .refl _

theorem State.Keeps.seqUnhandled {s : State} {id cause pc : Nat} : s.Keeps (s.seqUnhandled id cause pc) :=
  .after .seqLost <| .after (.ite (.refl _) (.thenWr <| .thenWr <| .thenWr (.wr _ _ _ _))) (.fire _ _)

theorem State.Keeps.failPass {s : State} {st addr : Nat} : s.Keeps (s.failPass st addr) := by
  unfold State.failPass
  split
  · exact .failFlight
  · exact .refl _

theorem State.Keeps.emberUE {s : State} {mem : Nat} : s.Keeps (s.emberUE mem) := by
  unfold State.emberUE
  dsimp only
  split
  · exact .after .kill <| .after (.fire _ _) <| .thenWr (.inc _ _ _ _)
  · exact .after (.fire _ _) <| .thenWr (.inc _ _ _ _)

theorem State.Keeps.wordCorrected {s : State} {id : Nat} : s.Keeps (s.wordCorrected id) := by
  unfold State.wordCorrected
  split
  · exact .sramCorrected
  · exact .after (.fire _ _) (.inc _ _ _ _)
  · exact .refl _

theorem State.Keeps.raise {s : State} {i : TI} {c : Core} {r : Raise} : s.Keeps (s.raise i c r) := by
  unfold State.raise
  dsimp only
  split
  · split
    · exact .sramUncorrectable
    · exact .ite .setCore .seqUnhandled
  · exact .ite .emberUE (.after .failPass (.fireIf _ _ _))
  · exact .ite (.after .fumaroleHalt .setCore) .setCore

/-- What an instruction's own effect leaves is kept, whether it completes, leaves the core as it is, or raises. -/
def TRes.Keeps (s : State) : TRes → Prop
  | .done t _ _ => s.Keeps t
  | .raw t => s.Keeps t
  | .err t _ => s.Keeps t
  | .stall => True

theorem TRes.Keeps.ite {c : Prop} [Decidable c] {s : State} {a b : TRes} (ha : TRes.Keeps s a)
    (hb : TRes.Keeps s b) : TRes.Keeps s (if c then a else b) := by split <;> assumption

theorem State.Keeps.tephra {s : State} {i : TI} {k : TChk} {body : State → Core → TRes}
    (hbody : ∀ (s : State) (c : Core), TRes.Keeps s (body s c)) : s.Keeps (s.tephra i k body) := by
  unfold State.tephra
  dsimp only
  refine .ite (.refl _) ?_
  split
  · exact .raise
  refine .ite .raise (.ite .raise (.ite .setCore ?_))
  generalize hu : (if i.word = .corrected then s.wordCorrected i.core else s) = u
  have hsu : s.Keeps u := hu ▸ .ite .wordCorrected (.refl _)
  generalize hr : body u _ = r
  have hur : TRes.Keeps u r := hr ▸ hbody _ _
  cases r with
  | done t c n => exact .after .setCore (hsu.trans hur)
  | raw t => exact hsu.trans hur
  | err t r => exact .after .raise (hsu.trans hur)
  | stall => exact .refl _

theorem State.Keeps.coreLoad {s : State} {i : TI} {c : Core} {space a n : Nat} :
    s.Keeps (s.coreLoad i c space a n).1 := by
  unfold State.coreLoad
  dsimp only
  split
  · split
    · exact .refl _
    split
    · exact .touch
    · exact .detect
    · exact .refl _
  · split
    · exact .refl _
    · exact .ite_fst (.refl _) (.refl _)
  split
  · exact .refl _
  · exact .ite_fst (.refl _) (.refl _)

theorem State.Keeps.coreStore {s : State} {i : TI} {c : Core} {space a n v : Nat} :
    s.Keeps (s.coreStore i c space a n v).1 := by
  unfold State.coreStore
  split
  · split
    · exact .refl _
    split
    · exact .of_fst .stBytes ‹_›
    · exact .of_fst .stBytes ‹_›
    · exact .of_fst .stBytes ‹_›
  · split
    · exact .refl _
    · exact .refl _
  split
  · exact .refl _
  · exact .refl _

theorem State.Keeps.freeHigh {s : State} {w v : Nat} : s.Keeps (s.freeHigh w v).1 :=
  .update

end Sys2Proof.Machine
end

section
/-! What is kept: the tiles of an Ember pass. -/

namespace Sys2Proof.Machine

theorem State.Keeps.tileWr {s : State} {x y sm plane v : Nat} : s.Keeps (s.tileWr x y sm plane v) :=
  .update

theorem State.Keeps.applyFrag {s : State} {f : Flight} {fr : Frag} : s.Keeps (s.applyFrag f fr) := by
  refine .ite (.refl _) (.foldl fun s sm => ?_)
  extract_lets _ _ s1 s2 s3
  have h1 : s.Keeps s1 := .after .tileWr .tileWr
  have h3 : s1.Keeps s3 := .after (.foldl fun s kv => .ite (.refl _) .tileWr : s2.Keeps s3) .embPerf
  refine .ite h1 (.after ?_ (.after h3 h1))
  split
  · exact .ite .tileWr (.refl _)
  · exact .refl _

theorem State.Keeps.applyEnded {s : State} {f : Flight} : s.Keeps (s.applyEnded f) :=
  .after .update <| .foldl_fst (p := (s, [])) fun _ _ => .ite_fst .applyFrag (.refl _)

end Sys2Proof.Machine
end

section
/-! What is kept: an Ember pass. -/

namespace Sys2Proof.Machine

theorem State.Keeps.startGroup {s : State} {f : Flight} {j : Nat} {g : EmbGroup} :
    s.Keeps (s.startGroup f j g) :=
  .after .setCore .update

theorem State.Keeps.feedCores {s : State} {f : Flight} : s.Keeps (s.feedCores f) := by
  unfold State.feedCores
  refine .forEach fun s x => ?_
  split
  · exact .refl _
  split
  · exact .refl _
  · exact .after .startGroup .update

theorem State.Keeps.passOut {s : State} {f : Flight} {r : RunOut} : s.Keeps (s.passOut f r) :=
  .after .setFlight .update

theorem State.Keeps.passStore {s : State} {f : Flight} : s.Keeps (s.passStore f) :=
  .after .passOut .update

theorem State.Keeps.passBin {s : State} {f : Flight} : s.Keeps (s.passBin f) := by
  unfold State.passBin
  dsimp only
  split
  · exact .passOut
  split
  · exact .after .passOut <| .after (.fire _ _) <| .after .embPerf .embPerf
  split
  · exact .after .passOut <| .after (.of_fst .stChunks ‹_›) <| .after .embPerf .embPerf
  · exact .after .update <| .after .embPerf <| .after (.of_fst .stChunks ‹_›) <| .after .embPerf .embPerf

theorem State.Keeps.passAdvance {s : State} {f : Flight} : s.Keeps (s.passAdvance f) :=
  .ite .feedCores (.after (.ite .passStore .feedCores) (.ite .passBin (.refl _)))

theorem State.Keeps.passGo {s : State} {f : Flight} {p : Plan} : s.Keeps (passGo s f p).1 := by
  unfold Sys2Proof.Machine.passGo
  dsimp only
  split
  · exact .after .update <| .after (.fire _ _) (.wr _ _ _ _)
  split
  · exact .after .update <| .after (.fire _ _) (.wr _ _ _ _)
  split
  · exact .after .update <| .after (.fire _ _) (.wr _ _ _ _)
  · exact .after .feedCores <| .after .update <| .after (.fire _ _) (.wr _ _ _ _)

theorem execEmberPass_answers {ctx q : Nat} {s : State} : s.Answers (execEmberPass ctx q s) :=
  .next (.startCmd (fun _ _ => .noAct) (fun _ _ _ => .after .passGo .clearUnit) fun _ => .refl _)

end Sys2Proof.Machine
end

section
/-! What is kept: the commit of a version. -/

namespace Sys2Proof.Machine

theorem State.Keeps.commitAct {s : State} {f : Flight} : s.Keeps (commitAct s f) := by
  unfold Sys2Proof.Machine.commitAct
  split
  · exact .defineAct
  · exact .releaseAct
  · exact .signalAct
  · exact .versionCommitAct
  · exact .versionAbortAct
  · exact .attAct
  · exact .seqCreateAct
  · exact .seqForkAct
  · exact .seqFreeAct
  · exact .swapOutAct
  · exact .swapInAct
  · exact .eqxAct
  · exact .composeAct
  · exact .refl _

theorem State.Keeps.passPlanes {s : State} {f : Flight} : s.Keeps (s.passPlanes f) :=
  .ite (.refl _) (.forEach fun _ _ => .setStream)

theorem State.Keeps.afterRecord {s : State} {f : Flight} : s.Keeps (s.afterRecord f) :=
  .after .eqxRecorded <| .after (.forEach fun _ _ => .eqxCommitted) .passPlanes

theorem execCommitCmd_answers {ctx q : Nat} {s : State} : s.Answers (execCommitCmd ctx q s) := by
  refine .next ?_
  split
  · exact .refl _
  · exact .after (.ite (.refl _) .afterRecord) (.tryCommit fun _ _ => .commitAct)

end Sys2Proof.Machine
end

section
/-! What is kept: power, clocks and temperature. -/

namespace Sys2Proof.Machine

theorem State.Keeps.assertReset {s : State} : s.Keeps s.assertReset :=
  .after .update (.hardReset _)

theorem execResetNAssert_answers {ns : Nat} {s : State} : s.Answers (execResetNAssert ns s) :=
  .next (.ite (.refl _) .assertReset)

theorem execPwrOkFall_answers {s : State} : s.Answers (execPwrOkFall s) :=
  .next (.after .update .assertReset)

theorem execBrownOut_answers {s : State} : s.Answers (execBrownOut s) :=
  .next (.ite (.refl _) .assertReset)

theorem execResetNRelease_answers {host smb test : Nat} {s : State} :
    s.Answers (execResetNRelease host smb test s) :=
  .next (.ite (.refl _) (.ite .update (.after (.applyStraps _) .update)))

theorem execPwrRetain_answers {val : Nat} {s : State} : s.Answers (execPwrRetain val s) :=
  .next <| .onAccess fun _ => .after (.ite (.refl _) <| .ite (.after (.fire _ _) (.wr _ _ _ _))
      (.thenWr (.wr _ _ _ _))) <| .thenWr (.wr _ _ _ _)

theorem execRetainEntered_answers {s : State} : s.Answers (execRetainEntered s) :=
  .next (.ite (.thenWr <| .after (.fire _ _) <| .thenWr (.wr _ _ _ _)) (.refl _))

theorem execWakeEvent_answers {cause : WakeCause} {ok : Bool} {s : State} :
    s.Answers (execWakeEvent cause ok s) := by
  refine .next ?_
  split
  · exact .ite (.wake _ _) (.refl _)
  · exact .ite (.wake _ _) (.refl _)
  · exact .wake _ _
  · exact .wake _ _
  · exact .wake _ _

theorem execWakeDone_answers {s : State} : s.Answers (execWakeDone s) :=
  .next (.ite (.after (.fire _ _) (.wr _ _ _ _)) (.refl _))

theorem execPwrStatusRead_answers {half : Nat} {s : State} : s.Answers (execPwrStatusRead half s) :=
  .next .readBlk

theorem State.Keeps.calibrate {s : State} {idle modelled : Nat} : s.Keeps (s.calibrate idle modelled) :=
  .ite .update (.after (.fire _ _) .update)

theorem execEnergyCalibration_answers {idle modelled : Nat} {s : State} :
    s.Answers (execEnergyCalibration idle modelled s) :=
  .next .calibrate

theorem State.Keeps.setLevel {s : State} {l cause idle modelled : Nat} :
    s.Keeps (s.setLevel l cause idle modelled) :=
  .ite (.refl _) <| .after .calibrate <| .after (.fire _ _) <| .after (.ite (.wr _ _ _ _) (.refl _))
    (.wr _ _ _ _)

theorem execThrottleWindowEnd_answers {mw idle modelled : Nat} {s : State} :
    s.Answers (execThrottleWindowEnd mw idle modelled s) :=
  .next (.after .setLevel <| .after .update <| .thenWr (.wr _ _ _ _))

theorem execPwrAlertNChange_answers {low : Bool} {idle modelled : Nat} {s : State} :
    s.Answers (execPwrAlertNChange low idle modelled s) :=
  .next (.ite (.refl _) (.after .setLevel <| .after (.fire _ _) (.wr _ _ _ _)))

theorem State.Keeps.crossing {s : State} {key : Nat} {at_ : Bool} {src : Nat} :
    s.Keeps (s.crossing key at_ src) :=
  .ite (.after (.fire _ _) .update) .update

theorem execTempSample_answers {temps : List Int} {idle modelled : Nat} {s : State} :
    s.Answers (execTempSample temps idle modelled s) :=
  .next <| .after .setLevel <| .forEach fun _ _ => .after (.ite (.after .crossing .crossing)
      (.after .crossing .crossing)) <| .thenWr (.wr _ _ _ _)

theorem execThermTrip_answers {s : State} : s.Answers (execThermTrip s) :=
  .next (.after .update (.wr _ _ _ _))

theorem execAvsAdjust_answers {mv : Nat} {ok : Bool} {s : State} : s.Answers (execAvsAdjust mv ok s) :=
  .next (.ite (.refl _) (.ite (.fire _ _) .update))

theorem execSmbusStatusRead_answers {s : State} : s.Answers (execSmbusStatusRead s) :=
  .next .update

end Sys2Proof.Machine
end

section
/-! What is kept: the epochs of the scheduler. -/

namespace Sys2Proof.Machine

theorem State.Keeps.joinCes {s : State} : s.Keeps s.joinCes :=
  .after (.forEach fun _ _ => .after .ceDone .setCe) .update

theorem execSchedulerEpoch_answers {s : State} : s.Answers (execSchedulerEpoch s) :=
  .next <| .ite (.refl _) <| .after .update <| .after .fairKills <| .after .reserveKills <| .after .rescale <|
    .after (.ite .switchAt (.refl _)) <| .after .joinCes .noteReady

end Sys2Proof.Machine
end

section
/-! What is kept: the interrupt targets of Geyser. -/

namespace Sys2Proof.Machine

theorem State.Keeps.srcInput {s : State} {src : Nat} {ev : SrcEvent} : s.Keeps (s.srcInput src ev) := by
  unfold State.srcInput
  split
  · exact .fireIsland _ _
  · exact .ite (.refl _) (.wr _ _ _ _)
  · exact .ite (.refl _) (.after (.ite (.refl _) (.fireIsland _ _)) (.wr _ _ _ _))

theorem execSourceFire_answers {src : Nat} {ev : SrcEvent} {s : State} : s.Answers (execSourceFire src ev s) :=
  .next .srcInput

theorem execGeyPendWrite_answers {word val : Nat} {s : State} : s.Answers (execGeyPendWrite word val s) :=
  .next (.onAccess fun _ => .geyEdge _ _ _ _)

theorem execGeyPendSetWrite_answers {word val : Nat} {s : State} : s.Answers (execGeyPendSetWrite word val s) :=
  .next (.onAccess fun _ => .geyEdge _ _ _ _)

theorem execGeyTgtComplete_answers {target level : Nat} {s : State} :
    s.Answers (execGeyTgtComplete target level s) :=
  .next (.onAccess fun _ => .ite (.refl _) (.geyEdge _ _ _ _))

theorem execGeyGrpWrite_answers {group val : Nat} {s : State} : s.Answers (execGeyGrpWrite group val s) :=
  .next (.onAccess fun _ => .ite (.refl _) (.after (.geyEdge _ _ _ _) <| .thenWr (.wr _ _ _ _)))

theorem execVfGeyPendWrite_answers {tenant val : Nat} {s : State} :
    s.Answers (execVfGeyPendWrite tenant val s) :=
  .next (.onAccess fun _ => .ite (.refl _) (.geyEdge _ _ _ _))

theorem execVfGeySetWrite_answers {tenant val : Nat} {s : State} : s.Answers (execVfGeySetWrite tenant val s) :=
  .next (.onAccess fun _ => .ite (.refl _) (.geyEdge _ _ _ _))

theorem execVfGeyComplete_answers {tenant level : Nat} {s : State} :
    s.Answers (execVfGeyComplete tenant level s) :=
  .next (.onAccess fun _ => .ite (.refl _) (.geyEdge _ _ _ _))

theorem execGroupTimeExpiry_answers {group : Nat} {s : State} : s.Answers (execGroupTimeExpiry group s) :=
  .next (.ite (.geyEdge _ _ _ _) (.refl _))

theorem execGeyRetRead_answers {half : Nat} {s : State} : s.Answers (execGeyRetRead half s) :=
  .next .readBlk

theorem execGeyTgtRead_answers {target half : Nat} {s : State} : s.Answers (execGeyTgtRead target half s) :=
  .next (.ite .update .readBlk)

end Sys2Proof.Machine
end

section
/-! What is kept: the register writes. -/

namespace Sys2Proof.Machine

theorem State.Keeps.putField {s : State} {f : Fld} {u half w : Nat} : s.Keeps (s.putField f u half w) := by
  unfold State.putField
  split
  · exact .refl _
  split
  · exact .wr _ _ _ _
  · exact .wr _ _ _ _
  · exact .refl _

theorem State.Keeps.written {s : State} {r : Reg} {u : Nat} {wasOn : Bool} : s.Keeps (s.written r u wasOn) := by
  unfold State.written
  split
  · exact .geyEdge _ _ _ _
  · exact .geyEdge _ _ _ _
  · exact .wr _ _ _ _
  · exact .refl _

theorem State.Keeps.writeReg {s : State} {r : Reg} {u half val : Nat} : s.Keeps (s.writeReg r u half val) := by
  unfold State.writeReg
  split
  · exact .ite (.refl _) (.after .written (.forEach fun _ _ => .putField))

theorem State.Keeps.msixWrite {s : State} {port ctx off val : Nat} : s.Keeps (s.msixWrite port ctx off val) :=
  .after (.deliver _) .update

theorem State.Keeps.evtWrite {s : State} {k half val : Nat} : s.Keeps (s.evtWrite k half val) :=
  .update

theorem State.Keeps.writeWord {s : State} {sp : Space} {req addr val : Nat} :
    s.Keeps (s.writeWord sp req addr val) := by
  unfold State.writeWord
  split
  · exact .msixWrite
  split
  · exact .evtWrite
  split
  · exact .refl _
  · exact .ite (.refl _) .writeReg

theorem State.Keeps.writeDouble {s : State} {sp : Space} {req addr val : Nat} :
    s.Keeps (s.writeDouble sp req addr val) := by
  unfold State.writeDouble
  split
  · exact .ite (.refl _) .writeReg
  · exact .after .writeWord .writeWord

theorem State.Keeps.cfgWrite {s : State} {req ctx addr val : Nat} : s.Keeps (s.cfgWrite req ctx addr val) := by
  unfold State.cfgWrite
  split
  · exact .after (.ite (.after (.deliver _) .readmit) (.refl _)) .setCfg
  · exact .after (.deliver _) .setCfg
  · exact .after (.deliver _) .setCfg
  · exact .refl _

theorem State.Keeps.writeSized {s : State} {sp : Space} {req addr size val : Nat} :
    s.Keeps (s.writeSized sp req addr size val) := by
  unfold State.writeSized
  split
  · exact .ite .cfgWrite (.refl _)
  · exact .ite .writeWord (.ite (.forEach fun _ _ => .writeDouble) (.refl _))

theorem execRegisterWrite_answers {space : Space} {req addr size val : Nat} {s : State} :
    s.Answers (execRegisterWrite space req addr size val s) :=
  .next (.ite (.refl _) (.ite .update (.after (.onAccess fun _ => .writeSized) .update)))

theorem State.Keeps.readRdy {s : State} {r : Reg} {half : Nat} : s.Keeps (s.readRdy r half) :=
  .ite .update .readBlk

theorem execRdyStatusRead_answers {half : Nat} {s : State} : s.Answers (execRdyStatusRead half s) :=
  .next .readRdy

theorem execRdyDropsRead_answers {half : Nat} {s : State} : s.Answers (execRdyDropsRead half s) :=
  .next .readRdy

theorem execEmbErrRead_answers {half : Nat} {s : State} : s.Answers (execEmbErrRead half s) :=
  .next .readBlk

end Sys2Proof.Machine
end

section
/-! What is kept: the messages of SPDM. -/

namespace Sys2Proof.Machine

theorem State.Keeps.reply {s : State} {ctx : Nat} {b : List Byte} : s.Keeps (s.reply ctx b) :=
  .update

theorem State.Keeps.spdmError {s : State} {ctx code data : Nat} : s.Keeps (s.spdmError ctx code data) :=
  .reply

theorem State.Keeps.setConn {s : State} {ctx : Nat} {c : Spdm} : s.Keeps (s.setConn ctx c) :=
  .update

theorem State.Keeps.spdm {s : State} {port ctx need : Nat} {g : State → State} (hg : ∀ s : State, s.Keeps (g s))
    : s.Keeps (s.spdm port ctx need g) :=
  .ite (.refl _) (.ite .spdmError (.ite (.after .spdmError .setConn) (.ite .spdmError (hg _))))

theorem State.Keeps.nonceBytes {s : State} {n : Nat} : s.Keeps (s.nonceBytes n).1 :=
  .update

theorem execGetVersion_answers {port ctx : Nat} {s : State} : s.Answers (execGetVersion port ctx s) :=
  .next (.spdm fun _ => .after .reply .setConn)

theorem execGetCapabilities_answers {port ctx : Nat} {s : State} : s.Answers (execGetCapabilities port ctx s) :=
  .next (.spdm fun _ => .after .reply .setConn)

theorem execNegotiateAlgorithms_answers {port ctx asym hash spec : Nat} {s : State} :
    s.Answers (execNegotiateAlgorithms port ctx asym hash spec s) :=
  .next (.spdm fun _ => .ite .spdmError (.after .reply .setConn))

theorem execGetDigests_answers {port ctx : Nat} {s : State} : s.Answers (execGetDigests port ctx s) :=
  .next (.spdm fun _ => .reply)

theorem execGetCertificate_answers {port ctx slot off len : Nat} {s : State} :
    s.Answers (execGetCertificate port ctx slot off len s) :=
  .next (.spdm fun _ => .ite .spdmError (.ite .spdmError .reply))

theorem State.Keeps.toSign {s : State} {ctx : Nat} {chal : Bool} {b : List Byte} :
    s.Keeps (s.toSign ctx chal b) :=
  .update

theorem execChallenge_answers {port ctx slot summary : Nat} {s : State} :
    s.Answers (execChallenge port ctx slot summary s) :=
  .next (.spdm fun _ => .ite .spdmError (.after .toSign <| .after .nonceBytes .nonceBytes))

theorem execGetMeasurements_answers {port ctx slot index : Nat} {sign : Bool} {s : State} :
    s.Answers (execGetMeasurements port ctx slot index sign s) :=
  .next (.spdm fun _ => .ite .spdmError (.ite .spdmError (.after (.ite .toSign .reply) .nonceBytes)))

theorem execUnsupportedRequest_answers {port ctx code : Nat} {s : State} :
    s.Answers (execUnsupportedRequest port ctx code s) :=
  .next (.spdm fun _ => .spdmError)

theorem execSignedResponse_answers {s : State} : s.Answers (execSignedResponse s) := by
  refine .next ?_
  split
  · exact .refl _
  · exact .after .reply <| .after .update .nonceBytes

theorem execAttestReissued_answers {ctx : Nat} {s : State} : s.Answers (execAttestReissued ctx s) :=
  .next (.ite (.refl _) (.after (.fire _ _) <| .after .setConn <| .after .update .issueKey))

end Sys2Proof.Machine
end

section
/-! What is kept: debug, fuses and the random numbers. -/

namespace Sys2Proof.Machine

theorem State.Keeps.burn {s : State} {f : Fuse} : s.Keeps (s.burn f) :=
  .update

theorem State.Keeps.arb {s : State} {g : State → State} (hg : ∀ s : State, s.Keeps (g s)) : s.Keeps (s.arb g) :=
  .onAccess fun _ => .ite (.refl _) (hg _)

theorem execRaiseFw_answers {s : State} : s.Answers (execRaiseFw s) :=
  .next (.arb fun _ => .ite (.wr _ _ _ _) (.thenWr .burn))

theorem execRaiseStruct_answers {s : State} : s.Answers (execRaiseStruct s) :=
  .next (.arb fun _ => .ite (.wr _ _ _ _) (.ite (.wr _ _ _ _) (.thenWr .burn)))

theorem execOwnerProgram_answers {val : Nat} {s : State} : s.Answers (execOwnerProgram val s) :=
  .next (.onAccess fun _ => .after (.ite (.refl _) (.ite (.wr _ _ _ _) (.thenWr .burn))) (.wr _ _ _ _))

theorem execFuseProgramDone_answers {s : State} : s.Answers (execFuseProgramDone s) := by
  refine .next ?_
  split
  · exact .refl _
  split
  · exact .thenWr <| .thenWr .update
  · exact .thenWr <| .after (.inc _ _ _ _) <| .thenWr .update
  · exact .after (.fire _ _) <| .after (.ite (.thenWr (.wr _ _ _ _)) (.wr _ _ _ _)) <| .thenWr .update

theorem State.Keeps.setDebug {s : State} {l : Nat} : s.Keeps (s.setDebug l) :=
  .ite (.refl _) (.after (.fire _ _) (.wr _ _ _ _))

theorem State.Keeps.unlockNext {s : State} {ps : List Nat} : s.Keeps (s.unlockNext ps) := by
  induction ps generalizing s with
  | nil => exact .update
  | cons p ps ih =>
    unfold State.unlockNext
    exact .ite ih (.ite .update (.after .resetPart .update))

theorem execPartResetDone_answers {s : State} : s.Answers (execPartResetDone s) := by
  unfold execPartResetDone
  refine .next ?_
  dsimp only
  split
  · exact .refl _
  split
  · exact .after (.ite .unlockNext (.refl _)) .partResetDone
  · exact .partResetDone

theorem execDebugState_answers {s : State} : s.Answers (execDebugState s) := by
  refine .next ?_
  split
  · exact .after .setDebug <| .thenWr .update
  · exact .refl _

theorem State.Keeps.dropNonce {s : State} : s.Keeps s.dropNonce :=
  .after (.forEach fun _ _ => .wr _ _ _ _) .update

theorem execDbgNonce_answers {s : State} : s.Answers (execDbgNonce s) :=
  .next (.onAccess fun _ => .ite (.refl _) (.thenWr <| .after (.forEach fun _ _ => .wr _ _ _ _) .update))

theorem State.Keeps.tokenAct {s : State} {b : List Byte} : s.Keeps (s.tokenAct b) := by
  unfold State.tokenAct
  split
  · exact .ite (.refl _) .setDebug
  · exact .ite (.refl _) (.after .unlockNext (.wr _ _ _ _))
  · exact .ite (.wr _ _ _ _) (.thenWr .burn)

theorem State.Keeps.submitToken {s : State} {b : List Byte} {sig : Nat} : s.Keeps (s.submitToken b sig) :=
  .ite (.refl _) <| .after (.ite (.after (.fire _ _) (.inc _ _ _ _)) (.after .tokenAct .update)) <|
    .thenWr .dropNonce

theorem execDbgSubmit_answers {sig : Nat} {s : State} : s.Answers (execDbgSubmit sig s) :=
  .next (.onAccess fun _ => .submitToken)

theorem execDbgLock_answers {s : State} : s.Answers (execDbgLock s) :=
  .next (.onAccess fun _ => .ite (.after .setDebug .update) (.ite (.refl _) (.after .setDebug (.wr _ _ _ _))))

theorem execSecStatusRead_answers {half : Nat} {s : State} : s.Answers (execSecStatusRead half s) :=
  .next .readBlk

end Sys2Proof.Machine
end

section
/-! What is kept: the scalar instructions. -/

namespace Sys2Proof.Machine

theorem execNopInstruction_answers {i : TI} {s : State} : s.Answers (execNopInstruction i s) :=
  .next (.tephra fun _ _ => .refl _)

theorem execTInteger_answers {i : TI} {op : IntOp} {o : TOp} {s : State} : s.Answers (execTInteger i op o s) :=
  .next (.tephra fun _ _ => .refl _)

theorem execCompareToPredicate_answers {i : TI} {op : CmpOp} {o : TOp} {s : State} :
    s.Answers (execCompareToPredicate i op o s) := by
  refine .next ?_
  refine .tephra fun s c => ?_
  split
  · exact .refl _
  · exact .ite .freeHigh (.refl _)

theorem execScalarFloat_answers {i : TI} {op : FltOp} {o : TOp} {s : State} :
    s.Answers (execScalarFloat i op o s) :=
  .next (.tephra fun _ _ => .ite_fst (.refl _) .freeHigh)

theorem State.Keeps.tLoad {s : State} {i : TI} {m : TMem} {signed : Bool} : s.Keeps (s.tLoad i m signed) := by
  unfold State.tLoad
  dsimp only
  refine .tephra fun s c => ?_
  split
  · exact .of_fst .coreLoad ‹_›
  · exact .of_fst .coreLoad ‹_›

theorem execTLd_answers {i : TI} {m : TMem} {s : State} : s.Answers (execTLd i m s) :=
  .next .tLoad

theorem execTLdu_answers {i : TI} {m : TMem} {s : State} : s.Answers (execTLdu i m s) :=
  .next .tLoad

theorem execTSt_answers {i : TI} {m : TMem} {s : State} : s.Answers (execTSt i m s) := by
  unfold execTSt
  refine .next ?_
  dsimp only
  refine .tephra fun s c => ?_
  split
  · exact .of_fst .coreStore ‹_›
  · exact .of_fst .coreStore ‹_›

theorem execTFence_answers {i : TI} {s : State} : s.Answers (execTFence i s) :=
  .next (.tephra fun _ _ => .refl _)

theorem State.Keeps.amo {s : State} {i : TI} {m : TMem} {f : State → Nat → Nat → State × Nat × Nat}
    (hf : ∀ (s : State) (n k : Nat), s.Keeps (f s n k).1) : s.Keeps (s.amo i m f) := by
  unfold State.amo
  dsimp only
  refine .tephra fun s c => ?_
  split
  · exact .of_fst .coreLoad ‹_›
  split
  · exact .after (.of_fst .coreStore ‹_›) <| .after (hf _ _ _) (.of_fst .coreLoad ‹_›)
  · exact .after (.of_fst .coreStore ‹_›) <| .after (hf _ _ _) (.of_fst .coreLoad ‹_›)

theorem execAmoadd_answers {i : TI} {m : TMem} {s : State} : s.Answers (execAmoadd i m s) :=
  .next (.amo fun _ _ _ => .refl _)

theorem execAmoswap_answers {i : TI} {m : TMem} {s : State} : s.Answers (execAmoswap i m s) :=
  .next (.amo fun _ _ _ => .refl _)

theorem execAmomax_answers {i : TI} {m : TMem} {s : State} : s.Answers (execAmomax i m s) :=
  .next (.amo fun _ _ _ => .refl _)

theorem execAmocas_answers {i : TI} {m : TMem} {s : State} : s.Answers (execAmocas i m s) :=
  .next (.amo fun _ _ _ => .update)

theorem execTBr_answers {i : TI} {link treg cond : Nat} {off : Int} {s : State} :
    s.Answers (execTBr i link treg cond off s) :=
  .next (.tephra fun _ _ => .ite (.refl _) (.refl _))

theorem execLoopSetup_answers {i : TI} {lp cnt imm len : Nat} {s : State} :
    s.Answers (execLoopSetup i lp cnt imm len s) :=
  .next (.tephra fun _ _ => .ite (.refl _) (.refl _))

theorem execMtmode_answers {i : TI} {s1 : Nat} {s : State} : s.Answers (execMtmode i s1 s) :=
  .next (.tephra fun _ _ => .refl _)

theorem execMfcr_answers {i : TI} {dst code : Nat} {s : State} : s.Answers (execMfcr i dst code s) :=
  .next (.tephra fun _ _ => .refl _)

theorem execMtcr_answers {i : TI} {s1 code : Nat} {s : State} : s.Answers (execMtcr i s1 code s) :=
  .next (.tephra fun _ _ => .refl _)

theorem execTEret_answers {i : TI} {s : State} : s.Answers (execTEret i s) :=
  .next (.tephra fun _ _ => .setCore)

theorem execTTrap_answers {i : TI} {code : Nat} {s : State} : s.Answers (execTTrap i code s) :=
  .next (.tephra fun _ _ => .refl _)

theorem execBrk_answers {i : TI} {code : Nat} {s : State} : s.Answers (execBrk i code s) :=
  .next (.tephra fun _ _ => .ite .setCore (.refl _))

theorem execTWfi_answers {i : TI} {s : State} : s.Answers (execTWfi i s) :=
  .next (.tephra fun _ _ => .refl _)

theorem execInterruptTake_answers {fc : Nat} {ok : Bool} {s : State} : s.Answers (execInterruptTake fc ok s) :=
  .next (.ite (.refl _) (.after .raise (.take _ _ _)))

end Sys2Proof.Machine
end

section
/-! What is kept: the vector instructions. -/

namespace Sys2Proof.Machine

theorem State.Keeps.vecResult {s : State} {i : TI} {op : VecOp} {o : TOp} {c : Core} :
    s.Keeps (s.vecResult i op o c).1 :=
  .update

theorem execVectorArithmetic_answers {i : TI} {op : VecOp} {o : TOp} {s : State} :
    s.Answers (execVectorArithmetic i op o s) := by
  refine .next ?_
  refine .tephra fun s c => ?_
  split
  · exact .refl _
  · exact .vecResult

theorem State.Keeps.loadLanes {s : State} {i : TI} {o : TOp} {n : Nat} {old c : Core} {ls : List Nat} :
    s.Keeps (s.loadLanes i o n old ls c).1 := by
  induction ls generalizing s c with
  | nil => exact .refl _
  | cons l ls ih =>
    unfold State.loadLanes
    split
    · exact .of_fst .coreLoad ‹_›
    · exact .after ih (.of_fst .coreLoad ‹_›)

theorem execVld_answers {i : TI} {o : TOp} {size : Nat} {s : State} : s.Answers (execVld i o size s) := by
  unfold execVld
  refine .next ?_
  dsimp only
  refine .tephra fun s c => ?_
  split
  · exact .refl _
  split
  · exact .of_fst .loadLanes ‹_›
  · exact .of_fst .loadLanes ‹_›

theorem State.Keeps.storeLanes {s : State} {i : TI} {o : TOp} {n : Nat} {c : Core} {ls : List Nat} :
    s.Keeps (s.storeLanes i o n c ls).1 := by
  induction ls generalizing s with
  | nil => exact .refl _
  | cons l ls ih =>
    unfold State.storeLanes
    dsimp only
    split
    · exact .of_fst .coreStore ‹_›
    · exact .after ih (.of_fst .coreStore ‹_›)

theorem execVst_answers {i : TI} {o : TOp} {size : Nat} {s : State} : s.Answers (execVst i o size s) := by
  unfold execVst
  refine .next ?_
  dsimp only
  refine .tephra fun s c => ?_
  split
  · exact .refl _
  split
  · exact .of_fst .storeLanes ‹_›
  · exact .of_fst .storeLanes ‹_›

theorem State.Keeps.onFrags {s : State} {g : EmbGroup} {ls : List Nat} {h : Nat → Frag → Frag} :
    s.Keeps (s.onFrags g ls h) :=
  .update

theorem execIlkAcq_answers {i : TI} {s : State} : s.Answers (execIlkAcq i s) := by
  refine .next ?_
  refine .tephra fun s c => ?_
  split
  · exact trivial
  · exact .ite .onFrags trivial

theorem execIlkRel_answers {i : TI} {s : State} : s.Answers (execIlkRel i s) := by
  refine .next ?_
  refine .tephra fun s c => ?_
  split
  · exact trivial
  · exact .onFrags

theorem execInterlockTimeout_answers {core : Nat} {s : State} : s.Answers (execInterlockTimeout core s) :=
  .next (.ite .raise (.refl _))

theorem TRes.Keeps.tileRead {s : State} {f : Flight} {g : EmbGroup} {o : TOp} {k : Nat} {ls : List Nat}
    {c : Core} : TRes.Keeps s (s.tileRead f g o k ls c) :=
  .ite (.refl _) <| .ite trivial (State.Keeps.onFrags (s := s))

theorem State.Keeps.texRead {s : State} {i : TI} {o : TOp} {lod : Bool} : s.Keeps (s.texRead i o lod) := by
  refine .tephra fun s c => ?_
  dsimp only
  split
  · refine .ite (.refl _) (.ite .tileRead ?_)
    split
    · exact .refl _
    · exact State.Keeps.detect
    · exact .refl _
  · exact .refl _

theorem execTex_answers {i : TI} {o : TOp} {s : State} : s.Answers (execTex i o s) :=
  .next .texRead

theorem execTexl_answers {i : TI} {o : TOp} {s : State} : s.Answers (execTexl i o s) :=
  .next .texRead

theorem State.Keeps.exportOp {s : State} {i : TI} {bad : Bool} {h : Core → Nat → Frag → Frag} :
    s.Keeps (s.exportOp i bad h) := by
  unfold State.exportOp
  refine .tephra fun s c => ?_
  split
  · exact trivial
  · exact .onFrags

theorem execExpC_answers {i : TI} {k vs : Nat} {s : State} : s.Answers (execExpC i k vs s) :=
  .next .exportOp

theorem execExpMv_answers {i : TI} {vs : Nat} {s : State} : s.Answers (execExpMv i vs s) :=
  .next .exportOp

theorem execExpZ_answers {i : TI} {vs : Nat} {s : State} : s.Answers (execExpZ i vs s) :=
  .next .exportOp

theorem State.Keeps.endLanes {s : State} {i : TI} {dropped : Bool} : s.Keeps (s.endLanes i dropped) := by
  unfold State.endLanes
  refine .tephra fun s c => ?_
  split
  · exact .ite (.refl _) <| .ite (.after .passAdvance <| .after .update <| .after .applyEnded .onFrags) <|
      .after .update <| .after .applyEnded .onFrags
  · exact trivial

theorem execExpEnd_answers {i : TI} {s : State} : s.Answers (execExpEnd i s) :=
  .next .endLanes

theorem execTDiscard_answers {i : TI} {s : State} : s.Answers (execTDiscard i s) :=
  .next .endLanes

end Sys2Proof.Machine
end

section
/-! What is kept: the self tests. -/

namespace Sys2Proof.Machine

theorem State.Keeps.embState {s : State} {st : Nat} : s.Keeps (s.embState st) :=
  .ite (.refl _) (.after (.fire _ _) (.wr _ _ _ _))

theorem State.Keeps.tstBegin {s : State} {cls idx kind : Nat} : s.Keeps (s.tstBegin cls idx kind) := by
  unfold State.tstBegin
  dsimp only
  split
  · exact .after .ceTestStart <| .thenWr .update
  · exact .after .embState <| .thenWr .update
  · exact .thenWr .update

theorem State.Keeps.tstRequest {s : State} {cls idx kind : Nat} {set : State → Nat → Nat → State}
    (hset : ∀ (s : State) (n k : Nat), s.Keeps (set s n k)) : s.Keeps (s.tstRequest cls idx kind set) :=
  .after (.ite .tstBegin (.fire _ _)) (hset _ _ _)

theorem execTstStart_answers {val : Nat} {s : State} : s.Answers (execTstStart val s) :=
  .next <| .onAccess fun _ => .after (.ite (.refl _) (.tstRequest fun _ _ _ => .thenWr .update)) <| .thenWr <|
    .thenWr (.wr _ _ _ _)

theorem execSmbusStartTest_answers {b0 b1 : Nat} {s : State} : s.Answers (execSmbusStartTest b0 b1 s) :=
  .next (.ite .update (.after (.tstRequest fun _ _ _ => .update) .update))

theorem execSmbusTestResult_answers {s : State} : s.Answers (execSmbusTestResult s) :=
  .next .update

theorem State.Keeps.tstLeave {s : State} {cls idx : Nat} {pass : Bool} : s.Keeps (s.tstLeave cls idx pass) := by
  unfold State.tstLeave
  dsimp only
  split
  · exact .after .ceTestEnd (.ite (.refl _) .update)
  · exact .after (.ite .embState (.refl _)) (.ite (.refl _) .update)
  · exact .after (.ite (.refl _) .visState) (.ite (.refl _) .update)
  · exact .after .switchAt (.ite (.refl _) .update)
  · exact .after .switchAt (.ite (.refl _) .update)

theorem execTestEnd_answers {cls idx misr : Nat} {bad : Option (Nat × Nat × Nat)} {s : State} :
    s.Answers (execTestEnd cls idx misr bad s) := by
  refine .next (.ite (.refl _) ?_)
  extract_lets _ _ sig bad' _ s1 _ _ _ s2 s3 s4 s5
  have h2 : s.Keeps s2 := .after .update <| .after (.inc _ _ _ _) <| .after (.wr _ _ _ _) <|
    .after (.wr _ _ _ _) (.wr _ _ _ _)
  have h3 : s2.Keeps s3 := .wr _ _ _ _
  clear_value sig bad' s3
  have h4 : s3.Keeps s4 := by
    unfold s4
    split
    · exact .wr _ _ _ _
    · exact .refl _
  have h5 : s2.Keeps s5 := by
    refine .ite (.refl _) (.after ?_ (.after h4 h3))
    split
    · exact .thenWr <| .thenWr <| .thenWr (.wr _ _ _ _)
    · exact .refl _
  exact .after .tstLeave <| .after (.fire _ _) <| .after h5 h2

theorem execTstUnitRead_answers {cls idx : Nat} {s : State} : s.Answers (execTstUnitRead cls idx s) :=
  .next .readBlk

theorem State.Keeps.tap {s : State} {ir dr : Nat} : s.Keeps (s.tap ir dr) :=
  .update

theorem State.Keeps.bypass {s : State} : s.Keeps s.bypass :=
  .tap

theorem execBypass_answers {code : Nat} {s : State} : s.Answers (execBypass code s) :=
  .next .bypass

theorem execIdcode_answers {s : State} : s.Answers (execIdcode s) :=
  .next .tap

theorem State.Keeps.capture {s : State} {ir load : Nat} : s.Keeps (s.capture ir load) :=
  .after .tap .update

theorem execSamplePreload_answers {load : Nat} {s : State} : s.Answers (execSamplePreload load s) :=
  .next .capture

theorem State.Keeps.tapReset {s : State} {pins : PinMode} : s.Keeps (s.tapReset pins) :=
  .after .update <| .after (.ite (.refl _) (.hardReset _)) (.ite (.refl _) (.fire _ _))

theorem execExtest_answers {load : Nat} {s : State} : s.Answers (execExtest load s) :=
  .next (.after .capture .tapReset)

theorem execClamp_answers {s : State} : s.Answers (execClamp s) :=
  .next (.after .tap .tapReset)

theorem execHighz_answers {s : State} : s.Answers (execHighz s) :=
  .next (.after .tap .tapReset)

theorem execExtestPulse_answers {load : Nat} {s : State} : s.Answers (execExtestPulse load s) :=
  .next (.after .capture .tapReset)

theorem execExtestTrain_answers {load : Nat} {s : State} : s.Answers (execExtestTrain load s) :=
  .next (.after .capture .tapReset)

theorem execTestLogicReset_answers {s : State} : s.Answers (execTestLogicReset s) :=
  .next (.ite (.after (.applyStraps _) .update) .update)

theorem execSelftest_answers {data : Nat} {s : State} : s.Answers (execSelftest data s) :=
  .next (.after (.ite (.refl _) (.tstRequest fun _ _ _ => .update)) .tap)

theorem execTestresult_answers {s : State} : s.Answers (execTestresult s) :=
  .next .tap

theorem execDbgToken_answers {token : List Byte} {sig : Nat} {s : State} :
    s.Answers (execDbgToken token sig s) :=
  .next (.after (.ite (.refl _) .submitToken) .tap)

theorem State.Keeps.atLevel {s : State} {l : Nat} {g : State → State} (hg : ∀ s : State, s.Keeps (g s)) :
    s.Keeps (s.atLevel l g) :=
  .ite .bypass (hg _)

theorem execDbgObserve_answers {s : State} : s.Answers (execDbgObserve s) :=
  .next (.atLevel fun _ => .after .tap .update)

theorem execDbgCore_answers {core : Nat} {op : DbgOp} {s : State} : s.Answers (execDbgCore core op s) := by
  refine .next ?_
  refine .atLevel fun s => ?_
  split
  · exact .tap
  split
  · exact .after .tap .setCore
  · exact .after .tap .setCore
  · exact .tap
  · exact .after .tap .setCore
  · exact .tap
  · exact .after .tap .setCore
  · exact .tap

end Sys2Proof.Machine
end

section
/-! What is kept: the sequencer instructions. -/

namespace Sys2Proof.Machine

theorem execTokSig_answers {i : TI} {s1 n : Nat} {s : State} : s.Answers (execTokSig i s1 n s) :=
  .next (.tephra fun _ _ => .refl _)

theorem execTokWait_answers {i : TI} {s1 n : Nat} {s : State} : s.Answers (execTokWait i s1 n s) := by
  unfold execTokWait
  refine .next ?_
  dsimp only
  refine .tephra fun s c => ?_
  split
  · exact .refl _
  split
  · exact .refl _
  · exact .ite (.refl _) trivial

theorem execTokClr_answers {i : TI} {s1 : Nat} {s : State} : s.Answers (execTokClr i s1 s) :=
  .next (.tephra fun _ _ => .refl _)

theorem State.Keeps.seqIssue {s : State} {i : TI} {o : TOp} {regs : List Nat}
    {mk : State → Core → List (Nat × Nat) × RunKind × State}
    (hmk : ∀ (s : State) (c : Core), s.Keeps (mk s c).2.2) : s.Keeps (s.seqIssue i o regs mk) := by
  refine .tephra fun s c => ?_
  dsimp only
  split
  · exact .refl _
  · exact hmk s c

theorem State.Keeps.setArray {s : State} {id a : Nat} {u : ArrayUnit} : s.Keeps (s.setArray id a u) :=
  .update

theorem execArrLoad_answers {i : TI} {o : TOp} {s : State} : s.Answers (execArrLoad i o s) :=
  .next (.seqIssue fun _ _ => .refl _)

theorem execArrPass_answers {i : TI} {o : TOp} {s : State} : s.Answers (execArrPass i o s) :=
  .next (.seqIssue fun _ _ => .ite .setArray (.refl _))

theorem execArrDrain_answers {i : TI} {o : TOp} {s : State} : s.Answers (execArrDrain i o s) :=
  .next (.seqIssue fun _ _ => .refl _)

theorem execVecRun_answers {i : TI} {o : TOp} {s : State} : s.Answers (execVecRun i o s) :=
  .next (.tephra fun _ _ => .ite (.refl _) (.refl _))

theorem execOpuRun_answers {i : TI} {o : TOp} {s : State} : s.Answers (execOpuRun i o s) :=
  .next (.seqIssue fun _ _ => .refl _)

theorem State.Keeps.issueDma {s : State} {i : TI} {o : TOp} {out : Bool} : s.Keeps (s.issueDma i o out) :=
  .seqIssue fun _ _ => .refl _

theorem execDmaIn_answers {i : TI} {o : TOp} {s : State} : s.Answers (execDmaIn i o s) :=
  .next .issueDma

theorem execDmaOut_answers {i : TI} {o : TOp} {s : State} : s.Answers (execDmaOut i o s) :=
  .next .issueDma

theorem State.Keeps.dmaRows {s : State} {f : Flight} {c : Core} {out : Bool} {va off n pitch : Nat}
    {rs : List Nat} : s.Keeps (s.dmaRows f c out va off n pitch rs).1 := by
  induction rs generalizing s c with
  | nil => exact .refl _
  | cons r rs ih =>
    unfold State.dmaRows
    refine .ite_fst (.ite_fst (.refl _) ?_) ?_
    · split
      · exact .of_fst .stBytes ‹_›
      · exact .after ih (.of_fst .stBytes ‹_›)
    split
    · exact .detect
    · exact .after ih .touch

theorem State.Keeps.runEffect {s : State} {id : Nat} {f : Flight} {c : Core} {r : UnitRun} :
    s.Keeps (s.runEffect id f c r).1 := by
  unfold State.runEffect
  split
  · exact .setArray
  · exact .refl _
  · exact .update
  · exact .update
  · exact .update
  split
  · exact .of_fst .dmaRows ‹_›
  · exact .of_fst .dmaRows ‹_›

theorem execUnitEnd_answers {core n : Nat} {ecc : EccResult} {mem bank off : Nat} {s : State} :
    s.Answers (execUnitEnd core n ecc mem bank off s) := by
  unfold execUnitEnd
  refine .next ?_
  dsimp only
  split
  · exact .refl _
  split
  · exact .ite .sramUncorrectable (.after .setCore <| .after .runEffect (.ite .sramCorrected (.refl _)))
  · exact .refl _

theorem execSeqEnd_answers {i : TI} {s1 : Nat} {s : State} : s.Answers (execSeqEnd i s1 s) := by
  refine .next ?_
  refine .tephra fun s c => ?_
  split
  · exact .after .setCore <| .after (.ite (.refl _) .setFlight) (.wr _ _ _ _)
  · exact trivial

theorem execSeqWatchdog_answers {ce sq : Nat} {s : State} : s.Answers (execSeqWatchdog ce sq s) :=
  .next (.ite (.after .seqLost (.fire _ _)) (.refl _))

end Sys2Proof.Machine
end

section
/-! What is kept: time, comparators and one period of TCLK. -/

namespace Sys2Proof.Machine

theorem State.Keeps.setGcnt {s : State} {v : Nat} : s.Keeps (s.setGcnt v) :=
  .thenWr .update

theorem State.Keeps.setSync {s : State} {st : Nat} : s.Keeps (s.setSync st) :=
  .ite (.refl _) (.after (.fire _ _) (.wr _ _ _ _))

theorem State.Keeps.tick {s : State} : s.Keeps s.tick :=
  .ite (.refl _) (.after (.ite (.forEach fun _ _ => .inc _ _ _ _) (.refl _)) <| .after .setGcnt .update)

theorem execTimGcntRead_answers {req half : Nat} {s : State} : s.Answers (execTimGcntRead req half s) := by
  refine .next ?_
  split
  · exact .update
  split
  · exact .update
  split
  · split
    · exact .update
    · exact .update
  · exact .update

theorem execSyncFrameSend_answers {s : State} : s.Answers (execSyncFrameSend s) :=
  .next (.ite .update (.refl _))

theorem State.Keeps.follow {s : State} {e : Int} : s.Keeps (s.follow e) :=
  .ite (.after (.fire _ _) <| .after .setSync <| .after .update <| .after (.inc _ _ _ _) <| .thenWr .setGcnt) <|
    .ite (.ite (.after .setSync .update) .update) <| .after .setSync <| .after .update (.wr _ _ _ _)

theorem execSyncFrame_answers {frame l : Nat} {s : State} : s.Answers (execSyncFrame frame l s) :=
  .next <| .ite (.refl _) <| .ite (.after (.fire _ _) (.inc _ _ _ _)) <|
    .after (.ite (.after .update <| .after .follow <| .thenWr .update) (.ite (.thenWr .update) .update))
    (.wr _ _ _ _)

theorem execHoldover_answers {s : State} : s.Answers (execHoldover s) :=
  .next (.ite (.after .setSync .update) (.refl _))

theorem execTimCtrlWrite_answers {val : Nat} {s : State} : s.Answers (execTimCtrlWrite val s) :=
  .next <| .onAccess fun _ => .after (.ite (.after .setSync .update) (.refl _)) <| .thenWr <|
    .thenWr (.wr _ _ _ _)

theorem execTimSyncStatusRead_answers {half : Nat} {s : State} : s.Answers (execTimSyncStatusRead half s) :=
  .next .readBlk

theorem execComparatorExpiry_answers {c : Nat} {s : State} : s.Answers (execComparatorExpiry c s) :=
  .next (.ite (.after (.fireIsland _ _) (.ite (.after (.inc _ _ _ _) (.wr _ _ _ _)) (.wr _ _ _ _))) (.refl _))

theorem execTimCmpTargetWrite_answers {c half val : Nat} {s : State} :
    s.Answers (execTimCmpTargetWrite c half val s) :=
  .next (.onAccess fun _ => .ite (.wr _ _ _ _) (.refl _))

theorem execTimCmpReloadWrite_answers {c half val : Nat} {s : State} :
    s.Answers (execTimCmpReloadWrite c half val s) :=
  .next (.onAccess fun _ => .ite (.wr _ _ _ _) (.refl _))

theorem execTimCmpCtrlRead_answers {c : Nat} {s : State} : s.Answers (execTimCmpCtrlRead c s) :=
  .next (.ite .readBlk .update)

theorem State.Keeps.setDate {s : State} {d : DateTime} : s.Keeps (s.setDate d) :=
  .thenWr <| .thenWr <| .thenWr <| .thenWr <| .thenWr <| .thenWr (.wr _ _ _ _)

theorem execCalendarTick_answers {s : State} : s.Answers (execCalendarTick s) :=
  .next <| .ite (.after (.fireIsland _ _) <| .thenWr <| .thenWr <| .thenWr <| .thenWr .setDate) <|
    .ite (.wr _ _ _ _) <| .after (.ite (.after (.fireIsland _ _) (.wr _ _ _ _)) (.refl _)) <| .thenWr .setDate

theorem execCalLoad_answers {s : State} : s.Answers (execCalLoad s) :=
  .next (.onAccess fun _ => .ite (.thenWr .update) (.after (.fireIsland _ _) (.wr _ _ _ _)))

theorem execCalInvalid_answers {s : State} : s.Answers (execCalInvalid s) :=
  .next (.after (.fireIsland _ _) <| .thenWr <| .thenWr <| .thenWr .setDate)

theorem execTimRngOutLoRead_answers {s : State} : s.Answers (execTimRngOutLoRead s) :=
  .next (.ite .update (.after .update (.wr _ _ _ _)))

theorem execTimRngInputWrite_answers {which half val : Nat} {s : State} :
    s.Answers (execTimRngInputWrite which half val s) :=
  .next (.onAccess fun _ => .wr _ _ _ _)

end Sys2Proof.Machine
end

section
/-! Every command and every step answers a next state. -/

namespace Sys2Proof.Machine

theorem exec_answers {s : State} (i : Instr) : s.Answers (exec i s) :=
  match i with
  | .registerWrite .. => execRegisterWrite_answers
  | .structLoad .. => execStructLoad_answers
  | .structCancel .. => execStructCancel_answers
  | .fetchEnd .. => execFetchEnd_answers
  | .validationEnd .. => execValidationEnd_answers
  | .flashImageLoad .. => execFlashImageLoad_answers
  | .drainLimitExpiry .. => execDrainLimitExpiry_answers
  | .partitionDrained .. => execPartitionDrained_answers
  | .scrubRead .. => execScrubRead_answers
  | .rowRepaired .. => execRowRepaired_answers
  | .copyOnWrite .. => execCopyOnWrite_answers
  | .vfMap .. => execVfMap_answers
  | .vfUnmap .. => execVfUnmap_answers
  | .vfShare .. => execVfShare_answers
  | .mapRequestEnd .. => execMapRequestEnd_answers
  | .pownAlloc .. => execPownAlloc_answers
  | .pownFree .. => execPownFree_answers
  | .pownMap .. => execPownMap_answers
  | .pownUnmap .. => execPownUnmap_answers
  | .pownRequestEnd => execPownRequestEnd_answers
  | .ttCapWrite .. => execTtCapWrite_answers
  | .ttRead .. => execTtRead_answers
  | .victimSwappedOut .. => execVictimSwappedOut_answers
  | .linkTrained .. => execLinkTrained_answers
  | .completionTimeout .. => execCompletionTimeout_answers
  | .readCompletion .. => execReadCompletion_answers
  | .poisonedWrite port addr val => execPoisonedWrite_answers (_port := port) (_addr := addr) (_val := val)
  | .standbyRequest .. => execStandbyRequest_answers
  | .vfEnable .. => execVfEnable_answers
  | .doorbell .. => execDoorbell_answers
  | .dlDown .. => execDlDown_answers
  | .dllpTimeout .. => execDllpTimeout_answers
  | .failoverDone => execFailoverDone_answers
  | .moveOneTenant .. => execMoveOneTenant_answers
  | .moveOtherPort .. => execMoveOtherPort_answers
  | .movePf0 .. => execMovePf0_answers
  | .moveDone => execMoveDone_answers
  | .holdExpiry .. => execHoldExpiry_answers
  | .linkUp .. => execLinkUp_answers
  | .perst .. => execPerst_answers
  | .vfFlr .. => execVfFlr_answers
  | .pf0Flr => execPf0Flr_answers
  | .standbyFlr .. => execStandbyFlr_answers
  | .d3hot .. => execD3hot_answers
  | .queueCreate .. => execQueueCreate_answers
  | .queueDestroy .. => execQueueDestroy_answers
  | .destroyEnd .. => execDestroyEnd_answers
  | .queueResume .. => execQueueResume_answers
  | .nopCmd .. => execNopCmd_answers
  | .copyCmd .. => execCopyCmd_answers
  | .tensorDefine .. => execTensorDefine_answers
  | .tensorRelease .. => execTensorRelease_answers
  | .fenceWait .. => execFenceWait_answers
  | .fencePoll .. => execFencePoll_answers
  | .fenceTimeout .. => execFenceTimeout_answers
  | .fenceSignal .. => execFenceSignal_answers
  | .versionCommit .. => execVersionCommit_answers
  | .versionAbort .. => execVersionAbort_answers
  | .matmul .. => execMatmul_answers
  | .vector .. => execVector_answers
  | .conv .. => execConv_answers
  | .pool .. => execPool_answers
  | .cropResize .. => execCropResize_answers
  | .argmax .. => execArgmax_answers
  | .regroup .. => execRegroup_answers
  | .codec .. => execCodec_answers
  | .attention .. => execAttention_answers
  | .seqCreate .. => execSeqCreate_answers
  | .seqFork .. => execSeqFork_answers
  | .seqFree .. => execSeqFree_answers
  | .kvSwapOut .. => execKvSwapOut_answers
  | .kvSwapIn .. => execKvSwapIn_answers
  | .visionRun .. => execVisionRun_answers
  | .emberPass .. => execEmberPass_answers
  | .eqxFrame .. => execEqxFrame_answers
  | .compose .. => execCompose_answers
  | .headStart .. => execHeadStart_answers
  | .headStop .. => execHeadStop_answers
  | .portStart .. => execPortStart_answers
  | .portStop .. => execPortStop_answers
  | .attemptEnd .. => execAttemptEnd_answers
  | .commitCmd .. => execCommitCmd_answers
  | .inPlaceLimitExpiry .. => execInPlaceLimitExpiry_answers
  | .schedulerEpoch => execSchedulerEpoch_answers
  | .batchStepPlace => execBatchStepPlace_answers
  | .batchWaitExpiry => execBatchWaitExpiry_answers
  | .aging => execAging_answers
  | .runLimitExpiry .. => execRunLimitExpiry_answers
  | .teardown .. => execTeardown_answers
  | .teardownDone .. => execTeardownDone_answers
  | .energyCalibration .. => execEnergyCalibration_answers
  | .ceRemove _ val => execCeRemove_answers (val := val)
  | .removeEnd .. => execRemoveEnd_answers
  | .ceTest _ val => execCeTest_answers (val := val)
  | .ceReturn _ val => execCeReturn_answers (val := val)
  | .reloadEnd .. => execReloadEnd_answers
  | .sequencerBind .. => execSequencerBind_answers
  | .regionZeroed .. => execRegionZeroed_answers
  | .regionWait .. => execRegionWait_answers
  | .arrayParity .. => execArrayParity_answers
  | .seqWatchdog .. => execSeqWatchdog_answers
  | .unitEnd .. => execUnitEnd_answers
  | .nopInstruction .. => execNopInstruction_answers
  | .tInteger .. => execTInteger_answers
  | .compareToPredicate .. => execCompareToPredicate_answers
  | .scalarFloat .. => execScalarFloat_answers
  | .tLd .. => execTLd_answers
  | .tLdu .. => execTLdu_answers
  | .tSt .. => execTSt_answers
  | .tFence .. => execTFence_answers
  | .amoadd .. => execAmoadd_answers
  | .amoswap .. => execAmoswap_answers
  | .amocas .. => execAmocas_answers
  | .amomax .. => execAmomax_answers
  | .tBr .. => execTBr_answers
  | .loopSetup .. => execLoopSetup_answers
  | .mtmode .. => execMtmode_answers
  | .mfcr .. => execMfcr_answers
  | .mtcr .. => execMtcr_answers
  | .tEret .. => execTEret_answers
  | .tTrap _ code => execTTrap_answers (code := code)
  | .brk _ code => execBrk_answers (code := code)
  | .tWfi .. => execTWfi_answers
  | .interruptTake .. => execInterruptTake_answers
  | .arrLoad .. => execArrLoad_answers
  | .arrPass .. => execArrPass_answers
  | .arrDrain .. => execArrDrain_answers
  | .vecRun .. => execVecRun_answers
  | .opuRun .. => execOpuRun_answers
  | .dmaIn .. => execDmaIn_answers
  | .dmaOut .. => execDmaOut_answers
  | .tokSig .. => execTokSig_answers
  | .tokWait .. => execTokWait_answers
  | .tokClr .. => execTokClr_answers
  | .seqEnd .. => execSeqEnd_answers
  | .vectorArithmetic .. => execVectorArithmetic_answers
  | .vld .. => execVld_answers
  | .vst .. => execVst_answers
  | .tex .. => execTex_answers
  | .texl .. => execTexl_answers
  | .ilkAcq .. => execIlkAcq_answers
  | .ilkRel .. => execIlkRel_answers
  | .interlockTimeout .. => execInterlockTimeout_answers
  | .expC .. => execExpC_answers
  | .expMv .. => execExpMv_answers
  | .expZ .. => execExpZ_answers
  | .tDiscard .. => execTDiscard_answers
  | .expEnd .. => execExpEnd_answers
  | .visEnable .. => execVisEnable_answers
  | .visDisable .. => execVisDisable_answers
  | .visTrigAdd .. => execVisTrigAdd_answers
  | .pyramidRunStart .. => execPyramidRunStart_answers
  | .pyrDone .. => execPyrDone_answers
  | .motionRunStart .. => execMotionRunStart_answers
  | .motDone .. => execMotDone_answers
  | .refineRunStart .. => execRefineRunStart_answers
  | .frameDone .. => execFrameDone_answers
  | .issuePoint .. => execIssuePoint_answers
  | .lineMatchA .. => execLineMatchA_answers
  | .lineMatchB .. => execLineMatchB_answers
  | .stripeWarpDone .. => execStripeWarpDone_answers
  | .eqxStart .. => execEqxStart_answers
  | .eqxStop .. => execEqxStop_answers
  | .homogCommit .. => execHomogCommit_answers
  | .eqxMemReadWrite .. => execEqxMemReadWrite_answers
  | .layerFlip .. => execLayerFlip_answers
  | .hpdRise .. => execHpdRise_answers
  | .unplug .. => execUnplug_answers
  | .plug .. => execPlug_answers
  | .trainingAttemptEnd .. => execTrainingAttemptEnd_answers
  | .auxStart .. => execAuxStart_answers
  | .auxDone .. => execAuxDone_answers
  | .vblankStart .. => execVblankStart_answers
  | .lineMatch .. => execLineMatch_answers
  | .headFrameDone .. => execHeadFrameDone_answers
  | .line0 .. => execLine0_answers
  | .underrun .. => execUnderrun_answers
  | .planeFlip .. => execPlaneFlip_answers
  | .frameStart .. => execFrameStart_answers
  | .longPacket .. => execLongPacket_answers
  | .frameEnd .. => execFrameEnd_answers
  | .shortPacket .. => execShortPacket_answers
  | .vinVcRelWrite .. => execVinVcRelWrite_answers
  | .sourceFire .. => execSourceFire_answers
  | .geyPendWrite .. => execGeyPendWrite_answers
  | .geyPendSetWrite .. => execGeyPendSetWrite_answers
  | .geyTgtComplete .. => execGeyTgtComplete_answers
  | .geyGrpWrite .. => execGeyGrpWrite_answers
  | .vfGeyPendWrite .. => execVfGeyPendWrite_answers
  | .vfGeySetWrite .. => execVfGeySetWrite_answers
  | .vfGeyComplete .. => execVfGeyComplete_answers
  | .groupTimeExpiry .. => execGroupTimeExpiry_answers
  | .syncFrameSend => execSyncFrameSend_answers
  | .syncFrame .. => execSyncFrame_answers
  | .holdover => execHoldover_answers
  | .timCtrlWrite .. => execTimCtrlWrite_answers
  | .comparatorExpiry .. => execComparatorExpiry_answers
  | .timCmpTargetWrite .. => execTimCmpTargetWrite_answers
  | .timCmpReloadWrite .. => execTimCmpReloadWrite_answers
  | .timGcntRead .. => execTimGcntRead_answers
  | .calendarTick => execCalendarTick_answers
  | .calLoad => execCalLoad_answers
  | .calInvalid => execCalInvalid_answers
  | .timRngOutLoRead => execTimRngOutLoRead_answers
  | .timRngInputWrite .. => execTimRngInputWrite_answers
  | .pllLock => execPllLock_answers
  | .pllLockTimeout => execPllLockTimeout_answers
  | .pllLost => execPllLost_answers
  | .firmwareMulticast .. => execFirmwareMulticast_answers
  | .pathChosen .. => execPathChosen_answers
  | .trainingDone .. => execTrainingDone_answers
  | .memtestDone .. => execMemtestDone_answers
  | .checkingDone .. => execCheckingDone_answers
  | .healthRecordWrite .. => execHealthRecordWrite_answers
  | .brgRestart .. => execBrgRestart_answers
  | .nextFullWrite .. => execNextFullWrite_answers
  | .pcRetire .. => execPcRetire_answers
  | .retireEnd .. => execRetireEnd_answers
  | .pcTest .. => execPcTest_answers
  | .pcReturn .. => execPcReturn_answers
  | .partitionReset .. => execPartitionReset_answers
  | .partResetDone => execPartResetDone_answers
  | .fumaroleRestarted .. => execFumaroleRestarted_answers
  | .getVersion .. => execGetVersion_answers
  | .getCapabilities .. => execGetCapabilities_answers
  | .negotiateAlgorithms .. => execNegotiateAlgorithms_answers
  | .getDigests .. => execGetDigests_answers
  | .getCertificate .. => execGetCertificate_answers
  | .challenge .. => execChallenge_answers
  | .getMeasurements .. => execGetMeasurements_answers
  | .unsupportedRequest .. => execUnsupportedRequest_answers
  | .signedResponse => execSignedResponse_answers
  | .attestReissued .. => execAttestReissued_answers
  | .raiseFw => execRaiseFw_answers
  | .raiseStruct => execRaiseStruct_answers
  | .ownerProgram .. => execOwnerProgram_answers
  | .fuseProgramDone => execFuseProgramDone_answers
  | .dbgNonce => execDbgNonce_answers
  | .dbgSubmit .. => execDbgSubmit_answers
  | .dbgLock => execDbgLock_answers
  | .debugState => execDebugState_answers
  | .resetNAssert .. => execResetNAssert_answers
  | .resetNRelease .. => execResetNRelease_answers
  | .pwrOkFall => execPwrOkFall_answers
  | .brownOut => execBrownOut_answers
  | .pwrRetain .. => execPwrRetain_answers
  | .retainEntered => execRetainEntered_answers
  | .wakeEvent .. => execWakeEvent_answers
  | .wakeDone => execWakeDone_answers
  | .throttleWindowEnd .. => execThrottleWindowEnd_answers
  | .pwrAlertNChange .. => execPwrAlertNChange_answers
  | .tempSample .. => execTempSample_answers
  | .thermTrip => execThermTrip_answers
  | .avsAdjust .. => execAvsAdjust_answers
  | .smbusStatusRead => execSmbusStatusRead_answers
  | .smbusStartTest .. => execSmbusStartTest_answers
  | .smbusTestResult => execSmbusTestResult_answers
  | .tstStart .. => execTstStart_answers
  | .testEnd .. => execTestEnd_answers
  | .bypass code => execBypass_answers (code := code)
  | .idcode => execIdcode_answers
  | .samplePreload .. => execSamplePreload_answers
  | .extest .. => execExtest_answers
  | .clamp => execClamp_answers
  | .highz => execHighz_answers
  | .extestPulse .. => execExtestPulse_answers
  | .extestTrain .. => execExtestTrain_answers
  | .selftest .. => execSelftest_answers
  | .testresult => execTestresult_answers
  | .dbgToken .. => execDbgToken_answers
  | .dbgObserve => execDbgObserve_answers
  | .dbgCore .. => execDbgCore_answers
  | .testLogicReset => execTestLogicReset_answers
  | .rdyStatusRead .. => execRdyStatusRead_answers
  | .rdyDropsRead .. => execRdyDropsRead_answers
  | .structStatusRead .. => execStructStatusRead_answers
  | .memPcStatusRead .. => execMemPcStatusRead_answers
  | .vfQctrlRead .. => execVfQctrlRead_answers
  | .hostPortStatusRead .. => execHostPortStatusRead_answers
  | .schCeStatusRead .. => execSchCeStatusRead_answers
  | .ceSramErrRead .. => execCeSramErrRead_answers
  | .ceCodecErrRead .. => execCeCodecErrRead_answers
  | .embErrRead .. => execEmbErrRead_answers
  | .dspLinkRead .. => execDspLinkRead_answers
  | .dspUnderrunRead .. => execDspUnderrunRead_answers
  | .vinErrRead .. => execVinErrRead_answers
  | .geyRetRead .. => execGeyRetRead_answers
  | .geyTgtRead .. => execGeyTgtRead_answers
  | .timSyncStatusRead .. => execTimSyncStatusRead_answers
  | .timCmpCtrlRead .. => execTimCmpCtrlRead_answers
  | .eqxStreamStatRead .. => execEqxStreamStatRead_answers
  | .eqxStreamStat2Read .. => execEqxStreamStat2Read_answers
  | .brgMemtestRead .. => execBrgMemtestRead_answers
  | .secStatusRead .. => execSecStatusRead_answers
  | .pwrStatusRead .. => execPwrStatusRead_answers
  | .tstUnitRead .. => execTstUnitRead_answers
  | .phyError .. => execPhyError_answers
  | .fatalFabricError .. => execFatalFabricError_answers
  | .busMasterEnableWrite .. => execBusMasterEnableWrite_answers
  | .msixMaskWrite .. => execMsixMaskWrite_answers
  | .timingGeneratorStart .. => execTimingGeneratorStart_answers
  | .stripeEntryFreed .. => execStripeEntryFreed_answers

theorem State.Keeps.idle {s : State} : s.Keeps s.idle := .after .tick .noteReady

/-- A step takes the front command off the queue; from there the state is kept. -/
theorem step_answers (s : State) : ∃ t, step s = .next t ∧ t.pending = s.pending.tail ∧ (s.Inv → t.Inv) := by
  unfold step
  split
  next hp =>
    obtain ⟨hpending, hinv⟩ := State.Keeps.idle (s := s)
    exact ⟨s.idle, rfl, by rw [hpending, hp, List.tail_nil], hinv⟩
  next c cs hp =>
    obtain ⟨t, ht, hpending, hinv⟩ := exec_answers (s := { s with pending := cs }) c
    exact ⟨t, ht, by rw [hpending, hp, List.tail_cons], hinv⟩

end Sys2Proof.Machine
end

section
namespace Sys2Proof.Machine

/-- Settles O3: every command keeps what it starts from (`exec_answers`), and a kept register file stays within its
widths. -/
theorem everyStepKeepsTheInvariant : Obligations.EveryStepKeepsTheInvariant := by
  intro s
  obtain ⟨t, ht, hpending, hinv⟩ := step_answers s
  exact ⟨t, ht, hpending, fun hs => ⟨hinv hs, (hinv hs).rd_lt⟩⟩

end Sys2Proof.Machine
end

section
/-! Single bits: what setting or clearing one bit, and storing or clearing a run of them, leaves of the others. -/

namespace Sys2Proof.Machine

/-- Adding a power of two where its bit is clear carries into no other bit. -/
theorem testBit_add_two_pow_ne {x i j : Nat} (hi : x.testBit i = false) (hj : j ≠ i) :
    (x + 2 ^ i).testBit j = x.testBit j := by
  obtain hlt | hgt := Nat.lt_or_gt_of_ne hj
  · rw [Nat.add_comm, Nat.testBit_two_pow_add_gt hlt]
  · obtain ⟨k, rfl⟩ : ∃ k, j = k + 1 + i := ⟨j - i - 1, by omega⟩
    have heven : x / 2 ^ i % 2 ≠ 1 := by simpa [Nat.testBit_eq_decide_div_mod_eq] using hi
    rw [Nat.testBit_add _ (k + 1), Nat.testBit_add _ (k + 1), Nat.add_div_right _ (Nat.two_pow_pos i),
      Nat.testBit_add_one, Nat.testBit_add_one]
    congr 1
    omega

theorem testBit_setBit_ne {x i j : Nat} (hj : j ≠ i) : (setBit x i).testBit j = x.testBit j := by
  by_cases hi : x.testBit i = true
  · rw [setBit, if_pos hi]
  · rw [setBit, if_neg hi]
    exact testBit_add_two_pow_ne (by simpa using hi) hj

/-- A set bit's power of two comes off: what remains has the bit clear. -/
theorem clrBit_add {x i : Nat} (hi : x.testBit i = true) :
    clrBit x i + 2 ^ i = x ∧ (clrBit x i).testBit i = false := by
  have hx : clrBit x i + 2 ^ i = x := by
    rw [clrBit, if_pos hi]
    exact Nat.sub_add_cancel (Nat.ge_two_pow_of_testBit hi)
  refine ⟨hx, ?_⟩
  rw [← hx, Nat.add_comm, Nat.testBit_two_pow_add_eq] at hi
  simpa using hi

theorem testBit_clrBit (x i : Nat) : (clrBit x i).testBit i = false := by
  by_cases hi : x.testBit i = true
  · exact (clrBit_add hi).2
  · rw [clrBit, if_neg hi]
    simpa using hi

theorem testBit_clrBit_ne {x i j : Nat} (hj : j ≠ i) : (clrBit x i).testBit j = x.testBit j := by
  by_cases hi : x.testBit i = true
  · obtain ⟨hx, hclear⟩ := clrBit_add hi
    calc (clrBit x i).testBit j = (clrBit x i + 2 ^ i).testBit j := (testBit_add_two_pow_ne hclear hj).symm
      _ = x.testBit j := by rw [hx]
  · rw [clrBit, if_neg hi]

/-- What an RW field stores: each bit of the list takes its new value. -/
theorem testBit_foldl_store (on : Nat → Bool) (l : List Nat) (x j : Nat) :
    (l.foldl (fun x i => if on i then setBit x i else clrBit x i) x).testBit j =
      if j ∈ l then on j else x.testBit j := by
  induction l using List.reverseRecOn with
  | nil => simp
  | append_singleton l i ih =>
    rw [List.foldl_concat]
    by_cases hj : j = i
    · subst hj
      cases h : on j <;> simp [testBit_setBit, testBit_clrBit]
    · split <;> simp [testBit_setBit_ne hj, testBit_clrBit_ne hj, ih, hj]

/-- What a W1C field keeps: each bit of the list that is written 1 is cleared. -/
theorem testBit_foldl_clear (on : Nat → Bool) (l : List Nat) (x j : Nat) :
    (l.foldl (fun x i => if on i then clrBit x i else x) x).testBit j =
      (x.testBit j && !(decide (j ∈ l) && on j)) := by
  induction l using List.reverseRecOn with
  | nil => simp
  | append_singleton l i ih =>
    rw [List.foldl_concat]
    by_cases hj : j = i
    · subst hj
      cases h : on j <;> simp [testBit_clrBit, h, ih]
    · split <;> simp [testBit_clrBit_ne hj, ih, hj]

end Sys2Proof.Machine
end

section
/-! What a write of one field, and of all the fields of a register, stores and leaves (R14, R587). -/

namespace Sys2Proof.Machine

theorem OnlyRegs.refl (s : State) (l : List (Fld × Nat)) : OnlyRegs s s l := ⟨rfl, fun _ _ _ => rfl⟩

theorem OnlyRegs.wr (s : State) (f : Fld) (u v : Nat) : OnlyRegs s (s.wr f u v) [(f, u)] :=
  ⟨rfl, fun g w hw => State.rd_wr_ne s v fun ⟨hg, hu⟩ => hw (by simp [hg, hu])⟩

theorem OnlyRegs.trans {s t v : State} {l m : List (Fld × Nat)} (h : OnlyRegs s t l) (k : OnlyRegs t v m) :
    OnlyRegs s v (l ++ m) := by
  obtain ⟨hst, hrd⟩ := h
  obtain ⟨htv, krd⟩ := k
  refine ⟨by rw [← hst, ← htv], fun f u hf => ?_⟩
  rw [List.mem_append, not_or] at hf
  exact (krd f u hf.2).trans (hrd f u hf.1)

/-- The field takes no write: it has a command of its own, a head stream's plan holds it, or its vector is not
software's. -/
def State.fieldHeld (s : State) (f : Fld) (u : Nat) : Bool :=
  f.info.ownRow || (headFields.contains f && s.rd .EQX_STREAM_CTRL_HEAD u == 1) ||
    (f == .GEY_SRC_VECTOR && s.rd .GEY_SRC_TARGET u != 12)

theorem State.putField_of_held {s : State} {f : Fld} {u half w : Nat} (h : s.fieldHeld f u = true) :
    s.putField f u half w = s := if_pos h

theorem State.putField_of_access {s : State} {f : Fld} {u half w : Nat} (hrw : f.info.access ≠ .rw)
    (hw1c : f.info.access ≠ .w1c) : s.putField f u half w = s := by
  unfold State.putField
  split
  · rfl
  · split
    · exact absurd ‹_› hrw
    · exact absurd ‹_› hw1c
    · rfl

theorem State.putField_rw {s : State} {f : Fld} {u half w : Nat} (h : s.fieldHeld f u = false)
    (hrw : f.info.access = .rw) :
    s.putField f u half w = s.wr f u ((f.bitsIn half).foldl
      (fun x i => if w.testBit (f.info.lo + i) then setBit x i else clrBit x i) (s.rd f u)) := by
  unfold State.putField
  rw [if_neg (by simpa [State.fieldHeld] using h), hrw]

theorem State.putField_w1c {s : State} {f : Fld} {u half w : Nat} (h : s.fieldHeld f u = false)
    (hw1c : f.info.access = .w1c) :
    s.putField f u half w = s.wr f u ((f.bitsIn half).foldl
      (fun x i => if w.testBit (f.info.lo + i) then clrBit x i else x) (s.rd f u)) := by
  unfold State.putField
  rw [if_neg (by simpa [State.fieldHeld] using h), hw1c]

theorem State.putField_onlyRegs (s : State) (f : Fld) (u half w : Nat) :
    OnlyRegs s (s.putField f u half w) [(f, u)] := by
  unfold State.putField
  split
  · exact .refl s _
  · dsimp only
    split
    · exact .wr s _ _ _
    · exact .wr s _ _ _
    · exact .refl s _

theorem State.rd_putField_ne (s : State) {f g : Fld} (u half w : Nat) (v : Nat) (h : g ≠ f) :
    (s.putField f u half w).rd g v = s.rd g v :=
  (s.putField_onlyRegs f u half w).2 g v (by simp [h])

/-- The bit that makes a stream a head stream is read-only: no register write moves it. -/
theorem State.rd_putField_head (s : State) (f : Fld) (u half w v : Nat) :
    (s.putField f u half w).rd .EQX_STREAM_CTRL_HEAD v = s.rd .EQX_STREAM_CTRL_HEAD v := by
  by_cases h : f = .EQX_STREAM_CTRL_HEAD
  · subst h
    rw [State.putField_of_access (by decide) (by decide)]
  · exact s.rd_putField_ne u half w v (Ne.symm h)

@[simp] theorem Fld.bitsIn_zero (f : Fld) : f.bitsIn 0 = List.range f.info.width := by simp [Fld.bitsIn]

/-- A whole RW field reads its bits of the word written. -/
theorem State.rd_putField_rw {s : State} {f : Fld} {u w : Nat} (h : s.fieldHeld f u = false)
    (hrw : f.info.access = .rw) : (s.putField f u 0 w).rd f u = w / 2 ^ f.info.lo % 2 ^ f.info.width := by
  rw [State.putField_rw h hrw, State.rd_wr_same]
  refine Nat.eq_of_testBit_eq fun i => ?_
  rw [Nat.testBit_mod_two_pow, Nat.testBit_mod_two_pow, testBit_foldl_store fun i => w.testBit (f.info.lo + i),
    Nat.testBit_div_two_pow, Nat.add_comm i]
  by_cases hi : i < f.info.width <;> simp [hi]

/-- A bit of a whole W1C field stays unless it is written 1. -/
theorem State.testBit_rd_putField_w1c {s : State} {f : Fld} {u w i : Nat} (h : s.fieldHeld f u = false)
    (hw1c : f.info.access = .w1c) (hi : i < f.info.width) :
    ((s.putField f u 0 w).rd f u).testBit i = ((s.rd f u).testBit i && !w.testBit (f.info.lo + i)) := by
  rw [State.putField_w1c h hw1c, State.rd_wr_same, Nat.testBit_mod_two_pow,
    testBit_foldl_clear fun i => w.testBit (f.info.lo + i)]
  simp [hi]

/-- Write a list of fields of one unit. -/
def State.putFields (s : State) (l : List Fld) (u half w : Nat) : State := s.each l fun s f => s.putField f u half w

theorem State.putFields_cons (s : State) (f : Fld) (l : List Fld) (u half w : Nat) :
    s.putFields (f :: l) u half w = (s.putField f u half w).putFields l u half w := rfl

theorem State.putFields_concat (s : State) (l : List Fld) (f : Fld) (u half w : Nat) :
    s.putFields (l ++ [f]) u half w = (s.putFields l u half w).putField f u half w := List.foldl_concat ..

theorem State.putFields_onlyRegs (s : State) (l : List Fld) (u half w : Nat) :
    OnlyRegs s (s.putFields l u half w) (l.map fun f => (f, u)) := by
  induction l generalizing s with
  | nil => exact .refl s _
  | cons f l ih => exact (s.putField_onlyRegs f u half w).trans (ih _)

/-- The field keeps its value in any write: its access is neither RW nor W1C, it has a command of its own, or a head
stream's plan holds it. -/
def State.fieldKept (s : State) (f : Fld) (u : Nat) : Prop :=
  (f.info.access ≠ .rw ∧ f.info.access ≠ .w1c) ∨ f.info.ownRow = true ∨
    (f ∈ headFields ∧ s.rd .EQX_STREAM_CTRL_HEAD u = 1)

theorem State.putField_of_kept {s : State} {f : Fld} {u half w : Nat} (h : s.fieldKept f u) :
    s.putField f u half w = s := by
  obtain ⟨hrw, hw1c⟩ | hown | ⟨hhead, hon⟩ := h
  · exact State.putField_of_access hrw hw1c
  · exact State.putField_of_held (by simp [State.fieldHeld, hown])
  · exact State.putField_of_held (by simp [State.fieldHeld, hhead, hon])

theorem State.rd_putFields_kept {s : State} {f : Fld} {u : Nat} (l : List Fld) (half w : Nat) (h : s.fieldKept f u) :
    (s.putFields l u half w).rd f u = s.rd f u := by
  induction l generalizing s with
  | nil => rfl
  | cons g l ih =>
    have hkept : (s.putField g u half w).fieldKept f u := by
      rw [State.fieldKept, State.rd_putField_head]
      exact h
    rw [State.putFields_cons, ih hkept]
    by_cases hg : f = g
    · subst hg
      rw [State.putField_of_kept h]
    · exact s.rd_putField_ne u half w u hg

theorem State.rd_putFields_rw {f : Fld} {u : Nat} (s : State) {l : List Fld} (w : Nat)
    (hfree : ∀ t : State, t.fieldHeld f u = false) (hrw : f.info.access = .rw) (hf : f ∈ l) :
    (s.putFields l u 0 w).rd f u = w / 2 ^ f.info.lo % 2 ^ f.info.width := by
  induction l using List.reverseRecOn with
  | nil => simp at hf
  | append_singleton l g ih =>
    rw [State.putFields_concat]
    by_cases hg : f = g
    · subst hg
      exact State.rd_putField_rw (hfree _) hrw
    · rw [State.rd_putField_ne _ u 0 w u hg]
      exact ih (by simpa [hg] using hf)

/-- Whether the list holds the field once or more, a bit stays unless it is written 1. -/
theorem State.testBit_rd_putFields_w1c {f : Fld} {u i : Nat} (s : State) (l : List Fld) (w : Nat)
    (hfree : ∀ t : State, t.fieldHeld f u = false) (hw1c : f.info.access = .w1c) (hi : i < f.info.width) :
    ((s.putFields l u 0 w).rd f u).testBit i =
      ((s.rd f u).testBit i && !(decide (f ∈ l) && w.testBit (f.info.lo + i))) := by
  induction l using List.reverseRecOn with
  | nil => simp [State.putFields, State.each]
  | append_singleton l g ih =>
    rw [State.putFields_concat]
    by_cases hg : f = g
    · subst hg
      rw [State.testBit_rd_putField_w1c (hfree _) hw1c hi, ih]
      cases w.testBit (f.info.lo + i) <;> simp
    · rw [State.rd_putField_ne _ u 0 w u hg, ih]
      simp [hg]

/-! A register's fields -/

theorem headFields_access : ∀ f ∈ headFields, f.info.access = .rw := by decide

theorem Reg.eq_GEY_SRC_of_mem {r : Reg} (h : Fld.GEY_SRC_VECTOR ∈ r.fields) : r = .GEY_SRC := by
  revert h
  cases r <;> decide

/-- A field outside the plan's and GEY_SRC's takes its write in every state. -/
theorem State.fieldHeld_eq_false {f : Fld} (hown : f.info.ownRow = false) (hhead : f ∉ headFields)
    (hvec : f ≠ .GEY_SRC_VECTOR) (t : State) (u : Nat) : t.fieldHeld f u = false := by
  simp [State.fieldHeld, hown, hhead, hvec]

/-- The registers whose write has an effect beside their fields. -/
def effectRegs : List Reg := [.GEY_SRC, .GEY_TGT, .VF_GEY_TGT, .PWR_LIMIT]

theorem State.written_of_notMem {s : State} {r : Reg} {u : Nat} {on : Bool} (h : r ∉ effectRegs) :
    s.written r u on = s := by
  unfold State.written
  split <;> simp_all [effectRegs]

theorem Reg.viewed_of_notMem {r : Reg} {u : Nat} (h : r ∉ effectRegs) : r.viewed u = (r, u) := by
  unfold Reg.viewed
  split
  · simp [effectRegs] at h
  · rfl

theorem State.writeReg_eq {s : State} {r : Reg} {u half val : Nat} (hheld : s.regHeld r u = false)
    (h : r ∉ effectRegs) :
    s.writeReg r u half val = s.putFields r.fields u half (wordOf half val) := by
  unfold State.writeReg
  simp only [Reg.viewed_of_notMem h, hheld, State.written_of_notMem h]
  rfl

end Sys2Proof.Machine
end

section
/-! A block that is served is served whatever the last request completed with. -/

namespace Sys2Proof.Machine

theorem rd_eq_of_irq {s t : State} (h : OnlyRegsIrq s t []) : t.rd .PWR_STATUS_STATE = s.rd .PWR_STATUS_STATE :=
  h.2 _ 0 (by simp) (by decide)

theorem State.rd_geyRestore (s : State) : (s.geyRestore true).rd .PWR_STATUS_STATE = s.rd .PWR_STATUS_STATE := by
  unfold State.geyRestore
  rw [if_pos rfl]
  rw [rd_eq_of_irq (deliver_frame _), rd_eq_of_irq (.each _ setPend_frame _ _),
    rd_eq_of_irq (.each _ srcEvent_frame _ _)]
  show ((s.wr .GEY_RET_STATE 0 0).inc .GEY_RET_RESTORES 0).rd .PWR_STATUS_STATE = _
  simp

/-- A wake that changes nothing comes in no state of RETAIN: out of one it leads to state 5. -/
theorem State.wake_eq_self_iff (s : State) :
    s.wake true = s ↔ s.rd .PWR_STATUS_STATE ≠ 4 ∧ s.rd .PWR_STATUS_STATE ≠ 3 := by
  have hwakes : (s.wake true).rd .PWR_STATUS_STATE =
      if s.rd .PWR_STATUS_STATE = 4 ∨ s.rd .PWR_STATUS_STATE = 3 then 5 else s.rd .PWR_STATUS_STATE := by
    have hfits : 5 % 2 ^ Fld.PWR_STATUS_STATE.info.width = 5 := rfl
    unfold State.wake
    split
    next h => simp [State.rd_geyRestore, h, hfits]
    next h =>
      split
      next h' =>
        rw [fire_rd _ _ _ _ (by decide)]
        split <;> simp [State.rd_geyRestore, h', hfits]
      next h' => simp [h, h']
  constructor
  · intro h
    rw [h] at hwakes
    split at hwakes
    · omega
    · omega
  · rintro ⟨h4, h3⟩
    rw [State.wake, if_neg h4, if_neg h3]

theorem State.served_iff (s : State) (b : Blk) :
    s.served b ↔ s.inReset = false ∧ s.pw.tripHeld = false ∧
      (b = .island ∨ (b = .early ∨ b = .late ∧ s.confReached = true) ∧
        s.rd .PWR_STATUS_STATE ≠ 4 ∧ s.rd .PWR_STATUS_STATE ≠ 3) := by
  rw [← State.wake_eq_self_iff]
  unfold State.served State.access
  cases s.inReset
  · cases s.pw.tripHeld
    · cases b <;> simp
    · simp
  · simp

/-- A served block's access finds the state as it stands; what the last request completed with plays no part. -/
theorem State.served.accessed {s : State} {b : Blk} (h : s.served b) (c : CplStatus) (g : State → State) :
    ({ s with lastCpl := c } : State).accessed b g = g { s with lastCpl := c } := by
  have hc : ({ s with lastCpl := c } : State).served b := by
    rw [State.served_iff] at h ⊢
    exact h
  unfold State.accessed
  rw [hc]

end Sys2Proof.Machine
end

section
/-! What a register write does, by where its address lies. -/

namespace Sys2Proof.Machine

theorem exec_registerWrite_of_not_decodes {s : State} {sp : Space} {req addr size val : Nat}
    (hrdy : 3 ≤ s.rd .RDY_STATUS_STATE) (hdec : s.decodes sp req addr size = false) :
    exec (.registerWrite sp req addr size val) s = .next { s with lastCpl := .unsupported } := by
  show execRegisterWrite sp req addr size val s = _
  unfold execRegisterWrite
  rw [if_neg (by omega), hdec]
  rfl

/-- A decoded write to a served block of PF0 BAR0 completes successfully and does what its size and alignment say. -/
theorem exec_registerWrite_pf0 {s : State} {req addr size : Nat} (val : Nat)
    (hdec : s.decodes .pf0 req addr size = true) (hserved : s.served (blkAt .pf0 addr)) :
    exec (.registerWrite .pf0 req addr size val) s =
      .next (({ s with lastCpl := .success } : State).writeSized .pf0 req addr size val) := by
  show execRegisterWrite .pf0 req addr size val s = _
  unfold execRegisterWrite
  rw [if_neg (by simp [spaceIsCfg]), hdec, hserved.accessed]
  rfl

theorem State.writeSized_word {s : State} {req addr val : Nat} (ha : addr % 4 = 0) :
    s.writeSized .pf0 req addr 4 val = s.writeWord .pf0 req addr val := if_pos ⟨rfl, ha⟩

/-- R587: another size or alignment writes nothing. -/
theorem State.writeSized_other {s : State} {req addr size val : Nat} (hword : size ≠ 4 ∨ addr % 4 ≠ 0)
    (hlong : size < 8 ∨ addr % 8 ≠ 0 ∨ size % 8 ≠ 0) : s.writeSized .pf0 req addr size val = s := by
  unfold State.writeSized
  dsimp only
  rw [if_neg (by omega), if_neg (by omega)]

section
variable {s : State} {req addr val : Nat} (hmsix : msixOff .pf0 addr = none) (hevt : evtAt .pf0 addr = none)
include hmsix hevt

theorem State.writeWord_of_none (hreg : findReg .pf0 addr = none) : s.writeWord .pf0 req addr val = s := by
  simp [State.writeWord, hmsix, hevt, hreg]

theorem State.writeWord_of_absent (habsent : s.absentAt .pf0 addr = true) : s.writeWord .pf0 req addr val = s := by
  cases hreg : findReg .pf0 addr with
  | none => exact State.writeWord_of_none hmsix hevt hreg
  | some x => simp [State.writeWord, hmsix, hevt, hreg, habsent]

theorem State.writeWord_of_reg {r : Reg} {u half : Nat} (hreg : findReg .pf0 addr = some (r, u, half))
    (hthere : s.absentAt .pf0 addr = false) : s.writeWord .pf0 req addr val = s.writeReg r u half val := by
  simp [State.writeWord, hmsix, hevt, hreg, hthere]

end

/-- Settles O60: the address decides what a request acts on, and each field of a register takes the write by its
access. -/
theorem registerWrites : Obligations.RegisterWrites := by
  unfold Obligations.RegisterWrites
  refine ⟨fun s sp req addr size val => exec_registerWrite_of_not_decodes, ?_, ?_, ?_⟩
  · intro s req addr val hdec hserved ha hmsix hevt
    rw [exec_registerWrite_pf0 val hdec hserved, State.writeSized_word ha]
    refine ⟨fun hreg => ?_, fun habsent => ?_, fun r u half hreg hthere => ?_⟩
    · rw [State.writeWord_of_none hmsix hevt hreg]
    · rw [State.writeWord_of_absent (s := { s with lastCpl := .success }) hmsix hevt habsent]
    · rw [State.writeWord_of_reg (s := { s with lastCpl := .success }) hmsix hevt hreg hthere]
  · intro s req addr size val hdec hserved hword hlong
    rw [exec_registerWrite_pf0 val hdec hserved, State.writeSized_other hword hlong]
  · intro s r u val hheld hr
    rw [State.writeReg_eq hheld hr]
    refine ⟨s.putFields_onlyRegs .., fun f hf => ?_⟩
    have hvec : f ≠ .GEY_SRC_VECTOR := by
      rintro rfl
      exact hr (by simp [Reg.eq_GEY_SRC_of_mem hf])
    refine ⟨fun hrw hown hhead => ?_, fun hw1c hown i hi => ?_, fun hkept => s.rd_putFields_kept _ 0 _ hkept⟩
    · exact s.rd_putFields_rw _ (State.fieldHeld_eq_false hown hhead hvec · u) hrw hf
    · have hhead : f ∉ headFields := fun h => by simp [headFields_access f h] at hw1c
      rw [s.testBit_rd_putFields_w1c _ _ (State.fieldHeld_eq_false hown hhead hvec · u) hw1c hi]
      simp [hf, wordOf]

end Sys2Proof.Machine
end

section
/-! What writing a few registers and then raising a source leaves, and when the source counts as raised (R464). -/

namespace Sys2Proof.Machine

theorem OnlyRegs.thenIrq {s t u : State} {l : List (Fld × Nat)} (h : OnlyRegs s t l) (k : OnlyRegsIrq t u []) :
    OnlyRegsIrq s u l := by
  obtain ⟨hst, hrd⟩ := h
  obtain ⟨htu, krd⟩ := k
  exact ⟨by rw [← hst, ← htu], fun f n hf hirq => (krd f n (by simp) hirq).trans (hrd f n hf)⟩

theorem OnlyRegs.fire {s t : State} {l : List (Fld × Nat)} (h : OnlyRegs s t l) (n : Nat) :
    OnlyRegsIrq s (t.fire n) l := h.thenIrq (fire_frame t n)

theorem fire_img (s : State) (n : Nat) : (s.fire n).img = s.img := (congrArg State.img (fire_frame s n).1 :)

/-- The fields that decide whether a source becomes pending are Geyser's and the part number. -/
theorem OnlyRegs.fire_raised {s t : State} {l : List (Fld × Nat)} (h : OnlyRegs s t l) (n : Nat)
    (hl : (.GEY_RET_STATE, 0) ∉ l ∧ (.GEY_SRC_ENABLE, n) ∉ l ∧ (.SYS_ID_PART, 0) ∉ l) : Raised s (t.fire n) n := by
  obtain ⟨hret, hen, hpart⟩ := hl
  intro hlive henabled hdead
  refine Machine.fire_raised t n ?_ ?_ ?_
  · rw [h.2 _ _ hret, hlive]
  · rw [h.2 _ _ hen, henabled]
  · rw [← hdead, State.srcDead, State.srcDead, State.is6460, State.is6460, h.2 _ _ hpart]

theorem State.rd_setReadiness (s : State) (st reason : Nat) {f : Fld} (u : Nat) (hirq : f ∉ irqFields)
    (hrdy : f ≠ .RDY_STATUS_STATE) (hwhy : f ≠ .BRG_STATE_FAIL_REASON) :
    (s.setReadiness st reason).rd f u = s.rd f u := by
  have hkept : ((s.wr .RDY_STATUS_STATE 0 st).wr .BRG_STATE_FAIL_REASON 0 reason).rd f u = s.rd f u := by
    simp [hrdy, hwhy]
  unfold State.setReadiness
  split
  · rfl
  · rw [fire_rd _ _ _ _ hirq, ← hkept]
    split <;> rfl

theorem State.served.accessed_self {s : State} {b : Blk} (h : s.served b) (g : State → State) :
    s.accessed b g = g s := h.accessed s.lastCpl g

end Sys2Proof.Machine
end

section
/-! A load as STRUCT_STATUS shows it: its start, its refusal, and its end without effect (R57-R60, R593). -/

namespace Sys2Proof.Machine

/-- STRUCT_STATUS in state `st` with the failure `b`: its code, its section and its offset. -/
def State.showLoad (s : State) (st : Nat) (b : Bad) : State :=
  (((s.wr .STRUCT_STATUS_STATE 0 st).wr .STRUCT_STATUS_ERROR 0 b.1).wr .STRUCT_STATUS_ERR_SECTION 0 b.2.1).wr
    .STRUCT_ERR_OFFSET_OFFSET 0 b.2.2

/-- What the registers read when they show a load. -/
def State.ShowsLoad (t : State) (st : Nat) (b : Bad) : Prop :=
  t.rd .STRUCT_STATUS_STATE = st % 2 ^ 4 ∧ t.rd .STRUCT_STATUS_ERROR = b.1 % 2 ^ 8 ∧
    t.rd .STRUCT_STATUS_ERR_SECTION = b.2.1 % 2 ^ 8 ∧ t.rd .STRUCT_ERR_OFFSET_OFFSET = b.2.2 % 2 ^ 32

def loadRegs : List (Fld × Nat) :=
  [(.STRUCT_STATUS_STATE, 0), (.STRUCT_STATUS_ERROR, 0), (.STRUCT_STATUS_ERR_SECTION, 0), (.STRUCT_ERR_OFFSET_OFFSET, 0)]

theorem State.showLoad_shows (s : State) (st : Nat) (b : Bad) : (s.showLoad st b).ShowsLoad st b := by
  refine ⟨?_, ?_, ?_, ?_⟩
  all_goals
    simp only [State.showLoad, State.rd_wr]
    rfl

theorem State.showLoad_onlyRegs (s : State) (st : Nat) (b : Bad) : OnlyRegs s (s.showLoad st b) loadRegs :=
  (((OnlyRegs.wr s _ 0 st).trans (.wr _ _ 0 b.1)).trans (.wr _ _ 0 b.2.1)).trans (.wr _ _ 0 b.2.2)

theorem State.ShowsLoad.fire {s : State} {st : Nat} {b : Bad} (h : s.ShowsLoad st b) (n : Nat) :
    (s.fire n).ShowsLoad st b := by
  unfold State.ShowsLoad at h ⊢
  rwa [fire_rd _ _ _ _ (by decide), fire_rd _ _ _ _ (by decide), fire_rd _ _ _ _ (by decide),
    fire_rd _ _ _ _ (by decide)]

/-- A load that ends without effect: STRUCT_STATUS shows how, STRUCT_EVENT fires and no load is in progress. -/
def State.endLoad (s : State) (st : Nat) (b : Bad) : State :=
  { (s.showLoad st b).fire 9 with img := { s.img with load := none, failedAs := 0 } }

theorem State.endLoad_shows (s : State) (st : Nat) (b : Bad) : (s.endLoad st b).ShowsLoad st b :=
  (s.showLoad_shows st b).fire 9

theorem State.endLoad_raised (s : State) (st : Nat) (b : Bad) : Raised s (s.endLoad st b) 9 :=
  (s.showLoad_onlyRegs st b).fire_raised 9 (by decide)

theorem State.endLoad_onlyRegsIrq (s : State) (st : Nat) (b : Bad) :
    OnlyRegsIrq s { s.endLoad st b with img := s.img } loadRegs := by
  obtain ⟨hst, hrd⟩ := (s.showLoad_onlyRegs st b).fire 9
  exact ⟨congrArg (fun v : State => { v with img := s.img }) hst, hrd⟩

/-- A load of a device that was not FAILED leaves the readiness state at its rejection. -/
theorem State.reject_eq {s : State} (h : s.img.failedAs = 0) (b : Bad) : s.reject b = s.endLoad 5 b := by
  have himg : ((s.showLoad 5 b).fire 9).img = s.img := fire_img _ 9
  simp only [State.showLoad] at himg
  simp only [State.reject, State.endLoad, State.showLoad, himg, h, if_true]

theorem State.cancelLoad_running {s : State} (hst : s.rd .STRUCT_STATUS_STATE = 1 ∨ s.rd .STRUCT_STATUS_STATE = 2)
    (h : s.img.failedAs = 0) : s.cancelLoad = s.endLoad 0 (0, 0xFF, 0) := by
  have himg : ((s.showLoad 0 (0, 0xFF, 0)).fire 9).img = s.img := fire_img _ 9
  simp only [State.showLoad] at himg
  unfold State.cancelLoad
  rw [if_neg (by omega)]
  simp only [State.endLoad, State.showLoad, himg, h, if_true]

theorem State.cancelLoad_other {s : State} (h1 : s.rd .STRUCT_STATUS_STATE ≠ 1) (h2 : s.rd .STRUCT_STATUS_STATE ≠ 2) :
    s.cancelLoad = s := if_pos ⟨h1, h2⟩

theorem State.startLoad_busy {s : State} (h : s.rd .STRUCT_STATUS_STATE = 1 ∨ s.rd .STRUCT_STATUS_STATE = 2 ∨
    s.rd .STRUCT_STATUS_STATE = 3) : s.startLoad = (s.wr .STRUCT_STATUS_REFUSED 0 0x16).fire 9 := if_pos h

theorem State.startLoad_early {s : State} (hidle : ¬ (s.rd .STRUCT_STATUS_STATE = 1 ∨ s.rd .STRUCT_STATUS_STATE = 2 ∨
    s.rd .STRUCT_STATUS_STATE = 3)) (hrdy : s.rd .RDY_STATUS_STATE < 6) : s.startLoad = s.reject (0x17, 0xFF, 0) := by
  unfold State.startLoad
  rw [if_neg hidle, if_pos (.inl hrdy)]

/-- In CONFIGURING, READY and DEGRADED_READY a LOAD samples its source (R592). -/
theorem State.startLoad_starts {s : State} (hidle : ¬ (s.rd .STRUCT_STATUS_STATE = 1 ∨ s.rd .STRUCT_STATUS_STATE = 2 ∨
    s.rd .STRUCT_STATUS_STATE = 3)) (hrdy : 6 ≤ s.rd .RDY_STATUS_STATE) (hfailed : s.rd .RDY_STATUS_STATE ≠ 9) :
    s.startLoad = { s.showLoad 1 (0, 0xFF, 0) with img := { s.img with
      load := some { addr := s.rd .STRUCT_SRC_ADDR_ADDR * 8, len := s.rd .STRUCT_SRC_LEN_LEN }, failedAs := 0 } } := by
  have hkinds : ¬ (s.rd .RDY_STATUS_STATE < 6 ∨
      s.rd .RDY_STATUS_STATE = 9 ∧ ¬ [5, 6, 7].contains (s.rd .BRG_STATE_FAIL_REASON)) := by omega
  unfold State.startLoad
  rw [if_neg hidle, if_neg hkinds]
  simp [State.showLoad, hfailed]

theorem exec_structLoad {s : State} {val : Nat} (hserved : s.served .early) (hload : bit val 0 = true)
    (hcancel : bit val 1 = false) : exec (.structLoad val) s = .next s.startLoad := by
  show Host.Outcome.next (s.accessed .early fun s => s.structCtrl val) = _
  rw [hserved.accessed_self]
  simp [State.structCtrl, hload, hcancel]

theorem exec_structCancel {s : State} {val : Nat} (hserved : s.served .early) (hload : bit val 0 = false)
    (hcancel : bit val 1 = true) : exec (.structCancel val) s = .next s.cancelLoad := by
  show Host.Outcome.next (s.accessed .early fun s => s.structCtrl val) = _
  rw [hserved.accessed_self]
  simp [State.structCtrl, hload, hcancel]

/-- Settles O4: each write comes down to `startLoad` or `cancelLoad`, and these to what STRUCT_STATUS shows. -/
theorem structLoadsAndCancels : Obligations.StructLoadsAndCancels := by
  unfold Obligations.StructLoadsAndCancels
  refine ⟨?starts, ?busy, ?early, ?cancels, ?other⟩
  case starts =>
    intro val s hserved hload hcancel h1 h2 h3 hrdy hfailed
    refine ⟨_, (exec_structLoad hserved hload hcancel).trans (by rw [State.startLoad_starts (by omega) hrdy hfailed]), ?_⟩
    obtain ⟨hstate, herror, hsect, hoff⟩ := s.showLoad_shows 1 (0, 0xFF, 0)
    exact ⟨hstate, herror, hsect, hoff, rfl, s.showLoad_onlyRegs 1 (0, 0xFF, 0)⟩
  case busy =>
    intro val s hserved hload hcancel hbusy
    refine ⟨_, (exec_structLoad hserved hload hcancel).trans (by rw [State.startLoad_busy hbusy]), ?_⟩
    have honly := OnlyRegs.wr s .STRUCT_STATUS_REFUSED 0 0x16
    exact ⟨by rw [fire_rd _ _ _ _ (by decide), State.rd_wr_same]; rfl, honly.fire_raised 9 (by decide), honly.fire 9⟩
  case early =>
    intro val s hserved hload hcancel h1 h2 h3 hrdy hfresh
    refine ⟨_, (exec_structLoad hserved hload hcancel).trans
      (by rw [State.startLoad_early (by omega) hrdy, State.reject_eq hfresh]), ?_⟩
    obtain ⟨hstate, herror, hsect, hoff⟩ := s.endLoad_shows 5 (0x17, 0xFF, 0)
    exact ⟨hstate, herror, hsect, hoff, s.endLoad_raised 5 _⟩
  case cancels =>
    intro val s hserved hload hcancel hst hfresh
    refine ⟨_, (exec_structCancel hserved hload hcancel).trans (by rw [State.cancelLoad_running hst hfresh]), ?_⟩
    obtain ⟨hstate, herror, hsect, hoff⟩ := s.endLoad_shows 0 (0, 0xFF, 0)
    exact ⟨hstate, herror, hsect, hoff, rfl, s.endLoad_raised 0 _, s.endLoad_onlyRegsIrq 0 _⟩
  case other =>
    intro val s hserved hload hcancel h1 h2
    rw [exec_structCancel hserved hload hcancel, State.cancelLoad_other h1 h2]

end Sys2Proof.Machine
end

section
/-! How a fetch and a validation end (R57, R58, R594). -/

namespace Sys2Proof.Machine

theorem State.judge_error {s : State} {b : List Byte} {sig : Nat} {e : Bad} (h : s.validate b sig = .error e) :
    s.judge b sig = s.reject e := by
  simp only [State.judge, h]

theorem State.judge_full {s : State} {b : List Byte} {sig : Nat} {im : SImage} (h : s.validate b sig = .ok im)
    (hkind : im.hdr.kind = 1) :
    s.judge b sig = ({ s with img := { s.img with load := none, failedAs := 0 } } : State).applyFull im.recs im.hdr.seq
      (sha384 (b.take im.hdr.sigOff)) := by
  simp only [State.judge, h, hkind, if_true]

/-- A full image is in force: the load is DONE, its SEQ is the active one and no record waits (R57, R64). -/
def State.ShowsDone (t : State) (seq : Nat) : Prop :=
  t.rd .STRUCT_STATUS_STATE = 4 ∧ t.rd .STRUCT_ACTIVE_SEQ_SEQ = seq % 2 ^ 64 ∧ t.rd .STRUCT_PENDING_TYPES = 0

/-- Whatever its records do, a full image ends with STRUCT_STATUS, STRUCT_EVENT and the readiness state. -/
theorem State.applyFull_ends (s : State) (own : List Rec) (seq digest : Nat) : ∃ (t : State) (r : Nat × Nat),
    s.applyFull own seq digest =
      ((((t.wr .STRUCT_ACTIVE_SEQ_SEQ 0 seq).wr .STRUCT_PENDING_TYPES 0 0).wr .STRUCT_STATUS_STATE 0 4).fire 9).setReadiness
        r.1 r.2 := ⟨_, _, rfl⟩

theorem State.applyFull_showsDone (s : State) (own : List Rec) (seq digest : Nat) :
    (s.applyFull own seq digest).ShowsDone seq := by
  obtain ⟨t, r, h⟩ := s.applyFull_ends own seq digest
  rw [h]
  have hkept : ∀ f ∈ [Fld.STRUCT_STATUS_STATE, .STRUCT_ACTIVE_SEQ_SEQ, .STRUCT_PENDING_TYPES], ∀ v : State,
      ((v.fire 9).setReadiness r.1 r.2).rd f 0 = v.rd f 0 := by
    intro f hf v
    have hout : f ∉ irqFields ∧ f ≠ .RDY_STATUS_STATE ∧ f ≠ .BRG_STATE_FAIL_REASON := by
      revert f
      decide
    rw [State.rd_setReadiness _ _ _ _ hout.1 hout.2.1 hout.2.2, fire_rd _ _ _ _ hout.1]
  refine ⟨?_, ?_, ?_⟩
  all_goals
    rw [hkept _ (by decide)]
    simp only [State.rd_wr]
    rfl

theorem exec_fetchEnd_ok {s : State} {ld : ImageLoad} (hload : s.img.load = some ld)
    (hst : s.rd .STRUCT_STATUS_STATE = 1) :
    exec (.fetchEnd true) s = .next (({ s with img := { s.img with load := some { ld with
      bytes := (List.range ld.len).map fun i => s.getByte (hostKey (s.home pf0) (ld.addr + i)) } } } : State).wr
        .STRUCT_STATUS_STATE 0 2) := by
  show execFetchEnd true s = _
  simp [execFetchEnd, hload, hst]

theorem exec_fetchEnd_failed {s : State} {ld : ImageLoad} (hload : s.img.load = some ld)
    (hst : s.rd .STRUCT_STATUS_STATE = 1) (hfresh : s.img.failedAs = 0) :
    exec (.fetchEnd false) s = .next (({ s with fresh := s.fresh + 1 } : State).endLoad 5
      (0x04, 0xFF, Config.freeNat s.fresh 594 % 2 ^ 32)) := by
  rw [← State.reject_eq]
  · show execFetchEnd false s = _
    simp [execFetchEnd, hload, hst]
  · exact hfresh

theorem exec_validationEnd {s : State} {ld : ImageLoad} (sig : Nat) (hload : s.img.load = some ld)
    (hst : s.rd .STRUCT_STATUS_STATE = 2) : exec (.validationEnd sig) s = .next (s.judge ld.bytes sig) := by
  show execValidationEnd sig s = _
  simp only [execValidationEnd, hload, hst, if_true]

/-- With no load in progress and no image in force, FC0 judges a slot whose image is valid (R57, R504). -/
theorem exec_flashImageLoad_valid {s : State} {b : List Nat} {sig : Nat} {im : SImage} (hst : s.inState 6 = true)
    (hload : s.img.load = none) (hdone : s.rd .STRUCT_STATUS_STATE ≠ 4) (hok : s.validate (slotBytes b) sig = .ok im) :
    exec (.flashImageLoad [(b, sig)]) s = .next (s.judge (slotBytes b) sig) := by
  show execFlashImageLoad [(b, sig)] s = _
  simp [execFlashImageLoad, hst, hload, hdone, hok]

/-- Settles O5: a failed fetch or validation is a load that ends without effect; a valid full image, from the host or
from flash, ends as `applyFull` does. -/
theorem imageFetchAndValidation : Obligations.ImageFetchAndValidation := by
  unfold Obligations.ImageFetchAndValidation
  refine ⟨?fetched, ?failed, ?rejected, ?full, ?flash⟩
  case fetched =>
    intro ld s hload hst
    refine ⟨_, exec_fetchEnd_ok hload hst, ?_⟩
    exact ⟨by rw [State.rd_wr_same]; rfl, rfl, OnlyRegs.wr s .STRUCT_STATUS_STATE 0 2⟩
  case failed =>
    intro ld s hload hst hfresh
    refine ⟨_, exec_fetchEnd_failed hload hst hfresh, ?_⟩
    obtain ⟨hstate, herror, -, -⟩ := State.endLoad_shows { s with fresh := s.fresh + 1 } 5 _
    exact ⟨hstate, herror, rfl, State.endLoad_raised { s with fresh := s.fresh + 1 } 5 _⟩
  case rejected =>
    intro sig ld e s hload hst hbad hfresh
    refine ⟨_, (exec_validationEnd sig hload hst).trans (by rw [State.judge_error hbad, State.reject_eq hfresh]), ?_⟩
    obtain ⟨hstate, herror, hsect, hoff⟩ := s.endLoad_shows 5 e
    exact ⟨hstate, herror, hsect, hoff, rfl, rfl, s.endLoad_raised 5 e⟩
  case full =>
    intro sig ld im s hload hst hok hkind
    exact ⟨_, (exec_validationEnd sig hload hst).trans (by rw [State.judge_full hok hkind]),
      State.applyFull_showsDone _ _ _ _⟩
  case flash =>
    intro sig b im s hrdy hrst htrip hload hdone hok hkind
    have hst : s.inState 6 = true := by simp [State.inState, hrdy, hrst, htrip]
    exact ⟨_, (exec_flashImageLoad_valid hst hload hdone hok).trans (by rw [State.judge_full hok hkind]),
      State.applyFull_showsDone _ _ _ _⟩

end Sys2Proof.Machine
end

section
/-! The drain of a partition (R62, R63). -/

namespace Sys2Proof.Machine

/-- The drain limit of a partition in TCLK periods: 1,000 µs where its record has 0 (R48). -/
def State.drainLimit (s : State) (p : Nat) : Nat :=
  let us := (s.partRec p).elim 0 fun r => d16 r.val 6
  (if us = 0 then 1000 else us) * 100

theorem State.drainLimit_eq {s : State} {p : Nat} {r : Rec} (h : s.partRec p = some r) :
    s.drainLimit p = (if d16 r.val 6 = 0 then 1000 else d16 r.val 6) * 100 := by
  simp only [State.drainLimit, h, Option.elim_some]

theorem exec_drainLimitExpiry_passed {s : State} {p : Nat} (hdrain : s.img.draining.contains p = true)
    (h : s.img.applyG + s.drainLimit p ≤ s.gcnt) :
    exec (.drainLimitExpiry p) s = .next (s.each ((s.partFlights p).filter Flight.killable) State.kill) :=
  congrArg Host.Outcome.next (if_neg (not_or.2 ⟨not_not.2 hdrain, Nat.not_lt.2 h⟩))

theorem exec_drainLimitExpiry_early {s : State} {p : Nat} (h : s.gcnt < s.img.applyG + s.drainLimit p) :
    exec (.drainLimitExpiry p) s = .next s :=
  congrArg Host.Outcome.next (if_pos (.inr h))

theorem exec_partitionDrained_empty {s : State} {p : Nat} (hdrain : s.img.draining.contains p = true)
    (h : s.partFlights p = []) : exec (.partitionDrained p) s = .next (s.switchAt (.part p)) :=
  congrArg Host.Outcome.next (if_pos ⟨hdrain, List.isEmpty_iff.2 h⟩)

theorem exec_partitionDrained_inFlight {s : State} {p : Nat} (h : s.partFlights p ≠ []) :
    exec (.partitionDrained p) s = .next s :=
  congrArg Host.Outcome.next (if_neg fun hd => h (List.isEmpty_iff.1 hd.2))

theorem State.switchAt_of_none_waits {s : State} {pt : SwitchPt}
    (h : (s.img.wait.filter fun w => s.switchPoint w.2 == pt) = []) : s.switchAt pt = s :=
  if_pos (List.isEmpty_iff.2 h)

/-- Settles O6: the limit and the flights of the partition decide what each event does. -/
theorem partitionDrains : Obligations.PartitionDrains := by
  unfold Obligations.PartitionDrains
  refine ⟨?passed, ?early, ?drained, ?inFlight⟩
  case passed =>
    rintro p us r s hdrain hrec rfl hlimit
    exact exec_drainLimitExpiry_passed hdrain (by rwa [State.drainLimit_eq hrec])
  case early =>
    rintro p us r s hrec rfl hlimit
    exact exec_drainLimitExpiry_early (by rwa [State.drainLimit_eq hrec])
  case drained =>
    intro p s hdrain hnone
    exact ⟨_, exec_partitionDrained_empty hdrain hnone, rfl, State.switchAt_of_none_waits⟩
  case inFlight =>
    intro p f s hf
    exact exec_partitionDrained_inFlight (List.ne_nil_of_mem hf)

end Sys2Proof.Machine
end

section
/-! Patrol scrub (R74): what a read that finds a sound line does, clean or with a corrected error. -/

namespace Sys2Proof.Machine

/-! ## States that differ in the memory's own state -/

theorem OnlyRegs.withM {s t : State} {l : List (Fld × Nat)} (h : OnlyRegs s t l) (m : MemState) :
    OnlyRegs { s with m := m } { t with m := m } l :=
  ⟨congrArg (fun v : State => { v with m := m }) h.1, h.2⟩

theorem OnlyRegsIrq.withM {s t : State} {l : List (Fld × Nat)} (h : OnlyRegsIrq s t l) (m : MemState) :
    OnlyRegsIrq { s with m := m } { t with m := m } l :=
  ⟨congrArg (fun v : State => { v with m := m }) h.1, h.2⟩

theorem OnlyRegsIrq.m_eq {s t : State} {l : List (Fld × Nat)} (h : OnlyRegsIrq s t l) : t.m = s.m :=
  (congrArg State.m h.1 :)

theorem fire_raised_withM (s : State) (m : MemState) (n : Nat) : Raised s (({ s with m := m } : State).fire n) n :=
  fire_raised { s with m := m } n

theorem fireIf_frame (s : State) (c : Bool) (n : Nat) : OnlyRegsIrq s (s.fireIf c n) [] := by
  cases c with
  | false => exact .refl s
  | true => exact fire_frame s n

theorem fireIf_rd (s : State) (c : Bool) (n : Nat) (f : Fld) (u : Nat) (h : f ∉ irqFields) :
    (s.fireIf c n).rd f u = s.rd f u := (fireIf_frame s c n).2 f u (by simp) h

/-! ## The steps of a read -/

/-- The memory state once a corrected error has been added to the pass's count. -/
def State.passCounted (s : State) (pc : Nat) : MemState :=
  { s.m with passErr := s.m.passErr.set 0 pc (s.m.passErr.get 0 pc + 1) }

/-- A corrected error is counted, in CE_COUNT and in the pass. -/
def State.countCorrected (s : State) (pc : Nat) : State :=
  { s.inc .MEM_PC_STATUS_CE_COUNT pc with m := s.passCounted pc }

/-- What a corrected error does: it is counted, and source 64 fires at the threshold. -/
def State.scrubCorrect (s : State) (pc : Nat) : State :=
  (s.countCorrected pc).fireIf
    (s.m.passErr.get 0 pc + 1 == (s.countCorrected pc).rd .MEM_SCRUB_CTRL_CE_THRESHOLD) 64

/-- The memory state once a channel's pass has ended: its position and its count are 0. -/
def State.passEnded (s : State) (pc : Nat) : MemState :=
  { s.m with scrubPos := s.m.scrubPos.set 0 pc 0, passErr := s.m.passErr.set 0 pc 0 }

/-- The position moves on from line `i`, or the pass ends. -/
def State.scrubAdvance (s : State) (pc i : Nat) : State :=
  if i + 1 = pcLines then ({ s with m := s.passEnded pc } : State).fire 66
  else { s with m := { s.m with scrubPos := s.m.scrubPos.set 0 pc (i + 1) } }

theorem State.scrubAdvance_last {s : State} {pc i : Nat} (h : i + 1 = pcLines) :
    s.scrubAdvance pc i = ({ s with m := s.passEnded pc } : State).fire 66 := if_pos h

theorem State.scrubAdvance_next {s : State} {pc i : Nat} (h : i + 1 ≠ pcLines) : s.scrubAdvance pc i =
    { s with m := { s.m with scrubPos := s.m.scrubPos.set 0 pc (i + 1) } } := if_neg h

/-- The next scrub read of the channel is of line `i`, which is neither poisoned nor holds a latent error. -/
structure State.ScrubsSound (s : State) (pc i : Nat) : Prop where
  channel : pc < 128
  enabled : s.rd .MEM_SCRUB_CTRL_ENABLE ≠ 0
  inSet : s.rd .MEM_PC_STATUS_ISET pc ≠ 0xFF
  pos : s.m.scrubPos.get 0 pc = i
  sound : ∀ l, s.lineAt pc (i * 64) = some l → s.m.latent.get 0 l ≠ 1 ∧ s.m.poison.get 0 l ≠ 1

theorem exec_scrubRead_off {pc : Nat} {e : EccResult} {s : State}
    (h : s.rd .MEM_SCRUB_CTRL_ENABLE = 0 ∨ s.rd .MEM_PC_STATUS_ISET pc = 0xFF) : exec (.scrubRead pc e) s = .next s :=
  congrArg Host.Outcome.next (if_pos (.inr h))

/-- A read of a sound line that the code can still read takes the branch its finding names. -/
theorem exec_scrubRead_sound {pc i : Nat} {e : EccResult} {s : State} (h : s.ScrubsSound pc i)
    (he : e ≠ .uncorrectable) :
    exec (.scrubRead pc e) s = .next ((if e == .corrected then s.scrubCorrect pc else s).scrubAdvance pc i) := by
  obtain ⟨hchannel, henabled, hset, rfl, hsound⟩ := h
  refine congrArg Host.Outcome.next ((if_neg (by simp [henabled, hset, hchannel])).trans ?_)
  refine congrArg (State.scrubAdvance · pc _) (if_neg ?_)
  cases hline : s.lineAt pc (s.m.scrubPos.get 0 pc * 64) with
  | none => simp [he]
  | some l => simp [he, (hsound l hline).1]

theorem exec_scrubRead_clean {pc i : Nat} {s : State} (h : s.ScrubsSound pc i) :
    exec (.scrubRead pc .clean) s = .next (s.scrubAdvance pc i) := exec_scrubRead_sound h (by decide)

theorem exec_scrubRead_corrected {pc i : Nat} {s : State} (h : s.ScrubsSound pc i) :
    exec (.scrubRead pc .corrected) s = .next ((s.scrubCorrect pc).scrubAdvance pc i) :=
  exec_scrubRead_sound h (by decide)

/-! ## What a corrected error moves -/

theorem State.countCorrected_onlyRegs (s : State) (pc : Nat) :
    OnlyRegs { s with m := s.passCounted pc } (s.countCorrected pc) [(.MEM_PC_STATUS_CE_COUNT, pc)] :=
  (OnlyRegs.wr s _ pc _).withM _

theorem State.countCorrected_rd (s : State) (pc : Nat) : (s.countCorrected pc).rd .MEM_PC_STATUS_CE_COUNT pc =
    min (s.rd .MEM_PC_STATUS_CE_COUNT pc + 1) (2 ^ 16 - 1) := by
  have hinc : (s.countCorrected pc).rd .MEM_PC_STATUS_CE_COUNT pc =
      min (s.rd .MEM_PC_STATUS_CE_COUNT pc + 1) (2 ^ 16 - 1) % 2 ^ 16 := State.rd_wr_same _ _ _ _
  omega

theorem State.scrubCorrect_frame (s : State) (pc : Nat) :
    OnlyRegsIrq { s with m := s.passCounted pc } (s.scrubCorrect pc) [(.MEM_PC_STATUS_CE_COUNT, pc)] :=
  (s.countCorrected_onlyRegs pc).thenIrq (fireIf_frame _ _ 64)

theorem State.scrubCorrect_rd (s : State) (pc : Nat) : (s.scrubCorrect pc).rd .MEM_PC_STATUS_CE_COUNT pc =
    min (s.rd .MEM_PC_STATUS_CE_COUNT pc + 1) (2 ^ 16 - 1) :=
  (fireIf_rd _ _ 64 _ _ (by decide)).trans (s.countCorrected_rd pc)

theorem State.countCorrected_threshold (s : State) (pc : Nat) :
    (s.countCorrected pc).rd .MEM_SCRUB_CTRL_CE_THRESHOLD = s.rd .MEM_SCRUB_CTRL_CE_THRESHOLD :=
  (s.countCorrected_onlyRegs pc).2 _ _ (by simp)

theorem State.scrubCorrect_raised {s : State} {pc : Nat}
    (h : s.m.passErr.get 0 pc + 1 = s.rd .MEM_SCRUB_CTRL_CE_THRESHOLD) : Raised s (s.scrubCorrect pc) 64 := by
  rw [State.scrubCorrect, s.countCorrected_threshold, beq_iff_eq.2 h]
  exact (s.countCorrected_onlyRegs pc).fire_raised 64 (by simp)

theorem State.scrubCorrect_below {s : State} {pc : Nat}
    (h : s.m.passErr.get 0 pc + 1 ≠ s.rd .MEM_SCRUB_CTRL_CE_THRESHOLD) : s.scrubCorrect pc = s.countCorrected pc := by
  rw [State.scrubCorrect, s.countCorrected_threshold, beq_eq_false_iff_ne.2 h]
  rfl

/-- Settles O9: a read of a sound line counts what was corrected (`scrubCorrect`) and moves on (`scrubAdvance`). -/
theorem patrolScrub : Obligations.PatrolScrub := by
  unfold Obligations.PatrolScrub
  refine ⟨fun pc e s => exec_scrubRead_off, ?_⟩
  intro pc i s hchannel henabled hset hpos hsound
  have h : s.ScrubsSound pc i := ⟨hchannel, henabled, hset, hpos.symm, hsound⟩
  refine ⟨?clean, ?last, ?corrected⟩
  case clean =>
    intro hnext
    rw [exec_scrubRead_clean h, State.scrubAdvance_next hnext]
  case last =>
    intro hlast
    have hframe := fire_frame { s with m := s.passEnded pc } 66
    rw [Runs, exec_scrubRead_clean h, State.scrubAdvance_last hlast]
    exact ⟨_, rfl, hframe.m_eq, fire_raised_withM s _ 66, hframe.withM s.m⟩
  case corrected =>
    intro hnext
    have hframe := s.scrubCorrect_frame pc
    rw [Runs, exec_scrubRead_corrected h, State.scrubAdvance_next hnext, hframe.m_eq]
    refine ⟨_, rfl, s.scrubCorrect_rd pc, rfl, fun hat => State.scrubCorrect_raised hat, fun hbelow => ?_,
      hframe.withM s.m⟩
    rw [State.scrubCorrect_below hbelow]
    exact (s.countCorrected_onlyRegs pc).withM s.m

end Sys2Proof.Machine
end

section
/-! A codec block as its parts: the least sample, the shift and the residuals packed above them (R102-R105). -/

namespace Sys2Proof.Machine

theorem listMin_le_of_mem {x : List Nat} {v : Nat} (h : v ∈ x) : listMin x ≤ v := by
  rw [listMin, List.foldl_min_eq_min (List.ne_nil_of_mem h)]
  exact (min_le_right _ _).trans (List.min_le_of_mem h)

theorem le_listMax_of_mem {x : List Nat} {v : Nat} (h : v ∈ x) : v ≤ listMax x := by
  rw [listMax, List.foldl_max_eq_max (List.ne_nil_of_mem h)]
  exact (List.le_max_of_mem h).trans (le_max_right _ _)

theorem listMax_le {x : List Nat} {b : Nat} (h : ∀ v ∈ x, v ≤ b) : listMax x ≤ b := by
  cases x with
  | nil => exact b.zero_le
  | cons v x =>
    rw [listMax, List.foldl_max_eq_max (List.cons_ne_nil v x)]
    exact max_le b.zero_le (h _ (List.max_mem _))

/-! ## The shift -/

theorem codecShift_le (range most top : Nat) : codecShift range most top ≤ top := by
  unfold codecShift
  cases hf : (List.range (top + 1)).find? _ with
  | none => exact le_rfl
  | some s => exact Nat.lt_succ_iff.1 (List.mem_range.1 (List.mem_of_find?_eq_some hf))

/-- The shift that is found brings the range down, as long as the largest one does. -/
theorem div_codecShift_le {range most top : Nat} (h : range / 2 ^ top ≤ most) :
    range / 2 ^ codecShift range most top ≤ most := by
  unfold codecShift
  cases hf : (List.range (top + 1)).find? _ with
  | none => exact h
  | some s => simpa using List.find?_some hf

theorem codecShift_eq_zero {range most top : Nat} (h : range ≤ most) : codecShift range most top = 0 := by
  simp [codecShift, List.range_succ_eq_map, h]

theorem codecHalf_eq (s : Nat) : codecHalf s = 2 ^ s / 2 := by
  cases s with
  | zero => rfl
  | succ s => simp [codecHalf, Nat.pow_succ]

/-! ## The parts of a block word -/

/-- A block word: BASE, SHIFT and, from bit 12 on, residuals of `w` bits each. -/
def blockWord (w base s : Nat) (qs : List Nat) : Nat := base + s * 2 ^ 8 + 2 ^ 12 * Nat.ofDigits (2 ^ w) qs

/-- The sum an encoder forms over its indexed samples is a number in base `2 ^ w`. -/
theorem sum_residuals (w : Nat) (f : Nat → Nat) (x : List Nat) :
    ((x.zipIdx).map fun vi => f vi.1 * 2 ^ (12 + w * vi.2)).foldl (· + ·) 0 =
      2 ^ 12 * Nat.ofDigits (2 ^ w) (x.map f) := by
  rw [← List.sum_eq_foldl, Nat.ofDigits_eq_sum_mapIdx, List.mapIdx_eq_zipIdx_map, List.zipIdx_map, List.map_map,
    ← List.sum_map_mul_left]
  congr 1
  refine List.map_congr_left fun vi _ => ?_
  simp only [Function.comp_apply, Prod.map, id_eq, pow_add, pow_mul]
  ring

section
variable {w base s : Nat} {qs : List Nat} (hbase : base < 2 ^ 8) (hs : s < 2 ^ 4) (hqs : ∀ q ∈ qs, q < 2 ^ w)

include hbase in
theorem bits_blockWord_base : bits (blockWord w base s qs) 0 8 = base := by
  unfold bits blockWord
  omega

include hbase hs in
theorem bits_blockWord_shift : bits (blockWord w base s qs) 8 4 = s := by
  unfold bits blockWord
  omega

include hbase hs in
theorem blockWord_div : blockWord w base s qs / 2 ^ 12 = Nat.ofDigits (2 ^ w) qs := by
  unfold blockWord
  omega

include hbase hs hqs in
theorem bits_blockWord_residual (i : Nat) : bits (blockWord w base s qs) (12 + w * i) w = qs.getD i 0 := by
  rw [bits, pow_add, ← Nat.div_div_eq_div_mul, blockWord_div hbase hs, pow_mul,
    Nat.ofDigits_div_pow_eq_ofDigits_drop i (by positivity) qs hqs]
  rcases lt_or_ge i qs.length with hi | hi
  · rw [List.drop_eq_getElem_cons hi, Nat.ofDigits_cons, Nat.add_mul_mod_self_left,
      Nat.mod_eq_of_lt (hqs _ (List.getElem_mem hi)), List.getD_eq_getElem _ _ hi]
  · rw [List.drop_of_length_le hi, List.getD_eq_default _ _ hi, Nat.ofDigits_nil, Nat.zero_mod]

include hbase hs hqs in
theorem blockWord_lt (hw : w ≠ 0) : blockWord w base s qs < 2 ^ (12 + w * qs.length) := by
  have hlt : Nat.ofDigits (2 ^ w) qs < (2 ^ w) ^ qs.length :=
    Nat.ofDigits_lt_base_pow_length (Nat.one_lt_two_pow hw) hqs
  rw [add_comm, pow_add, pow_mul]
  refine Nat.lt_mul_of_div_lt ?_ (by positivity)
  rwa [blockWord_div hbase hs]

end

/-- A 2:1 word decodes residual by residual (R103). -/
theorem dec21_blockWord {base s : Nat} {qs : List Nat} (hbase : base < 2 ^ 8) (hs : s ≤ 5)
    (hqs : ∀ q ∈ qs, q < 2 ^ 3) (hlen : qs.length = 16) :
    dec21 (blockWord 3 base s qs) = qs.map fun q => min 255 (base + q * 2 ^ s + codecHalf s) := by
  have hs4 : s < 2 ^ 4 := by omega
  refine List.ext_getElem (by simp [dec21, hlen]) fun i _ hi => ?_
  have hq : i < qs.length := by simpa using hi
  simp [dec21, bits_blockWord_base hbase, bits_blockWord_shift hbase hs4, bits_blockWord_residual hbase hs4 hqs,
    List.getElem?_eq_getElem hq, Nat.not_lt.2 hs]

/-! ## The two encoders -/

/-- The samples of a block: sixteen bytes. -/
structure IsBlock (x : List Nat) : Prop where
  length_eq : x.length = 16
  byte : ∀ v ∈ x, v ≤ 255

/-- The residual of a sample above `base` at shift `s`. -/
def residual (base s v : Nat) : Nat := (v - base) / 2 ^ s

theorem IsBlock.listMin_lt {x : List Nat} (h : IsBlock x) : listMin x < 2 ^ 8 := by
  obtain ⟨hlen, hbyte⟩ := h
  have hmem : x[0] ∈ x := List.getElem_mem _
  exact Nat.lt_succ_iff.2 ((listMin_le_of_mem hmem).trans (hbyte _ hmem))

/-- No residual of a list passes `most` at the shift the encoder takes for it. -/
theorem residual_le {base most top : Nat} {l : List Nat} (h : listMax l / 2 ^ top ≤ most) {q : Nat}
    (hq : q ∈ l.map (residual base (codecShift (listMax l - base) most top))) : q ≤ most := by
  obtain ⟨v, hv, rfl⟩ := List.mem_map.1 hq
  calc residual base _ v
    _ ≤ (listMax l - base) / 2 ^ codecShift (listMax l - base) most top :=
        Nat.div_le_div_right (Nat.sub_le_sub_right (le_listMax_of_mem hv) _)
    _ ≤ most := div_codecShift_le ((Nat.div_le_div_right (Nat.sub_le _ _)).trans h)

/-- The SHIFT of a 2:1 block (R103). -/
def shift21 (x : List Nat) : Nat := codecShift (listMax x - listMin x) 7 5

theorem enc21_eq (x : List Nat) :
    enc21 x = blockWord 3 (listMin x) (shift21 x) (x.map (residual (listMin x) (shift21 x))) :=
  congrArg (listMin x + shift21 x * 2 ^ 8 + ·) (sum_residuals 3 (residual (listMin x) (shift21 x)) x)

theorem shift21_le (x : List Nat) : shift21 x ≤ 5 := codecShift_le _ _ _

/-- The mean of quadrant `j` (R104). -/
def quadMean (x : List Nat) (j : Nat) : Nat :=
  (((x.zipIdx).filter fun vi => quadrant vi.2 = j).map (·.1)).foldl (· + ·) 0 / 4

def quadMeans (x : List Nat) : List Nat := (List.range 4).map (quadMean x)

/-- The SHIFT of a 4:1 block (R104). -/
def shift41 (x : List Nat) : Nat := codecShift (listMax (quadMeans x) - listMin x) 31 3

theorem enc41_eq (x : List Nat) :
    enc41 x = blockWord 5 (listMin x) (shift41 x) ((quadMeans x).map (residual (listMin x) (shift41 x))) :=
  congrArg (listMin x + shift41 x * 2 ^ 8 + ·) (sum_residuals 5 (residual (listMin x) (shift41 x)) (quadMeans x))

theorem shift41_le (x : List Nat) : shift41 x ≤ 3 := codecShift_le _ _ _

/-- A quadrant has four samples of the sixteen. -/
theorem length_quadrant {x : List Nat} (hlen : x.length = 16) {j : Nat} (hj : j < 4) :
    ((x.zipIdx).filter fun vi => quadrant vi.2 = j).length = 4 := by
  have hcount : ∀ j < 4, ((List.range 16).filter fun i => quadrant i = j).length = 4 := by decide
  rw [← hcount j hj, List.range_eq_range', ← hlen, ← List.zipIdx_map_snd, List.filter_map, List.length_map]
  rfl

namespace IsBlock
variable {x : List Nat} (h : IsBlock x)
include h

theorem residual21_lt : ∀ q ∈ x.map (residual (listMin x) (shift21 x)), q < 2 ^ 3 := fun _ hq =>
  Nat.lt_succ_iff.2 (residual_le ((Nat.div_le_div_right (listMax_le h.byte)).trans (by decide)) hq)

theorem quadMean_le {j : Nat} (hj : j < 4) : quadMean x j ≤ 255 := by
  obtain ⟨hlen, hbyte⟩ := h
  have hsum := List.sum_le_card_nsmul (((x.zipIdx).filter fun vi => quadrant vi.2 = j).map (·.1)) 255 fun v hv => by
    obtain ⟨vi, hvi, rfl⟩ := List.mem_map.1 hv
    exact hbyte _ (List.fst_mem_of_mem_zipIdx (List.mem_of_mem_filter hvi))
  rw [List.length_map, length_quadrant hlen hj, smul_eq_mul] at hsum
  rw [quadMean, ← List.sum_eq_foldl]
  omega

theorem listMax_quadMeans_le : listMax (quadMeans x) ≤ 255 := by
  refine listMax_le fun m hm => ?_
  obtain ⟨j, hj, rfl⟩ := List.mem_map.1 hm
  exact h.quadMean_le (List.mem_range.1 hj)

theorem residual41_lt : ∀ q ∈ (quadMeans x).map (residual (listMin x) (shift41 x)), q < 2 ^ 5 := fun _ hq =>
  Nat.lt_succ_iff.2 (residual_le ((Nat.div_le_div_right h.listMax_quadMeans_le).trans (by decide)) hq)

theorem bits_enc21_shift : bits (enc21 x) 8 4 = shift21 x := by
  rw [enc21_eq, bits_blockWord_shift h.listMin_lt ((shift21_le x).trans_lt (by decide))]

theorem bits_enc41_shift : bits (enc41 x) 8 4 = shift41 x := by
  rw [enc41_eq, bits_blockWord_shift h.listMin_lt ((shift41_le x).trans_lt (by decide))]

theorem enc21_lt : enc21 x < 2 ^ 64 := by
  have hlt := blockWord_lt h.listMin_lt ((shift21_le x).trans_lt (by decide)) h.residual21_lt (by decide)
  rw [List.length_map, h.length_eq, ← enc21_eq] at hlt
  exact hlt.trans (by decide)

theorem enc41_lt : enc41 x < 2 ^ 32 := by
  have hlt := blockWord_lt h.listMin_lt ((shift41_le x).trans_lt (by decide)) h.residual41_lt (by decide)
  rwa [← enc41_eq] at hlt

/-- A 2:1 block comes back with every sample at the middle of its step (R103). -/
theorem dec21_enc21 : dec21 (enc21 x) = x.map fun v =>
    min 255 (listMin x + residual (listMin x) (shift21 x) v * 2 ^ shift21 x + codecHalf (shift21 x)) := by
  have hlen : (x.map (residual (listMin x) (shift21 x))).length = 16 := by rw [List.length_map, h.length_eq]
  rw [enc21_eq, dec21_blockWord h.listMin_lt (shift21_le x) h.residual21_lt hlen, List.map_map]
  rfl

end IsBlock

/-- Restoring a byte from its residual misses it by at most half a step. -/
theorem restored_near {base s v : Nat} (hbase : base ≤ v) (hv : v ≤ 255) :
    min 255 (base + residual base s v * 2 ^ s + codecHalf s) ≤ v + 2 ^ s / 2 ∧
      v ≤ min 255 (base + residual base s v * 2 ^ s + codecHalf s) + 2 ^ s / 2 := by
  have hsplit : residual base s v * 2 ^ s + (v - base) % 2 ^ s = v - base := Nat.div_add_mod' _ _
  have hrem : (v - base) % 2 ^ s < 2 ^ s := Nat.mod_lt _ (by positivity)
  have hhalf : codecHalf s = 2 ^ s / 2 := codecHalf_eq s
  generalize residual base s v * 2 ^ s = r at *
  generalize (v - base) % 2 ^ s = m at *
  generalize 2 ^ s = step at *
  omega

/-- Settles O31: a decoded sample is its residual's step and half of one, and no residual outgrows its field. -/
theorem codecBlocks : Obligations.CodecBlocks := by
  unfold Obligations.CodecBlocks
  refine ⟨?narrow, ?error, ?wellFormed⟩
  case narrow =>
    intro x hlen hbyte hrange
    have hshift : shift21 x = 0 := codecShift_eq_zero hrange
    rw [IsBlock.dec21_enc21 ⟨hlen, hbyte⟩, hshift]
    refine (List.map_congr_left fun v hv => ?_).trans (List.map_id x)
    have hmin : listMin x ≤ v := listMin_le_of_mem hv
    have hmax : v ≤ 255 := hbyte v hv
    simp only [residual, codecHalf, pow_zero, Nat.div_one, if_true, id_eq]
    omega
  case error =>
    intro x hlen hbyte i hi
    have hblock : IsBlock x := ⟨hlen, hbyte⟩
    have hx : i < x.length := hlen ▸ hi
    have hmem : x[i] ∈ x := List.getElem_mem hx
    simp only [hblock.bits_enc21_shift, hblock.dec21_enc21, max_eq_right Nat.one_le_two_pow]
    rw [List.getD_eq_getElem _ _ (by simpa using hx), List.getD_eq_getElem _ _ hx, List.getElem_map]
    exact restored_near (listMin_le_of_mem hmem) (hbyte _ hmem)
  case wellFormed =>
    intro x hlen hbyte
    have hblock : IsBlock x := ⟨hlen, hbyte⟩
    refine ⟨hblock.enc21_lt, ?_, hblock.enc41_lt, ?_⟩
    · simpa [blockBad, hblock.bits_enc21_shift] using shift21_le x
    · simpa [blockBad, hblock.bits_enc41_shift] using shift41_le x

end Sys2Proof.Machine
end

section
/-! What ends or frees an attempt: no function's configuration and no tenant's state changes, and no request and no
flight is new. -/

namespace Sys2Proof.Machine

/-- `t` comes from `s` by work that only ends or frees attempts. -/
structure State.Frees (s t : State) : Prop where
  fn : t.fn = s.fn
  vfState : ∀ x, t.rd .VF_STATUS_STATE x = s.rd .VF_STATUS_STATE x
  reqs : ∀ r ∈ t.reqs, r ∈ s.reqs
  flights : ∀ f ∈ t.flights, ∃ g ∈ s.flights, g.gq = f.gq ∧ g.slot = f.slot

namespace State.Frees

theorem refl (s : State) : s.Frees s := ⟨rfl, fun _ => rfl, fun _ h => h, fun f h => ⟨f, h, rfl, rfl⟩⟩

theorem trans {s t u : State} (h : s.Frees t) (k : t.Frees u) : s.Frees u where
  fn := k.fn.trans h.fn
  vfState x := (k.vfState x).trans (h.vfState x)
  reqs r hr := h.reqs r (k.reqs r hr)
  flights f hf := by
    obtain ⟨g, hg, hgq, hslot⟩ := k.flights f hf
    obtain ⟨e, he, heq, heslot⟩ := h.flights g hg
    exact ⟨e, he, heq.trans hgq, heslot.trans hslot⟩

/-- What comes first stands last, in the order the model writes the steps of an operation. -/
theorem after {s t u : State} (k : t.Frees u) (h : s.Frees t) : s.Frees u := h.trans k

/-- An update that takes requests out and changes nothing else the relation speaks of. -/
theorem takesReqs {s : State}
    {pending' mem' m' t' pw' img' brg' sec' tst' confReached' msix' pba' sent' geyLatch' reqs' reqNext' move' foMoves'
      lastCpl' lastLink' queues' tensors' seqs' vtime' wasReady' lastQ' readyAt' aged' stepNo' ceJoin' ceJoinG'
      epochUse' epochC1' lastEpoch' acct' frac' energyK' calTime' calUj' resident' region' cores' emb' arrays' vis'
      eqx' heads' ports' fresh' data'} (h : ∀ r ∈ reqs', r ∈ s.reqs) :
    s.Frees ⟨pending', s.csr, mem', m', t', pw', img', brg', sec', tst', confReached', s.fn, msix', pba', sent',
      geyLatch', reqs', reqNext', move', foMoves', lastCpl', lastLink', queues', tensors', seqs', s.flights, vtime',
      wasReady', lastQ', readyAt', aged', stepNo', ceJoin', ceJoinG', epochUse', epochC1', lastEpoch', acct', frac',
      energyK', calTime', calUj', resident', region', cores', emb', arrays', vis', eqx', heads', ports', fresh',
      data'⟩ :=
  ⟨rfl, fun _ => rfl, h, fun f hf => ⟨f, hf, rfl, rfl⟩⟩

/-- An update of nothing that the relation speaks of. -/
theorem update {s : State}
    {pending' mem' m' t' pw' img' brg' sec' tst' confReached' msix' pba' sent' geyLatch' reqNext' move' foMoves'
      lastCpl' lastLink' queues' tensors' seqs' vtime' wasReady' lastQ' readyAt' aged' stepNo' ceJoin' ceJoinG'
      epochUse' epochC1' lastEpoch' acct' frac' energyK' calTime' calUj' resident' region' cores' emb' arrays' vis'
      eqx' heads' ports' fresh' data'} :
    s.Frees ⟨pending', s.csr, mem', m', t', pw', img', brg', sec', tst', confReached', s.fn, msix', pba', sent',
      geyLatch', s.reqs, reqNext', move', foMoves', lastCpl', lastLink', queues', tensors', seqs', s.flights, vtime',
      wasReady', lastQ', readyAt', aged', stepNo', ceJoin', ceJoinG', epochUse', epochC1', lastEpoch', acct', frac',
      energyK', calTime', calUj', resident', region', cores', emb', arrays', vis', eqx', heads', ports', fresh',
      data'⟩ :=
  takesReqs fun _ h => h

theorem of_irq {s t : State} (h : OnlyRegsIrq s t []) : s.Frees t where
  fn := (congrArg State.fn h.1 :)
  vfState x := h.2 _ x (by simp) (by decide)
  reqs _ hr := (congrArg State.reqs h.1 :) ▸ hr
  flights f hf := ⟨f, (congrArg State.flights h.1 :) ▸ hf, rfl, rfl⟩

theorem ite {c : Prop} [Decidable c] {s a b : State} (ha : s.Frees a) (hb : s.Frees b) :
    s.Frees (if c then a else b) := by split <;> assumption

theorem ite_fst {c : Prop} [Decidable c] {α : Type} {s : State} {a b : State × α} (ha : s.Frees a.1)
    (hb : s.Frees b.1) : s.Frees (if c then a else b).1 := by split <;> assumption

theorem of_fst {α : Type} {s t : State} {x : α} {p : State × α} (k : s.Frees p.1) (h : p = (t, x)) : s.Frees t := by
  subst h
  exact k

theorem each {α : Type} {g : State → α → State} {l : List α} {s : State}
    (hg : ∀ (s : State), ∀ x ∈ l, s.Frees (g s x)) : s.Frees (s.each l g) := by
  induction l generalizing s with
  | nil => exact .refl s
  | cons x l ih =>
    exact .after (ih fun s y hy => hg s y (List.mem_cons_of_mem x hy)) (hg s x List.mem_cons_self)

theorem wr {s : State} {f : Fld} {u v : Nat} (hf : f ≠ .VF_STATUS_STATE := by decide) : s.Frees (s.wr f u v) :=
  ⟨rfl, fun _ => s.rd_wr_ne v fun h => hf h.1.symm, fun _ h => h, fun g h => ⟨g, h, rfl, rfl⟩⟩

theorem fire {s : State} {n : Nat} : s.Frees (s.fire n) := .of_irq (fire_frame s n)

theorem fireIf {s : State} {c : Bool} {n : Nat} : s.Frees (s.fireIf c n) := .of_irq (fireIf_frame s c n)

theorem setFlight {s : State} {f : Flight} : s.Frees (s.setFlight f) where
  fn := rfl
  vfState _ := rfl
  reqs _ h := h
  flights := by
    intro g hg
    obtain ⟨e, he, rfl⟩ := List.mem_map.1 hg
    refine ⟨e, he, ?_⟩
    split <;> simp_all

theorem dropFlight {s : State} {f : Flight} : s.Frees (s.dropFlight f) :=
  ⟨rfl, fun _ => rfl, fun _ h => h, fun g hg => ⟨g, List.mem_of_mem_filter hg, rfl, rfl⟩⟩

/-! ## Memory -/

theorem pcState {s : State} {pc st : Nat} : s.Frees (s.pcState pc st) := .ite (.refl _) (.after .fire .wr)

theorem startRetire {s : State} {pc : Nat} : s.Frees (s.startRetire pc) :=
  .ite (.after .wr <| .after .wr <| .after .pcState .update) .wr

theorem nextRetire {s : State} : s.Frees s.nextRetire := by
  unfold State.nextRetire
  split
  · exact .refl _
  split
  · exact .refl _
  · exact .after .startRetire <| .after .wr .update

theorem wantRetire {s : State} {pc : Nat} : s.Frees (s.wantRetire pc) :=
  .ite (.refl _) (.after .nextRetire .update)

theorem noteUE {s : State} {pc : Nat} : s.Frees (s.noteUE pc) :=
  .ite (.after .wantRetire .update) .update

theorem firstUE {s : State} {line : Nat} : s.Frees (s.firstUE line) := by
  unfold State.firstUE
  refine .after .fire ?_
  split
  · exact .after .noteUE <| .after .wr <| .after .wr <| .after .wr .update
  · exact .after .wr <| .after .wr .update

theorem setPte {s : State} {ctx lvl va e : Nat} : s.Frees (s.setPte ctx lvl va e) := .update

theorem touch {s : State} {ctx va : Nat} {write : Bool} : s.Frees (s.touch ctx va write) := by
  unfold State.touch
  split
  · exact .refl _
  · exact .setPte

theorem setFrame {s : State} {n : Nat} {f : Frame} : s.Frees (s.setFrame n f) := .update

theorem charge {s : State} {ctx : Nat} {n : Int} : s.Frees (s.charge ctx n) := .update

theorem takeUnit {s t : State} {ctx u n : Nat} (h : s.takeUnit ctx u = some (t, n)) : s.Frees t := by
  unfold State.takeUnit at h
  dsimp only at h
  split at h
  · obtain ⟨n', -, he⟩ := Option.map_eq_some_iff.1 h
    cases he
    exact .after .charge (.each fun _ _ _ => .setFrame)
  · cases h

theorem retireFrame {s : State} {n : Nat} : s.Frees (s.retireFrame n) := by
  unfold State.retireFrame
  dsimp only
  split
  · split
    · split
      · exact .after .wantRetire <| .after .update <| .after .fire .setFrame
      · exact .after .update <| .after .fire .setFrame
    · exact .after .update <| .after .fire .setFrame
  · exact .after .update <| .after .fire .setFrame

theorem releaseFrames {s : State} {n k : Nat} : s.Frees (s.releaseFrames n k) :=
  .each fun _ _ _ => .ite .retireFrame .setFrame

theorem putByte {s : State} {k : Nat} {b : Byte} : s.Frees (s.putByte k b) := .update

theorem putBytes {s : State} {k : Nat} {l : List Byte} : s.Frees (s.putBytes k l) := by
  induction l generalizing s k with
  | nil => exact .refl _
  | cons b l ih => exact .after ih .putByte

theorem repoint {s : State} {ctx lvl base pa : Nat} {big : Bool} : s.Frees (s.repoint ctx lvl base pa big) :=
  .each fun _ _ _ => .setPte

theorem copyFrames {s : State} {src dst k : Nat} : s.Frees (s.copyFrames src dst k) :=
  .after (.each fun _ _ _ => .putByte) .update

theorem cow {s t : State} {ctx va : Nat} (h : s.cow ctx va = some t) : s.Frees t := by
  unfold State.cow at h
  split at h
  · cases h
    exact .refl _
  split at h
  · cases h
    exact .refl _
  dsimp only at h
  split at h
  · cases h
    exact .repoint
  split at h
  · cases h
  cases h
  exact .after .setFrame <| .after .repoint <| .after .copyFrames (.takeUnit ‹_›)

theorem dropTiles {s : State} {frame : Nat} : s.Frees (s.dropTiles frame) :=
  .ite .update (.refl _)

theorem stLine {s : State} {ctx va : Nat} {bs : List Byte} : s.Frees (s.stLine ctx va bs).1 := by
  unfold State.stLine
  split
  · exact .refl _
  split
  · exact .fire
  split
  · exact .cow ‹_›
  · exact .ite_fst (.after (.ite .firstUE (.refl _)) <| .after .touch (.cow ‹_›)) <|
      .after .putBytes <| .after (.ite .dropTiles (.refl _)) <|
      .after (.ite .update (.refl _)) <| .after .touch (.cow ‹_›)

theorem stBytes {s : State} {ctx va : Nat} {bs : List Byte} {fuel : Nat} : s.Frees (s.stBytes ctx va bs fuel).1 := by
  induction fuel generalizing s va bs with
  | zero => exact .refl _
  | succ fuel ih =>
    unfold State.stBytes
    split
    · exact .refl _
    dsimp only
    split
    · exact .after ih (.of_fst .stLine ‹_›)
    · exact .after ih (.of_fst .stLine ‹_›)
    · exact .of_fst .stLine ‹_›

theorem stChunks {s : State} {ctx : Nat} {cs : List Chunk} : s.Frees (s.stChunks ctx cs).1 := by
  induction cs generalizing s with
  | nil => exact .refl _
  | cons c cs ih =>
    unfold State.stChunks
    split
    · exact .after ih (.of_fst .stBytes ‹_›)
    · exact .after ih (.of_fst .stBytes ‹_›)
    · exact .of_fst .stBytes ‹_›

theorem freeBytes {s : State} {ctx va n : Nat} : s.Frees (s.freeBytes ctx va n) := by
  induction n generalizing s va with
  | zero => exact .refl _
  | succ n ih =>
    unfold State.freeBytes
    split
    · exact .after ih <| .after .putByte .update
    · exact ih

/-! ## What an attempt holds -/

theorem setTensor {s : State} {ctx h : Nat} {t : Tensor} : s.Frees (s.setTensor ctx h t) := .update

theorem abortOuts {s : State} {f : Flight} : s.Frees (s.abortOuts f) :=
  .ite (.refl _) (.each fun _ _ _ => .ite (.after (.ite .freeBytes (.refl _)) .setTensor) (.refl _))

theorem freeSlots {s : State} {f : Flight} : s.Frees (s.freeSlots f) :=
  .each fun _ _ _ => .after .update <| .each fun _ fl hfl =>
    .wr ((by decide : ∀ fl ∈ [Fld.CE_SLOT_STATE, .CE_SLOT_CLASS, .CE_SLOT_IN_PLACE, .CE_SLOT_N, .CE_SLOT_CONTEXT,
      .CE_SLOT_QUEUE, .CE_SLOT_SEQ, .CE_SLOT_KILLS, .CE_SLOT_RING_SLOT], fl ≠ .VF_STATUS_STATE) fl hfl)

theorem slotState {s : State} {f : Flight} {st : Nat} : s.Frees (s.slotState f st) := .each fun _ _ _ => .wr

theorem setCore {s : State} {id : Nat} {c : Core} : s.Frees (s.setCore id c) := .update

theorem embPerf {s : State} {i n : Nat} : s.Frees (s.embPerf i n) := .after .fireIf .wr

theorem freeEmber {s : State} {f : Flight} {killed : Bool} : s.Frees (s.freeEmber f killed) :=
  .ite (.after (.ite (.after .fire .wr) (.refl _)) <| .after (.ite .embPerf (.refl _)) <|
    .after (.each fun _ _ _ => .setCore) .update) (.refl _)

theorem setLane {s : State} {l : Nat} {v : VisLane} : s.Frees (s.setLane l v) := .update

theorem visState {s : State} {l st : Nat} : s.Frees (s.visState l st) := .ite (.refl _) (.after .fire .wr)

theorem laneSettle {s : State} {l : Nat} : s.Frees (s.laneSettle l) := by
  have hidle : s.Frees (if (s.lane l).unbind && s.laneEmpty l then
      ((s.wr .VIS_CTRL_ENABLE l 0).setLane l { s.lane l with unbind := false }).visState l 1
    else if s.rd .VIS_STATUS_STATE l = 2 ∧ s.rd .VIS_CTRL_ENABLE l = 0 ∧ s.rd .VIS_STATUS_BUSY l = 0 then
      s.visState l 1 else s) :=
    .ite (.after .visState <| .after .setLane .wr) (.ite .visState (.refl _))
  unfold State.laneSettle
  dsimp only
  split
  · exact .refl _
  split
  · exact .after (.ite (.refl _) (.after .setLane <| .after .wr .wr)) hidle
  · exact hidle

theorem freeLane {s : State} {f : Flight} : s.Frees (s.freeLane f) := by
  unfold State.freeLane
  split
  · exact .refl _
  · exact .after .laneSettle <| .after .setLane <| .after .wr <| .each fun _ fl hfl =>
      .wr ((by decide : ∀ fl ∈ [Fld.VIS_STATUS_BUSY, .VIS_TRIG_PYR, .VIS_TRIG_MOT, .VIS_TRIG_REF],
        fl ≠ .VF_STATUS_STATE) fl hfl)

theorem setStream {s : State} {i : Nat} {x : Stream} : s.Frees (s.setStream i x) := .update

theorem freeRingSlot {s : State} {f : Flight} : s.Frees (s.freeRingSlot f) := .ite .setStream (.refl _)

theorem dropReqs {s : State} {f : Flight} : s.Frees (s.dropReqs f) :=
  .after (.ite .update (.refl _)) <| .after (.each fun _ _ _ => .after .charge .releaseFrames) <|
    .after (.takesReqs fun _ h => List.mem_of_mem_filter h) <| .after .freeRingSlot <| .after .freeLane .freeEmber

theorem failFlight {s : State} {f : Flight} {status addr : Nat} : s.Frees (s.failFlight f status addr) :=
  .after .setFlight <| .after .dropReqs <| .after .abortOuts .freeEmber

theorem stopInPlace {s : State} {f : Flight} {st : Nat} : s.Frees (s.stopInPlace f st) :=
  .after .failFlight <| .after .slotState <| .after .stChunks .update

end State.Frees

end Sys2Proof.Machine
end

section
/-! Completions, timeouts, standby requests and the hold rule (R108, R117, R124). -/

namespace Sys2Proof.Machine

theorem State.failReq_of_flight {s : State} {r : HostReq} {f : Flight} (st : Nat)
    (h : s.flights.find? (fun f => f.gq == r.gq && f.slot == r.slot) = some f) :
    s.failReq r st = (s.slotState f 4).failFlight f st r.va := by
  rw [State.failReq, h]

/-- The status with which a completion fails the command that waits for it (R108). -/
def cplFails : CplStatus → Option Nat
  | .success => none
  | .poisoned => some 8
  | .unsupported | .abort => some 3

/-- A completion takes out the request it answers, and its status says how the request's command fails. -/
theorem exec_readCompletion {id : Nat} {r : HostReq} {s : State} (st : CplStatus)
    (h : s.reqs.find? (fun r => r.id == id && !r.held) = some r) :
    exec (.readCompletion id st) s = .next ((cplFails st).elim (s.dropReq id) ((s.dropReq id).failReq r)) := by
  show execReadCompletion id st s = _
  rw [execReadCompletion, h]
  cases st <;> rfl

theorem exec_completionTimeout_due {id : Nat} {r : HostReq} {s : State}
    (h : s.reqs.find? (fun r => r.id == id && !r.held && decide (r.since + 5000000 ≤ s.gcnt)) = some r) :
    exec (.completionTimeout id) s = .next ((s.dropReq id).failReq r 9) := by
  show execCompletionTimeout id s = _
  rw [execCompletionTimeout, h]

theorem exec_completionTimeout_early {id : Nat} {s : State}
    (h : ∀ r ∈ s.reqs, r.id = id → r.held = true ∨ s.gcnt < r.since + 5000000) :
    exec (.completionTimeout id) s = .next s := by
  have hnone : s.reqs.find? (fun r => r.id == id && !r.held && decide (r.since + 5000000 ≤ s.gcnt)) = none := by
    refine List.find?_eq_none.2 fun r hr hdue => ?_
    simp only [Bool.and_eq_true, beq_iff_eq, Bool.not_eq_eq_eq_not, Bool.not_true, decide_eq_true_eq] at hdue
    obtain ⟨⟨hid, hheld⟩, hlate⟩ := hdue
    obtain hh | hearly := h r hr hid
    · simp [hheld] at hh
    · omega
  show execCompletionTimeout id s = _
  rw [execCompletionTimeout, hnone]

theorem State.ne_of_mem_dropReq {s : State} {id : Nat} {r : HostReq} (h : r ∈ (s.dropReq id).reqs) : r.id ≠ id := by
  simpa using (List.mem_filter.1 h).2

/-- The function's requests that have been held for HOLD_MS. -/
def State.heldOut (s : State) (ctx : Nat) : List HostReq :=
  s.reqs.filter fun r => r.ctx == ctx && r.held && decide (r.since + s.holdTime ≤ s.gcnt)

/-- What the hold limit does to a command that waits for such a request. -/
def State.holdEnd (s : State) (f : Flight) : State :=
  if f.killable then s.killSlots { f with unreachable := true }
  else (s.slotState f 4).failFlight { f with unreachable := true } 9 0

theorem exec_holdExpiry (ctx : Nat) (s : State) : exec (.holdExpiry ctx) s = .next
    (s.each (s.flights.filter fun f => (s.heldOut ctx).any fun r => r.gq == f.gq && r.slot == f.slot)
      State.holdEnd) := rfl

theorem State.heldOut_eq_nil {s : State} {ctx : Nat}
    (h : ∀ r ∈ s.reqs, r.ctx = ctx → r.held = true → s.gcnt < r.since + s.holdTime) : s.heldOut ctx = [] := by
  refine List.filter_eq_nil_iff.2 fun r hr hdue => ?_
  simp only [Bool.and_eq_true, beq_iff_eq, decide_eq_true_eq] at hdue
  obtain ⟨⟨hctx, hheld⟩, hlate⟩ := hdue
  exact absurd (h r hr hctx hheld) (Nat.not_lt.2 hlate)

theorem exec_holdExpiry_early {ctx : Nat} {s : State} (h : s.heldOut ctx = []) :
    exec (.holdExpiry ctx) s = .next s := by
  rw [exec_holdExpiry, h]
  simp [State.each]

/-- Settles O11: each event finds the request it is about, or none, and does what the request's status or age says. -/
theorem completionsAndHolds : Obligations.CompletionsAndHolds := by
  unfold Obligations.CompletionsAndHolds
  refine ⟨?completion, ?timeout, ?early, fun _ _ _ _ => rfl, ?standby, ?holdEarly, ?holdDue⟩
  case completion =>
    intro id r s hr
    refine ⟨exec_readCompletion .success hr, fun f hf => ⟨?_, ?_, ?_⟩⟩
    · rw [exec_readCompletion .poisoned hr, cplFails, Option.elim_some, State.failReq_of_flight 8 hf]
    · rw [exec_readCompletion .unsupported hr, cplFails, Option.elim_some, State.failReq_of_flight 3 hf]
    · rw [exec_readCompletion .abort hr, cplFails, Option.elim_some, State.failReq_of_flight 3 hf]
  case timeout =>
    intro id r f s hr hf
    refine ⟨_, exec_completionTimeout_due hr, State.failReq_of_flight 9 hf, fun x hx => ?_⟩
    rw [State.failReq_of_flight 9 hf] at hx
    have hfrees : (s.dropReq id).Frees (((s.dropReq id).slotState f 4).failFlight f 9 r.va) :=
      .after .failFlight .slotState
    exact State.ne_of_mem_dropReq (hfrees.reqs x hx)
  case early => exact fun id s => exec_completionTimeout_early
  case standby =>
    intro port ctx addr size s
    refine ⟨fun hport => congrArg _ (if_pos hport), fun hport hdec => ?_, fun hport hdec => ?_⟩
    · exact congrArg _ ((if_neg hport).trans (by rw [hdec]; rfl))
    · exact congrArg _ ((if_neg hport).trans (by rw [hdec]; rfl))
  case holdEarly => exact fun ctx s h => exec_holdExpiry_early (State.heldOut_eq_nil h)
  case holdDue =>
    rintro ctx r f s - rfl hheld hlate hreqs hflights hgq hslot
    have hdue : s.heldOut r.ctx = [r] := by simp [State.heldOut, hreqs, hheld, hlate]
    rw [exec_holdExpiry, hdue, hflights]
    simp [hgq, hslot, State.each, State.holdEnd]

end Sys2Proof.Machine
end

section
/-! The home port of a function, and what one move does to it (R116, R121). -/

namespace Sys2Proof.Machine

theorem State.each_concat {α : Type} (s : State) (l : List α) (x : α) (g : State → α → State) :
    s.each (l ++ [x]) g = g (s.each l g) x := List.foldl_concat ..

/-- What every step of a list leaves, the list leaves. -/
theorem State.each_unchanged {α β : Type} (P : State → β) {g : State → α → State} {l : List α} (s : State)
    (hg : ∀ (s : State), ∀ x ∈ l, P (g s x) = P s) : P (s.each l g) = P s := by
  induction l generalizing s with
  | nil => rfl
  | cons x l ih =>
    exact (ih (g s x) fun s y hy => hg s y (List.mem_cons_of_mem x hy)).trans (hg s x List.mem_cons_self)

theorem OnlyRegs.irq {s t : State} {l : List (Fld × Nat)} (h : OnlyRegs s t l) : OnlyRegsIrq s t l :=
  h.thenIrq (.refl t)

theorem OnlyRegsIrq.append {s t u : State} {l m : List (Fld × Nat)} (h : OnlyRegsIrq s t l) (k : OnlyRegsIrq t u m) :
    OnlyRegsIrq s u (l ++ m) := by
  obtain ⟨hst, hrd⟩ := h
  obtain ⟨htu, krd⟩ := k
  refine ⟨by rw [← hst, ← htu], fun f n hf hirq => ?_⟩
  rw [List.mem_append, not_or] at hf
  exact (krd f n hf.2 hirq).trans (hrd f n hf.1 hirq)

theorem OnlyRegsIrq.mem_eq {s t : State} {l : List (Fld × Nat)} (h : OnlyRegsIrq s t l) : t.mem = s.mem :=
  (congrArg State.mem h.1 :)

theorem OnlyRegsIrq.fn_eq {s t : State} {l : List (Fld × Nat)} (h : OnlyRegsIrq s t l) : t.fn = s.fn :=
  (congrArg State.fn h.1 :)

theorem OnlyRegsIrq.msix_eq {s t : State} {l : List (Fld × Nat)} (h : OnlyRegsIrq s t l) : t.msix = s.msix :=
  (congrArg State.msix h.1 :)

theorem OnlyRegsIrq.move_eq {s t : State} {l : List (Fld × Nat)} (h : OnlyRegsIrq s t l) : t.move = s.move :=
  (congrArg State.move h.1 :)

theorem OnlyRegsIrq.foMoves_eq {s t : State} {l : List (Fld × Nat)} (h : OnlyRegsIrq s t l) : t.foMoves = s.foMoves :=
  (congrArg State.foMoves h.1 :)

/-- A context's home port is where two registers say it is. -/
theorem State.home_congr {s t : State} (hpf0 : t.rd .HOST_CTRL_PF0_HOME = s.rd .HOST_CTRL_PF0_HOME)
    (hvf : ∀ w, t.rd .HOST_HOME_HOME w = s.rd .HOST_HOME_HOME w) (x : Nat) : t.home x = s.home x := by
  rw [State.home, State.home, hpf0, hvf]

theorem State.home_wr {s : State} {f : Fld} {u v : Nat} (x : Nat) (hpf0 : f ≠ .HOST_CTRL_PF0_HOME := by decide)
    (hvf : f ≠ .HOST_HOME_HOME := by decide) : (s.wr f u v).home x = s.home x :=
  State.home_congr (s.rd_wr_ne v fun h => hpf0 h.1.symm) (fun _ => s.rd_wr_ne v fun h => hvf h.1.symm) x

theorem OnlyRegsIrq.home_eq {s t : State} {l : List (Fld × Nat)} (h : OnlyRegsIrq s t l)
    (hl : ∀ w ∈ l, w.1 ≠ .HOST_CTRL_PF0_HOME ∧ w.1 ≠ .HOST_HOME_HOME) (x : Nat) : t.home x = s.home x :=
  State.home_congr (h.2 _ _ (fun hm => (hl _ hm).1 rfl) (by decide))
    (fun _ => h.2 _ _ (fun hm => (hl _ hm).2 rfl) (by decide)) x

theorem State.setHome_onlyRegs (s : State) (c p : Nat) :
    OnlyRegs s (s.setHome c p) [(.HOST_CTRL_PF0_HOME, 0), (.HOST_HOME_HOME, c / 64)] := by
  unfold State.setHome
  split
  · exact (OnlyRegs.wr s _ _ _).trans (.refl _ _)
  · exact (OnlyRegs.refl s [_]).trans (.wr s _ _ _)

theorem State.home_setHome_same {s : State} {c p : Nat} (hp : p < 2) : (s.setHome c p).home c = p := by
  by_cases hc : c = pf0
  · rw [State.setHome, if_pos hc, State.home, if_pos hc, State.rd_wr_same]
    exact Nat.mod_eq_of_lt hp
  · have hbit : c % 64 < Fld.HOST_HOME_HOME.info.width := Nat.mod_lt c (by decide)
    rw [State.setHome, if_neg hc, State.home, if_neg hc, State.rd_wr_same, Nat.testBit_mod_two_pow]
    obtain rfl | rfl : p = 0 ∨ p = 1 := by omega
    · simp [testBit_clrBit]
    · simp [testBit_setBit, hbit]

/-- One context's home is one register bit, and no two contexts share it. -/
theorem State.home_setHome_ne {s : State} {c x : Nat} (p : Nat) (hx : x ≠ c) :
    (s.setHome c p).home x = s.home x := by
  by_cases hc : c = pf0
  · have hx0 : x ≠ pf0 := hc ▸ hx
    rw [State.setHome, if_pos hc, State.home, State.home, if_neg hx0, if_neg hx0, State.rd_wr_ne _ _ (by simp)]
  · rw [State.setHome, if_neg hc]
    by_cases hx0 : x = pf0
    · rw [State.home, State.home, if_pos hx0, if_pos hx0, State.rd_wr_ne _ _ (by simp)]
    rw [State.home, State.home, if_neg hx0, if_neg hx0]
    by_cases hword : x / 64 = c / 64
    · have hbit : x % 64 ≠ c % 64 := by omega
      have hwidth : x % 64 < Fld.HOST_HOME_HOME.info.width := Nat.mod_lt x (by decide)
      rw [hword, State.rd_wr_same, Nat.testBit_mod_two_pow]
      split <;> simp [hwidth, testBit_setBit_ne hbit, testBit_clrBit_ne hbit]
    · rw [State.rd_wr_ne _ _ (by simp [hword])]

/-- What waited for a function's old port goes out on the new one. -/
def State.reissue (s : State) (c p : Nat) : State :=
  { s with
    reqs := s.reqs.map fun r => if r.ctx = c then { r with held := false, port := p, since := s.gcnt } else r
    flights := s.flights.map fun f => if gqCtx f.gq = c then { f with unreachable := false } else f }

/-- A move changes the home, reissues what waited, delivers what was pending and reports itself. -/
theorem State.moveFn_onlyRegsIrq (s : State) (c p : Nat) :
    OnlyRegsIrq ((s.setHome c p).reissue c p) (s.moveFn c p) [(.VF_HOME_MOVED, c), (.VF_HOME_MOVES, c)] := by
  have hmove : s.moveFn c p = if c = pf0 then ((s.setHome c p).reissue c p).deliver else
      ((((s.setHome c p).reissue c p).deliver.wr .VF_HOME_MOVED c 1).inc .VF_HOME_MOVES c).fire (ctxSrc c 1) := rfl
  rw [hmove]
  split
  · exact (deliver_frame _).append (OnlyRegs.refl _ _).irq
  · exact (deliver_frame _).append (((OnlyRegs.wr _ _ _ _).trans (.wr _ _ _ _)).fire _)

theorem State.home_moveFn (s : State) (c p x : Nat) : (s.moveFn c p).home x = (s.setHome c p).home x :=
  (s.moveFn_onlyRegsIrq c p).home_eq (by simp) x

theorem State.moveFn_mem (s : State) (c p : Nat) : (s.moveFn c p).mem = s.mem :=
  (s.moveFn_onlyRegsIrq c p).mem_eq.trans (s.setHome_onlyRegs c p).irq.mem_eq

theorem State.moveFn_move (s : State) (c p : Nat) : (s.moveFn c p).move = s.move :=
  (s.moveFn_onlyRegsIrq c p).move_eq.trans (s.setHome_onlyRegs c p).irq.move_eq

theorem State.moveFn_foMoves (s : State) (c p : Nat) : (s.moveFn c p).foMoves = s.foMoves :=
  (s.moveFn_onlyRegsIrq c p).foMoves_eq.trans (s.setHome_onlyRegs c p).irq.foMoves_eq

/-! ## A list of moves -/

/-- Move each function of a list to the port `port` names for it at its turn. -/
def State.moveAll (s : State) (l : List Nat) (port : State → Nat → Nat) : State :=
  s.each l fun s c => s.moveFn c (port s c)

theorem State.moveAll_mem (s : State) (l : List Nat) (port : State → Nat → Nat) : (s.moveAll l port).mem = s.mem :=
  s.each_unchanged State.mem fun s _ _ => s.moveFn_mem ..

theorem State.moveAll_move (s : State) (l : List Nat) (port : State → Nat → Nat) : (s.moveAll l port).move = s.move :=
  s.each_unchanged State.move fun s _ _ => s.moveFn_move ..

theorem State.moveAll_foMoves (s : State) (l : List Nat) (port : State → Nat → Nat) :
    (s.moveAll l port).foMoves = s.foMoves := s.each_unchanged State.foMoves fun s _ _ => s.moveFn_foMoves ..

theorem State.home_moveAll_notMem (s : State) {l : List Nat} (port : State → Nat → Nat) {x : Nat} (hx : x ∉ l) :
    (s.moveAll l port).home x = s.home x := by
  refine s.each_unchanged (State.home · x) fun s c hc => ?_
  exact (s.home_moveFn ..).trans (State.home_setHome_ne _ (ne_of_mem_of_not_mem hc hx).symm)

theorem State.home_moveAll_target (s : State) {l : List Nat} {p x : Nat} (hp : p < 2) (hx : x ∈ l) :
    (s.moveAll l fun _ _ => p).home x = p := by
  induction l using List.reverseRecOn with
  | nil => simp at hx
  | append_singleton l c ih =>
    rw [State.moveAll, State.each_concat, State.home_moveFn]
    by_cases hc : x = c
    · rw [hc, State.home_setHome_same hp]
    · rw [State.home_setHome_ne p hc]
      exact ih (by simpa [hc] using hx)

/-- In a list without repetition a function changes ports once. -/
theorem State.home_moveAll_other (s : State) {l : List Nat} {x : Nat} (hl : l.Nodup) (hx : x ∈ l) :
    (s.moveAll l fun s c => 1 - s.home c).home x = 1 - s.home x := by
  induction l using List.reverseRecOn with
  | nil => simp at hx
  | append_singleton l c ih =>
    obtain ⟨hl, -, hc⟩ := List.nodup_append.1 hl
    rw [State.moveAll, State.each_concat, State.home_moveFn]
    by_cases hxc : x = c
    · have hnot : x ∉ l := fun h => hc x h c (by simp) hxc
      rw [← hxc, State.home_setHome_same (by omega)]
      exact congrArg (1 - ·) (s.home_moveAll_notMem _ hnot)
    · rw [State.home_setHome_ne _ hxc]
      exact ih hl (by simpa [hxc] using hx)

end Sys2Proof.Machine
end

section
/-! Planned moves and the moves after a declaration (R121, R125). -/

namespace Sys2Proof.Machine

/-- TENANT and TARGET as a move's write stores them. -/
def State.stageMove (s : State) (tenant target : Nat) : State :=
  (s.wr .HOST_MOVE_TENANT 0 tenant).wr .HOST_MOVE_TARGET 0 target

/-- The functions of a move that have to move. -/
def State.movers (s : State) (target : Nat) (fns : List Nat) : List Nat :=
  fns.filter fun c => s.home c ≠ target ∧ s.eligiblePort target c

/-- The STATUS a move gets at its write, and the move then under way. -/
def State.moveVerdict (s : State) (scope tenant target : Nat) (fns : List Nat) : Nat × Option Move :=
  if s.rd .HOST_PORT_STATUS_LINK target ≠ 3 then (3, s.move)
  else if scope ≠ 2 ∧ ¬ fns.all (s.eligiblePort target) then (4, s.move)
  else if (s.movers target fns).isEmpty then (2, s.move)
  else (1, some ⟨scope, tenant, target, s.movers target fns, false⟩)

theorem State.home_stageMove (s : State) (tenant target : Nat) : (s.stageMove tenant target).home = s.home :=
  funext fun x => (State.home_wr x).trans (State.home_wr x)

theorem State.eligiblePort_stageMove (s : State) (tenant target p : Nat) :
    (s.stageMove tenant target).eligiblePort p = s.eligiblePort p := by
  funext x
  have hlink : (s.stageMove tenant target).rd .HOST_PORT_STATUS_LINK p = s.rd .HOST_PORT_STATUS_LINK p := by
    simp [State.stageMove]
  rw [State.eligiblePort, State.eligiblePort, hlink]
  rfl

theorem State.moveVerdict_stageMove (s : State) (scope tenant target : Nat) (fns : List Nat) :
    (s.stageMove tenant target).moveVerdict scope tenant target fns = s.moveVerdict scope tenant target fns := by
  have hlink : (s.stageMove tenant target).rd .HOST_PORT_STATUS_LINK target = s.rd .HOST_PORT_STATUS_LINK target := by
    simp [State.stageMove]
  rw [State.moveVerdict, State.moveVerdict, State.movers, State.movers, s.eligiblePort_stageMove, s.home_stageMove,
    hlink]
  rfl

theorem State.startMove_busy {s : State} (scope tenant target : Nat) (fns : List Nat)
    (h : s.rd .HOST_MOVE_STATUS = 1) : s.startMove scope tenant target fns =
      { s with move := s.move.map fun m => { m with busySeen := true } } := if_pos h

theorem State.startMove_free {s : State} (scope tenant target : Nat) (fns : List Nat)
    (h : s.rd .HOST_MOVE_STATUS ≠ 1) : s.startMove scope tenant target fns =
      { (s.stageMove tenant target).wr .HOST_MOVE_STATUS 0 (s.moveVerdict scope tenant target fns).1 with
        move := (s.moveVerdict scope tenant target fns).2 } := by
  rw [← s.moveVerdict_stageMove, State.startMove, if_neg h]
  unfold State.moveVerdict State.movers State.stageMove
  dsimp only
  split_ifs <;> rfl

theorem State.startMove_free_onlyRegs {s : State} (scope tenant target : Nat) (fns : List Nat)
    (h : s.rd .HOST_MOVE_STATUS ≠ 1) :
    OnlyRegs s { s.startMove scope tenant target fns with move := s.move }
      [(.HOST_MOVE_TENANT, 0), (.HOST_MOVE_TARGET, 0), (.HOST_MOVE_STATUS, 0)] := by
  rw [State.startMove_free _ _ _ _ h]
  exact ((OnlyRegs.wr s _ _ _).trans (.wr _ _ _ _)).trans (.wr _ _ _ _)

/-- What the registers show of a move that was not turned away. -/
theorem State.rd_startMove_free {s : State} (scope : Nat) {tenant target : Nat} (fns : List Nat)
    (htarget : target < 2) (h : s.rd .HOST_MOVE_STATUS ≠ 1) :
    (s.startMove scope tenant target fns).rd .HOST_MOVE_TENANT = tenant % 2 ^ 9 ∧
      (s.startMove scope tenant target fns).rd .HOST_MOVE_TARGET = target ∧
      (s.startMove scope tenant target fns).rd .HOST_MOVE_STATUS =
        (s.moveVerdict scope tenant target fns).1 % 2 ^ 4 := by
  rw [State.startMove_free _ _ _ _ h]
  refine ⟨?_, ?_, State.rd_wr_same ..⟩
  · show (((s.wr _ _ _).wr _ _ _).wr _ _ _).rd _ _ = _
    rw [State.rd_wr_ne _ _ (by simp), State.rd_wr_ne _ _ (by simp), State.rd_wr_same]
    rfl
  · show (((s.wr _ _ _).wr _ _ _).wr _ _ _).rd _ _ = _
    rw [State.rd_wr_ne _ _ (by simp), State.rd_wr_same]
    exact Nat.mod_eq_of_lt htarget

theorem State.startMove_free_move {s : State} (scope tenant target : Nat) (fns : List Nat)
    (h : s.rd .HOST_MOVE_STATUS ≠ 1) :
    (s.startMove scope tenant target fns).move = (s.moveVerdict scope tenant target fns).2 := by
  rw [State.startMove_free _ _ _ _ h]

section
variable {s : State} {target : Nat} {fns : List Nat} (scope tenant : Nat)

theorem State.moveVerdict_down (h : s.rd .HOST_PORT_STATUS_LINK target ≠ 3) :
    s.moveVerdict scope tenant target fns = (3, s.move) := if_pos h

theorem State.moveVerdict_ineligible (h : s.rd .HOST_PORT_STATUS_LINK target = 3) (hscope : scope ≠ 2)
    (hel : ∃ x ∈ fns, s.eligiblePort target x = false) : s.moveVerdict scope tenant target fns = (4, s.move) :=
  (if_neg (not_not.2 h)).trans (if_pos ⟨hscope, by simpa using hel⟩)

variable (h : s.rd .HOST_PORT_STATUS_LINK target = 3) (hel : ∀ x ∈ fns, s.eligiblePort target x = true)
include hel

theorem State.movers_of_eligible : s.movers target fns = fns.filter fun x => s.home x ≠ target :=
  List.filter_congr fun x hx => by simp [hel x hx]

include h

theorem State.moveVerdict_noop (hhome : ∀ x ∈ fns, s.home x = target) :
    s.moveVerdict scope tenant target fns = (2, s.move) := by
  have hnone : s.movers target fns = [] := by
    rw [State.movers_of_eligible hel]
    exact List.filter_eq_nil_iff.2 fun x hx => by simp [hhome x hx]
  rw [State.moveVerdict, if_neg (not_not.2 h), if_neg fun hno => hno.2 (List.all_eq_true.2 hel), hnone]
  rfl

theorem State.moveVerdict_moves (hhome : ∃ x ∈ fns, s.home x ≠ target) :
    s.moveVerdict scope tenant target fns =
      (1, some ⟨scope, tenant, target, fns.filter fun x => s.home x ≠ target, false⟩) := by
  obtain ⟨x, hx, hne⟩ := hhome
  have hsome : (fns.filter fun x => s.home x ≠ target) ≠ [] :=
    List.ne_nil_of_mem (List.mem_filter.2 ⟨hx, by simpa using hne⟩)
  rw [State.moveVerdict, if_neg (not_not.2 h), if_neg fun hno => hno.2 (List.all_eq_true.2 hel),
    State.movers_of_eligible hel, if_neg (by simpa using hsome)]

end

/-! ## The commands -/

/-- `c` is a planned move of the functions `fns` to `target`, as one of the three SCOPE values writes it (R125). -/
def State.Asks (s : State) (c : Instr) (scope tenant target : Nat) (fns : List Nat) : Prop :=
  c = .moveOneTenant tenant target ∧ scope = 1 ∧ tenant < 512 ∧ fns = [tenant] ∨
    c = .movePf0 target ∧ scope = 3 ∧ tenant = s.rd .HOST_MOVE_TENANT ∧ fns = [pf0] ∨
    c = .moveOtherPort target ∧ scope = 2 ∧ tenant = s.rd .HOST_MOVE_TENANT ∧
      fns = s.contexts.filter fun x => s.home x ≠ target

theorem exec_of_asks {s : State} {c : Instr} {scope tenant target : Nat} {fns : List Nat} (hserved : s.served .island)
    (htarget : target < 2) (h : s.Asks c scope tenant target fns) :
    exec c s = .next (s.startMove scope tenant target fns) := by
  have hmod : target % 2 = target := Nat.mod_eq_of_lt htarget
  obtain ⟨rfl, rfl, htenant, rfl⟩ | ⟨rfl, rfl, rfl, rfl⟩ | ⟨rfl, rfl, rfl, rfl⟩ := h
  · refine congrArg _ ((hserved.accessed_self _).trans ?_)
    rw [hmod, Nat.mod_eq_of_lt htenant]
  · refine congrArg _ ((hserved.accessed_self _).trans ?_)
    rw [hmod]
  · refine congrArg _ ((hserved.accessed_self _).trans ?_)
    rw [hmod]

theorem exec_moveDone_none {s : State} (h : s.move = none) : exec .moveDone s = .next s := by
  show execMoveDone s = _
  rw [execMoveDone, h]

theorem exec_moveDone_waits {s : State} {m : Move} (hm : s.move = some m)
    (h : s.reqs.any (fun r => m.fns.contains r.ctx && !r.held) = true) : exec .moveDone s = .next s := by
  show execMoveDone s = _
  rw [execMoveDone, hm]
  exact congrArg _ (if_pos h)

/-- The state a planned move ends in: its functions have moved, and the end is reported. -/
def State.movedBy (s : State) (m : Move) : State :=
  (((({ s with move := none } : State).moveAll m.fns fun _ _ => m.target).fireIf (m.fns.contains pf0) 18).wr
    .HOST_MOVE_STATUS 0 (if m.busySeen then 5 else 2))

theorem exec_moveDone_completes {s : State} {m : Move} (hm : s.move = some m)
    (h : s.reqs.any (fun r => m.fns.contains r.ctx && !r.held) = false) : exec .moveDone s = .next (s.movedBy m) := by
  show execMoveDone s = _
  rw [execMoveDone, hm]
  exact congrArg _ (if_neg (Bool.eq_false_iff.1 h))

theorem State.movedBy_onlyRegsIrq (s : State) (m : Move) :
    OnlyRegsIrq (({ s with move := none } : State).moveAll m.fns fun _ _ => m.target) (s.movedBy m)
      [(.HOST_MOVE_STATUS, 0)] := (fireIf_frame _ _ _).append (OnlyRegs.wr _ _ _ _).irq

theorem State.home_movedBy (s : State) (m : Move) (x : Nat) :
    (s.movedBy m).home x = (({ s with move := none } : State).moveAll m.fns fun _ _ => m.target).home x :=
  (s.movedBy_onlyRegsIrq m).home_eq (by simp) x

theorem State.movedBy_move (s : State) (m : Move) : (s.movedBy m).move = none :=
  (s.movedBy_onlyRegsIrq m).move_eq.trans (State.moveAll_move ..)

theorem State.movedBy_mem (s : State) (m : Move) : (s.movedBy m).mem = s.mem :=
  (s.movedBy_onlyRegsIrq m).mem_eq.trans (State.moveAll_mem ..)

/-- The functions a declaration moves: those that are still eligible on the other port. -/
def State.failovers (s : State) : List Nat := s.foMoves.filter fun c => s.eligiblePort (1 - s.home c) c

/-- The state after a declaration's moves. -/
def State.failedOver (s : State) : State :=
  ({ s with foMoves := [] } : State).moveAll s.failovers fun s c => 1 - s.home c

/-- Source 18 reports the moves where there were any. -/
theorem exec_failoverDone (s : State) :
    exec .failoverDone s = .next (s.failedOver.fireIf (!s.failovers.isEmpty) 18) := by
  by_cases h : s.failovers.isEmpty = true
  · refine congrArg _ ((if_pos h).trans ?_)
    rw [State.failedOver, List.isEmpty_iff.1 h]
    rfl
  · refine congrArg _ ((if_neg h).trans ?_)
    rw [Bool.eq_false_iff.2 h]
    rfl

/-- Settles O12: `moveVerdict` says how a move begins, and a list of moves homes each of its functions once. -/
theorem moves : Obligations.Moves := by
  unfold Obligations.Moves
  refine ⟨?start, fun s => exec_moveDone_none, ?waits, ?completes, ?failover⟩
  case start =>
    intro scope tenant target fns c s hserved htarget hasks
    have hexec := exec_of_asks hserved htarget hasks
    refine ⟨fun hbusy => hexec.trans (congrArg _ (State.startMove_busy _ _ _ _ hbusy)), fun hfree => ?_⟩
    obtain ⟨htenant, htgt, hstatus⟩ := State.rd_startMove_free (tenant := tenant) scope fns htarget hfree
    have hmove := State.startMove_free_move scope tenant target fns hfree
    refine ⟨_, hexec, htenant, htgt, fun hdown => ?_, fun hup hscope hel => ?_, fun hup hel hhome => ?_,
      fun hup hel hhome => ?_, State.startMove_free_onlyRegs _ _ _ _ hfree⟩
    · rw [hstatus, hmove, State.moveVerdict_down _ _ hdown]
      exact ⟨rfl, rfl⟩
    · rw [hstatus, hmove, State.moveVerdict_ineligible _ _ hup hscope hel]
      exact ⟨rfl, rfl⟩
    · rw [hstatus, hmove, State.moveVerdict_noop _ _ hup hel hhome]
      exact ⟨rfl, rfl⟩
    · rw [hstatus, hmove, State.moveVerdict_moves _ _ hup hel hhome]
      exact ⟨rfl, rfl⟩
  case waits =>
    intro m r s hm hr hctx hheld
    exact exec_moveDone_waits hm (List.any_eq_true.2 ⟨r, hr, by simp [hctx, hheld]⟩)
  case completes =>
    intro m s hm htarget _ hreqs
    have hnone : s.reqs.any (fun r => m.fns.contains r.ctx && !r.held) = false := by simpa using hreqs
    refine ⟨_, exec_moveDone_completes hm hnone, s.movedBy_move m, fun x hx => ?_, fun x _ hx => ?_, ?_,
      s.movedBy_mem m⟩
    · rw [s.home_movedBy, State.home_moveAll_target _ htarget hx]
    · rw [s.home_movedBy, State.home_moveAll_notMem _ _ hx]
      rfl
    · rw [State.movedBy, State.rd_wr_same]
      split <;> rfl
  case failover =>
    intro s hnodup _ _
    have hfired := fireIf_frame s.failedOver (!s.failovers.isEmpty) 18
    refine ⟨_, exec_failoverDone s, ?_, ?_, fun x hx hel => ?_, fun x _ hx => ?_⟩
    · exact hfired.foMoves_eq.trans (State.moveAll_foMoves ..)
    · exact hfired.mem_eq.trans (State.moveAll_mem ..)
    · rw [hfired.home_eq (by simp)]
      exact State.home_moveAll_other _ (hnodup.filter _) (List.mem_filter.2 ⟨hx, hel⟩)
    · rw [hfired.home_eq (by simp)]
      exact State.home_moveAll_notMem _ _ fun h => hx (List.mem_of_mem_filter h)

end Sys2Proof.Machine
end

section
/-! The teardown of a context: its attempts go, and its state says so (R127, R180). -/

namespace Sys2Proof.Machine

namespace State.Frees

theorem clrPend {s : State} {n : Nat} : s.Frees (s.clrPend n) := .of_irq (clrPend_frame s n)

theorem setQueue {s : State} {gq : Nat} {q : Queue} : s.Frees (s.setQueue gq q) := .update

theorem releaseTails {s : State} {gq : Nat} : s.Frees (s.releaseTails gq) := .each fun _ _ _ => .update

theorem abortDeferred {s : State} {gq : Nat} : s.Frees (s.abortDeferred gq) :=
  .each fun _ _ _ => .ite (.after (.ite .freeBytes (.refl _)) .setTensor) (.refl _)

theorem geyTarget0 {s : State} {x : Nat} : s.Frees (s.geyTarget0 x) := .after .update <| .after .wr .wr

theorem geyTear {s : State} {t : Nat} : s.Frees (s.geyTear t) :=
  .after .geyTarget0 <| .each fun _ _ _ => .after (.ite (.after .wr <| .after .wr .wr) (.refl _)) <|
    .after .wr .clrPend

end State.Frees

/-! ## A list of steps -/

/-- What the step for one element brings about from `P`, which every step keeps, still holds after the whole list. -/
theorem State.each_establishes {α : Type} {P Q : State → Prop} {g : State → α → State} {l : List α} {x : α} {s : State}
    (hx : x ∈ l) (hs : P s) (hpre : ∀ s y, P s → P (g s y)) (hself : ∀ s, P s → Q (g s x))
    (hkeep : ∀ s y, Q s → Q (g s y)) : Q (s.each l g) := by
  induction l generalizing s with
  | nil => simp at hx
  | cons y l ih =>
    obtain rfl | hx := List.mem_cons.1 hx
    · exact List.foldlRecOn l g (hself s hs) fun t ht y _ => hkeep t y ht
    · exact ih hx (hpre s y hs)

/-! ## Killing a context -/

/-- A teardown ends one attempt: a running in-place command is stopped first. -/
def State.cutOff (s : State) (f : Flight) : State :=
  let s := if dInPlace f.desc ∧ f.phase = .running then s.stopInPlace f 0x0A else s
  ((s.abortOuts f).freeSlots f |>.dropReqs f).dropFlight f

theorem State.Frees.cutOff {s : State} {f : Flight} : s.Frees (s.cutOff f) :=
  .after .dropFlight <| .after .dropReqs <| .after .freeSlots <| .after .abortOuts <| .ite .stopInPlace (.refl _)

theorem State.killContext_eq (s : State) (ctx : Nat) :
    s.killContext ctx = s.each (s.flights.filter fun f => gqCtx f.gq = ctx) State.cutOff := rfl

theorem State.Frees.killContext {s : State} {ctx : Nat} : s.Frees (s.killContext ctx) := .each fun _ _ _ => .cutOff

/-- No attempt of the state is of this queue and slot. -/
def State.lacks (s : State) (f : Flight) : Prop := ∀ h ∈ s.flights, ¬ (h.gq = f.gq ∧ h.slot = f.slot)

theorem State.Frees.lacks {s t : State} (h : s.Frees t) {f : Flight} (hs : s.lacks f) : t.lacks f := by
  rintro e he ⟨hgq, hslot⟩
  obtain ⟨g, hg, hggq, hgslot⟩ := h.flights e he
  exact hs g hg ⟨hggq.trans hgq, hgslot.trans hslot⟩

theorem State.lacks_cutOff (s : State) (f : Flight) : (s.cutOff f).lacks f := fun _ hh =>
  of_decide_eq_true (List.mem_filter.1 hh).2

/-- No attempt of the state is of the context. -/
def State.emptyOf (s : State) (ctx : Nat) : Prop := ∀ f ∈ s.flights, gqCtx f.gq ≠ ctx

theorem State.Frees.emptyOf {s t : State} (h : s.Frees t) {ctx : Nat} (hs : s.emptyOf ctx) : t.emptyOf ctx := by
  intro f hf
  obtain ⟨g, hg, hgq, -⟩ := h.flights f hf
  exact hgq ▸ hs g hg

/-- Every attempt of the context was among those cut off one by one, and none comes back. -/
theorem State.emptyOf_killContext (s : State) (ctx : Nat) : (s.killContext ctx).emptyOf ctx := by
  intro f hf hctx
  obtain ⟨e, he, hgq, hslot⟩ := (State.Frees.killContext (s := s) (ctx := ctx)).flights f hf
  have hlisted : e ∈ s.flights.filter fun f => gqCtx f.gq = ctx := by simp [he, hgq, hctx]
  have hlacks : (s.killContext ctx).lacks e := by
    rw [s.killContext_eq]
    exact State.each_establishes (P := fun _ => True) (Q := (State.lacks · e)) hlisted trivial (fun _ _ _ => trivial)
      (fun s _ => s.lacks_cutOff e) fun _ _ => State.Frees.cutOff.lacks
  exact hlacks f hf ⟨hgq.symm, hslot.symm⟩

/-! ## Starting a teardown -/

theorem State.startTeardown_of_torn {s : State} {t : Nat} (h : s.rd .VF_STATUS_STATE t = 2) : s.startTeardown t = s :=
  if_pos h

theorem State.startTeardown_of_not_torn {s : State} {t : Nat} (h : s.rd .VF_STATUS_STATE t ≠ 2) :
    s.startTeardown t = (s.wr .VF_STATUS_STATE t 2).killContext t := if_neg h

theorem State.startTeardown_fn (s : State) (t : Nat) : (s.startTeardown t).fn = s.fn := by
  unfold State.startTeardown
  split
  · rfl
  · exact State.Frees.killContext.fn

theorem State.each_startTeardown_fn (s : State) (l : List Nat) : (s.each l State.startTeardown).fn = s.fn :=
  s.each_unchanged State.fn fun s x _ => s.startTeardown_fn x

theorem State.rd_startTeardown_ne (s : State) {t x : Nat} (h : x ≠ t) :
    (s.startTeardown t).rd .VF_STATUS_STATE x = s.rd .VF_STATUS_STATE x := by
  unfold State.startTeardown
  split
  · rfl
  · exact (State.Frees.killContext.vfState x).trans (s.rd_wr_ne 2 fun hx => h hx.2)

theorem State.emptyOf_startTeardown {s : State} (t : Nat) {x : Nat} (h : s.emptyOf x) :
    (s.startTeardown t).emptyOf x := by
  unfold State.startTeardown
  split
  · exact h
  · exact State.Frees.killContext.emptyOf (s := s.wr .VF_STATUS_STATE t 2) h

/-- The tenant is in teardown and has no attempt left. -/
def State.torn (s : State) (x : Nat) : Prop := s.rd .VF_STATUS_STATE x = 2 ∧ s.emptyOf x

theorem State.Frees.torn {s t : State} (h : s.Frees t) {x : Nat} (hs : s.torn x) : t.torn x :=
  ⟨(h.vfState x).trans hs.1, h.emptyOf hs.2⟩

theorem State.torn_startTeardown_self {s : State} {x : Nat} (h : s.rd .VF_STATUS_STATE x = 1 ∨ s.torn x) :
    (s.startTeardown x).torn x := by
  obtain hactive | htorn := h
  · rw [State.startTeardown_of_not_torn (by omega)]
    exact ⟨(State.Frees.killContext.vfState x).trans (s.rd_wr_same ..), State.emptyOf_killContext _ x⟩
  · rwa [State.startTeardown_of_torn htorn.1]

theorem State.torn_startTeardown {s : State} (t : Nat) {x : Nat} (h : s.torn x) : (s.startTeardown t).torn x := by
  by_cases hx : x = t
  · subst hx
    exact State.torn_startTeardown_self (.inr h)
  · exact ⟨(s.rd_startTeardown_ne hx).trans h.1, State.emptyOf_startTeardown t h.2⟩

/-- Each ACTIVE tenant of a list that is torn down ends torn down, however often it is listed. -/
theorem State.torn_each_startTeardown {s : State} {l : List Nat} {x : Nat} (hx : x ∈ l)
    (h : s.rd .VF_STATUS_STATE x = 1) : (s.each l State.startTeardown).torn x := by
  refine State.each_establishes (P := fun s => s.rd .VF_STATUS_STATE x = 1 ∨ s.torn x) (Q := (State.torn · x)) hx
    (.inl h) (fun s t hs => ?_) (fun s => State.torn_startTeardown_self) fun s t => State.torn_startTeardown t
  by_cases ht : x = t
  · subst ht
    exact .inr (State.torn_startTeardown_self hs)
  · exact hs.imp (fun h => (s.rd_startTeardown_ne ht).trans h) (State.torn_startTeardown t)

theorem Sparse.get_of_notMem_keys {α : Type} (d : α) {m : Sparse α} {k : Nat} (h : k ∉ m.map (·.1)) :
    m.get d k = d := by
  induction m with
  | nil => rfl
  | cons kv m ih =>
    rw [List.map_cons, List.mem_cons, not_or] at h
    rw [Sparse.get, if_neg (Ne.symm h.1), ih h.2]

/-- A field that does not read its reset value is listed. -/
theorem State.mem_unitsOf {s : State} {f : Fld} {u : Nat} (h : s.rd f u ≠ f.resetVal u) : u ∈ s.unitsOf f := by
  have hkey : f.key u ∈ s.csr.map (·.1) := not_imp_comm.1 (Sparse.get_of_notMem_keys _) h
  have hf := f.ctorIdx_lt
  have hmod : f.key u % 1024 = f.ctorIdx := by unfold Fld.key; omega
  have hdiv : f.key u / 1024 = u := by unfold Fld.key; omega
  exact List.mem_map.2 ⟨f.key u, List.mem_filter.2 ⟨hkey, by simpa using hmod⟩, hdiv⟩

theorem State.mem_activeTenants {s : State} {x : Nat} (hx : x < 512) (h : s.rd .VF_STATUS_STATE x = 1) :
    x ∈ s.activeTenants := by
  have hreset : Fld.VF_STATUS_STATE.resetVal x = 0 := rfl
  exact List.mem_filter.2 ⟨State.mem_unitsOf (by rw [h, hreset]; decide), by simp [h, hx]⟩

/-! ## Emptying PF0 -/

theorem State.killContext_frees_emptyPf0 (s : State) : (s.killContext pf0).Frees s.emptyPf0 :=
  .after (.each fun _ _ _ => .after .setQueue <| .after .releaseTails .abortDeferred) <|
    .after (.each fun _ _ _ => .setStream) .update

theorem State.Frees.emptyPf0 {s : State} : s.Frees s.emptyPf0 := .after s.killContext_frees_emptyPf0 .killContext

theorem State.emptyOf_emptyPf0 (s : State) : s.emptyPf0.emptyOf pf0 :=
  s.killContext_frees_emptyPf0.emptyOf (s.emptyOf_killContext pf0)

end Sys2Proof.Machine
end

section
/-! Configuration writes and function resets (R115, R118, R124, R127, R128, R472). -/

namespace Sys2Proof.Machine

/-! ## What a configuration write stores -/

theorem State.cfg_setCfg_same (s : State) (p ctx : Nat) (c : FnCfg) : (s.setCfg p ctx c).cfg p ctx = c :=
  Sparse.get_set_same ..

/-- What a write stored stands as long as nothing changes a function's configuration. -/
theorem State.cfg_of_fn {s t : State} {p ctx : Nat} {c : FnCfg} (h : t.fn = (s.setCfg p ctx c).fn) :
    t.cfg p ctx = c := by
  rw [State.cfg, h]
  exact s.cfg_setCfg_same p ctx c

theorem State.served.cfgAccessed {s : State} (h : s.served .island) (hrdy : 3 ≤ s.rd .RDY_STATUS_STATE)
    (g : State → State) : s.cfgAccessed g = g s :=
  (if_neg (Nat.not_lt.2 hrdy)).trans (h.accessed_self g)

theorem State.served.cfgAccessed_port {s : State} {p : Nat} (h : s.served .island) (hrdy : 3 ≤ s.rd .RDY_STATUS_STATE)
    (hport : s.portDead p = false) (g : State → State) :
    s.cfgAccessed (fun s => if s.portDead p then s else g s) = g s := by
  rw [h.cfgAccessed hrdy, hport]
  rfl

/-- A change of parts of the state that interrupts do not touch carries an interrupt's frame along. -/
theorem OnlyRegsIrq.map {s t : State} {l : List (Fld × Nat)} (φ : State → State)
    (hφ : ∀ (v : State) c e p g, φ { v with csr := c, sent := e, pba := p, geyLatch := g } =
      { φ v with csr := c, sent := e, pba := p, geyLatch := g })
    (h : OnlyRegsIrq s t l) : OnlyRegsIrq (φ s) (φ t) l := by
  have hcsr (v : State) : (φ v).csr = v.csr := (congrArg State.csr (hφ v v.csr v.sent v.pba v.geyLatch) :)
  have hkept : φ s = { φ s with csr := s.csr, sent := s.sent, pba := s.pba, geyLatch := s.geyLatch } :=
    hφ s s.csr s.sent s.pba s.geyLatch
  refine ⟨?_, fun f u hf hirq => ?_⟩
  · rw [hkept, ← hφ, h.1]
    exact hkept
  · rw [State.rd_congr (hcsr t), State.rd_congr (hcsr s)]
    exact h.2 f u hf hirq

/-! ## Single bits -/

/-- Bus Master Enable as a write stores it. -/
def State.setBme (s : State) (p ctx : Nat) (on : Bool) : State := s.setCfg p ctx { s.cfg p ctx with bme := on }

/-- A vector's mask bit as a write stores it. -/
def State.setMask (s : State) (k : Nat) (masked : Bool) : State :=
  { s with msix := s.msix.set {} k { s.msix.get {} k with masked := masked } }

section
variable {s : State} {p : Nat} (hserved : s.served .island) (hrdy : 3 ≤ s.rd .RDY_STATUS_STATE)
  (hport : s.portDead p = false)
include hserved hrdy hport

theorem exec_busMasterEnableWrite (ctx : Nat) (on : Bool) : exec (.busMasterEnableWrite p ctx on) s =
    .next (if p = s.home ctx then ((s.setBme p ctx on).readmit ctx).deliver else s.setBme p ctx on) :=
  congrArg Host.Outcome.next (hserved.cfgAccessed_port hrdy hport _)

theorem exec_msixMaskWrite_function (ctx : Nat) (masked : Bool) : exec (.msixMaskWrite p ctx none masked) s =
    .next (s.setCfg p ctx { s.cfg p ctx with fnMask := masked }).deliver :=
  congrArg Host.Outcome.next (hserved.cfgAccessed_port hrdy hport _)

theorem exec_msixMaskWrite_vector (ctx : Nat) {v : Nat} (hv : v < 8) (masked : Bool) :
    exec (.msixMaskWrite p ctx (some v) masked) s = .next (s.setMask (msixKey p ctx v) masked).deliver := by
  have hvec : v % (if ctx = pf0 then 64 else 8) = v := Nat.mod_eq_of_lt (by split <;> omega)
  refine congrArg Host.Outcome.next ((hserved.cfgAccessed_port hrdy hport _).trans ?_)
  show (s.setMask (msixKey p ctx (v % if ctx = pf0 then 64 else 8)) masked).deliver = _
  rw [hvec]

theorem exec_d3hot (ctx : Nat) :
    exec (.d3hot p ctx) s = .next (s.setCfg p ctx { s.cfg p ctx with d3hot := true }) :=
  congrArg Host.Outcome.next (hserved.cfgAccessed_port hrdy hport _)

end

theorem State.readmit_fn (s : State) (ctx : Nat) : (s.readmit ctx).fn = s.fn := by
  unfold State.readmit
  split <;> rfl

/-- A function's return to reach moves its requests and attempts alone. -/
theorem State.readmit_frame (s : State) (ctx : Nat) :
    { s.readmit ctx with reqs := s.reqs, flights := s.flights } = s := by
  unfold State.readmit
  split <;> rfl

theorem State.deliver_fn (s : State) : s.deliver.fn = s.fn := (deliver_frame s).fn_eq

theorem State.setBme_onlyRegsIrq (s : State) (p ctx : Nat) (on : Bool) :
    OnlyRegsIrq s { s.setBme p ctx on with fn := s.fn, reqs := s.reqs, flights := s.flights } [] :=
  ⟨rfl, fun _ _ _ _ => rfl⟩

theorem State.setBme_readmit_onlyRegsIrq (s : State) (p ctx : Nat) (on : Bool) :
    OnlyRegsIrq s { ((s.setBme p ctx on).readmit ctx).deliver with fn := s.fn, reqs := s.reqs, flights := s.flights }
      [] := by
  have hback : { (s.setBme p ctx on).readmit ctx with fn := s.fn, reqs := s.reqs, flights := s.flights } = s :=
    congrArg (fun v : State => { v with fn := s.fn }) ((s.setBme p ctx on).readmit_frame ctx)
  have hdeliver := (deliver_frame ((s.setBme p ctx on).readmit ctx)).map
    (fun v => { v with fn := s.fn, reqs := s.reqs, flights := s.flights }) fun _ _ _ _ _ => rfl
  rwa [hback] at hdeliver

/-! ## VF Enable -/

/-- VF Enable makes the tenant ACTIVE: it is homed on the port, unused, and its partition is configured (R115). -/
def State.enables (s : State) (p x : Nat) : Bool :=
  s.home x == p && s.rd .VF_STATUS_STATE x == 0 && !(s.unconfigured (s.partOf x))

def State.activate (s : State) (x : Nat) : State := (s.wr .VF_STATUS_STATE x 1).wr .VF_HOME_MOVES x 0

/-- The tenant is ACTIVE and has not moved. -/
def State.newlyActive (s : State) (x : Nat) : Prop := s.rd .VF_STATUS_STATE x = 1 ∧ s.rd .VF_HOME_MOVES x = 0

theorem State.newlyActive_activate (s : State) (x : Nat) : (s.activate x).newlyActive x := by
  constructor
  · rw [State.activate, State.rd_wr_ne _ _ (by simp), State.rd_wr_same]
    rfl
  · rw [State.activate, State.rd_wr_same]
    rfl

theorem State.newlyActive_activate_other (s : State) (y : Nat) {x : Nat} (h : s.newlyActive x) :
    (s.activate y).newlyActive x := by
  by_cases hx : x = y
  · subst hx
    exact s.newlyActive_activate x
  · obtain ⟨hstate, hmoves⟩ := h
    exact ⟨(State.rd_wr_ne _ _ (by simp)).trans ((s.rd_wr_ne _ (by simp [hx])).trans hstate),
      (State.rd_wr_ne _ _ (by simp [hx])).trans ((s.rd_wr_ne _ (by simp)).trans hmoves)⟩

theorem State.newlyActive_each_activate (s : State) {l : List Nat} {x : Nat} (hx : x ∈ l) :
    (s.each l State.activate).newlyActive x :=
  State.each_establishes (P := fun _ => True) (Q := (State.newlyActive · x)) hx trivial (fun _ _ _ => trivial)
    (fun s _ => s.newlyActive_activate x) fun s y => s.newlyActive_activate_other y

theorem State.enabled_fn (s : State) (l m : List Nat) :
    ((s.each l State.issueKey).each m State.activate).fn = s.fn :=
  (State.each_unchanged (g := State.activate) State.fn _ fun _ _ _ => rfl).trans
    (s.each_unchanged (g := State.issueKey) State.fn fun _ _ _ => rfl)

section
variable {s : State} {p : Nat} (hserved : s.served .island) (hrdy : 3 ≤ s.rd .RDY_STATUS_STATE)
  (hport : s.portDead p = false)
include hserved hrdy hport

/-- Before READY the enable is refused. -/
theorem exec_vfEnable_refused (n : Nat) (hready : s.ready = false) : exec (.vfEnable p n true) s = .next
    ((s.setCfg p pf0 { s.cfg p pf0 with
      numVFs := if (s.cfg p pf0).vfEnable then (s.cfg p pf0).numVFs else min n s.tenants, vfEnable := false }).inc
        .RDY_STATUS_VF_REFUSALS 0) := by
  refine congrArg Host.Outcome.next ((hserved.cfgAccessed_port hrdy hport _).trans (if_pos ?_))
  rw [hready]
  rfl

theorem exec_vfEnable_on (n : Nat) (hready : s.ready = true) (hoff : (s.cfg p pf0).vfEnable = false) :
    exec (.vfEnable p n true) s = .next
      (((s.setCfg p pf0 { s.cfg p pf0 with numVFs := min n s.tenants, vfEnable := true }).each
        (List.range (min n s.tenants)) State.issueKey).each
          ((List.range (min n s.tenants)).filter (s.enables p)) State.activate) := by
  refine congrArg Host.Outcome.next ((hserved.cfgAccessed_port hrdy hport _).trans ?_)
  dsimp only
  rw [hready, hoff]
  rfl

theorem exec_vfEnable_off (n : Nat) (hon : (s.cfg p pf0).vfEnable = true) : exec (.vfEnable p n false) s = .next
    ((s.setCfg p pf0 { s.cfg p pf0 with vfEnable := false }).each
      (s.activeTenants.filter fun x => s.home x = p) State.startTeardown) := by
  refine congrArg Host.Outcome.next ((hserved.cfgAccessed_port hrdy hport _).trans ?_)
  dsimp only
  rw [hon]
  rfl

theorem exec_standbyFlr {ctx : Nat} (hstandby : p ≠ s.home ctx) :
    exec (.standbyFlr p ctx) s = .next ((s.setCfg p ctx {}).endConn ctx) :=
  congrArg Host.Outcome.next ((hserved.cfgAccessed hrdy _).trans (if_neg (by simp [hstandby, hport])))

end

/-! ## Function resets -/

theorem State.endConn_fn (s : State) (ctx : Nat) : (s.endConn ctx).fn = s.fn := rfl

theorem State.emptyOf_clearCfg {s : State} (p ctx : Nat) {x : Nat} (h : s.emptyOf x) :
    ((s.setCfg p ctx {}).endConn ctx).emptyOf x := h

theorem State.torn_clearCfg {s : State} (p ctx : Nat) {x : Nat} (h : s.torn x) :
    ((s.setCfg p ctx {}).endConn ctx).torn x := h

/-- A PF0 FLR's first part: every ACTIVE tenant's teardown starts, and Geyser lets go of the tenants and of PF0. -/
def State.allTorn (s : State) : State :=
  let s := s.each s.activeTenants State.startTeardown
  (s.each (List.range s.tenants) State.geyTear).geyTarget0 12

theorem State.torn_allTorn {s : State} {x : Nat} (hx : x < 512) (h : s.rd .VF_STATUS_STATE x = 1) :
    s.allTorn.torn x := by
  have hgeyser : (s.each s.activeTenants State.startTeardown).Frees s.allTorn :=
    .after .geyTarget0 <| .each fun _ _ _ => .geyTear
  exact hgeyser.torn (State.torn_each_startTeardown (State.mem_activeTenants hx h) h)

section
variable {s : State} (hserved : s.served .island) (hrdy : 3 ≤ s.rd .RDY_STATUS_STATE)
include hserved hrdy

theorem exec_standbyFlr_home {ctx : Nat} : exec (.standbyFlr (s.home ctx) ctx) s = .next s :=
  congrArg Host.Outcome.next ((hserved.cfgAccessed hrdy _).trans (if_pos (by simp)))

/-- The function's configuration state on its home port is cleared, and an ACTIVE tenant's teardown starts. -/
theorem exec_vfFlr {x : Nat} (hx : x < s.tenants) : exec (.vfFlr x) s = .next
    (if s.rd .VF_STATUS_STATE x = 1 then ((s.setCfg (s.home x) x {}).endConn x).startTeardown x
      else (s.setCfg (s.home x) x {}).endConn x) :=
  congrArg Host.Outcome.next ((hserved.cfgAccessed hrdy _).trans (if_neg (Nat.not_le.2 hx)))

theorem exec_pf0Flr : exec .pf0Flr s = .next ((s.allTorn.emptyPf0.setCfg (s.home pf0) pf0 {}).endConn pf0) :=
  congrArg Host.Outcome.next (hserved.cfgAccessed hrdy _)

end

/-- Settles O13: each write stores its bit, and the teardowns it starts leave the configuration state alone. -/
theorem configurationWrites : Obligations.ConfigurationWrites := by
  unfold Obligations.ConfigurationWrites
  refine ⟨?busMaster, ?msix, fun p ctx s hserved hrdy hport => exec_d3hot hserved hrdy hport ctx, ?vfEnable, ?vfFlr,
    ?standby, ?pf0⟩
  case busMaster =>
    intro p ctx on s hserved hrdy hport _
    have hexec := exec_busMasterEnableWrite hserved hrdy hport ctx on
    refine ⟨fun hstandby => hexec.trans (congrArg _ (if_neg hstandby)), _, hexec, ?_⟩
    split
    · exact ⟨State.cfg_of_fn ((State.deliver_fn _).trans (State.readmit_fn _ _)), s.setBme_readmit_onlyRegsIrq ..⟩
    · exact ⟨s.cfg_setCfg_same .., s.setBme_onlyRegsIrq ..⟩
  case msix =>
    intro p ctx masked s hserved hrdy hport
    refine ⟨⟨_, exec_msixMaskWrite_function hserved hrdy hport ctx masked, ?_, ?_⟩, fun v hv =>
      ⟨_, exec_msixMaskWrite_vector hserved hrdy hport ctx hv masked, ?_, ?_⟩⟩
    · exact State.cfg_of_fn (State.deliver_fn _)
    · exact (deliver_frame _).map (s := s.setCfg p ctx _) (fun v => { v with fn := s.fn }) fun _ _ _ _ _ => rfl
    · rw [(deliver_frame _).msix_eq]
      exact Sparse.get_set_same ..
    · exact (deliver_frame _).map (s := s.setMask _ masked) (fun v => { v with msix := s.msix }) fun _ _ _ _ _ => rfl
  case vfEnable =>
    intro p n s hserved hrdy hport
    refine ⟨fun hready => ⟨_, exec_vfEnable_refused hserved hrdy hport n hready, ?_, ?_, ?_⟩,
      fun hready hoff => ⟨_, exec_vfEnable_on hserved hrdy hport n hready hoff, ?_⟩,
      fun hon => ⟨_, exec_vfEnable_off hserved hrdy hport n hon, ?_⟩⟩
    · exact congrArg FnCfg.vfEnable (s.cfg_setCfg_same ..)
    · exact (State.rd_wr_same ..).trans (Nat.mod_eq_of_lt ((Nat.min_le_right ..).trans_lt (by decide)))
    · exact OnlyRegs.wr s .RDY_STATUS_VF_REFUSALS 0 _
    · refine ⟨?_, ?_, fun x hx hhome hstate hconf => ?_⟩
      · rw [State.cfg_of_fn (s := s) (State.enabled_fn ..)]
      · rw [State.cfg_of_fn (s := s) (State.enabled_fn ..)]
      have hlisted : x ∈ (List.range (min n s.tenants)).filter (s.enables p) :=
        List.mem_filter.2 ⟨List.mem_range.2 hx, by simp [State.enables, hhome, hstate, hconf]⟩
      exact State.newlyActive_each_activate _ hlisted
    · refine ⟨?_, fun x hx hhome hactive => ?_⟩
      · rw [State.cfg_of_fn (s := s) (State.each_startTeardown_fn ..)]
      exact State.torn_each_startTeardown
        (List.mem_filter.2 ⟨State.mem_activeTenants hx hactive, by simpa using hhome⟩) hactive
  case vfFlr =>
    intro x s hserved hrdy hx
    refine ⟨_, exec_vfFlr hserved hrdy hx, ?_, fun hactive => ?_, fun hidle => ?_⟩
    · split
      · exact State.cfg_of_fn (s := s) (State.startTeardown_fn _ x)
      · exact State.cfg_of_fn (State.endConn_fn ..)
    · rw [if_pos hactive]
      exact State.torn_startTeardown_self (.inl hactive)
    · rw [if_neg hidle]
      rfl
  case standby =>
    intro p ctx s hserved hrdy
    refine ⟨?_, fun hstandby hport =>
      ⟨_, exec_standbyFlr hserved hrdy hport hstandby, State.cfg_of_fn (State.endConn_fn ..), rfl⟩⟩
    rintro rfl
    exact exec_standbyFlr_home hserved hrdy
  case pf0 =>
    intro s hserved hrdy
    have hempty := State.emptyOf_clearCfg (s.home pf0) pf0 s.allTorn.emptyOf_emptyPf0
    exact ⟨_, exec_pf0Flr hserved hrdy, State.cfg_of_fn (State.endConn_fn ..), hempty, fun x hx hactive =>
      (State.torn_clearCfg (s.home pf0) pf0 (State.Frees.emptyPf0.torn (State.torn_allTorn hx hactive))).1⟩

end Sys2Proof.Machine
end

section
/-! A doorbell write: its checks, what it makes of the queue, and when it is served (R115, R134, R135, R153). -/

namespace Sys2Proof.Machine

/-! ## A queue of the state -/

@[simp] theorem State.queue_setQueue_same (s : State) (gq : Nat) (x : Queue) : (s.setQueue gq x).queue gq = x :=
  Sparse.get_set_same ..

theorem State.queue_setQueue_ne (s : State) {gq g : Nat} (x : Queue) (h : g ≠ gq) :
    (s.setQueue gq x).queue g = s.queue g := Sparse.get_set_ne _ _ _ _ h

@[simp] theorem State.waitOf_setQueue (s : State) (gq g : Nat) (x : Queue) :
    (s.setQueue gq x).waitOf g = s.waitOf g := by
  simp only [State.waitOf, State.flightIn, State.flightsOf, State.setQueue_flights]

/-! ## The checks and the fields they guard (R135) -/

theorem sqTailOk_iff (x : Queue) (v : Nat) :
    sqTailOk x v = true ↔ sub32 v x.sqTail ≤ 2 ^ 31 - 1 ∧ sub32 v x.sqNext ≤ 2 ^ x.sqLog := by
  simp [sqTailOk]

theorem cqHeadOk_iff (x : Queue) (v : Nat) :
    cqHeadOk x v = true ↔ sub32 v x.cqHead ≤ 2 ^ 31 - 1 ∧ sub32 v x.cqHead ≤ sub32 x.cqTail x.cqHead := by
  simp [cqHeadOk]

section
variable (x : Queue) (half val : Nat)

theorem ringDoorbell_frame :
    { ringDoorbell x half val with sqTail := x.sqTail, cqHead := x.cqHead, bad := x.bad } = x := rfl

theorem ringDoorbell_sqTail : (ringDoorbell x half val).sqTail =
    if half ≠ 2 ∧ sqTailOk x (val % 2 ^ 32) = true then val % 2 ^ 32 else x.sqTail := by
  refine ite_congr (propext ?_) (fun _ => rfl) fun _ => rfl
  cases sqTailOk x (val % 2 ^ 32) <;> simp

theorem ringDoorbell_cqHead {h : Nat} (hh : h = if half = 2 then val % 2 ^ 32 else val / 2 ^ 32 % 2 ^ 32) :
    (ringDoorbell x half val).cqHead = if half ≠ 1 ∧ cqHeadOk x h = true then h else x.cqHead := by
  subst hh
  refine ite_congr (propext ?_) (fun _ => rfl) fun _ => rfl
  cases cqHeadOk x (if half = 2 then val % 2 ^ 32 else val / 2 ^ 32 % 2 ^ 32) <;> simp

/-- However many of its fields fail, a write counts once. -/
theorem ringDoorbell_bad : (ringDoorbell x half val).bad =
    if (half ≠ 2 ∧ sqTailOk x (val % 2 ^ 32) = false) ∨
        (half ≠ 1 ∧ cqHeadOk x (if half = 2 then val % 2 ^ 32 else val / 2 ^ 32 % 2 ^ 32) = false)
      then min 65535 (x.bad + 1) else x.bad :=
  ite_congr (propext (by simp)) (fun _ => rfl) fun _ => rfl

end

/-! ## Which write comes to what -/

/-- R131: a doorbell that is nobody's is not served. -/
theorem State.bellBlk_of_unowned {s : State} {ctx q : Nat}
    (h : (ctx = pf0 ∧ 64 ≤ q) ∨ (ctx ≠ pf0 ∧ (s.tenants ≤ ctx ∨ 512 ≤ q))) : s.bellBlk ctx q = .gone := by
  have htenants : s.tenants ≤ pf0 := by
    unfold State.tenants
    split
    · decide
    · exact le_rfl
  refine if_neg ?_
  rintro (⟨hpf0, hq⟩ | ⟨htenant, hq⟩)
  · omega
  · omega

theorem State.accessed_gone (s : State) (g : State → State) : s.accessed .gone g = s := by
  have hnone : s.access .gone = none := ite_self _
  rw [State.accessed, hnone]

theorem exec_doorbell_unowned {s : State} {ctx q : Nat} (half val : Nat) (h : s.bellBlk ctx q = .gone) :
    exec (.doorbell ctx q half val) s = .next s := by
  show execDoorbell ctx q half val s = _
  rw [execDoorbell, h, State.accessed_gone]

section
variable {s : State} {ctx q : Nat} (hserved : s.served (s.bellBlk ctx q)) (half val : Nat)
include hserved

theorem exec_doorbell_dropped (hready : s.ready = false) :
    exec (.doorbell ctx q half val) s = .next (s.inc .RDY_DROPS_DOORBELLS 0) := by
  show execDoorbell ctx q half val s = _
  rw [execDoorbell, hserved.accessed_self, hready]
  rfl

variable (hready : s.ready = true) (hpower : s.rd .PWR_STATUS_STATE = 1)
include hready hpower

theorem exec_doorbell_torn (hctx : ctx ≠ pf0) (htorn : s.rd .VF_STATUS_STATE ctx = 2) :
    exec (.doorbell ctx q half val) s = .next s := by
  have hwake : s.wake true = s := s.wake_eq_self_iff.2 (by omega)
  show execDoorbell ctx q half val s = _
  rw [execDoorbell, hserved.accessed_self]
  simp [hready, hwake, hctx, htorn]

variable (hlive : ctx = pf0 ∨ s.rd .VF_STATUS_STATE ctx ≠ 2)
include hlive

theorem exec_doorbell_closed
    (hst : (s.queue (qKey ctx q)).st = .disabled ∨ (s.queue (qKey ctx q)).st = .destroying) :
    exec (.doorbell ctx q half val) s =
      .next (s.setQueue (qKey ctx q) { s.queue (qKey ctx q) with bad := min 65535 ((s.queue (qKey ctx q)).bad + 1) }) := by
  have hwake : s.wake true = s := s.wake_eq_self_iff.2 (by omega)
  have htorn : ¬(ctx ≠ pf0 ∧ s.rd .VF_STATUS_STATE ctx = 2) := by tauto
  show execDoorbell ctx q half val s = _
  rw [execDoorbell, hserved.accessed_self]
  dsimp only
  rw [if_neg (by simp [hready]), hwake, if_neg htorn, if_pos hst]

variable (hst : (s.queue (qKey ctx q)).st = .active ∨ (s.queue (qKey ctx q)).st = .stalled)
include hst

/-- An open queue takes the write; where one of its fields is accepted, a running FENCE_WAIT then reads its fence. -/
theorem exec_doorbell_open :
    (s.waitOf (qKey ctx q) = none → exec (.doorbell ctx q half val) s =
      .next (s.setQueue (qKey ctx q) (ringDoorbell (s.queue (qKey ctx q)) half val))) ∧
    (∀ f, s.waitOf (qKey ctx q) = some f → doorbellAccepted (s.queue (qKey ctx q)) half val = true →
      exec (.doorbell ctx q half val) s =
        .next ((s.setQueue (qKey ctx q) (ringDoorbell (s.queue (qKey ctx q)) half val)).pollFence f)) := by
  have hwake : s.wake true = s := s.wake_eq_self_iff.2 (by omega)
  have htorn : ¬(ctx ≠ pf0 ∧ s.rd .VF_STATUS_STATE ctx = 2) := by tauto
  have hopen : ¬((s.queue (qKey ctx q)).st = .disabled ∨ (s.queue (qKey ctx q)).st = .destroying) := by
    rcases hst with h | h <;> simp [h]
  show (_ → execDoorbell ctx q half val s = _) ∧ ∀ f, _ → _ → execDoorbell ctx q half val s = _
  rw [execDoorbell, hserved.accessed_self]
  dsimp only
  rw [if_neg (by simp [hready]), hwake, if_neg htorn, if_neg hopen, State.waitOf_setQueue]
  refine ⟨fun hnone => ?_, fun f hwait haccepted => ?_⟩
  · rw [hnone]
    exact congrArg _ (ite_self _)
  · rw [if_pos haccepted, hwait]

end

/-- Settles O16: one equation for each state a doorbell finds its queue in, and one for each field it writes. -/
theorem doorbellWrites : Obligations.DoorbellWrites := by
  unfold Obligations.DoorbellWrites
  refine ⟨?taken, fun ctx q half val s hserved hready hpower hlive hst =>
      exec_doorbell_closed hserved half val hready hpower hlive hst,
    fun ctx q half val s hserved hready => exec_doorbell_dropped hserved half val hready,
    fun ctx q half val s hserved hready hpower hctx htorn =>
      exec_doorbell_torn hserved half val hready hpower hctx htorn,
    fun ctx q half val s h => exec_doorbell_unowned half val (State.bellBlk_of_unowned h)⟩
  intro ctx q half val s hserved hready hpower hlive _ hst
  obtain ⟨hrung, hpolled⟩ := exec_doorbell_open hserved half val hready hpower hlive hst
  refine ⟨fun hnone => ⟨_, hrung hnone, ?_⟩, hpolled⟩
  simp only [State.queue_setQueue_same, ← sqTailOk_iff, ← cqHeadOk_iff]
  exact ⟨ringDoorbell_sqTail .., fun h hh => ringDoorbell_cqHead _ _ _ hh, rfl, rfl, rfl, ringDoorbell_bad ..,
    fun g hg => s.queue_setQueue_ne _ hg, rfl⟩

end Sys2Proof.Machine
end

section
/-! Fences: what a read of one finds, and how a FENCE_WAIT starts, goes on and ends (R151, R153). -/

namespace Sys2Proof.Machine

/-! ## The read of a fence -/

theorem fenceFinds_error {fence : Nat} (value : Nat) (h : 2 ^ 63 ≤ fence) : fenceFinds fence value = some 0x0B :=
  if_pos h

theorem fenceFinds_reached {fence value : Nat} (h : fence < 2 ^ 63) (hv : value ≤ fence) :
    fenceFinds fence value = some 0 := (if_neg (Nat.not_le.2 h)).trans (if_pos hv)

theorem fenceFinds_low {fence value : Nat} (h : fence < 2 ^ 63) (hv : fence < value) :
    fenceFinds fence value = none := (if_neg (Nat.not_le.2 h)).trans (if_neg (Nat.not_le.2 hv))

section
variable {s : State} {f : Flight}

/-- `pollFence` is unfolded before it is applied: with its arguments in place the kernel would evaluate the read of the
fence that its first case split is on. -/
theorem State.pollFence_of_fault {e : Nat × Nat}
    (hread : s.ldBytes (gqCtx f.gq) (d64 f.desc 0x10) 8 = .error e) :
    s.pollFence f = (s.failFlight f e.1 e.2).tryCommit f.gq 0x04 noAct := by
  generalize hp : State.pollFence = p
  delta State.pollFence at hp
  subst hp
  beta_reduce
  rw [hread]

variable {bs : List Byte} (hread : s.ldBytes (gqCtx f.gq) (d64 f.desc 0x10) 8 = .ok bs)
include hread

theorem State.pollFence_of_read : s.pollFence f = (fenceFinds (leNat bs) (d64 f.desc 0x18)).elim s fun st =>
    (s.setFlight { f with phase := .ended, endG := s.gcnt, res := { f.res with status := st } }).tryCommit f.gq 0x04
      noAct := by
  generalize hp : State.pollFence = p
  delta State.pollFence at hp
  subst hp
  beta_reduce
  rw [hread]
  dsimp only
  cases fenceFinds (leNat bs) (d64 f.desc 0x18) <;> rfl

theorem State.pollFence_of_ends {st : Nat} (hfinds : fenceFinds (leNat bs) (d64 f.desc 0x18) = some st) :
    s.pollFence f = (s.setFlight { f with
      phase := .ended, endG := s.gcnt, res := { f.res with status := st } }).tryCommit f.gq 0x04 noAct := by
  rw [State.pollFence_of_read hread, hfinds, Option.elim_some]

theorem State.pollFence_of_goesOn (hfinds : fenceFinds (leNat bs) (d64 f.desc 0x18) = none) : s.pollFence f = s := by
  rw [State.pollFence_of_read hread, hfinds, Option.elim_none]

end

/-! ## A running wait -/

section
variable {s : State} {ctx q : Nat} {f : Flight} (hwait : s.waitOf (qKey ctx q) = some f)
include hwait

theorem exec_fencePoll_of_wait : exec (.fencePoll ctx q) s = .next (s.pollFence f) := by
  show execFencePoll ctx q s = _
  rw [execFencePoll, hwait]

theorem exec_fenceTimeout_due (hset : f.until_ ≠ 0) (hdue : f.until_ ≤ s.gcnt) :
    exec (.fenceTimeout ctx q) s = .next ((s.failFlight f 9 0).tryCommit f.gq 0x04 noAct) := by
  show execFenceTimeout ctx q s = _
  rw [execFenceTimeout, hwait]
  exact congrArg _ (if_pos ⟨hset, hdue⟩)

theorem exec_fenceTimeout_early (hearly : f.until_ = 0 ∨ s.gcnt < f.until_) :
    exec (.fenceTimeout ctx q) s = .next s := by
  show execFenceTimeout ctx q s = _
  rw [execFenceTimeout, hwait]
  exact congrArg _ (if_neg (by omega))

end

/-! ## The start of a wait -/

/-- The attempt of the descriptor at the front of a queue's ring in the cycle it starts in. -/
def State.started (s : State) (gq : Nat) (d : List Byte) : Flight :=
  { gq := gq, slot := (s.queue gq).sqStart, desc := d, phase := .running, start := s.gcnt, ready := s.gcnt }

/-- A command that names no tensor conflicts with none and waits for none; where its unit can take it and its body
is sound, it leaves its ring as the attempt `go` makes of it. -/
theorem State.startCmd_of_starts {s : State} {gq op : Nat} {d : List Byte} {f : Flight}
    {act : State → Flight → State} {check : State → List Byte → Except (Nat × Nat) Plan}
    {blocked : State → List Byte → Bool} {go : State → Flight → Plan → State × Flight} {fin : State → State}
    (hstarts : s.starts gq op d) (hcheck : check s d = .ok {}) (hfree : blocked s d = false)
    (hgo : go s (s.started gq d) {} = (s, f)) (hbinds : f.binds = []) :
    s.startCmd gq op act check blocked go fin = fin (s.entered gq d f) := by
  obtain ⟨hcand, hop, hmay, hheader⟩ := hstarts
  have hconflict : s.conflict gq (dInPlace d) {} = none := rfl
  have hacquire : s.acquire gq (s.queue gq).sqStart (dInPlace d) [] = s := ite_self _
  have hissue (t : State) : t.issueReads f = t := by rw [State.issueReads, hbinds]; rfl
  have htouch (t : State) : t.touchBinds f = t := by rw [State.touchBinds, hbinds]; rfl
  have hattempt : { candFlight s gq ⟨(s.queue gq).sqStart, d, none⟩ with
      phase := .running, binds := [], outs := [] } = s.started gq d := rfl
  simp [State.startCmd, hcand, hop, hmay, hheader, hcheck, hconflict, hacquire, hfree, hattempt, hgo, hissue, htouch,
    Cand.placed, State.canAcquire, State.entered]

theorem State.flightsOf_entered {s : State} {gq : Nat} {f : Flight} (d : List Byte) (hf : f.gq = gq) :
    (s.entered gq d f).flightsOf gq = s.flightsOf gq ++ [f] := by
  show (s.flights ++ [f]).filter _ = _
  rw [List.filter_append, List.filter_singleton, decide_eq_true hf]
  rfl

theorem exec_fenceWait_of_starts {s : State} {ctx q : Nat} {d : List Byte} (hstarts : s.starts (qKey ctx q) 0x04 d)
    (hempty : s.flightsOf (qKey ctx q) = []) (haligned : d64 d 0x10 % 8 = 0) {f : Flight}
    (hf : f = { s.started (qKey ctx q) d with until_ := if d32 d 0x20 = 0 then 0 else s.gcnt + d32 d 0x20 * 100 }) :
    exec (.fenceWait ctx q) s = .next ((s.entered (qKey ctx q) d f).pollFence f) := by
  have hstart := State.startCmd_of_starts (f := f) (act := noAct) (check := fenceCheck) (blocked := notBlocked)
    (go := fun s f _ => (s, { f with until_ := if d32 f.desc 0x20 = 0 then 0 else s.gcnt + d32 f.desc 0x20 * 100 }))
    (fin := id) hstarts (if_pos haligned) rfl (by rw [hf]; rfl) (by rw [hf]; rfl)
  have hwait : (s.entered (qKey ctx q) d f).waitOf (qKey ctx q) = some f := by
    rw [State.waitOf, State.flightIn, State.flightsOf_entered d (by rw [hf]; rfl), hempty]
    obtain ⟨-, hop, -, -⟩ := hstarts
    simp [hf, State.started, hop]
  have hnow : f.start = (s.entered (qKey ctx q) d f).gcnt := by rw [hf]; rfl
  show execFenceWait ctx q s = _
  unfold execFenceWait
  dsimp only
  rw [hstart, id, hwait]
  exact congrArg _ (if_pos hnow)

/-- Settles O18: a wait's start reads its fence, each read has one of four outcomes, and a wait's time passes or not. -/
theorem fenceWaits : Obligations.FenceWaits := by
  unfold Obligations.FenceWaits
  refine ⟨?start, ?read, ?fault, ?timeout⟩
  case start =>
    intro ctx q d f s _ hstarts hempty haligned hf
    exact exec_fenceWait_of_starts hstarts hempty haligned hf
  case read =>
    intro ctx q f bs s hwait hread
    rw [exec_fencePoll_of_wait hwait]
    exact ⟨fun herr => congrArg _ (State.pollFence_of_ends hread (fenceFinds_error _ herr)),
      fun hok hv => congrArg _ (State.pollFence_of_ends hread (fenceFinds_reached hok hv)),
      fun hok hv => congrArg _ (State.pollFence_of_goesOn hread (fenceFinds_low hok hv))⟩
  case fault =>
    intro ctx q st addr f s hwait hread
    rw [exec_fencePoll_of_wait hwait, State.pollFence_of_fault hread]
  case timeout =>
    intro ctx q f s hwait
    exact ⟨exec_fenceTimeout_due hwait, exec_fenceTimeout_early hwait⟩

end Sys2Proof.Machine
end

section
/-! What a pre-emption leaves: the queues, and every attempt but the killed one, which waits again (R146, R173). -/

namespace Sys2Proof.Machine

/-- The queues and the attempts are the same in two states. -/
structure State.SameWork (s t : State) : Prop where
  queues : t.queues = s.queues
  flights : t.flights = s.flights

namespace State.SameWork

theorem refl (s : State) : s.SameWork s := ⟨rfl, rfl⟩

/-- What comes first stands last, in the order the model writes the steps of an operation. -/
theorem after {s t u : State} (k : t.SameWork u) (h : s.SameWork t) : s.SameWork u :=
  ⟨k.queues.trans h.queues, k.flights.trans h.flights⟩

/-- An update of anything but the queues and the attempts. -/
theorem update {s : State}
    {pending' csr' mem' m' t' pw' img' brg' sec' tst' confReached' fn' msix' pba' sent' geyLatch' reqs' reqNext' move'
      foMoves' lastCpl' lastLink' tensors' seqs' vtime' wasReady' lastQ' readyAt' aged' stepNo' ceJoin' ceJoinG'
      epochUse' epochC1' lastEpoch' acct' frac' energyK' calTime' calUj' resident' region' cores' emb' arrays' vis'
      eqx' heads' ports' fresh' data'} :
    s.SameWork ⟨pending', csr', mem', m', t', pw', img', brg', sec', tst', confReached', fn', msix', pba', sent',
      geyLatch', reqs', reqNext', move', foMoves', lastCpl', lastLink', s.queues, tensors', seqs', s.flights, vtime',
      wasReady', lastQ', readyAt', aged', stepNo', ceJoin', ceJoinG', epochUse', epochC1', lastEpoch', acct', frac',
      energyK', calTime', calUj', resident', region', cores', emb', arrays', vis', eqx', heads', ports', fresh',
      data'⟩ :=
  ⟨rfl, rfl⟩

theorem ite {c : Prop} [Decidable c] {s a b : State} (ha : s.SameWork a) (hb : s.SameWork b) :
    s.SameWork (if c then a else b) := by split <;> assumption

theorem each {α : Type} {g : State → α → State} {l : List α} {s : State}
    (hg : ∀ (s : State) (x : α), s.SameWork (g s x)) :
    s.SameWork (s.each l g) :=
  List.foldlRecOn l g (.refl s) fun _ ht x _ => (hg _ x).after ht

theorem wr {s : State} {f : Fld} {u v : Nat} : s.SameWork (s.wr f u v) := .update

theorem of_irq {s t : State} (h : OnlyRegsIrq s t []) : s.SameWork t :=
  ⟨(congrArg State.queues h.1 :), (congrArg State.flights h.1 :)⟩

theorem fire {s : State} {n : Nat} : s.SameWork (s.fire n) := .of_irq (fire_frame s n)

theorem fireIf {s : State} {c : Bool} {n : Nat} : s.SameWork (s.fireIf c n) := .of_irq (fireIf_frame s c n)

/-! ## Memory -/

theorem pcState {s : State} {pc st : Nat} : s.SameWork (s.pcState pc st) := .ite (.refl _) (.after .fire .wr)

theorem startRetire {s : State} {pc : Nat} : s.SameWork (s.startRetire pc) :=
  .ite (.after .wr <| .after .wr <| .after .pcState .update) .wr

theorem nextRetire {s : State} : s.SameWork s.nextRetire := by
  unfold State.nextRetire
  split
  · exact .refl _
  split
  · exact .refl _
  · exact .after .startRetire <| .after .wr .update

theorem wantRetire {s : State} {pc : Nat} : s.SameWork (s.wantRetire pc) :=
  .ite (.refl _) (.after .nextRetire .update)

theorem retireFrame {s : State} {n : Nat} : s.SameWork (s.retireFrame n) := by
  unfold State.retireFrame
  dsimp only
  split
  · split
    · split
      · exact .after .wantRetire <| .after .update <| .after .fire .update
      · exact .after .update <| .after .fire .update
    · exact .after .update <| .after .fire .update
  · exact .after .update <| .after .fire .update

theorem releaseFrames {s : State} {n k : Nat} : s.SameWork (s.releaseFrames n k) :=
  .each fun _ _ => .ite .retireFrame .update

theorem freeBytes {s : State} {ctx va n : Nat} : s.SameWork (s.freeBytes ctx va n) := by
  induction n generalizing s va with
  | zero => exact .refl _
  | succ n ih =>
    unfold State.freeBytes
    split
    · exact .after ih .update
    · exact ih

/-! ## What an attempt holds -/

theorem abortOuts {s : State} {f : Flight} : s.SameWork (s.abortOuts f) :=
  .ite (.refl _) (.each fun _ _ => .ite (.after (.ite .freeBytes (.refl _)) .update) (.refl _))

theorem freeSlots {s : State} {f : Flight} : s.SameWork (s.freeSlots f) :=
  .each fun _ _ => .after .update (.each fun _ _ => .wr)

theorem embPerf {s : State} {i n : Nat} : s.SameWork (s.embPerf i n) := .after .fireIf .wr

theorem freeEmber {s : State} {f : Flight} {killed : Bool} : s.SameWork (s.freeEmber f killed) :=
  .ite (.after (.ite (.after .fire .wr) (.refl _)) <| .after (.ite .embPerf (.refl _)) <|
    .after (.each fun _ _ => .update) .update) (.refl _)

theorem visState {s : State} {l st : Nat} : s.SameWork (s.visState l st) := .ite (.refl _) (.after .fire .wr)

theorem laneSettle {s : State} {l : Nat} : s.SameWork (s.laneSettle l) := by
  have hidle : s.SameWork (if (s.lane l).unbind && s.laneEmpty l then
      ((s.wr .VIS_CTRL_ENABLE l 0).setLane l { s.lane l with unbind := false }).visState l 1
    else if s.rd .VIS_STATUS_STATE l = 2 ∧ s.rd .VIS_CTRL_ENABLE l = 0 ∧ s.rd .VIS_STATUS_BUSY l = 0 then
      s.visState l 1 else s) :=
    .ite (.after .visState .update) (.ite .visState (.refl _))
  unfold State.laneSettle
  dsimp only
  split
  · exact .refl _
  split
  · exact .after (.ite (.refl _) .update) hidle
  · exact hidle

theorem freeLane {s : State} {f : Flight} : s.SameWork (s.freeLane f) := by
  unfold State.freeLane
  split
  · exact .refl _
  · exact .after .laneSettle <| .after .update <| .after .wr (.each fun _ _ => .wr)

theorem freeRingSlot {s : State} {f : Flight} : s.SameWork (s.freeRingSlot f) := .ite .update (.refl _)

theorem dropReqs {s : State} {f : Flight} : s.SameWork (s.dropReqs f) :=
  .after (.ite .update (.refl _)) <| .after (.each fun _ _ => .after .update .releaseFrames) <|
    .after .update <| .after .freeRingSlot <| .after .freeLane .freeEmber

/-! ## A step's own writes -/

theorem fillSlot {s : State} {gq e i : Nat} {f : Flight} : s.SameWork (s.fillSlot gq e i f) := .update

end State.SameWork

end Sys2Proof.Machine
end

section
/-! Weight residency (R169, R170): it moves the residents and raises HOT_EVICTED, and nothing else. -/

namespace Sys2Proof.Machine

/-- `t` is `s` but for the resident weight tiles and for what raising interrupt sources moves. -/
def State.SameButResidents (s t : State) : Prop := OnlyRegsIrq s { t with resident := s.resident } []

namespace State.SameButResidents

theorem after {s t u : State} (k : t.SameButResidents u) (h : s.SameButResidents t) : s.SameButResidents u := by
  refine ⟨?_, fun f n hf hirq => (k.2 f n hf hirq).trans (h.2 f n hf hirq)⟩
  have hst := h.1
  have htu := k.1
  rw [← hst, ← htu]

theorem update {s : State} {r : List Resident} : s.SameButResidents { s with resident := r } := .refl s

theorem fireIf {s : State} {c : Bool} {n : Nat} : s.SameButResidents (s.fireIf c n) := by
  have hframe := fireIf_frame s c n
  have hres : (s.fireIf c n).resident = s.resident := (congrArg State.resident hframe.1 :)
  unfold State.SameButResidents
  rwa [← hres]

theorem makeRoom {s : State} {e : Nat} {keep : Nat × Nat} {need fuel : Nat} :
    s.SameButResidents (s.makeRoom e keep need fuel) := by
  induction fuel generalizing s with
  | zero => exact .update
  | succ fuel ih =>
    unfold State.makeRoom
    dsimp only
    split
    · exact .update
    split
    · exact .update
    · exact .after ih <| .after .fireIf .update

theorem reside {s : State} {e p m : Nat} {fr : List Nat} : s.SameButResidents (s.reside e p m fr) := by
  unfold State.reside
  split
  · exact .update
  · exact .after .update .makeRoom

theorem sameWork {s t : State} (h : s.SameButResidents t) : s.SameWork t :=
  ⟨(congrArg State.queues h.1 :), (congrArg State.flights h.1 :)⟩

theorem mem_eq {s t : State} (h : s.SameButResidents t) : t.mem = s.mem := (congrArg State.mem h.1 :)

theorem rd_eq {s t : State} (h : s.SameButResidents t) {f : Fld} (u : Nat) (hf : f ∉ irqFields) :
    t.rd f u = s.rd f u := h.2 f u (by simp) hf

end State.SameButResidents

end Sys2Proof.Machine
end

section
/-! What a placement does to queues and attempts, and where the new attempts stand (R166, R168, R173, R176). -/

namespace Sys2Proof.Machine

/-! ## Lists in order -/

theorem mem_insertBy {α : Type} {le : α → α → Bool} {x y : α} {l : List α} : y ∈ insertBy le x l ↔ y = x ∨ y ∈ l := by
  induction l with
  | nil => simp [insertBy]
  | cons z l ih =>
    unfold insertBy
    split
    · simp
    · simp only [List.mem_cons, ih]
      tauto

theorem mem_sortBy {α : Type} {le : α → α → Bool} {y : α} {l : List α} : y ∈ sortBy l le ↔ y ∈ l := by
  induction l with
  | nil => simp [sortBy]
  | cons x l ih => rw [sortBy, List.foldr_cons, mem_insertBy, ← sortBy, ih, List.mem_cons]

/-! ## New attempts -/

/-- From `s` to `t` no command completes, and every attempt is one of before or has the property. -/
structure State.Adds (s : State) (P : Flight → Prop) (t : State) : Prop where
  flights : ∀ f ∈ t.flights, f ∈ s.flights ∨ P f
  queues : ∀ gq, (t.queue gq).cqTail = (s.queue gq).cqTail ∧ (t.queue gq).sqNext = (s.queue gq).sqNext ∧
    (t.queue gq).st = (s.queue gq).st

namespace State.Adds

variable {P Q : Flight → Prop}

theorem after {s t u : State} (k : t.Adds P u) (h : s.Adds P t) : s.Adds P u where
  flights f hf := (k.flights f hf).elim (h.flights f) .inr
  queues gq := by
    obtain ⟨htail, hnext, hst⟩ := h.queues gq
    obtain ⟨ktail, knext, kst⟩ := k.queues gq
    exact ⟨ktail.trans htail, knext.trans hnext, kst.trans hst⟩

theorem mono {s t : State} (hPQ : ∀ f, P f → Q f) (h : s.Adds P t) : s.Adds Q t :=
  ⟨fun f hf => (h.flights f hf).imp_right (hPQ f), h.queues⟩

theorem of_sameWork {s t : State} (h : s.SameWork t) : s.Adds P t where
  flights _ hf := .inl (h.flights ▸ hf)
  queues gq := by simp [State.queue, h.queues]

theorem refl (s : State) : s.Adds P s := .of_sameWork (.refl s)

theorem each {α : Type} {g : State → α → State} {l : List α} {s : State}
    (hg : ∀ (s : State), ∀ x ∈ l, s.Adds P (g s x)) :
    s.Adds P (s.each l g) :=
  List.foldlRecOn l g (.refl s) fun _ ht x hx => (hg _ x hx).after ht

theorem setFlight {s : State} {f : Flight} (hf : P f) : s.Adds P (s.setFlight f) where
  flights g hg := by
    obtain ⟨e, he, rfl⟩ := List.mem_map.1 hg
    split
    · exact .inr hf
    · exact .inl he
  queues _ := ⟨rfl, rfl, rfl⟩

theorem enter {s : State} {gq : Nat} {c : Cand} {f : Flight} (hf : P f) : s.Adds P (s.enter gq c f) := by
  unfold State.enter
  split
  · exact .setFlight hf
  · refine ⟨fun g hg => ?_, fun g => ?_⟩
    · obtain hg | hg := List.mem_append.1 hg
      · exact .inl hg
      · exact .inr (List.mem_singleton.1 hg ▸ hf)
    · obtain rfl | hne := eq_or_ne g gq
      · rw [State.queue_setQueue_same]
        exact ⟨rfl, rfl, rfl⟩
      · rw [State.queue_setQueue_ne _ _ hne]
        exact ⟨rfl, rfl, rfl⟩

end State.Adds

/-! ## Pre-emption at placement (R173) -/

theorem State.Adds.preempt {s : State} {f : Flight} {strike : Bool} :
    s.Adds (fun g => g.phase = .waiting) (s.preempt f strike) :=
  .after (.setFlight rfl) <| .of_sameWork <| .after .dropReqs <| .after .freeSlots <| .after .abortOuts <|
    .each fun _ _ => .after .wr .wr

theorem State.Adds.displace {s : State} {ctx cls : Nat} {ip : Bool} {fr : List Nat} :
    s.Adds (fun g => g.phase = .waiting) (s.displace ctx cls ip fr) := by
  unfold State.displace
  dsimp only
  split
  · split
    · exact .refl _
    split
    · exact .refl _
    split
    · exact .preempt
    · exact .refl _
  split
  · split
    · exact .refl _
    split
    · exact .preempt
    · exact .refl _
  · exact .refl _

/-- Only classes 0 and 1 kill to start. -/
theorem State.displace_of_two_le (s : State) {ctx cls : Nat} (ip : Bool) (fr : List Nat) (h : 2 ≤ cls) :
    s.displace ctx cls ip fr = s := by
  unfold State.displace
  rw [if_neg (by omega), if_neg (by omega)]

/-! ## Candidates -/

/-- The earlier attempt of a candidate is an attempt of its queue, at its slot. -/
theorem State.candidate_prior {s : State} {gq : Nat} {c : Cand} {f : Flight} (hc : s.candidate gq = some (.ok c))
    (hf : c.prior = some f) : f ∈ s.flights ∧ f.gq = gq ∧ f.slot = c.slot := by
  unfold State.candidate at hc
  dsimp only at hc
  split at hc
  · cases hc
  split at hc
  · next g hfind =>
    have hg : g ∈ s.flights ∧ g.gq = gq := by
      simpa [State.flightsOf] using List.mem_of_find?_eq_some hfind
    split at hc
    · cases hc
    · cases hc
      cases hf
      exact ⟨hg.1, hg.2, rfl⟩
  split at hc
  · cases hc
  split at hc
  · cases hc
  · cases hc
  · cases hc
    cases hf

theorem State.candidate_of_readyStep {s : State} {gq : Nat} {c : Cand} (h : s.readyStep gq = some c) :
    s.candidate gq = some (.ok c) := by
  unfold State.readyStep at h
  split at h
  · next hc =>
    split at h
    · cases h
      exact hc
    · cases h
  · cases h

theorem State.candFlight_of_readyStep {s : State} {gq : Nat} {c : Cand} (h : s.readyStep gq = some c) (t : State) :
    (candFlight t gq c).gq = gq ∧ (candFlight t gq c).slot = c.slot := by
  unfold candFlight
  split
  · next f hf =>
    obtain ⟨-, hgq, hslot⟩ := s.candidate_prior (s.candidate_of_readyStep h) hf
    exact ⟨hgq, hslot⟩
  · exact ⟨rfl, rfl⟩

/-! ## The members of a step and its Calderas -/

/-- The members of a step are ready, of the class of the first and of its partition (R166). -/
theorem State.mem_stepMembers {s : State} {gq : Nat} {c : Cand} {m : Nat × Cand} (hc : s.readyStep gq = some c)
    (hm : m ∈ s.stepMembers gq c) :
    s.readyStep m.1 = some m.2 ∧ (s.queue m.1).cls = (s.queue gq).cls ∧
      s.partOf (gqCtx m.1) = s.partOf (gqCtx gq) := by
  unfold State.stepMembers at hm
  dsimp only at hm
  split at hm
  · obtain rfl := List.mem_singleton.1 hm
    exact ⟨hc, rfl, rfl⟩
  obtain rfl | hm := List.mem_cons.1 (List.mem_of_mem_take hm)
  · exact ⟨hc, rfl, rfl⟩
  obtain ⟨g, -, hg⟩ := List.mem_filterMap.1 hm
  split at hg
  · cases hg
  next k hk =>
    split at hg
    · next hjoins =>
      cases hg
      simp only [Bool.and_eq_true, beq_iff_eq] at hjoins
      obtain ⟨⟨⟨⟨-, hcls⟩, hpart⟩, -⟩, -⟩ := hjoins
      exact ⟨hk, hcls, hpart⟩
    · cases hg

/-- The chosen Calderas are eligible and have the free slots that are asked for. -/
theorem State.mem_chooseCes {s : State} {ctx cls P k : Nat} {ip : Bool} {fr es : List Nat}
    (h : s.chooseCes ctx cls P k ip fr = some es) {e : Nat} (he : e ∈ es) :
    e ∈ s.eligibleCes ctx cls ip ∧ k ≤ (s.freeSlotsOf e).length := by
  unfold State.chooseCes at h
  dsimp only at h
  split at h
  · cases h
  cases h
  have hfree := mem_sortBy.1 (List.mem_of_mem_take (mem_sortBy.1 he))
  exact ⟨(List.mem_filter.1 hfree).1, of_decide_eq_true (List.mem_filter.1 hfree).2⟩

/-- An in-place step may run only where any other step of its context and class may (R172). -/
theorem State.eligibleCes_notInPlace {s : State} {ctx cls e : Nat} {ip : Bool} (he : e ∈ s.eligibleCes ctx cls ip) :
    e ∈ s.eligibleCes ctx cls false := by
  cases ip with
  | false => exact he
  | true =>
    unfold State.eligibleCes at he ⊢
    dsimp only at he
    rw [if_pos rfl] at he
    split at he
    · cases he
    · exact List.mem_of_mem_filter he

/-- From class 2 up a step runs on Calderas in service that are shared or its partition's own (R176). -/
theorem State.eligibleCes_partition {s : State} {ctx cls e : Nat} {ip : Bool} (hcls : 2 ≤ cls)
    (he : e ∈ s.eligibleCes ctx cls ip) :
    e ∈ s.inService ∧ (s.rd .SCH_CE_STATUS_DEDICATED e = 0 ∨ s.rd .SCH_CE_STATUS_PARTITION e = s.partOf ctx) := by
  have hnot0 : ¬(ctx = pf0 ∧ cls = 0) := by omega
  have hnot1 : ¬(ctx = pf0 ∧ cls = 1) := by omega
  have hbase := s.eligibleCes_notInPlace he
  simp only [State.eligibleCes, if_neg hnot0, if_neg hnot1, Bool.false_eq_true, if_false] at hbase
  split at hbase
  · obtain ⟨hin, hded⟩ := List.mem_filter.1 hbase
    exact ⟨hin, .inl (of_decide_eq_true hded)⟩
  · simp only [List.mem_filter, Bool.and_eq_true, beq_iff_eq] at hbase
    obtain ⟨hin, -, hpart⟩ := hbase
    exact ⟨hin, .inr hpart⟩

/-! ## Placing a step -/

theorem State.Adds.placeOne {s : State} {gq : Nat} {c : Cand} {es : List Nat} {k : Nat}
    (hgq : ∀ t, (candFlight t gq c).gq = gq) :
    s.Adds (fun f => f.gq = gq ∧ ∀ x ∈ f.slots, x.1 ∈ es) (s.placeOne gq c es k) := by
  refine .after (.of_sameWork .update) <| .after (.enter ⟨hgq s, fun x hx => ?_⟩) <|
    .of_sameWork (.each fun _ _ => .fillSlot)
  obtain ⟨e, he, hx⟩ := List.mem_flatMap.1 hx
  obtain ⟨i, -, rfl⟩ := List.mem_map.1 hx
  exact he

/-- A step that is placed is a ready one, and takes Calderas chosen as the state stands or after a kill of its own. -/
theorem State.placeStep_eq_some {s t : State} {gq : Nat} {late : Bool} (h : s.placeStep gq late = some t) :
    ∃ c u ip fr P k j es, s.readyStep gq = some c ∧ (u = s ∨ u = s.displace (gqCtx gq) (s.queue gq).cls ip fr) ∧
      u.chooseCes (gqCtx gq) (u.queue gq).cls P k ip fr = some es ∧
      t = (State.each { u with stepNo := u.stepNo + 1 } (s.stepMembers gq c)
        fun s m => s.placeOne m.1 m.2 es j).each es fun s e =>
          s.reside e (s.partOf (gqCtx gq)) (dModel c.desc) fr := by
  unfold State.placeStep at h
  split at h
  · cases h
  next c hc =>
    dsimp only at h
    split at h
    · cases h
    obtain ⟨es, hes, rfl⟩ := Option.map_eq_some_iff.1 h
    exact ⟨c, _, _, _, _, _, _, es, hc, ite_eq_or_eq _ _ _, hes, rfl⟩

/-- An attempt of a tenant's class 2-7 queue that is placed stands only on Calderas that are in service, and shared
or dedicated to the tenant's partition. -/
def State.InOwnPartition (s : State) (f : Flight) : Prop :=
  f.phase = .placed → gqCtx f.gq < 512 → 2 ≤ (s.queue f.gq).cls → ∀ x ∈ f.slots,
    x.1 ∈ s.inService ∧ (s.rd .SCH_CE_STATUS_DEDICATED x.1 = 0 ∨
      s.rd .SCH_CE_STATUS_PARTITION x.1 = s.partOf (gqCtx f.gq))

/-- What a step's members take stands in their partition: below class 2 nothing is said, and from class 2 up no kill
comes first, so that the Calderas are chosen as the state stands. -/
theorem State.inOwnPartition_of_member {s u : State} {gq P k : Nat} {c : Cand} {ip : Bool} {fr es : List Nat}
    (hc : s.readyStep gq = some c) (hu : u = s ∨ u = s.displace (gqCtx gq) (s.queue gq).cls ip fr)
    (hes : u.chooseCes (gqCtx gq) (u.queue gq).cls P k ip fr = some es) {m : Nat × Cand}
    (hm : m ∈ s.stepMembers gq c) {f : Flight} (hf : f.gq = m.1 ∧ ∀ x ∈ f.slots, x.1 ∈ es) : s.InOwnPartition f := by
  intro _ _ hcls x hx
  obtain ⟨-, hsame, hpart⟩ := s.mem_stepMembers hc hm
  obtain ⟨hgq, hslots⟩ := hf
  rw [hgq, hsame] at hcls
  obtain rfl : u = s := hu.elim id fun hu => hu.trans (s.displace_of_two_le ip fr hcls)
  rw [hgq, hpart]
  exact State.eligibleCes_partition hcls (State.mem_chooseCes hes (hslots x hx)).1

theorem State.placeStep_adds {s t : State} {gq : Nat} {late : Bool} (h : s.placeStep gq late = some t) :
    s.Adds s.InOwnPartition t := by
  obtain ⟨c, u, ip, fr, P, k, j, es, hc, hu, hes, rfl⟩ := s.placeStep_eq_some h
  have hkill : s.Adds s.InOwnPartition u := by
    obtain rfl | rfl := hu
    · exact .refl _
    · exact .mono (fun f hwait hplaced => by simp [hwait] at hplaced) .displace
  refine .after (.each fun _ _ _ => .of_sameWork State.SameButResidents.reside.sameWork) <|
    .after (.each fun v m hm => ?_) <| .after (.of_sameWork .update) hkill
  have hready := (s.mem_stepMembers hc hm).1
  exact .mono (fun f hf => State.inOwnPartition_of_member hc hu hes hm hf)
    (.placeOne fun w => (State.candFlight_of_readyStep hready w).1)

/-- The first step that can be placed, if any, adds only attempts in their own partition. -/
theorem State.placeFirst_adds (s : State) (qs : List Nat) (late : Bool) :
    s.Adds s.InOwnPartition ((qs.findSome? fun gq => s.placeStep gq late).getD s) := by
  cases hfirst : qs.findSome? fun gq => s.placeStep gq late with
  | none => exact .refl s
  | some t =>
    obtain ⟨gq, -, hplace⟩ := List.exists_of_findSome?_eq_some hfirst
    exact s.placeStep_adds hplace

end Sys2Proof.Machine
end

section
/-! BATCH_STEP_PLACE and BATCH_WAIT_EXPIRY: what they do with no ready queue, and with one step of one slot
(R166, R168). -/

namespace Sys2Proof.Machine

/-! ## The scheduler's own times -/

/-- `t` is `s` but for virtual times and the times of readiness and aging (R163, R164). -/
def State.SameButTimes (s t : State) : Prop :=
  { t with vtime := s.vtime, wasReady := s.wasReady, readyAt := s.readyAt, aged := s.aged } = s

namespace State.SameButTimes

theorem after {s t u : State} (k : t.SameButTimes u) (h : s.SameButTimes t) : s.SameButTimes u := by
  unfold State.SameButTimes at h k ⊢
  rw [← h, ← k]

theorem each {α : Type} {g : State → α → State} {l : List α} {s : State}
    (hg : ∀ (s : State) (x : α), s.SameButTimes (g s x)) :
    s.SameButTimes (s.each l g) :=
  List.foldlRecOn l g (rfl : s.SameButTimes s) fun _ ht x _ => (hg _ x).after ht

theorem noteReady (s : State) : s.SameButTimes s.noteReady := by
  unfold State.noteReady
  refine .after (.each fun v gq => ?_) <| .after (rfl : State.SameButTimes (State.each s _ _) _) <| .each fun v k => ?_
  · split <;> rfl
  · split <;> rfl

section
variable {s t : State} (h : s.SameButTimes t)
include h

theorem ldBytes_eq (ctx va n : Nat) : t.ldBytes ctx va n = s.ldBytes ctx va n := by
  have hbyte (x : Nat) : t.ldByte ctx x = s.ldByte ctx x := (congrArg (fun v : State => v.ldByte ctx x) h :)
  induction n generalizing va with
  | zero => rfl
  | succ n ih => rw [State.ldBytes, State.ldBytes, hbyte, ih]

theorem queue_eq (gq : Nat) : t.queue gq = s.queue gq := (congrArg (fun v : State => v.queue gq) h :)

theorem fetchDesc_eq (gq k : Nat) : t.fetchDesc gq k = s.fetchDesc gq k := by
  have heqx : t.eqx = s.eqx := (congrArg State.eqx h :)
  simp only [State.fetchDesc, h.queue_eq, heqx, h.ldBytes_eq]

theorem candidate_eq (gq : Nat) : t.candidate gq = s.candidate gq := by
  have hrd (f : Fld) (u : Nat) : t.rd f u = s.rd f u := State.rd_congr (congrArg State.csr h :) f u
  have hready : t.ready = s.ready := (congrArg State.ready h :)
  have himg : t.img = s.img := (congrArg State.img h :)
  have hbrg : t.brg = s.brg := (congrArg State.brg h :)
  have hpart : t.partOf = s.partOf := (congrArg State.partOf h :)
  have hflights : t.flightsOf gq = s.flightsOf gq := (congrArg (fun v : State => v.flightsOf gq) h :)
  have hheld : t.ringHeld = s.ringHeld := (congrArg State.ringHeld h :)
  simp only [State.candidate, h.queue_eq, hrd, hready, himg, hbrg, hpart, hflights, hheld, h.fetchDesc_eq]

theorem readyStep_eq (gq : Nat) : t.readyStep gq = s.readyStep gq := by
  have hstart : t.mayStart gq = s.mayStart gq := (congrArg (fun v : State => v.mayStart gq) h :)
  rw [State.readyStep, State.readyStep, h.candidate_eq, hstart]

theorem readyQueues_eq : t.readyQueues = s.readyQueues := by
  have hqueues : t.queues = s.queues := (congrArg State.queues h :)
  simp only [State.readyQueues, hqueues, h.readyStep_eq]

theorem freeSlotsOf_eq (e : Nat) : t.freeSlotsOf e = s.freeSlotsOf e :=
  (congrArg (fun v : State => v.freeSlotsOf e) h :)

end

theorem inOwnPartition_iff {s t : State} (h : s.SameButTimes t) (f : Flight) :
    t.InOwnPartition f ↔ s.InOwnPartition f := iff_of_eq (congrArg (fun v : State => v.InOwnPartition f) h :)

theorem sameWork {s t : State} (h : s.SameButTimes t) : s.SameWork t :=
  ⟨(congrArg State.queues h :), (congrArg State.flights h :)⟩

end State.SameButTimes

/-! ## The two commands -/

/-- Both commands place the first pick that can be placed; they differ in whether BATCH_WAIT has passed. -/
theorem exec_placement {c : Instr} (hc : c = .batchStepPlace ∨ c = .batchWaitExpiry) (s : State) :
    ∃ late, exec c s =
      .next ((s.noteReady.picks.findSome? fun gq => s.noteReady.placeStep gq late).getD s.noteReady) := by
  obtain rfl | rfl := hc
  · exact ⟨false, rfl⟩
  · exact ⟨true, rfl⟩

theorem State.picks_noteReady (s : State) {gqs : List Nat} (h : s.readyQueues = gqs) (hlen : gqs.length ≤ 1) :
    s.noteReady.picks = gqs := by
  rw [State.picks, (State.SameButTimes.noteReady s).readyQueues_eq, h]
  match gqs, hlen with
  | [], _ => rfl
  | [_], _ => rfl

/-- A placement completes no command, and its new attempts stand in their own partition. -/
theorem exec_placement_adds {c : Instr} (hc : c = .batchStepPlace ∨ c = .batchWaitExpiry) (s : State) :
    Runs c s (s.Adds s.InOwnPartition) := by
  obtain ⟨late, hexec⟩ := exec_placement hc s
  have htimes := State.SameButTimes.noteReady s
  exact ⟨_, hexec, .after (.mono (fun f => (htimes.inOwnPartition_iff f).1) (s.noteReady.placeFirst_adds _ late))
    (.of_sameWork htimes.sameWork)⟩

theorem exec_placement_of_readyQueues_nil {c : Instr} (hc : c = .batchStepPlace ∨ c = .batchWaitExpiry) {s : State}
    (h : s.readyQueues = []) : exec c s = .next s.noteReady := by
  obtain ⟨late, hexec⟩ := exec_placement hc s
  rw [hexec, s.picks_noteReady h (Nat.zero_le 1)]
  rfl

/-! ## A step of one slot -/

@[simp] theorem State.enter_csr (s : State) (gq : Nat) (c : Cand) (f : Flight) : (s.enter gq c f).csr = s.csr := by
  unfold State.enter
  split <;> rfl

@[simp] theorem State.enter_mem (s : State) (gq : Nat) (c : Cand) (f : Flight) : (s.enter gq c f).mem = s.mem := by
  unfold State.enter
  split <;> rfl

theorem State.mem_flights_enter {s : State} {gq : Nat} {c : Cand} {f : Flight}
    (hprior : ∀ g, c.prior = some g → g ∈ s.flights ∧ g.gq = f.gq ∧ g.slot = f.slot) :
    f ∈ (s.enter gq c f).flights := by
  unfold State.enter
  split
  · next g hg =>
    obtain ⟨hmem, hsame⟩ := hprior g hg
    exact List.mem_map.2 ⟨g, hmem, if_pos hsame⟩
  · exact List.mem_append_right _ (List.mem_singleton.2 rfl)

/-- A slot's register shows its new occupant, as wide as its fields are. -/
theorem State.fillSlot_shows (s : State) (gq e i : Nat) (f : Flight) :
    (s.fillSlot gq e i f).rd .CE_SLOT_STATE (e * 32 + i) = 1 ∧
      (s.fillSlot gq e i f).rd .CE_SLOT_CLASS (e * 32 + i) = (s.queue gq).cls % 8 ∧
      (s.fillSlot gq e i f).rd .CE_SLOT_QUEUE (e * 32 + i) = gq % 512 := by
  refine ⟨?_, ?_, ?_⟩
  · calc
      _ = 1 % 2 ^ Fld.CE_SLOT_STATE.info.width := by simp [State.fillSlot]
      _ = 1 := rfl
  · calc
      _ = (s.queue gq).cls % 2 ^ Fld.CE_SLOT_CLASS.info.width := by simp [State.fillSlot]
      _ = (s.queue gq).cls % 8 := rfl
  · calc
      _ = gq % 512 % 2 ^ Fld.CE_SLOT_QUEUE.info.width := by simp [State.fillSlot]
      _ = gq % 512 := Nat.mod_mod gq 512

/-- The attempt of a step that takes slot `i` of Caldera `e` alone. -/
def State.placedAt (s : State) (gq : Nat) (c : Cand) (e i : Nat) : Flight :=
  { candFlight s gq c with phase := .placed, slots := [(e, i)], step := s.stepNo }

/-- Of one Caldera a step that needs one slot takes the lowest free one. -/
theorem State.placeOne_single {s : State} {gq e i : Nat} {c : Cand} (hi : (s.freeSlotsOf e).head? = some i) :
    ∃ lastQ' readyAt' aged', s.placeOne gq c [e] 1 =
      { (s.fillSlot gq e i (s.placedAt gq c e i)).enter gq c (s.placedAt gq c e i) with
        lastQ := lastQ', readyAt := readyAt', aged := aged' } := by
  have hslots : ([e].flatMap fun e => ((s.freeSlotsOf e).take 1).map fun i => (e, i)) = [(e, i)] := by
    simp [List.take_one, hi]
  simp only [State.placeOne, hslots, State.each, List.foldl_cons, List.foldl_nil]
  exact ⟨_, _, _, rfl⟩

/-- The state in which a step is placed: the step has a number. -/
def State.numbered (s : State) : State := { s with stepNo := s.stepNo + 1 }

/-- A ready step that no other can join and that needs one slot goes to the Caldera that is chosen. -/
theorem State.placeStep_single {s : State} {gq e : Nat} {c : Cand} (hready : s.readyStep gq = some c)
    (hjoins : c.joins = false) (hparts : partsOf c.desc = (1, 1))
    (hces : s.chooseCes (gqCtx gq) (s.queue gq).cls 1 1 (dInPlace c.desc)
      (s.weightFrames (gqCtx gq) c.desc) = some [e]) :
    ∃ p m fr, s.placeStep gq false = some ((s.numbered.placeOne gq c [e] 1).reside e p m fr) := by
  have halone : s.stepMembers gq c = [(gq, c)] := by simp [State.stepMembers, hjoins]
  have hnow : s.stepWaits gq c 1 = false := by simp [State.stepWaits, hjoins]
  refine ⟨(s.numbered.placeOne gq c [e] 1).partOf (gqCtx gq), dModel c.desc, s.weightFrames (gqCtx gq) c.desc, ?_⟩
  simp only [State.placeStep, hready, halone, List.length_singleton, hnow, Bool.false_and, Bool.or_self,
    Bool.false_eq_true, if_false, hparts, ite_self, if_true, hces, Option.isSome_some, Option.map_some,
    State.each, List.foldl_cons, List.foldl_nil, State.numbered]

/-- From `s` to `t` the command of a candidate has taken the lowest free slot of a Caldera, slot `i`. -/
structure State.TakesSlot (s : State) (gq : Nat) (c : Cand) (e i : Nat) (t : State) : Prop where
  lowest : (s.freeSlotsOf e).head? = some i
  state : t.rd .CE_SLOT_STATE (e * 32 + i) = 1
  cls : t.rd .CE_SLOT_CLASS (e * 32 + i) = (s.queue gq).cls % 8
  queue : t.rd .CE_SLOT_QUEUE (e * 32 + i) = gq % 512
  attempt : ∃ f ∈ t.flights, f.gq = gq ∧ f.slot = c.slot ∧ f.phase = .placed ∧ f.slots = [(e, i)]
  mem : t.mem = s.mem

theorem State.TakesSlot.placeOne {s : State} {gq e i : Nat} {c : Cand} (hready : s.readyStep gq = some c)
    (hi : (s.freeSlotsOf e).head? = some i) : s.TakesSlot gq c e i (s.numbered.placeOne gq c [e] 1) := by
  have hfree : (s.numbered.freeSlotsOf e).head? = some i := hi
  obtain ⟨lastQ', readyAt', aged', hplace⟩ := State.placeOne_single (c := c) (gq := gq) hfree
  rw [hplace]
  have hrd := State.rd_congr (State.enter_csr (s.numbered.fillSlot gq e i (s.numbered.placedAt gq c e i)) gq c
    (s.numbered.placedAt gq c e i))
  obtain ⟨hstate, hcls, hqueue⟩ := s.numbered.fillSlot_shows gq e i (s.numbered.placedAt gq c e i)
  obtain ⟨hgq, hslot⟩ := State.candFlight_of_readyStep hready s.numbered
  refine ⟨hi, (hrd _ _).trans hstate, (hrd _ _).trans hcls, (hrd _ _).trans hqueue,
    ⟨s.numbered.placedAt gq c e i, State.mem_flights_enter fun g hg => ?_, hgq, hslot, rfl, rfl⟩, State.enter_mem ..⟩
  obtain ⟨hmem, kgq, kslot⟩ := s.candidate_prior (s.candidate_of_readyStep hready) hg
  exact ⟨hmem, kgq.trans hgq.symm, kslot.trans hslot.symm⟩

theorem State.TakesSlot.reside {s t : State} {gq e i p m ce : Nat} {c : Cand} {fr : List Nat}
    (h : s.TakesSlot gq c e i t) :
    s.TakesSlot gq c e i (t.reside ce p m fr) := by
  have hres : t.SameButResidents (t.reside ce p m fr) := .reside
  exact ⟨h.lowest, (hres.rd_eq _ (by decide)).trans h.state, (hres.rd_eq _ (by decide)).trans h.cls,
    (hres.rd_eq _ (by decide)).trans h.queue, hres.sameWork.flights ▸ h.attempt, hres.mem_eq.trans h.mem⟩

/-- The only ready step, when it needs one slot and has a Caldera, takes the lowest free slot of the Caldera. -/
theorem exec_batchStepPlace_single {gq e : Nat} {c : Cand} {s : State} (hqueues : s.readyQueues = [gq])
    (hready : s.noteReady.readyStep gq = some c) (hjoins : c.joins = false) (hparts : partsOf c.desc = (1, 1))
    (hces : s.noteReady.chooseCes (gqCtx gq) (s.noteReady.queue gq).cls 1 1 (dInPlace c.desc)
      (s.noteReady.weightFrames (gqCtx gq) c.desc) = some [e]) :
    Runs .batchStepPlace s fun t => ∃ i, s.noteReady.TakesSlot gq c e i t := by
  obtain ⟨-, hroom⟩ := State.mem_chooseCes hces (List.mem_singleton.2 rfl)
  have hi := List.head?_eq_some_head (List.ne_nil_of_length_pos hroom)
  obtain ⟨p, m, fr, hplace⟩ := State.placeStep_single hready hjoins hparts hces
  have hexec : exec .batchStepPlace s = .next ((s.noteReady.numbered.placeOne gq c [e] 1).reside e p m fr) := by
    show Host.Outcome.next ((s.noteReady.picks.findSome? fun gq => s.noteReady.placeStep gq false).getD s.noteReady) = _
    rw [s.picks_noteReady hqueues le_rfl, List.findSome?_cons, hplace]
    rfl
  exact ⟨_, hexec, _, .reside (.placeOne hready hi)⟩

end Sys2Proof.Machine
end

section
/-! The claim about placements. -/

namespace Sys2Proof.Machine

/-- Settles O21: a placement adds only attempts on Calderas their tenants may use, one with no ready queue only notes
the time, and the only step of one slot goes to the lowest free slot of the Caldera that is chosen. -/
theorem placementStaysInItsPartition : Obligations.PlacementStaysInItsPartition := by
  unfold Obligations.PlacementStaysInItsPartition
  refine ⟨?partition, ?idle, ?single⟩
  case partition =>
    intro c s hc
    obtain ⟨t, hexec, hadds⟩ := exec_placement_adds hc s
    exact ⟨t, hexec, fun f hf hnew => (hadds.flights f hf).resolve_left hnew, hadds.queues⟩
  case idle =>
    intro c s hc hnone
    have htimes := State.SameButTimes.noteReady s
    exact ⟨exec_placement_of_readyQueues_nil hc hnone, htimes.sameWork.flights, (congrArg State.csr htimes :),
      (congrArg State.mem htimes :)⟩
  case single =>
    intro gq e k s hqueues hready hjoins hparts hces
    have htimes := State.SameButTimes.noteReady s
    rw [← htimes.queue_eq] at hces
    obtain ⟨t, hexec, i, htakes⟩ := exec_batchStepPlace_single hqueues hready hjoins hparts hces
    refine ⟨t, hexec, i, ?_, htakes.state, ?_, htakes.queue, htakes.attempt, ?_⟩
    · rw [← htimes.freeSlotsOf_eq, htakes.lowest]
    · rw [← htimes.queue_eq, htakes.cls]
    · exact htakes.mem.trans (congrArg State.mem htimes :)

end Sys2Proof.Machine
end

section
/-! Float encodings without their sign: each is a significand at an exponent of its own, and `FFmt.encMag` finds both
again (R188, R193). -/

namespace Sys2Proof.Machine

/-- How many binades an encoding without its sign lies above the subnormals and the first normal binade, which share
one spacing. -/
def FFmt.binade (f : FFmt) (x : Nat) : Nat := x / 2 ^ f.mb - 1

/-- The significand of an encoding without its sign, the hidden bit included (R188). -/
def FFmt.sig (f : FFmt) (x : Nat) : Nat := x - f.binade x * 2 ^ f.mb

/-- The exponent of an encoding's last significand bit (R188). -/
def FFmt.ulp (f : FFmt) (x : Nat) : Int := f.binade x + 1 - f.bias - f.mb

namespace FFmt

variable (f : FFmt) {x y : Nat}

theorem binade_mul_add_sig (x : Nat) : f.binade x * 2 ^ f.mb + f.sig x = x := by
  have hle : f.binade x * 2 ^ f.mb ≤ x := le_trans (Nat.mul_le_mul_right _ (Nat.sub_le _ 1)) (Nat.div_mul_le_self _ _)
  unfold sig
  omega

theorem sig_of_div_eq_zero (h : x / 2 ^ f.mb = 0) : f.sig x = x % 2 ^ f.mb := by
  have hx := Nat.div_add_mod' x (2 ^ f.mb)
  simp only [h] at hx
  simp [sig, binade, h]
  omega

theorem sig_of_div_ne_zero (h : x / 2 ^ f.mb ≠ 0) : f.sig x = 2 ^ f.mb + x % 2 ^ f.mb := by
  obtain ⟨k, hk⟩ := Nat.exists_eq_succ_of_ne_zero h
  have hx := Nat.div_add_mod' x (2 ^ f.mb)
  rw [hk, Nat.succ_mul] at hx
  simp only [sig, binade, hk, Nat.succ_sub_one]
  omega

theorem sig_lt (x : Nat) : f.sig x < 2 ^ (f.mb + 1) := by
  rw [pow_succ]
  by_cases h : x / 2 ^ f.mb = 0
  · rw [f.sig_of_div_eq_zero h]; omega
  · rw [f.sig_of_div_ne_zero h]; omega

/-- Above the lowest binade the hidden bit is set. -/
theorem le_sig (h : f.binade x ≠ 0) : 2 ^ f.mb ≤ f.sig x := by
  have hdiv : x / 2 ^ f.mb ≠ 0 := fun h0 => h (by simp [binade, h0])
  rw [f.sig_of_div_ne_zero hdiv]
  omega

/-- Encodings without their sign are in the order of their values. -/
theorem sig_le_sig_mul (h : x ≤ y) : f.sig x ≤ f.sig y * 2 ^ (f.binade y - f.binade x) := by
  have hbinade : f.binade x ≤ f.binade y := Nat.sub_le_sub_right (Nat.div_le_div_right h) 1
  obtain hsame | habove := hbinade.eq_or_lt
  · have hx := f.binade_mul_add_sig x
    have hy := f.binade_mul_add_sig y
    rw [hsame] at hx ⊢
    simp
    omega
  · calc f.sig x ≤ 2 ^ f.mb * 2 ^ 1 := (f.sig_lt x).le
      _ ≤ f.sig y * 2 ^ (f.binade y - f.binade x) :=
        Nat.mul_le_mul (f.le_sig (by omega)) (Nat.pow_le_pow_right (by norm_num) (by omega))

theorem ratLog_one (n : Nat) (hn : n ≠ 0) : ratLog n 1 = Nat.log2 n := by
  have h1 : Nat.log2 1 = 0 := by decide
  simp [ratLog, h1, Nat.log2_self_le hn]

theorem scaleFloor_one_zero (n : Nat) : scaleFloor n 1 0 = n := by
  simp [scaleFloor]

/-- The exponent `encMag` gives a significand is that of its binade. -/
theorem exponent_sig (h : f.sig x ≠ 0) :
    max (ratLog (f.sig x) 1 + f.ulp x) (1 - (f.bias : Int)) = f.binade x + 1 - f.bias := by
  have hle : Nat.log2 (f.sig x) < f.mb + 1 := (Nat.log2_lt h).2 (f.sig_lt x)
  have hge : f.binade x ≠ 0 → f.mb ≤ Nat.log2 (f.sig x) := fun hb => (Nat.le_log2 h).2 (f.le_sig hb)
  rw [ratLog_one _ h, ulp]
  omega

/-- An encoding without its sign is the magnitude encoding of its own significand and exponent. -/
theorem encMag_sig (x : Nat) : f.encMag (f.sig x) 1 (f.ulp x) = x := by
  have hx := f.binade_mul_add_sig x
  have hlow : f.sig x < 2 ^ f.mb → f.binade x = 0 := fun h => by
    by_contra hb
    exact absurd (f.le_sig hb) h.not_ge
  by_cases h0 : f.sig x = 0
  · have hb := hlow (h0 ▸ by positivity)
    rw [hb, h0] at hx
    simpa [encMag, h0] using hx
  · have hscale : f.ulp x - (f.binade x + 1 - f.bias) + f.mb = 0 := by unfold ulp; omega
    have hshift : ((f.binade x : Int) + 1 - f.bias + f.bias).toNat - 1 = f.binade x := by omega
    simp only [encMag, if_neg h0, f.exponent_sig h0, hscale, hshift, scaleFloor_one_zero]
    split
    next h => simpa [hlow h] using hx
    next => exact hx

end FFmt

end Sys2Proof.Machine
end

section
/-! What a float encoding decodes to, and the narrowing of what it decodes to (R188, R193, R194). -/

namespace Sys2Proof.Machine

namespace FFmt

variable {f : FFmt} {x : Nat}

/-- The encodings without a sign that stand for no number. -/
def NonFinite (f : FFmt) (x : Nat) : Prop :=
  x / 2 ^ f.mb = 2 ^ f.eb - 1 ∧ (f.special = 1 ∨ f.special = 2 ∧ x % 2 ^ f.mb = 2 ^ f.mb - 1)

theorem maxEnc_lt (f : FFmt) : f.maxEnc < 2 ^ (f.eb + f.mb) := by
  have hpos : 0 < 2 ^ (f.eb + f.mb) := by positivity
  unfold maxEnc
  split
  · have hmb : 0 < 2 ^ f.mb := by positivity
    rw [Nat.sub_one_mul, ← pow_add]
    omega
  · omega
  · omega

/-- The encodings of no number are those above the largest finite one. -/
theorem nonFinite_iff (heb : 0 < f.eb) (hx : x < 2 ^ (f.eb + f.mb)) : f.NonFinite x ↔ f.maxEnc < x := by
  have heq := Nat.div_add_mod' x (2 ^ f.mb)
  have hdiv : x / 2 ^ f.mb < 2 ^ f.eb := Nat.div_lt_of_lt_mul (by rwa [← pow_add, add_comm])
  have heb' : 1 < 2 ^ f.eb := Nat.one_lt_two_pow heb.ne'
  have htop : 0 < (2 ^ f.eb - 1) * 2 ^ f.mb := Nat.mul_pos (Nat.sub_pos_of_lt heb') (by positivity)
  have hall : (2 ^ f.eb - 1) * 2 ^ f.mb + 2 ^ f.mb = 2 ^ (f.eb + f.mb) := by
    rw [← Nat.succ_mul, Nat.succ_eq_add_one, Nat.sub_add_cancel heb'.le, pow_add]
  have hle := Nat.le_div_iff_mul_le (x := 2 ^ f.eb - 1) (y := x) (Nat.two_pow_pos f.mb)
  unfold NonFinite maxEnc
  split
  case h_1 h1 => omega
  case h_2 h2 =>
    constructor
    · rintro ⟨hexp, h1 | ⟨-, hmant⟩⟩
      · omega
      · rw [hexp, hmant] at heq
        omega
    · intro h
      have hexp : x / 2 ^ f.mb = 2 ^ f.eb - 1 := by omega
      rw [hexp] at heq
      exact ⟨hexp, .inr ⟨h2, by omega⟩⟩
  case h_3 h1 h2 => exact iff_of_false (by rintro ⟨-, h | ⟨h, -⟩⟩; exacts [h1 h, h2 h]) (by omega)

theorem signed_mantissa (f : FFmt) (s : Bool) (x : Nat) :
    (b2n s * 2 ^ (f.eb + f.mb) + x) % 2 ^ f.mb = x % 2 ^ f.mb := by
  rw [pow_add, ← mul_assoc, Nat.mul_add_mod_self_right]

theorem signed_exponent (s : Bool) (hx : x < 2 ^ (f.eb + f.mb)) :
    (b2n s * 2 ^ (f.eb + f.mb) + x) / 2 ^ f.mb % 2 ^ f.eb = x / 2 ^ f.mb := by
  rw [pow_add, ← mul_assoc, add_comm, Nat.add_mul_div_right _ _ (by positivity), Nat.add_mul_mod_self_right,
    Nat.mod_eq_of_lt (Nat.div_lt_of_lt_mul (by rwa [← pow_add, add_comm]))]

theorem signed_sign (s : Bool) (hx : x < 2 ^ (f.eb + f.mb)) :
    ((b2n s * 2 ^ (f.eb + f.mb) + x) / 2 ^ (f.mb + f.eb) % 2 == 1) = s := by
  rw [add_comm f.mb, add_comm _ x, Nat.add_mul_div_right _ _ (by positivity), Nat.div_eq_of_lt hx]
  cases s <;> rfl

/-- A finite encoding decodes to its significand at its exponent. -/
theorem decFloat_signed_of_finite (s : Bool) (hx : x < 2 ^ (f.eb + f.mb)) (hfin : ¬ f.NonFinite x) :
    decFloat f (b2n s * 2 ^ (f.eb + f.mb) + x) = .fin s (f.sig x) 1 (f.ulp x) := by
  simp only [decFloat, signed_mantissa, signed_exponent s hx, signed_sign s hx]
  rw [if_neg fun h => hfin ⟨h.2, .inl h.1⟩, if_neg fun h => hfin ⟨h.2.1, .inr ⟨h.1, h.2.2⟩⟩]
  split
  next h => simp [f.sig_of_div_eq_zero h, ulp, binade, h]
  next h =>
    have hbinade : f.binade x + 1 = x / 2 ^ f.mb := Nat.sub_add_cancel (Nat.pos_of_ne_zero h)
    rw [f.sig_of_div_ne_zero h, ulp, ← hbinade, Nat.cast_succ]

theorem decFloat_signed_ne_fin (s : Bool) (hx : x < 2 ^ (f.eb + f.mb)) (hx' : f.NonFinite x) (t : Bool) (n d : Nat)
    (e : Int) : decFloat f (b2n s * 2 ^ (f.eb + f.mb) + x) ≠ .fin t n d e := by
  simp only [decFloat, signed_mantissa, signed_exponent s hx, signed_sign s hx]
  obtain ⟨hexp, h1 | ⟨h2, hmant⟩⟩ := hx'
  · rw [if_pos ⟨h1, hexp⟩]
    split <;> simp
  · simp [h2, hexp, hmant]

theorem decFloat_maxEnc (heb : 0 < f.eb) : decFloat f f.maxEnc = .fin false (f.sig f.maxEnc) 1 (f.ulp f.maxEnc) := by
  have hfin : ¬ f.NonFinite f.maxEnc := by simp [nonFinite_iff heb f.maxEnc_lt]
  simpa [b2n] using decFloat_signed_of_finite false f.maxEnc_lt hfin

theorem over_sig (heb : 0 < f.eb) (hx : x ≤ f.maxEnc) : f.over (f.sig x) 1 (f.ulp x) = false := by
  have hbinade : f.binade x ≤ f.binade f.maxEnc := Nat.sub_le_sub_right (Nat.div_le_div_right hx) 1
  have hmin : min (f.ulp x) (f.ulp f.maxEnc) = f.ulp x := by unfold ulp; omega
  have hgap : (f.ulp f.maxEnc - f.ulp x).toNat = f.binade f.maxEnc - f.binade x := by unfold ulp; omega
  simp [FFmt.over, decFloat_maxEnc heb, hmin, pow2, hgap, f.sig_le_sig_mul hx]

theorem exists_signed {w b : Nat} (hb : b < 2 ^ (w + 1)) : ∃ s x, x < 2 ^ w ∧ b2n s * 2 ^ w + x = b := by
  have hsign : b / 2 ^ w < 2 := Nat.div_lt_of_lt_mul (by rwa [← pow_succ])
  have hsum := Nat.div_add_mod' b (2 ^ w)
  refine ⟨decide (b / 2 ^ w = 1), b % 2 ^ w, Nat.mod_lt _ (by positivity), ?_⟩
  interval_cases b / 2 ^ w <;> simpa [b2n] using hsum

/-- A float format narrows the value of each of its finite encodings to that encoding. -/
theorem narrow_decFloat {b : Nat} (heb : 0 < f.eb) (hb : b < 2 ^ (f.eb + f.mb + 1))
    (hfin : ∃ s n d e, decFloat f b = .fin s n d e) : f.narrow (decFloat f b) = (b, false) := by
  obtain ⟨s, x, hx, rfl⟩ := exists_signed hb
  obtain ⟨t, n, d, e, hdec⟩ := hfin
  have hfinite : ¬ f.NonFinite x := fun h => decFloat_signed_ne_fin s hx h t n d e hdec
  have hle : x ≤ f.maxEnc := by simpa [nonFinite_iff heb hx] using hfinite
  rw [decFloat_signed_of_finite s hx hfinite]
  simp [narrow, over_sig heb hle, encMag_sig]

end FFmt

end Sys2Proof.Machine
end

section
/-! What an integer encoding decodes to, and the narrowing of what it decodes to (R187, R193, R194). -/

namespace Sys2Proof.Machine

theorem ofSigned_toSigned {w b : Nat} (hb : b < 2 ^ w) : ofSigned w (toSigned w b) = b := by
  have hmod : (b : Int) % (2 ^ w : Nat) = b := Int.emod_eq_of_lt (by omega) (by exact_mod_cast hb)
  unfold ofSigned toSigned
  rw [Nat.mod_eq_of_lt hb]
  split
  · rw [hmod, Int.toNat_natCast]
  · rw [Int.sub_emod_right, hmod, Int.toNat_natCast]

/-- A two's-complement reading of `w` bits lies in the range of `w` bits. -/
theorem toSigned_mem {w : Nat} (hw : 0 < w) (b : Nat) :
    -2 ^ (w - 1) ≤ toSigned w b ∧ toSigned w b ≤ 2 ^ (w - 1) - 1 := by
  obtain ⟨v, rfl⟩ := Nat.exists_eq_add_one_of_ne_zero hw.ne'
  have hcast : ((2 ^ v : Nat) : Int) = 2 ^ v := by norm_cast
  unfold toSigned
  rw [Nat.add_sub_cancel, ← hcast]
  split <;> omega

theorem Val.trunc_ofInt (z : Int) : (Val.ofInt z).trunc = some z := by
  by_cases h : z < 0
  · simp [Val.ofInt, Val.trunc, h, abs_of_neg]
  · simp [Val.ofInt, Val.trunc, h, abs_of_nonneg (not_lt.1 h)]

/-- An integer in the range of an integer format narrows to its own encoding. -/
theorem narrowInt_ofInt {code : Nat} {z : Int} (hlow : (intRange code).1 ≤ z) (hhigh : z ≤ (intRange code).2) :
    narrowInt code (.ofInt z) 0 = (ofSigned (fmtBits code) z, false) := by
  have htrunc : (Val.ofInt z).trunc.getD 0 + 0 = z := by simp [Val.trunc_ofInt]
  show (if _ < _ then _ else if _ < _ then _ else _) = _
  rw [htrunc, if_neg hlow.not_gt, if_neg hhigh.not_gt]

/-- An encoding of an integer format is an integer in the format's range. -/
theorem decElem_integer {code b : Nat} (hcode : code ≤ 2) (hb : b < 2 ^ fmtBits code) :
    ∃ z, decElem code b = .ofInt z ∧ (intRange code).1 ≤ z ∧ z ≤ (intRange code).2 ∧
      ofSigned (fmtBits code) z = b := by
  interval_cases code
  · obtain ⟨hlow, hhigh⟩ := toSigned_mem (w := 4) (by decide) b
    exact ⟨toSigned 4 b, rfl, hlow, hhigh, ofSigned_toSigned hb⟩
  · obtain ⟨hlow, hhigh⟩ := toSigned_mem (w := 8) (by decide) b
    exact ⟨toSigned 8 b, rfl, hlow, hhigh, ofSigned_toSigned hb⟩
  · have hmod : b % 256 = b := Nat.mod_eq_of_lt hb
    refine ⟨b, ?_, ?_, ?_, ?_⟩
    · simp [decElem, ffmt, hmod, Val.ofNat, Val.ofInt]
    · simp [intRange]
    · simp [intRange]; omega
    · simp [ofSigned, fmtBits]; omega

end Sys2Proof.Machine
end

section
/-! The claims about narrowing. -/

namespace Sys2Proof.Machine

theorem ffmt_width {code : Nat} {f : FFmt} (h : ffmt code = some f) :
    0 < f.eb ∧ fmtBits code = f.eb + f.mb + 1 := by
  unfold ffmt at h
  split at h <;> cases h <;> exact ⟨by decide, rfl⟩

theorem le_two_of_ffmt_eq_none : ∀ code ≤ 10, ffmt code = none → code ≤ 2 := by decide

/-- Settles O26: a float encoding is its sign before `encMag` of its significand at its exponent, and is not over the
largest one; an integer encoding is that of its own integer, which lies in the format's range. -/
theorem narrowingInvertsDecoding : Obligations.NarrowingInvertsDecoding := by
  unfold Obligations.NarrowingInvertsDecoding
  intro code b hcode hb hfin
  cases hfmt : ffmt code with
  | some f =>
    obtain ⟨heb, hwidth⟩ := ffmt_width hfmt
    simp only [decElem, hfmt] at hfin
    simp only [narrow, decElem, hfmt]
    exact FFmt.narrow_decFloat heb (hwidth ▸ hb) hfin
  | none =>
    obtain ⟨z, hdec, hlow, hhigh, henc⟩ := decElem_integer (le_two_of_ffmt_eq_none code hcode hfmt) hb
    simp only [narrow, hfmt]
    rw [hdec, narrowInt_ofInt hlow hhigh, henc]

/-- Settles O25: `narrow` computes the encoding and the mark of each entry of R194's table. -/
theorem narrowingTable : Obligations.NarrowingTable := by
  unfold Obligations.NarrowingTable
  decide

end Sys2Proof.Machine
end

section
/-! The start of a command on the Calderas it stands on: the statuses in their order, the waits, and what an accepted
command holds (R142, R143, R222, R224). -/

namespace Sys2Proof.Machine

namespace State.SameWork

theorem acquire {s : State} {gq k : Nat} {ip : Bool} {outs : List Nat} : s.SameWork (s.acquire gq k ip outs) :=
  .ite (.refl _) (.each fun _ _ => .update)

theorem takeTails {s : State} {gq : Nat} {c : CeCmd} : s.SameWork (s.takeTails gq c) :=
  .each fun _ _ => .after (.ite .update (.refl _)) .update

theorem issueReads {s : State} {f : Flight} : s.SameWork (s.issueReads f) := by
  refine .each fun t b => ?_
  split
  · exact .ite .update (.refl _)
  · exact .refl _

theorem takeRegion {s : State} {e slot n ctx : Nat} : s.SameWork (s.takeRegion e slot n ctx) := .each fun _ _ => .update

theorem slotState {s : State} {f : Flight} {st : Nat} : s.SameWork (s.slotState f st) := .each fun _ _ => .wr

end State.SameWork

/-! ## Attempts of a queue -/

theorem State.flightIn_eq_some {s : State} {gq : Nat} {p : Flight → Bool} {f : Flight}
    (h : s.flightIn gq p = some f) : f ∈ s.flights ∧ f.gq = gq ∧ p f = true := by
  obtain ⟨hmem, hgq⟩ := List.mem_filter.1 (List.mem_of_find?_eq_some h)
  exact ⟨hmem, of_decide_eq_true hgq, List.find?_some h⟩

theorem State.mem_flights_setFlight {s : State} {f g : Flight} (hg : g ∈ s.flights) (hgq : g.gq = f.gq)
    (hslot : g.slot = f.slot) : f ∈ (s.setFlight f).flights :=
  List.mem_map.2 ⟨g, hg, if_pos ⟨hgq, hslot⟩⟩

/-- A listed command that asks for its regions becomes ready when they fit, and else waits as it is (R222). -/
theorem State.mem_flights_tryRegion {s : State} {f g : Flight} (hg : g ∈ s.flights) (hgq : g.gq = f.gq)
    (hslot : g.slot = f.slot) :
    ∃ ph r, (ph = .ready ∨ ph = f.phase) ∧ { f with phase := ph, ready := r } ∈ (s.tryRegion f).flights := by
  unfold State.tryRegion
  split
  · have htaken : s.SameWork ((s.each f.slots fun s es =>
        s.takeRegion es.1 es.2 f.sram (gqCtx f.gq)).slotState f 2) := .after .slotState (.each fun _ _ => .takeRegion)
    exact ⟨.ready, _, .inl rfl, State.mem_flights_setFlight (htaken.flights ▸ hg) hgq hslot⟩
  · exact ⟨f.phase, f.ready, .inr rfl, State.mem_flights_setFlight hg hgq hslot⟩

/-! ## The cases of a start -/

/-- An attempt that stands in slots and is of a given opcode: what a Caldera command looks for in its queue. -/
abbrev Flight.standsFor (op : Nat) (f : Flight) : Bool := f.phase == .placed && dOp f.desc == op

/-- The format an attempt narrows to: its command's, or the one a saturation gave it (R206). -/
def CeCmd.narrowsTo (k : CeCmd) (f : Flight) : Nat := if f.attempt = 0 then k.fmtN else f.fmt

/-- The attempt of an accepted command: its inputs are bound and its outputs, demands, format and result are there. -/
def CeCmd.acceptedAttempt (k : CeCmd) (s : State) (f : Flight) : Flight :=
  { f with
    bound := true, binds := k.plan.ins.map (s.bindOf (gqCtx f.gq)) ++ k.extra, outs := k.plan.outs
    fmt := k.narrowsTo f, res := (k.go s (k.narrowsTo f)).2, sram := k.sram, lb := k.lb, sinter := k.sinter
    start := s.gcnt, ready := s.gcnt }

/-- The state in which an accepted command asks for its regions: its outputs are its own, its slots show its format and
its host reads are out. -/
def CeCmd.takesOutputs (k : CeCmd) (s : State) (f : Flight) : State :=
  let t := ((k.go s (k.narrowsTo f)).1.acquire f.gq f.slot (dInPlace f.desc) k.plan.outs).takeTails f.gq k
  (t.each f.slots fun t x => t.wr .CE_SLOT_N (x.1 * 32 + x.2) (k.narrowsTo f)).issueReads (k.acceptedAttempt s f)

theorem CeCmd.takesOutputs_sameWork (k : CeCmd) (s : State) (f : Flight) :
    (k.go s (k.narrowsTo f)).1.SameWork (k.takesOutputs s f) :=
  .after .issueReads <| .after (.each fun _ _ => .wr) <| .after .takeTails .acquire

section

variable {s : State} {gq op : Nat} {check : State → Nat → List Byte → Except (Nat × Nat) CeCmd}

theorem State.ceStart_of_none (h : s.flightIn gq (Flight.standsFor op) = none) : s.ceStart gq op check = s := by
  unfold State.ceStart
  rw [h]

variable {f : Flight} (hf : s.flightIn gq (Flight.standsFor op) = some f) (hfresh : f.bound = false)
include hf hfresh

theorem State.ceStart_of_badHeader (hbad : headerOk gq f.desc = false) :
    s.ceStart gq op check = s.ceFail f 6 0 := by
  simp [State.ceStart, hf, hfresh, hbad]

variable (hheader : headerOk gq f.desc = true)
include hheader

theorem State.ceStart_of_error {e : Nat × Nat} (hcheck : check s gq f.desc = .error e) (hread : e.1 ≠ 8) :
    s.ceStart gq op check = s.ceFail f e.1 e.2 := by
  simp [State.ceStart, hf, hfresh, hheader, hcheck, hread]

variable {k : CeCmd} (hcheck : check s gq f.desc = .ok k)
include hcheck

theorem State.ceStart_of_overCapacity (hover : ∃ x ∈ f.slots, (s.regionUnits x.1).length < k.sram * f.slotsOn x.1) :
    s.ceStart gq op check = s.ceFail f 7 0 := by
  have hany : (f.slots.any fun x => decide ((s.regionUnits x.1).length < k.sram * f.slotsOn x.1)) = true := by
    simpa using hover
  simp only [State.ceStart, hf, hfresh, hheader, hcheck, hany, Bool.false_eq_true, Bool.not_true, if_false, if_true]

variable (hfits : ∀ x ∈ f.slots, k.sram * f.slotsOn x.1 ≤ (s.regionUnits x.1).length)
include hfits

theorem State.ceStart_of_waits (hwaits : k.wait = true ∨ s.canAcquire gq (dInPlace f.desc) k.plan = false) :
    s.ceStart gq op check = s := by
  have hany : (f.slots.any fun x => decide ((s.regionUnits x.1).length < k.sram * f.slotsOn x.1)) = false := by
    simpa using hfits
  have hwait : (k.wait || !(s.canAcquire gq (dInPlace f.desc) k.plan)) = true := by simpa using hwaits
  simp only [State.ceStart, hf, hfresh, hheader, hcheck, hany, hwait, Bool.false_eq_true, Bool.not_true, if_false,
    if_true]

/-- An accepted command that appends to no sequence takes its outputs, and then asks for its regions. -/
theorem State.ceStart_of_accepted (hready : k.wait = false) (hfree : s.canAcquire gq (dInPlace f.desc) k.plan = true)
    (hgrow : k.grow = []) :
    s.ceStart gq op check = (k.takesOutputs s f).tryRegion (k.acceptedAttempt s f) := by
  have hany : (f.slots.any fun x => decide ((s.regionUnits x.1).length < k.sram * f.slotsOn x.1)) = false := by
    simpa using hfits
  obtain ⟨-, rfl, -⟩ := State.flightIn_eq_some hf
  simp only [State.ceStart, hf, hfresh, hheader, hcheck, hany, hready, hfree, hgrow, Bool.false_eq_true, Bool.not_true,
    Bool.or_self, if_false]
  exact if_neg (by simp [State.growNeed])

end

theorem startsOnCaldera_of_exec {c : Instr} {gq op : Nat}
    {check : State → Nat → List Byte → Except (Nat × Nat) CeCmd}
    (hexec : ∀ s, exec c s = .next (s.ceStart gq op check)) : StartsOnCaldera c gq op check := by
  intro s
  simp only [Runs, hexec]
  refine ⟨fun hnone => ?none, fun f hf hfresh => ⟨fun hbad => ?badHeader, fun hheader e hcheck hread => ?badBody,
    fun hheader k hcheck => ⟨fun hover => ?overCapacity, fun hfits => ⟨fun hwaits => ?waits,
      fun hready hfree hgrow hflights => ?accepted⟩⟩⟩⟩
  case none => rw [State.ceStart_of_none hnone]
  case badHeader => rw [State.ceStart_of_badHeader hf hfresh hbad]
  case badBody => rw [State.ceStart_of_error hf hfresh hheader hcheck hread]
  case overCapacity => rw [State.ceStart_of_overCapacity hf hfresh hheader hcheck hover]
  case waits => rw [State.ceStart_of_waits hf hfresh hheader hcheck hfits hwaits]
  case accepted =>
    obtain ⟨hmem, rfl, hstands⟩ := State.flightIn_eq_some hf
    obtain ⟨hplaced, -⟩ : f.phase = .placed ∧ _ := by simpa using hstands
    have hlisted : f ∈ (k.takesOutputs s f).flights := by
      rw [(k.takesOutputs_sameWork s f).flights, CeCmd.narrowsTo, hflights]
      exact hmem
    obtain ⟨ph, r, hph, hg⟩ := State.mem_flights_tryRegion (f := k.acceptedAttempt s f) hlisted rfl rfl
    rw [State.ceStart_of_accepted hf hfresh hheader hcheck hfits hready hfree hgrow]
    exact ⟨_, rfl, _, hg, rfl, rfl, rfl, rfl, rfl, rfl, rfl, rfl, rfl, rfl, rfl, rfl, rfl,
      hph.imp_right fun h => h.trans hplaced⟩

/-- Settles O28: each of the nine commands is `State.ceStart` with its own check, whose cases the lemmas above say. -/
theorem calderaCommandsStart : Obligations.CalderaCommandsStart := by
  unfold Obligations.CalderaCommandsStart
  intro ctx q
  refine ⟨?_, ?_, ?_, ?_, ?_, ?_, ?_, ?_, ?_⟩ <;> exact startsOnCaldera_of_exec fun _ => rfl

end Sys2Proof.Machine
end

section
/-! What a kill moves in the registers: the fields of the attempt, of its units and of a retirement it may begin, and
Geyser's. No pending source is cleared (R146, R464). -/

namespace Sys2Proof.Machine

/-! ## Pending sources -/

theorem SamePend.pend_eq {s t : State} (h : SamePend s t) (n : Nat) : t.pend n = s.pend n := by
  unfold State.pend
  rw [h]

theorem State.pend_setPend {s : State} {n : Nat} (src : Nat) (h : s.pend n = true) : (s.setPend src).pend n = true := by
  obtain rfl | hne := eq_or_ne n src
  · exact setPend_pend s n
  · rw [← h]
    unfold State.setPend State.pend
    by_cases hword : n / 64 = src / 64
    · rw [hword, State.rd_wr_same, show Fld.GEY_PEND_PEND.info.width = 64 from rfl, Nat.testBit_mod_two_pow,
        testBit_setBit_ne (by omega)]
      simp [Nat.mod_lt]
    · rw [State.rd_wr_ne _ _ fun hsame => hword hsame.2]

/-- An event clears no pending source. -/
theorem State.pend_fire {s : State} {n : Nat} (src : Nat) (h : s.pend n = true) : (s.fire src).pend n = true := by
  unfold State.fire State.geyEdge
  split
  · exact h
  · rw [(deliver_pend _).pend_eq]
    show (s.srcEvent src).pend n = true
    unfold State.srcEvent
    split
    · exact h
    · rw [(grpEvent_pend _ src).pend_eq]
      exact State.pend_setPend src h

/-! ## The fields a kill moves -/

/-- The register fields of attempts and of the units they hold, and those of a retirement (R146, R226, R520). -/
def attemptFields : List Fld :=
  [.CE_SLOT_STATE, .CE_SLOT_CLASS, .CE_SLOT_IN_PLACE, .CE_SLOT_N, .CE_SLOT_CONTEXT, .CE_SLOT_QUEUE, .CE_SLOT_SEQ,
    .CE_SLOT_KILLS, .CE_SLOT_RING_SLOT, .CE_PERF_COUNT, .EMB_PERF_COUNT, .EMB_STATUS_STATE, .VIS_STATUS_STATE,
    .VIS_STATUS_BUSY, .VIS_STATUS_PORT, .VIS_STATUS_PARTITION, .VIS_CTRL_ENABLE, .VIS_TRIG_PYR, .VIS_TRIG_MOT,
    .VIS_TRIG_REF, .MEM_PC_STATUS_STATE, .BRG_PC_CTRL_RESULT, .BRG_PC_CTRL_PAGES_LEFT, .BRG_PC_CTRL_PC]

/-- From `s` to `t` only fields of attempts move besides Geyser's, and no pending source is cleared. -/
structure State.MovesAttempts (s t : State) : Prop where
  rd : ∀ f u, f ∉ attemptFields → f ∉ irqFields → t.rd f u = s.rd f u
  pend : ∀ n, s.pend n = true → t.pend n = true

namespace State.MovesAttempts

theorem refl (s : State) : s.MovesAttempts s := ⟨fun _ _ _ _ => rfl, fun _ h => h⟩

/-- What comes first stands last, in the order the model writes the steps of an operation. -/
theorem after {s t u : State} (k : t.MovesAttempts u) (h : s.MovesAttempts t) : s.MovesAttempts u :=
  ⟨fun f n hf hirq => (k.rd f n hf hirq).trans (h.rd f n hf hirq), fun n hn => k.pend n (h.pend n hn)⟩

/-- An update of anything but the register file. -/
theorem update {s : State}
    {pending' mem' m' t' pw' img' brg' sec' tst' confReached' fn' msix' pba' sent' geyLatch' reqs' reqNext' move'
      foMoves' lastCpl' lastLink' queues' tensors' seqs' flights' vtime' wasReady' lastQ' readyAt' aged' stepNo'
      ceJoin' ceJoinG' epochUse' epochC1' lastEpoch' acct' frac' energyK' calTime' calUj' resident' region' cores'
      emb' arrays' vis' eqx' heads' ports' fresh' data'} :
    s.MovesAttempts ⟨pending', s.csr, mem', m', t', pw', img', brg', sec', tst', confReached', fn', msix', pba',
      sent', geyLatch', reqs', reqNext', move', foMoves', lastCpl', lastLink', queues', tensors', seqs', flights',
      vtime', wasReady', lastQ', readyAt', aged', stepNo', ceJoin', ceJoinG', epochUse', epochC1', lastEpoch', acct',
      frac', energyK', calTime', calUj', resident', region', cores', emb', arrays', vis', eqx', heads', ports',
      fresh', data'⟩ :=
  ⟨fun _ _ _ _ => rfl, fun _ h => h⟩

theorem ite {c : Prop} [Decidable c] {s a b : State} (ha : s.MovesAttempts a) (hb : s.MovesAttempts b) :
    s.MovesAttempts (if c then a else b) := by split <;> assumption

theorem each {α : Type} {g : State → α → State} {l : List α} {s : State}
    (hg : ∀ (s : State), ∀ x ∈ l, s.MovesAttempts (g s x)) : s.MovesAttempts (s.each l g) :=
  List.foldlRecOn l g (.refl s) fun _ ht x hx => (hg _ x hx).after ht

theorem wr {s : State} {f : Fld} {u v : Nat} (hf : f ∈ attemptFields := by decide) :
    s.MovesAttempts (s.wr f u v) where
  rd g w hg _ := s.rd_wr_ne v fun h => hg (h.1 ▸ hf)
  pend n hn := by
    have hother : f ≠ .GEY_PEND_PEND := fun h => absurd (h ▸ hf) (by decide)
    rw [(SamePend.wr s f u v hother).pend_eq]
    exact hn

theorem fire {s : State} {n : Nat} : s.MovesAttempts (s.fire n) :=
  ⟨fun f u _ hirq => fire_rd s n f u hirq, fun _ h => State.pend_fire n h⟩

theorem fireIf {s : State} {c : Bool} {n : Nat} : s.MovesAttempts (s.fireIf c n) := .ite .fire (.refl s)

/-! ## Memory -/

theorem pcState {s : State} {pc st : Nat} : s.MovesAttempts (s.pcState pc st) := .ite (.refl _) (.after .fire .wr)

theorem startRetire {s : State} {pc : Nat} : s.MovesAttempts (s.startRetire pc) :=
  .ite (.after .wr <| .after .wr <| .after .pcState .update) .wr

theorem nextRetire {s : State} : s.MovesAttempts s.nextRetire := by
  unfold State.nextRetire
  split
  · exact .refl _
  split
  · exact .refl _
  · exact .after .startRetire <| .after .wr .update

theorem wantRetire {s : State} {pc : Nat} : s.MovesAttempts (s.wantRetire pc) :=
  .ite (.refl _) (.after .nextRetire .update)

theorem retireFrame {s : State} {n : Nat} : s.MovesAttempts (s.retireFrame n) := by
  have hretired : s.MovesAttempts { (s.setFrame n { s.frame n with st := .retired, ref := 0 }).fire 70 with
      brg := { ((s.setFrame n { s.frame n with st := .retired, ref := 0 }).fire 70).brg with dirty := true } } :=
    .after .update <| .after .fire .update
  unfold State.retireFrame
  dsimp only
  split
  · split
    · split
      · exact .after .wantRetire hretired
      · exact hretired
    · exact hretired
  · exact hretired

theorem releaseFrames {s : State} {n k : Nat} : s.MovesAttempts (s.releaseFrames n k) :=
  .each fun _ _ _ => .ite .retireFrame .update

theorem freeBytes {s : State} {ctx va n : Nat} : s.MovesAttempts (s.freeBytes ctx va n) := by
  induction n generalizing s va with
  | zero => exact .refl _
  | succ n ih =>
    unfold State.freeBytes
    split
    · exact .after ih .update
    · exact ih

/-! ## What an attempt holds -/

theorem abortOuts {s : State} {f : Flight} : s.MovesAttempts (s.abortOuts f) :=
  .ite (.refl _) (.each fun _ _ _ => .ite (.after (.ite .freeBytes (.refl _)) .update) (.refl _))

theorem freeSlots {s : State} {f : Flight} : s.MovesAttempts (s.freeSlots f) :=
  .each fun _ _ _ => .after .update <| .each fun _ fl hfl =>
    .wr ((by decide : ∀ fl ∈ [Fld.CE_SLOT_STATE, .CE_SLOT_CLASS, .CE_SLOT_IN_PLACE, .CE_SLOT_N, .CE_SLOT_CONTEXT,
      .CE_SLOT_QUEUE, .CE_SLOT_SEQ, .CE_SLOT_KILLS, .CE_SLOT_RING_SLOT], fl ∈ attemptFields) fl hfl)

theorem embPerf {s : State} {i n : Nat} : s.MovesAttempts (s.embPerf i n) := .after .fireIf .wr

theorem freeEmber {s : State} {f : Flight} {killed : Bool} : s.MovesAttempts (s.freeEmber f killed) :=
  .ite (.after (.ite (.after .fire .wr) (.refl _)) <| .after (.ite .embPerf (.refl _)) <|
    .after (.each fun _ _ _ => .update) .update) (.refl _)

theorem visState {s : State} {l st : Nat} : s.MovesAttempts (s.visState l st) := .ite (.refl _) (.after .fire .wr)

theorem laneSettle {s : State} {l : Nat} : s.MovesAttempts (s.laneSettle l) := by
  have hidle : s.MovesAttempts (if (s.lane l).unbind && s.laneEmpty l then
      ((s.wr .VIS_CTRL_ENABLE l 0).setLane l { s.lane l with unbind := false }).visState l 1
    else if s.rd .VIS_STATUS_STATE l = 2 ∧ s.rd .VIS_CTRL_ENABLE l = 0 ∧ s.rd .VIS_STATUS_BUSY l = 0 then
      s.visState l 1 else s) :=
    .ite (.after .visState <| .after .update .wr) (.ite .visState (.refl _))
  unfold State.laneSettle
  dsimp only
  split
  · exact .refl _
  split
  · exact .after (.ite (.refl _) (.after .update <| .after .wr .wr)) hidle
  · exact hidle

theorem freeLane {s : State} {f : Flight} : s.MovesAttempts (s.freeLane f) := by
  unfold State.freeLane
  split
  · exact .refl _
  · exact .after .laneSettle <| .after .update <| .after .wr <| .each fun _ fl hfl =>
      .wr ((by decide : ∀ fl ∈ [Fld.VIS_STATUS_BUSY, .VIS_TRIG_PYR, .VIS_TRIG_MOT, .VIS_TRIG_REF],
        fl ∈ attemptFields) fl hfl)

theorem freeRingSlot {s : State} {f : Flight} : s.MovesAttempts (s.freeRingSlot f) := .ite .update (.refl _)

theorem dropReqs {s : State} {f : Flight} : s.MovesAttempts (s.dropReqs f) :=
  .after (.ite .update (.refl _)) <| .after (.each fun _ _ _ => .after .update .releaseFrames) <|
    .after .update <| .after .freeRingSlot <| .after .freeLane .freeEmber

theorem kill {s : State} {f : Flight} : s.MovesAttempts (s.kill f) :=
  .after .update <| .after .dropReqs <| .after .freeSlots .abortOuts

theorem killSlots {s : State} {f : Flight} : s.MovesAttempts (s.killSlots f) := .after .kill (.each fun _ _ _ => .wr)

end State.MovesAttempts

end Sys2Proof.Machine
end

section
/-! Sequencers, regions, and a Caldera that leaves service (R222, R225, R233, R524, R525). -/

namespace Sys2Proof.Machine

/-! ## Sequencers and regions -/

theorem State.sequencerBind_of_none {e : Nat} {s : State} (h : s.waitingSlots e = []) :
    exec (.sequencerBind e) s = .next s := by
  show execSequencerBind e s = _
  simp [execSequencerBind, h]

/-- A sequencer outside the two highest that is the lowest free one takes the only waiting slot. -/
theorem State.sequencerBind_of_single {e sl i : Nat} {f : Flight} {s : State} (hwaits : s.waitingSlots e = [(sl, f)])
    (hfree : ((s.seqsOf e).filter fun i => !(s.seqBound e i)).head? = some i)
    (hlow : i ∈ (s.seqsOf e).take ((s.seqsOf e).length - 2)) :
    exec (.sequencerBind e) s =
      .next ((((s.wr .CE_SLOT_STATE (e * 32 + sl) 3).wr .CE_SLOT_SEQ (e * 32 + sl) i).setFlight
        { f with phase := .running }).startFirmware (seqCore e i) false) := by
  obtain ⟨rest, hrest⟩ := List.head?_eq_some_iff.1 hfree
  have hserves : ((s.seqsOf e).take ((s.seqsOf e).length - 2)).contains i = true := List.contains_iff_mem.2 hlow
  show execSequencerBind e s = _
  simp only [execSequencerBind, hwaits, hrest, List.findSome?_cons, List.find?_cons, hserves, Bool.true_or,
    Option.map_some]

theorem State.rd_startFirmware_setFlight (s : State) (f : Flight) (id : Nat) (g : Fld) (u : Nat) :
    ((s.setFlight f).startFirmware id false).rd g u = s.rd g u := rfl

theorem State.regionWait_of_early {ctx q : Nat} {s : State}
    (h : ∀ f ∈ s.flightsOf (qKey ctx q), f.phase = .placed → f.bound = true → s.gcnt < f.ready + 100000) :
    exec (.regionWait ctx q) s = .next s := by
  have hnone : (s.flightIn (qKey ctx q) fun f =>
      f.phase == .placed && f.bound && decide (f.ready + 100000 ≤ s.gcnt)) = none := by
    refine List.find?_eq_none.2 fun f hf => ?_
    simpa using h f hf
  show execRegionWait ctx q s = _
  rw [execRegionWait, hnone]

theorem State.regionWait_of_late {ctx q : Nat} {f : Flight} {s : State} (hf : s.flightsOf (qKey ctx q) = [f])
    (hplaced : f.phase = .placed) (hbound : f.bound = true) (hlate : f.ready + 100000 ≤ s.gcnt) :
    exec (.regionWait ctx q) s = .next (s.fire (192 + 16 * ((f.slots.map (·.1)).headD 0) + 11)) := by
  show execRegionWait ctx q s = _
  simp [execRegionWait, State.flightIn, hf, hplaced, hbound, hlate]

/-- What a table reads after entries are dropped is the default, or an entry that was kept. -/
theorem Sparse.get_filter_eq_or {α : Type} (d : α) (m : Sparse α) (p : Nat × α → Bool) (k : Nat) :
    Sparse.get d (m.filter p) k = d ∨ p (k, Sparse.get d (m.filter p) k) = true := by
  induction m with
  | nil => exact .inl rfl
  | cons entry m ih =>
    obtain ⟨k', v⟩ := entry
    by_cases hp : p (k', v) = true
    · by_cases hk : k' = k
      · subst hk
        exact .inr (by simp [hp, Sparse.get])
      · simpa [hp, hk, Sparse.get] using ih
    · simpa [hp] using ih

/-- A listed unit stays when a slot's region has been zeroed: it is not a dirty one of that slot (R222). -/
def zeroingKeeps (e sl : Nat) (kv : Nat × RegionUnit) : Bool :=
  decide (¬(kv.1 / 512 = e ∧ kv.2.slot = sl ∧ kv.2.st = .dirty))

theorem exec_regionZeroed (e sl : Nat) (s : State) :
    exec (.regionZeroed e sl) s = .next { s with region := s.region.filter (zeroingKeeps e sl) } := rfl

theorem not_dirty_of_zeroed (r : Sparse RegionUnit) {e u : Nat} (sl : Nat) (hu : u < 512) :
    ¬((Sparse.get {} (r.filter (zeroingKeeps e sl)) (e * 512 + u)).st = .dirty ∧
      (Sparse.get {} (r.filter (zeroingKeeps e sl)) (e * 512 + u)).slot = sl) := by
  rintro ⟨hdirty, hslot⟩
  obtain hclean | hkept := Sparse.get_filter_eq_or {} r (zeroingKeeps e sl) (e * 512 + u)
  · simp [hclean] at hdirty
  · exact of_decide_eq_true hkept ⟨by omega, hslot, hdirty⟩

/-! ## A Caldera leaves service -/

/-- Of the attempts after a kill, each stands in no slot or was there and is another one. -/
theorem State.mem_flights_killSlots {s : State} {f g : Flight} (hg : g ∈ (s.killSlots f).flights) :
    g.slots = [] ∨ g ∈ s.flights ∧ g ≠ f := by
  have hwork : s.SameWork ((((s.each f.slots fun s es => s.wr .CE_PERF_COUNT (es.1 * 8 + 7)
      (s.rd .CE_PERF_COUNT (es.1 * 8 + 7) + 1)).abortOuts f).freeSlots f).dropReqs f) :=
    .after .dropReqs <| .after .freeSlots <| .after .abortOuts <| .each fun _ _ => .wr
  obtain ⟨h, hh, rfl⟩ := List.mem_map.1 hg
  split
  · exact .inl rfl
  · next hother => exact .inr ⟨hwork.flights ▸ hh, fun heq => hother (heq ▸ ⟨rfl, rfl⟩)⟩

theorem State.mem_flights_each_killSlots {l : List Flight} {s : State} {g : Flight}
    (hg : g ∈ (s.each l State.killSlots).flights) : g.slots = [] ∨ g ∈ s.flights ∧ g ∉ l := by
  induction l generalizing s with
  | nil => exact .inr ⟨hg, List.not_mem_nil⟩
  | cons f l ih =>
    obtain hnone | ⟨hmem, hrest⟩ := ih hg
    · exact .inl hnone
    · exact (State.mem_flights_killSlots hmem).imp_right fun ⟨hin, hne⟩ => ⟨hin, by simp [hne, hrest]⟩

/-- What REMOVE writes first: the Caldera reads DRAINING, and its operation is BUSY (R524). -/
def State.ceLeaves (s : State) (e : Nat) : State := (s.setCe e 2).wr .CE_CTRL_RESULT e 1

theorem State.rd_ceLeaves (s : State) (e : Nat) : (s.ceLeaves e).rd .CE_STATUS_STATE e = 2 := by
  rw [State.ceLeaves, State.rd_wr_ne _ _ (by simp), State.setCe]
  split
  · assumption
  · rw [fire_rd _ _ _ _ (by decide), State.rd_wr_same]
    rfl

theorem State.pend_ceLeaves {s : State} {n : Nat} (e : Nat) (h : s.pend n = true) : (s.ceLeaves e).pend n = true := by
  rw [State.ceLeaves, (SamePend.wr _ _ _ _ (by decide)).pend_eq, State.setCe]
  split
  · exact h
  · refine State.pend_fire _ ?_
    rwa [(SamePend.wr _ _ _ _ (by decide)).pend_eq]

theorem State.ceTakeOut_movesAttempts (s : State) (e : Nat) : (s.ceLeaves e).MovesAttempts (s.ceTakeOut e) :=
  .after .update (.each fun _ _ _ => .killSlots)

/-- No killable attempt stands on a Caldera that has left service (R524). -/
theorem State.slots_of_ceTakeOut {s : State} {e : Nat} {f : Flight} (hf : f ∈ (s.ceTakeOut e).flights)
    (hkill : f.killable = true) : ∀ x ∈ f.slots, x.1 ≠ e := by
  intro x hx he
  obtain hnone | ⟨hmem, hspared⟩ := State.mem_flights_each_killSlots hf
  · simp [hnone] at hx
  · refine hspared (List.mem_filter.2 ⟨hmem, ?_⟩)
    simp only [hkill, Bool.true_and, List.any_eq_true, beq_iff_eq]
    exact ⟨x, hx, he⟩

theorem State.ce_of_mem_resident_ceTakeOut {s : State} {e : Nat} {r : Resident} (hr : r ∈ (s.ceTakeOut e).resident) :
    r.ce ≠ e := of_decide_eq_true (List.mem_filter.1 hr).2

/-- An array parity error of a Caldera in service: its source is raised and the Caldera is taken out (R233, R525). -/
theorem State.arrayParity_of_inService {e sl : Nat} {s : State} (he : e < 6) (hstate : s.rd .CE_STATUS_STATE e = 1)
    (hslot : s.inSlot e sl = none) : ∃ b, exec (.arrayParity e sl) s =
      .next { (s.fire (192 + 16 * e + 3)).ceTakeOut e with brg := b } := by
  have hfired : (s.fire (192 + 16 * e + 3)).inSlot e sl = none := by
    rw [State.inSlot, State.SameWork.fire.flights]
    exact hslot
  have hin : (s.fire (192 + 16 * e + 3)).rd .CE_STATUS_STATE e = 1 := by
    rw [fire_rd _ _ _ _ (by decide), hstate]
  show ∃ b, execArrayParity e sl s = _
  simp only [execArrayParity, if_pos (And.intro he (hstate ▸ one_ne_zero)), hfired, State.ceFault, if_pos hin]
  exact ⟨_, rfl⟩

end Sys2Proof.Machine
end

section
/-! The claim about sequencers, regions and parity errors. -/

namespace Sys2Proof.Machine

/-- Settles O29: the first free sequencer is one that may serve the slot, zeroing drops exactly the slot's dirty units,
and a parity error raises its source before the Caldera and what stands on it go. -/
theorem sequencersRegionsAndParity : Obligations.SequencersRegionsAndParity := by
  unfold Obligations.SequencersRegionsAndParity
  refine ⟨?noneWaits, ?oneWaits, ?zeroed, ?early, ?late, ?absent, ?parity⟩
  case noneWaits => exact fun e s h => State.sequencerBind_of_none h
  case oneWaits =>
    intro e sl i f s _ _ hwaits hfree hlow
    refine ⟨_, State.sequencerBind_of_single hwaits hfree hlow, ?_, ?_, fun u hu => ?_, rfl, rfl⟩
    · rw [State.rd_startFirmware_setFlight, State.rd_wr_ne _ _ (by simp), State.rd_wr_same]
      rfl
    · rw [State.rd_startFirmware_setFlight, State.rd_wr_same]
      rfl
    · rw [State.rd_startFirmware_setFlight, State.rd_wr_ne _ _ (by simp), State.rd_wr_ne _ _ fun h => hu h.2]
  case zeroed =>
    exact fun e sl s => ⟨_, exec_regionZeroed e sl s, fun u hu => not_dirty_of_zeroed s.region sl hu,
      fun k hkeep hk => List.mem_filter.2 ⟨hk, decide_eq_true hkeep⟩, rfl⟩
  case early => exact fun ctx q s h => State.regionWait_of_early h
  case late => exact fun ctx q f s hf hplaced hbound hlate => State.regionWait_of_late hf hplaced hbound hlate
  case absent =>
    intro e sl s habsent
    show execArrayParity e sl s = _
    rw [execArrayParity, if_neg (by omega)]
  case parity =>
    intro e sl s he hstate hslot
    obtain ⟨b, hexec⟩ := State.arrayParity_of_inService he hstate hslot
    have hmoves := (s.fire (192 + 16 * e + 3)).ceTakeOut_movesAttempts e
    refine ⟨_, hexec, fun hlive henabled hdead => ?_, ?_, fun r => State.ce_of_mem_resident_ceTakeOut,
      fun f => State.slots_of_ceTakeOut⟩
    · exact hmoves.pend _ (State.pend_ceLeaves e (fire_raised s _ hlive henabled hdead))
    · exact (hmoves.rd _ e (by decide) (by decide)).trans (State.rd_ceLeaves _ e)

end Sys2Proof.Machine
end

section
/-! What retires a frame or writes through a mapping leaves alone: the tables of tensors, sequences, queues and attempts
(R76, R82, R89, R522). -/

namespace Sys2Proof.Machine

/-- `t` is `s` but for the register file, memory, its frames and mappings, the bridge's record of them, and what raising
interrupt sources moves. -/
def State.SameButMemory (s t : State) : Prop :=
  { t with csr := s.csr, mem := s.mem, m := s.m, brg := s.brg, sent := s.sent, pba := s.pba, geyLatch := s.geyLatch } = s

namespace State.SameButMemory

theorem refl (s : State) : s.SameButMemory s := rfl

/-- What comes first stands last, in the order the model writes the steps of an operation. -/
theorem after {s t u : State} (k : t.SameButMemory u) (h : s.SameButMemory t) : s.SameButMemory u := by
  unfold State.SameButMemory at h k ⊢
  rw [← h, ← k]

theorem update {s : State} {csr' mem' m' brg'} :
    s.SameButMemory { s with csr := csr', mem := mem', m := m', brg := brg' } := rfl

theorem ite {c : Prop} [Decidable c] {s a b : State} (ha : s.SameButMemory a) (hb : s.SameButMemory b) :
    s.SameButMemory (if c then a else b) := by split <;> assumption

theorem each {α : Type} {g : State → α → State} {l : List α} {s : State}
    (hg : ∀ (s : State) (x : α), s.SameButMemory (g s x)) : s.SameButMemory (s.each l g) :=
  List.foldlRecOn l g (.refl s) fun _ ht x _ => (hg _ x).after ht

theorem fire {s : State} {n : Nat} : s.SameButMemory (s.fire n) :=
  (congrArg (fun t : State => { t with mem := s.mem, m := s.m, brg := s.brg }) (fire_frame s n).1 :)

theorem seq_eq {s t : State} (h : s.SameButMemory t) (ctx n : Nat) : t.seq ctx n = s.seq ctx n :=
  (congrArg (fun u : State => u.seq ctx n) h :)

theorem queue_eq {s t : State} (h : s.SameButMemory t) (gq : Nat) : t.queue gq = s.queue gq :=
  (congrArg (fun u : State => u.queue gq) h :)

theorem flightsOf_eq {s t : State} (h : s.SameButMemory t) (gq : Nat) : t.flightsOf gq = s.flightsOf gq :=
  (congrArg (fun u : State => u.flightsOf gq) h :)

/-! ## Memory and frames -/

theorem putBytes {s : State} {k : Nat} {l : List Byte} : s.SameButMemory (s.putBytes k l) := by
  induction l generalizing s k with
  | nil => exact .refl _
  | cons b l ih => exact .after ih .update

theorem pcState {s : State} {pc st : Nat} : s.SameButMemory (s.pcState pc st) := .ite (.refl _) (.after .fire .update)

theorem startRetire {s : State} {pc : Nat} : s.SameButMemory (s.startRetire pc) :=
  .ite (.after .update <| .after .update <| .after .pcState .update) .update

theorem nextRetire {s : State} : s.SameButMemory s.nextRetire := by
  unfold State.nextRetire
  split
  · exact .refl _
  split
  · exact .refl _
  · exact .after .startRetire .update

theorem wantRetire {s : State} {pc : Nat} : s.SameButMemory (s.wantRetire pc) :=
  .ite (.refl _) (.after .nextRetire .update)

theorem retireFrame {s : State} {n : Nat} : s.SameButMemory (s.retireFrame n) := by
  have hretired : s.SameButMemory { (s.setFrame n { s.frame n with st := .retired, ref := 0 }).fire 70 with
      brg := { ((s.setFrame n { s.frame n with st := .retired, ref := 0 }).fire 70).brg with dirty := true } } :=
    .after .update <| .after .fire .update
  unfold State.retireFrame
  dsimp only
  split
  · split
    · split
      · exact .after .wantRetire hretired
      · exact hretired
    · exact hretired
  · exact hretired

theorem releaseFrames {s : State} {n k : Nat} : s.SameButMemory (s.releaseFrames n k) :=
  .each fun _ _ => .ite .retireFrame .update

theorem decRef {s : State} {ctx n : Nat} : s.SameButMemory (s.decRef ctx n) := by
  unfold State.decRef
  dsimp only
  split
  · exact .update
  · exact .ite (.after .update .releaseFrames) .update
  · exact .refl _

theorem unmapUnit {s : State} {ctx va : Nat} : s.SameButMemory (s.unmapUnit ctx va) := by
  unfold State.unmapUnit
  split
  · exact .refl _
  · exact .after (.ite (.refl _) .decRef) (.each fun _ _ => .update)

theorem takeUnit {s t : State} {ctx u n : Nat} (h : s.takeUnit ctx u = some (t, n)) : s.SameButMemory t := by
  unfold State.takeUnit at h
  dsimp only at h
  split at h
  · obtain ⟨n', -, he⟩ := Option.map_eq_some_iff.1 h
    cases he
    exact .after .update (.each fun _ _ => .update)
  · cases h

theorem takeFrames {s : State} {ctx n : Nat} : s.SameButMemory (s.takeFrames ctx n).1 := by
  induction n generalizing s with
  | zero => exact .refl _
  | succ n ih =>
    unfold State.takeFrames
    split
    · exact .refl _
    · exact .after ih (.takeUnit ‹_›)

end State.SameButMemory

end Sys2Proof.Machine
end

section
/-! Swapping and parking: the start of the two commands, what a swap moves, and a park that fails (R93, R297-R299). -/

namespace Sys2Proof.Machine

@[simp] theorem State.seq_setSeq_same (s : State) (ctx h : Nat) (q : Seq) : (s.setSeq ctx h q).seq ctx h = q :=
  Sparse.get_set_same _ _ _ _

@[simp] theorem State.tensor_setTensor_same (s : State) (ctx h : Nat) (t : Tensor) :
    (s.setTensor ctx h t).tensor ctx h = t := Sparse.get_set_same _ _ _ _

/-! ## The checks (R162) -/

section
variable {gq : Nat} {s : State} {d : List Byte}

theorem seqHandleCheck_of_sound (hhandle : handleOk (d32 d 0x10) = true) (hzero : dZero d 0x14 0x100 = true) :
    seqHandleCheck gq s d = if !(s.isSeq (gqCtx gq) (d32 d 0x10)) then .error (5, d32 d 0x10) else .ok {} := by
  rw [seqHandleCheck, hhandle, hzero]
  rfl

theorem swapChecks_of_error {e : Nat × Nat} (hhandle : seqHandleCheck gq s d = .error e) :
    swapOutCheck gq s d = .error e ∧ swapInCheck gq s d = .error e := by
  rw [swapOutCheck, swapInCheck, hhandle]
  exact ⟨rfl, rfl⟩

variable {p : Plan} (hhandle : seqHandleCheck gq s d = .ok p)
include hhandle

theorem swapOutCheck_of_swapped (hout : (s.tensor (gqCtx gq) (d32 d 0x10)).swapped = true) :
    swapOutCheck gq s d = .error (5, d32 d 0x10) := by
  rw [swapOutCheck, hhandle]
  exact if_pos hout

theorem swapOutCheck_of_arenaOff (hin : (s.tensor (gqCtx gq) (d32 d 0x10)).swapped = false)
    (harena : s.arenaOn (gqCtx gq) = false) : swapOutCheck gq s d = .error (7, 0) := by
  rw [swapOutCheck, hhandle]
  dsimp only
  rw [hin, harena]
  rfl

theorem swapInCheck_of_resident (hin : (s.tensor (gqCtx gq) (d32 d 0x10)).swapped = false) :
    swapInCheck gq s d = .error (5, d32 d 0x10) := by
  rw [swapInCheck, hhandle]
  dsimp only
  rw [hin]
  rfl

end

/-! ## The starts -/

/-- `State.startCmd_of_starts` for a `go` that moves the state and leaves its queue as it stands. -/
theorem State.startCmd_entered {s t : State} {gq op : Nat} {d : List Byte} {f : Flight}
    {act : State → Flight → State} {check : State → List Byte → Except (Nat × Nat) Plan}
    {blocked : State → List Byte → Bool} {go : State → Flight → Plan → State × Flight} {fin : State → State}
    (hstarts : s.starts gq op d) (hcheck : check s d = .ok {}) (hfree : blocked s d = false)
    (hgo : go s (s.started gq d) {} = (t, f)) (hqueue : t.queue gq = s.queue gq) (hbinds : f.binds = []) :
    s.startCmd gq op act check blocked go fin = fin (t.entered gq d f) := by
  obtain ⟨hcand, hop, hmay, hheader⟩ := hstarts
  have hconflict : s.conflict gq (dInPlace d) {} = none := rfl
  have hacquire : s.acquire gq (s.queue gq).sqStart (dInPlace d) [] = s := ite_self _
  have hissue (u : State) : u.issueReads f = u := by rw [State.issueReads, hbinds]; rfl
  have htouch (u : State) : u.touchBinds f = u := by rw [State.touchBinds, hbinds]; rfl
  have hattempt : { candFlight s gq ⟨(s.queue gq).sqStart, d, none⟩ with
      phase := .running, binds := [], outs := [] } = s.started gq d := rfl
  simp [State.startCmd, hcand, hop, hmay, hheader, hcheck, hconflict, hacquire, hfree, hattempt, hgo, hissue, htouch,
    hqueue, Cand.placed, State.canAcquire, State.entered]

theorem State.mem_flights_entered (s : State) (gq : Nat) (d : List Byte) (f : Flight) :
    f ∈ (s.entered gq d f).flights := List.mem_append_right _ (List.mem_singleton.2 rfl)

/-- A sequence is marked for a swap-out (R297). -/
def State.markSeq (s : State) (ctx h : Nat) : State := s.setSeq ctx h { s.seq ctx h with marked := true }

/-- A swap-out that can start marks its sequence and runs (R297). -/
theorem exec_kvSwapOut_of_starts {ctx q : Nat} {s : State} {d : List Byte} (hstarts : s.starts (qKey ctx q) 0x24 d)
    (hcheck : swapOutCheck (qKey ctx q) s d = .ok {}) (hfree : s.seqBusy (qKey ctx q) (d32 d 0x10) = false) :
    exec (.kvSwapOut ctx q) s =
      .next ((s.markSeq ctx (d32 d 0x10)).entered (qKey ctx q) d (s.started (qKey ctx q) d)) := by
  show execKvSwapOut ctx q s = _
  unfold execKvSwapOut
  exact congrArg Host.Outcome.next (State.startCmd_entered (fin := id) hstarts hcheck hfree rfl rfl rfl)

/-- A swap-in whose frames the pool can supply takes them and runs: it finds no need to park (R298). -/
theorem exec_kvSwapIn_of_supplied {ctx q n : Nat} {s : State} {d : List Byte} {f : Flight}
    (hstarts : s.starts (qKey ctx q) 0x25 d) (hempty : s.flightsOf (qKey ctx q) = [])
    (hcheck : swapInCheck (qKey ctx q) s d = .ok {}) (hn : n = (s.seq ctx (d32 d 0x10)).arena.length)
    (hsupply : s.canSupply ctx n = true)
    (hf : f = { s.started (qKey ctx q) d with frames := (s.takeFrames ctx n).2 }) :
    exec (.kvSwapIn ctx q) s = .next ((s.takeFrames ctx n).1.entered (qKey ctx q) d f) := by
  have htaken : s.SameButMemory (s.takeFrames ctx n).1 := .takeFrames
  have hgq : f.gq = qKey ctx q := by rw [hf]; rfl
  have hneed : f.need = 0 := by rw [hf]; rfl
  show execKvSwapIn ctx q s = _
  unfold execKvSwapIn
  dsimp only
  rw [State.startCmd_entered (f := f) (t := (s.takeFrames ctx n).1) hstarts hcheck rfl ?_ (htaken.queue_eq _) ?_]
  · simp [State.flightIn, State.flightsOf_entered d hgq, htaken.flightsOf_eq, hempty, hneed]
  · subst hn hf
    exact if_pos hsupply
  · rw [hf]; rfl

/-! ## What a swap moves -/

/-- A sequence holds one more page of its context's arena (R93, R297). -/
def State.holdArenaPage (s : State) (ctx h : Nat) (a : ArenaPage) : State :=
  let q := s.seq ctx h
  let s := s.setSeq ctx h { q with arena := q.arena ++ [a] }
  { s with m := { s.m with swapUsed := s.m.swapUsed.set 0 ctx (s.m.swapUsed.get 0 ctx + 1) } }

theorem State.seq_holdArenaPage (s : State) (ctx h : Nat) (a : ArenaPage) :
    (s.holdArenaPage ctx h a).seq ctx h = { s.seq ctx h with arena := (s.seq ctx h).arena ++ [a] } :=
  State.seq_setSeq_same _ _ _ _

/-- A page that is swapped out is written to the arena, held there, and unmapped (R297). -/
theorem State.swapPage_eq (s : State) (ctx h va : Nat) :
    ∃ k l a, s.swapPage ctx h va = ((s.putBytes k l).holdArenaPage ctx h a).unmapUnit ctx va :=
  ⟨_, _, _, rfl⟩

theorem State.arena_swapPage (s : State) (ctx h va : Nat) :
    ((s.swapPage ctx h va).seq ctx h).arena.length = (s.seq ctx h).arena.length + 1 := by
  obtain ⟨k, l, a, hpage⟩ := s.swapPage_eq ctx h va
  rw [hpage, State.SameButMemory.unmapUnit.seq_eq, State.seq_holdArenaPage, State.SameButMemory.putBytes.seq_eq,
    List.length_append, List.length_singleton]

theorem State.arena_each_swapPage (s : State) (ctx h : Nat) (l : List Nat) :
    ((s.each l fun s va => s.swapPage ctx h va).seq ctx h).arena.length = (s.seq ctx h).arena.length + l.length := by
  induction l generalizing s with
  | nil => rfl
  | cons va l ih => calc
      _ = ((s.swapPage ctx h va).seq ctx h).arena.length + l.length := ih _
      _ = (s.seq ctx h).arena.length + (va :: l).length := by rw [State.arena_swapPage, List.length_cons]; omega

theorem State.seq_swapOut (s : State) (ctx h : Nat) :
    (s.swapOut ctx h).seq ctx h =
      { (s.each (s.windowPages ctx (s.tensor ctx h).window) fun s va => s.swapPage ctx h va).seq ctx h with
        marked := false } := State.seq_setSeq_same _ _ _ _

theorem State.seq_swapIn (s : State) (ctx h : Nat) (frames : List Nat) :
    (s.swapIn ctx h frames).seq ctx h = { s.seq ctx h with arena := [] } := State.seq_setSeq_same _ _ _ _

theorem State.swapUsed_setPte (s : State) (ctx lvl va e : Nat) : (s.setPte ctx lvl va e).m.swapUsed = s.m.swapUsed :=
  rfl

theorem State.swapUsed_mapUnit (s : State) (ctx lvl va pa : Nat) (big sh : Bool) (cache xwr : Nat) :
    (s.mapUnit ctx lvl va pa big sh cache xwr).m.swapUsed = s.m.swapUsed := by
  unfold State.mapUnit
  split
  · exact State.each_unchanged (fun t : State => t.m.swapUsed) s fun _ _ _ => State.swapUsed_setPte _ _ _ _ _
  · exact State.swapUsed_setPte _ _ _ _ _

theorem State.m_setSeq (s : State) (ctx h : Nat) (q : Seq) : (s.setSeq ctx h q).m = s.m := rfl

theorem State.m_putBytes (s : State) (k : Nat) (l : List Byte) : (s.putBytes k l).m = s.m := by
  induction l generalizing s k with
  | nil => rfl
  | cons b l ih => exact ih _ _

/-- A context gives back `n` pages of its arena (R298). -/
def State.releaseArena (s : State) (ctx n : Nat) : State :=
  { s with m := { s.m with swapUsed := s.m.swapUsed.set 0 ctx (s.m.swapUsed.get 0 ctx - n) } }

theorem State.swapUsed_releaseArena (s : State) (ctx n : Nat) :
    (s.releaseArena ctx n).m.swapUsed.get 0 ctx = s.m.swapUsed.get 0 ctx - n := Sparse.get_set_same _ _ _ _

/-- A swap-in maps and writes its pages one by one, and gives its arena pages back (R298). -/
theorem State.swapIn_eq (s : State) (ctx h : Nat) (frames : List Nat) :
    ∃ g : State → ArenaPage × Nat → State,
      (∀ t pf, ∃ va pa k l, g t pf = (t.mapUnit ctx 3 va pa true false 0 3).putBytes k l) ∧
      s.swapIn ctx h frames =
        (((s.each ((s.seq ctx h).arena.zip frames) g).releaseArena ctx (s.seq ctx h).arena.length).setSeq ctx h
          { s.seq ctx h with arena := [] }).setTensor ctx h
          { (s.each ((s.seq ctx h).arena.zip frames) g).tensor ctx h with swapped := false } :=
  ⟨_, fun _ _ => ⟨_, _, _, _, rfl⟩, rfl⟩

theorem State.swapUsed_swapIn (s : State) (ctx h : Nat) (frames : List Nat) :
    (s.swapIn ctx h frames).m.swapUsed.get 0 ctx = s.m.swapUsed.get 0 ctx - (s.seq ctx h).arena.length := by
  obtain ⟨g, hpage, hswap⟩ := s.swapIn_eq ctx h frames
  have hkept : (s.each ((s.seq ctx h).arena.zip frames) g).m.swapUsed = s.m.swapUsed := by
    refine State.each_unchanged (fun t : State => t.m.swapUsed) s fun t pf _ => ?_
    obtain ⟨va, pa, k, l, hg⟩ := hpage t pf
    rw [hg, State.m_putBytes, State.swapUsed_mapUnit]
  rw [hswap, State.setTensor_m, State.m_setSeq, State.swapUsed_releaseArena, hkept]

/-! ## A park that fails (R93, R299) -/

theorem State.MovesAttempts.failFlight {s : State} {f : Flight} {status addr : Nat} :
    s.MovesAttempts (s.failFlight f status addr) :=
  .after .update <| .after .dropReqs <| .after .abortOuts .freeEmber

/-- The attempt of a command that parks: it waits for pages and holds nothing else. -/
def State.parkedFlight (s : State) (f : Flight) (need : Nat) : Flight :=
  { f with phase := .parked, ready := s.gcnt, need := need, slots := [], binds := [], outs := [], bound := false
           unit := 0 }

/-- The state in which a command has parked and VF_PARK shows it, before the park is taken up. -/
def State.parkShown (s : State) (f : Flight) (need : Nat) : State :=
  let ctx := gqCtx f.gq
  let s := (s.freeSlots f).setFlight ((s.freeSlots f).parkedFlight f need)
  ((((((s.wr .VF_PARK_VALID ctx 1).wr .VF_PARK_OUTCOME ctx 0).wr .VF_PARK_QUEUE ctx (f.gq % 512)).wr
    .VF_PARK_VICTIMS ctx 0).wr .VF_PARK_SLOT ctx (f.slot % 2 ^ (s.queue f.gq).sqLog)).wr
    .VF_PARK_NEED ctx (min need (2 ^ 24 - 1))).fire (ctxSrc ctx 3)

/-- Once VF_PARK shows a park, it fails for want of an arena, or the first of its context is taken up (R93, R299). -/
theorem State.park_eq (s : State) (f : Flight) (need : Nat) :
    s.park f need =
      if !(s.parkShown f need).arenaOn (gqCtx f.gq) then
        (s.parkShown f need).failPark ((s.freeSlots f).parkedFlight f need)
      else if (s.parked (gqCtx f.gq)).isEmpty then (s.parkShown f need).resolvePark (gqCtx f.gq) 513
      else s.parkShown f need := rfl

theorem State.rd_parkShown_valid (s : State) (f : Flight) (need : Nat) :
    (s.parkShown f need).rd .VF_PARK_VALID (gqCtx f.gq) = 1 := by
  have hwidth : 0 < Fld.VF_PARK_VALID.info.width := by decide
  rw [State.parkShown, fire_rd _ _ _ _ (by decide)]
  simp [hwidth]

theorem State.rd_parkShown_need (s : State) (f : Flight) (need : Nat) :
    (s.parkShown f need).rd .VF_PARK_NEED (gqCtx f.gq) = min need (2 ^ 24 - 1) := by
  rw [State.parkShown, fire_rd _ _ _ _ (by decide), State.rd_wr_same, show Fld.VF_PARK_NEED.info.width = 24 from rfl]
  exact Nat.mod_eq_of_lt (by omega)

theorem State.arenaOn_parkShown (s : State) (f : Flight) (need ctx : Nat) :
    (s.parkShown f need).arenaOn ctx = s.arenaOn ctx := by
  have hfreed := (State.MovesAttempts.freeSlots (s := s) (f := f)).rd .VF_SWAP_BASE_ENABLE ctx (by decide) (by decide)
  rw [State.arenaOn, State.arenaOn, ← hfreed, State.parkShown, fire_rd _ _ _ _ (by decide)]
  simp

theorem State.rd_failPark_outcome (s : State) (f : Flight) : (s.failPark f).rd .VF_PARK_OUTCOME (gqCtx f.gq) = 2 := by
  rw [State.failPark, fire_rd _ _ _ _ (by decide), State.rd_wr_same]
  rfl

/-- The end of a park shows in OUTCOME, and in fields of attempts and Geyser. -/
theorem State.rd_failPark {s : State} {f : Flight} {g : Fld} {u : Nat} (hg : g ≠ .VF_PARK_OUTCOME)
    (hattempt : g ∉ attemptFields) (hirq : g ∉ irqFields) : (s.failPark f).rd g u = s.rd g u := by
  rw [State.failPark, fire_rd _ _ _ _ hirq, State.rd_wr_ne _ _ fun h => hg h.1,
    State.MovesAttempts.failFlight.rd g u hattempt hirq]

/-! ## The end of a victim's swap-out -/

theorem exec_victimSwappedOut_of_unmarked {s : State} (ctx : Nat) (h : ∀ kv ∈ s.seqs, kv.2.marked = false) :
    exec (.victimSwappedOut ctx) s = .next s := by
  show execVictimSwappedOut ctx s = _
  rw [execVictimSwappedOut, List.filter_eq_nil_iff.2 fun kv hkv => by simp [h kv hkv]]
  rfl

end Sys2Proof.Machine
end

section
/-! The claim about swapping. -/

namespace Sys2Proof.Machine

/-- Settles O33: the two starts, one page of the arena for each page swapped out, the checks in their order, and a park
that fails after VF_PARK shows it. -/
theorem swapping : Obligations.Swapping := by
  unfold Obligations.Swapping
  refine ⟨?startOut, ?swapOut, ?swapIn, ?checks, ?park, ?startIn, ?noVictim⟩
  case startOut =>
    intro ctx q s d hstarts hcheck hfree
    exact ⟨_, exec_kvSwapOut_of_starts hstarts hcheck hfree, congrArg Seq.marked (State.seq_setSeq_same _ _ _ _), rfl,
      _, State.mem_flights_entered _ _ _ _, rfl, rfl, rfl⟩
  case swapOut =>
    intro ctx h s _ _
    refine ⟨congrArg Tensor.swapped (State.tensor_setTensor_same _ _ _ _), ?_, ?_⟩
    · rw [State.seq_swapOut]
    · rw [State.seq_swapOut]
      exact State.arena_each_swapPage s ctx h _
  case swapIn =>
    intro ctx h l s _ _
    exact ⟨congrArg Tensor.swapped (State.tensor_setTensor_same _ _ _ _), by rw [State.seq_swapIn],
      State.swapUsed_swapIn s ctx h l⟩
  case checks =>
    intro gq s d hhandle hzero
    have hcheck := seqHandleCheck_of_sound (gq := gq) (s := s) hhandle hzero
    refine ⟨fun hseq => ?notSeq, fun hseq => ?seq⟩
    case notSeq =>
      rw [hseq] at hcheck
      exact swapChecks_of_error hcheck
    case seq =>
      rw [hseq] at hcheck
      have hok : seqHandleCheck gq s d = .ok {} := hcheck
      exact ⟨swapOutCheck_of_swapped hok, fun hin =>
        ⟨swapInCheck_of_resident hok hin, swapOutCheck_of_arenaOff hok hin⟩⟩
  case park =>
    intro f n s _ harena
    rw [State.park_eq, State.arenaOn_parkShown, harena, Bool.not_false, if_pos rfl]
    refine ⟨State.rd_failPark_outcome _ _, ?_, ?_⟩
    · rw [State.rd_failPark (by decide) (by decide) (by decide), State.rd_parkShown_valid]
    · rw [State.rd_failPark (by decide) (by decide) (by decide), State.rd_parkShown_need]
  case startIn =>
    intro ctx q s d hstarts _ hempty hcheck hsupply
    exact ⟨_, exec_kvSwapIn_of_supplied hstarts hempty hcheck rfl hsupply rfl, _, State.mem_flights_entered _ _ _ _,
      rfl, rfl, rfl⟩
  case noVictim => exact fun ctx s h => exec_victimSwappedOut_of_unmarked ctx h

end Sys2Proof.Machine
end

section
/-! How a Tephra core executes one instruction: the rules of its registers and of the core's place in the state, the
checks before an instruction acts, and how it retires or raises (R303, R309, R318-R320). -/

namespace Sys2Proof.Machine

/-! ## A core in the state -/

@[simp] theorem State.core_setCore_same (s : State) (id : Nat) (c : Core) : (s.setCore id c).core id = c :=
  Sparse.get_set_same _ _ _ _

theorem State.core_setCore_ne (s : State) {id j : Nat} (c : Core) (h : j ≠ id) : (s.setCore id c).core j = s.core j :=
  Sparse.get_set_ne _ _ _ _ h

/-! ## Scalar registers -/

/-- A write of a scalar register is a write of the register file, or nothing. -/
theorem Core.setReg_eq (c : Core) (n v : Nat) :
    c.setReg n v = { c with g := if n = 0 then c.g else c.g.set 0 n (v % 2 ^ 64) } := by
  unfold Core.setReg
  split <;> rfl

@[simp] theorem Core.setReg_lact (c : Core) (n v : Nat) : (c.setReg n v).lact = c.lact := by rw [Core.setReg_eq]
@[simp] theorem Core.setReg_pc (c : Core) (n v : Nat) : (c.setReg n v).pc = c.pc := by rw [Core.setReg_eq]

@[simp] theorem Core.setReg_zero (c : Core) (v : Nat) : c.setReg 0 v = c := rfl

@[simp] theorem Core.reg_zero (c : Core) : c.reg 0 = 0 := rfl

theorem Core.reg_setReg_same (c : Core) {n : Nat} (v : Nat) (h : n ≠ 0) : (c.setReg n v).reg n = v % 2 ^ 64 := by
  simp [Core.setReg, Core.reg, h]

theorem Core.reg_setReg_ne (c : Core) {n m : Nat} (v : Nat) (h : m ≠ n) : (c.setReg n v).reg m = c.reg m := by
  rw [Core.setReg_eq, Core.reg, Core.reg]
  split
  · rfl
  · by_cases hn : n = 0
    · simp [hn]
    · simp [hn, Sparse.get_set_ne _ _ _ _ h]

/-! ## Profiles and register fields -/

theorem profile_eq_two_iff {id : Nat} : profile id = 2 ↔ id < 12 := by
  unfold profile
  split_ifs <;> simp [*]

theorem profile_fumarole {id : Nat} (h : id < 12) : profile id = 2 := profile_eq_two_iff.2 h

theorem profile_mem (id : Nat) : profile id ∈ [0, 1, 2] := by
  unfold profile
  split_ifs <;> simp

theorem gOk_iff (l : List Nat) : gOk l = true ↔ ∀ n ∈ l, n < 32 := by simp [gOk]

theorem vOk_iff (l : List Nat) : vOk l = true ↔ ∀ n ∈ l, n < 64 := by simp [vOk]

/-! ## Completion -/

/-- With no active loop no loop ends. -/
theorem Core.loopStep_of_inactive {c : Core} (h : c.lact = 0) (a : Nat) (l : List Nat) : c.loopStep a l = (c, none) := by
  induction l with
  | nil => rfl
  | cons n ns ih => simp [Core.loopStep, h, ih]

theorem Core.atLE_of_inactive {c : Core} (h : c.lact = 0) : c.atLE = false := by simp [Core.atLE, h]

/-- Outside loops, delay slots and shadows an instruction completes at the next address. -/
theorem Core.complete_none {old c : Core} (hslot : old.slot = none) (hshadow : old.shadow = none) (hlact : c.lact = 0)
    (hpc : c.pc = old.pc) : old.complete c none = c.step8 := by
  simp [Core.complete, Core.step8, Core.shadowStep, Core.loopStep_of_inactive hlact, hslot, hshadow, hpc]

/-! ## The checks before an instruction acts -/

/-- The state a body's result leaves: `old` is the core as the instruction found it. -/
def TRes.settle (s : State) (i : TI) (old : Core) : TRes → State
  | .done t c next => t.setCore i.core (old.complete c next)
  | .raw t => t
  | .err t r => t.raise i old r
  | .stall => s

/-- An instruction is fetched cleanly outside delay slots and loops, its zero fields 0 and its PRED a predicate. -/
structure State.FetchedAt (s : State) (i : TI) : Prop where
  on : s.coreOn i.core = true
  fetch : s.fetchRaise i (s.awake i.core) = none
  zero : i.zero = 0
  pred : i.pred < 8
  slot : (s.core i.core).slot = none
  lact : (s.core i.core).lact = 0

section
variable {s : State} {i : TI} {k : TChk} {body : State → Core → TRes}

theorem State.FetchedAt.tephra_eq (h : s.FetchedAt i) : s.tephra i k body =
    if !(k.prof.contains (profile i.core)) || k.bad then s.raise i (s.awake i.core) causeIllegal
    else if k.priv && !(s.core i.core).super then s.raise i (s.awake i.core) causePrivileged
    else if !k.always && !((s.awake i.core).cond i) then s.setCore i.core ((s.awake i.core).complete (s.awake i.core) none)
    else (body (if i.word = .corrected then s.wordCorrected i.core else s) (s.awake i.core)).settle s i
      (s.awake i.core) := by
  obtain ⟨hon, hfetch, hzero, hpred, hslot, hlact⟩ := h
  unfold State.tephra
  rw [if_neg (by simp [hon])]
  dsimp only
  split
  case h_1 r hr => exact absurd (hfetch.symm.trans hr) (by simp)
  case h_2 => exact ite_congr (by simp [Core.atLE, hzero, hpred, hslot, hlact]) (fun _ => rfl) fun _ => rfl

theorem State.FetchedAt.tephra_acts (h : s.FetchedAt i) (hprof : profile i.core ∈ k.prof) (hbad : k.bad = false)
    (hpriv : k.priv = true → (s.core i.core).super = true) (hcond : k.always = true ∨ (s.awake i.core).cond i = true) :
    s.tephra i k body = (body (if i.word = .corrected then s.wordCorrected i.core else s) (s.awake i.core)).settle s i
      (s.awake i.core) := by
  have hform : ¬ (!(k.prof.contains (profile i.core)) || k.bad) = true := by simp [hprof, hbad]
  have hmode : ¬ (k.priv && !(s.core i.core).super) = true := by cases hk : k.priv <;> simp [hk, hpriv]
  have hgate : ¬ (!k.always && !((s.awake i.core).cond i)) = true := by
    obtain hk | hk := hcond <;> simp [hk]
  rw [h.tephra_eq, if_neg hform, if_neg hmode, if_neg hgate]

/-- An illegal form raises ILLEGAL before anything else of the instruction (R318). -/
theorem State.FetchedAt.tephra_illegal (h : s.FetchedAt i) (hbad : k.bad = true) :
    s.tephra i k body = s.raise i (s.awake i.core) causeIllegal := by
  rw [h.tephra_eq, if_pos (by simp [hbad])]

/-- A legal form that asks for supervisor mode raises PRIVILEGED in user mode (R318). -/
theorem State.FetchedAt.tephra_privileged (h : s.FetchedAt i) (hprof : profile i.core ∈ k.prof) (hbad : k.bad = false)
    (hpriv : k.priv = true) (huser : (s.core i.core).super = false) :
    s.tephra i k body = s.raise i (s.awake i.core) causePrivileged := by
  rw [h.tephra_eq, if_neg (by simp [hprof, hbad]), if_pos (by simp [hpriv, huser])]

theorem State.quietAt.fetchedAt (h : s.quietAt i) : s.FetchedAt i := by
  obtain ⟨hon, hfetch, hzero, hpred, -, hslot, -, hlact⟩ := h
  exact ⟨hon, hfetch, hzero, hpred, hslot, hlact⟩

theorem State.quietAt.word (h : s.quietAt i) : i.word = .clean := by
  obtain ⟨-, -, -, -, hword, -⟩ := h
  exact hword

theorem State.quietAt.tephra_acts (h : s.quietAt i) (hprof : profile i.core ∈ k.prof) (hbad : k.bad = false)
    (hpriv : k.priv = true → (s.core i.core).super = true) (hcond : k.always = true ∨ (s.awake i.core).cond i = true) :
    s.tephra i k body = (body s (s.awake i.core)).settle s i (s.awake i.core) := by
  rw [h.fetchedAt.tephra_acts hprof hbad hpriv hcond, if_neg (by simp [h.word])]

theorem State.plainAt.tephra_acts (h : s.plainAt i) (hprof : profile i.core ∈ k.prof) (hbad : k.bad = false)
    (hpriv : k.priv = true → (s.core i.core).super = true) :
    s.tephra i k body = (body s (s.awake i.core)).settle s i (s.awake i.core) :=
  State.quietAt.tephra_acts h.1 hprof hbad hpriv (.inr h.2)

/-- At a quiet place an instruction that touches neither loops nor its address retires. -/
theorem State.quietAt.complete_none (h : s.quietAt i) {c : Core} (hlact : c.lact = (s.core i.core).lact)
    (hpc : c.pc = (s.core i.core).pc) : (s.awake i.core).complete c none = c.step8 := by
  obtain ⟨-, -, -, -, -, hslot, hshadow, hinactive⟩ := h
  exact Core.complete_none hslot hshadow (hlact.trans hinactive) hpc

theorem State.plainAt.tephra_done (h : s.plainAt i) (hprof : profile i.core ∈ k.prof) (hbad : k.bad = false)
    (hpriv : k.priv = true → (s.core i.core).super = true) {t : State} {c : Core}
    (hbody : body s (s.awake i.core) = .done t c none) (hlact : c.lact = (s.core i.core).lact)
    (hpc : c.pc = (s.core i.core).pc) : s.tephra i k body = t.setCore i.core c.step8 := by
  rw [h.tephra_acts hprof hbad hpriv, hbody, TRes.settle, h.1.complete_none hlact hpc]

theorem State.plainAt.tephra_err (h : s.plainAt i) (hprof : profile i.core ∈ k.prof) (hbad : k.bad = false)
    (hpriv : k.priv = true → (s.core i.core).super = true) {t : State} {r : Raise}
    (hbody : body s (s.awake i.core) = .err t r) : s.tephra i k body = t.raise i (s.awake i.core) r := by
  rw [h.tephra_acts hprof hbad hpriv, hbody, TRes.settle]

end

/-! ## Raising on a Fumarole -/

/-- A Fumarole with EXL 0 enters the exception (R320). -/
theorem State.raise_fumarole {i : TI} {c : Core} {r : Raise} (s : State) (hcore : i.core < 12) (hexl : c.exl = false) :
    s.raise i c r = s.setCore i.core (c.enter r.cause r.eva) := by
  simp [State.raise, profile_fumarole hcore, hexl]

end Sys2Proof.Machine
end

section
/-! The claim about integer instructions (R307). -/

namespace Sys2Proof.Machine

theorem intOp_add (w a b : Nat) : (intOp .add w a b false : Int) = (a + b : Int) % 2 ^ w := by
  simp [intOp]

theorem intOp_sub {w b : Nat} (a : Nat) (hb : b < 2 ^ w) : (intOp .sub w a b false : Int) = (a - b : Int) % 2 ^ w := by
  have hle : b ≤ a + 2 ^ w := by omega
  have hcast : ((a + 2 ^ w - b : Nat) : Int) = (a - b : Int) + 2 ^ w := by push_cast [hle]; omega
  simp only [intOp, Int.natCast_emod, hcast]
  simp

theorem intOp_mul (w a b : Nat) : (intOp .mul w a b false : Int) = (a * b : Int) % 2 ^ w := by
  simp [intOp]

/-- A shift's amount acts modulo the width. -/
theorem intOp_shift_mod {op : IntOp} (hop : op ∈ [IntOp.shl, .shr, .sra, .rol, .shli, .shri, .srai]) (w a b : Nat) :
    intOp op w a b false = intOp op w a (b % w) false := by
  simp only [List.mem_cons, List.not_mem_nil, or_false] at hop
  rcases hop with rfl | rfl | rfl | rfl | rfl | rfl | rfl <;> simp [intOp]

/-- The most negative value divided by -1 overflows to itself, with remainder 0. -/
theorem intOp_div_overflow {w : Nat} (hw : w = 64 ∨ w = 32) :
    intOp .div w (2 ^ (w - 1)) (2 ^ w - 1) false = 2 ^ (w - 1) ∧ intOp .rem w (2 ^ (w - 1)) (2 ^ w - 1) false = 0 := by
  obtain rfl | rfl := hw <;> decide

/-- Sign extension reads no bit above the width. -/
theorem sext_mod (w v : Nat) : sext w (v % 2 ^ w) = sext w v := by simp [sext, toSigned]

/-- Settles O34: the operations on their operands, and an integer instruction as a write of its destination. -/
theorem integerInstructions : Obligations.IntegerInstructions := by
  unfold Obligations.IntegerInstructions
  refine ⟨?operations, ?retires, ?registers⟩
  case operations =>
    intro w a b hw _ hb
    exact ⟨⟨intOp_add w a b, intOp_sub a hb, intOp_mul w a b⟩, fun op hop => intOp_shift_mod hop w a b,
      ⟨rfl, rfl, rfl, rfl⟩, intOp_div_overflow hw⟩
  case retires =>
    intro i op o s hplain htyp hdst h1 h2 h3
    refine ⟨_, Nat.mod_lt _ (Nat.two_pow_pos _), ?_, rfl⟩
    rw [sext_mod]
    refine congrArg Host.Outcome.next (hplain.tephra_done (profile_mem _) ?legal (by simp) rfl (Core.setReg_lact _ _ _)
      (Core.setReg_pc _ _ _))
    have hregs : gOk [o.dst, o.s1] = true ∧ gOk [o.s2, o.s3] = true := by simp [gOk_iff]; omega
    simp [hregs, htyp.not_ge, h3.not_ge]
  case registers =>
    exact fun c n v => ⟨c.setReg_zero v, c.reg_zero, c.reg_setReg_same v, fun m hm => c.reg_setReg_ne v hm⟩

end Sys2Proof.Machine
end

section
/-! Memory instructions: bytes of a core's local memory, the accesses to each space, and how loads, stores and atomics
retire or raise (R304-R306, R318, R319). -/

namespace Sys2Proof.Machine

/-! ## Bytes of a local memory -/

/-- A byte below the bytes written reads as before. -/
theorem get_putSeed_below (m : Sparse Nat) {a k : Nat} (bs : List Byte) (h : k < a) :
    (putSeed m a bs).get 0 k = m.get 0 k := by
  induction bs generalizing m a with
  | nil => rfl
  | cons b bs ih => rw [putSeed, ih _ (by omega), Sparse.get_set_ne _ _ _ _ (by omega)]

/-- The bytes written are the bytes read back. -/
theorem map_seedByte_putSeed (m : Sparse Nat) (seed a : Nat) (bs : List Byte) :
    ((List.range bs.length).map fun k => seedByte (putSeed m a bs) seed (a + k)) = bs := by
  induction bs generalizing m a with
  | nil => rfl
  | cons b bs ih =>
    have hhead : seedByte (putSeed m a (b :: bs)) seed a = b := by
      rw [seedByte, putSeed, get_putSeed_below _ bs (Nat.lt_add_one a), Sparse.get_set_same]
      exact (BitVec.ofNat_toNat 8 b).trans (BitVec.setWidth_eq b)
    rw [List.length_cons, List.range_succ_eq_map, List.map_cons, List.map_map]
    congr 1
    exact (List.map_congr_left fun k _ => congrArg (seedByte _ seed) (Nat.add_right_comm a k 1)).trans (ih _ (a + 1))

theorem length_natLe (n v : Nat) : (natLe n v).length = n := by
  induction n generalizing v with
  | zero => rfl
  | succ n ih => simp [natLe, ih]

theorem leNat_natLe {n v : Nat} (h : v < 2 ^ (8 * n)) : leNat (natLe n v) = v := by
  induction n generalizing v with
  | zero => simp [natLe, leNat]; omega
  | succ n ih =>
    have hrest : v / 256 < 2 ^ (8 * n) := by
      rw [Nat.div_lt_iff_lt_mul (by decide)]
      exact h.trans_eq (by rw [Nat.mul_succ, Nat.pow_add])
    rw [natLe, leNat, ih hrest, BitVec.toNat_ofNat]
    exact Nat.mod_add_div v 256

/-- A load gives back what a store of the same place wrote. -/
theorem Core.leNat_locBytes_putLoc (c : Core) (a : Nat) {n v : Nat} (h : v < 2 ^ (8 * n)) :
    leNat ((c.putLoc a (natLe n v)).locBytes a n) = v := by
  have hbytes := map_seedByte_putSeed c.loc c.locSeed a (natLe n v)
  rw [length_natLe] at hbytes
  exact (congrArg leNat hbytes).trans (leNat_natLe h)

/-! ## Accesses -/

/-- What a bad local address raises: MISALIGNED before REGION (R319). -/
def localFault (a n : Nat) : Raise := { cause := if a % n ≠ 0 then 0x06 else 0x07, eva := a }

theorem localRaise_of_inside {a n size : Nat} (halign : a % n = 0) (hin : a + n ≤ size) :
    localRaise a n size = none := by
  rw [localRaise, if_neg (by simp [halign]), if_neg hin.not_gt]

theorem localRaise_of_bad {a n size : Nat} (h : a % n ≠ 0 ∨ size < a + n) :
    localRaise a n size = some (localFault a n) := by
  unfold localRaise localFault
  by_cases halign : a % n = 0
  · simp [halign, h.resolve_left (by simp [halign])]
  · simp [halign]

theorem State.localSize_fumarole {s : State} {id : Nat} (h : id < 12) : s.localSize id = 65536 := by
  simp [State.localSize, profile_fumarole h]

section
variable {s : State} {i : TI} {c : Core} {space a n v : Nat}

theorem State.coreLoad_local_of_inside (hcore : i.core < 12) (hword : i.word = .clean) (halign : a % n = 0)
    (hin : a + n ≤ 65536) : s.coreLoad i c 1 a n = (s, .ok (leNat (c.locBytes a n))) := by
  simp [State.coreLoad, State.localSize_fumarole hcore, localRaise_of_inside halign hin, hword]

theorem State.coreLoad_local_of_bad (hcore : i.core < 12) (h : a % n ≠ 0 ∨ 65536 < a + n) :
    s.coreLoad i c 1 a n = (s, .error (localFault a n)) := by
  simp only [State.coreLoad, State.localSize_fumarole hcore, localRaise_of_bad h]

theorem State.coreStore_local_of_inside (hcore : i.core < 12) (halign : a % n = 0) (hin : a + n ≤ 65536) :
    s.coreStore i c 1 a n v = (s, .ok (c.putLoc a (natLe n v))) := by
  simp [State.coreStore, State.localSize_fumarole hcore, localRaise_of_inside halign hin]

theorem State.coreStore_local_of_bad (hcore : i.core < 12) (h : a % n ≠ 0 ∨ 65536 < a + n) :
    s.coreStore i c 1 a n v = (s, .error (localFault a n)) := by
  simp only [State.coreStore, State.localSize_fumarole hcore, localRaise_of_bad h]

/-- A store to SPACE 0 leaves the core itself as it is. -/
theorem State.coreStore_memory_core {t : State} {d : Core} (h : s.coreStore i c 0 a n v = (t, .ok d)) : d = c := by
  simp only [State.coreStore] at h
  split at h
  · cases h
  · split at h
    · cases h
      rfl
    · cases h
    · cases h

end

/-! ## Loads, stores and atomics at a plain place -/

section
variable {s t : State} {i : TI} {m : TMem} {v : Nat} {r : Raise}

theorem State.plainAt.tLoad_ok (h : s.plainAt i) (hform : memBad i m = false) (signed : Bool)
    (hload : s.coreLoad i (s.awake i.core) m.space ((s.awake i.core).memAddr m) (2 ^ m.size) = (t, .ok v)) :
    s.tLoad i m signed =
      t.setCore i.core ((s.awake i.core).setReg m.data (if signed then sext (8 * 2 ^ m.size) v else v)).step8 := by
  refine h.tephra_done (profile_mem _) hform (by simp) ?_ (Core.setReg_lact _ _ _) (Core.setReg_pc _ _ _)
  simp only [accBytes, hload]

theorem State.plainAt.tLoad_error (h : s.plainAt i) (hform : memBad i m = false) (signed : Bool)
    (hload : s.coreLoad i (s.awake i.core) m.space ((s.awake i.core).memAddr m) (2 ^ m.size) = (t, .error r)) :
    s.tLoad i m signed = t.raise i (s.awake i.core) r := by
  refine h.tephra_err (profile_mem _) hform (by simp) ?_
  simp only [accBytes, hload]

theorem State.plainAt.exec_tSt_ok (h : s.plainAt i) (hform : memBad i m = false) {c : Core}
    (hstore : s.coreStore i (s.awake i.core) m.space ((s.awake i.core).memAddr m) (2 ^ m.size)
      ((s.awake i.core).reg m.data % 2 ^ (8 * 2 ^ m.size)) = (t, .ok c))
    (hlact : c.lact = (s.core i.core).lact) (hpc : c.pc = (s.core i.core).pc) :
    exec (.tSt i m) s = .next (t.setCore i.core c.step8) := by
  refine congrArg Host.Outcome.next (h.tephra_done (profile_mem _) hform (by simp) ?_ hlact hpc)
  simp only [accBytes, hstore]

theorem State.plainAt.exec_tSt_error (h : s.plainAt i) (hform : memBad i m = false)
    (hstore : s.coreStore i (s.awake i.core) m.space ((s.awake i.core).memAddr m) (2 ^ m.size)
      ((s.awake i.core).reg m.data % 2 ^ (8 * 2 ^ m.size)) = (t, .error r)) :
    exec (.tSt i m) s = .next (t.raise i (s.awake i.core) r) := by
  refine congrArg Host.Outcome.next (h.tephra_err (profile_mem _) hform (by simp) ?_)
  simp only [accBytes, hstore]

/-- An atomic whose load and store are let through: memory takes the new value, DATA what `f` gives of the old one. -/
theorem State.plainAt.amo_ok (h : s.plainAt i) (hcore : i.core < 12) (hform : memBad i m = false) (hspace : m.space = 0)
    {f : State → Nat → Nat → State × Nat × Nat} {s1 s2 : State} {old new back : Nat}
    (hload : s.coreLoad i (s.awake i.core) 0 ((s.awake i.core).memAddr m) (2 ^ m.size) = (s1, .ok old))
    (hf : f s1 old ((s.awake i.core).reg m.data % 2 ^ (8 * 2 ^ m.size)) = (s2, new, back))
    (hstore : s2.coreStore i (s.awake i.core) 0 ((s.awake i.core).memAddr m) (2 ^ m.size) new =
      (t, .ok (s.awake i.core))) :
    s.amo i m f = t.setCore i.core ((s.awake i.core).setReg m.data (sext (8 * 2 ^ m.size) back)).step8 := by
  refine h.tephra_done (by simp [profile_fumarole hcore]) (by simp [hform, hspace]) (by simp) ?_ (Core.setReg_lact _ _ _)
    (Core.setReg_pc _ _ _)
  simp only [accBytes, hload, hf, hstore]

end

end Sys2Proof.Machine
end

section
/-! The claim about loads, stores and atomics. -/

namespace Sys2Proof.Machine

/-- Settles O36: the accesses to local memory, the bytes read back, SPACE 0, and the four atomics. -/
theorem loadsStoresAtomics : Obligations.LoadsStoresAtomics := by
  unfold Obligations.LoadsStoresAtomics
  refine ⟨?localMemory, ?readBack, ?loads, ?stores, ?atomics⟩
  case localMemory =>
    intro i m s hplain hcore hform hspace c a n
    refine ⟨fun halign hin => ?inside, fun hexl hbad => ?outside⟩
    case inside =>
      have hload : s.coreLoad i c m.space a n = (s, .ok (leNat (c.locBytes a n))) := by
        rw [hspace]
        exact State.coreLoad_local_of_inside hcore hplain.1.word halign hin
      refine ⟨congrArg Host.Outcome.next (hplain.tLoad_ok hform true hload),
        congrArg Host.Outcome.next (hplain.tLoad_ok hform false hload), hplain.exec_tSt_ok hform ?_ rfl rfl⟩
      rw [hspace]
      exact State.coreStore_local_of_inside hcore halign hin
    case outside =>
      have hload : s.coreLoad i c m.space a n = (s, .error (localFault a n)) := by
        rw [hspace]
        exact State.coreLoad_local_of_bad hcore hbad
      have hstore : s.coreStore i c m.space a n (c.reg m.data % 2 ^ (8 * n)) =
          (s, .error (localFault a n)) := by
        rw [hspace]
        exact State.coreStore_local_of_bad hcore hbad
      have henter := congrArg (Host.Outcome.next (φ := Fault) (ρ := Refusal))
        (s.raise_fumarole (c := c) (r := localFault a n) hcore hexl)
      simp only [List.forall_mem_cons, List.not_mem_nil, false_imp_iff, implies_true, and_true]
      exact ⟨(congrArg Host.Outcome.next (hplain.tLoad_error hform true hload)).trans henter,
        (congrArg Host.Outcome.next (hplain.tLoad_error hform false hload)).trans henter,
        (hplain.exec_tSt_error hform hstore).trans henter⟩
  case readBack => exact fun c a n v hv => c.leNat_locBytes_putLoc a hv
  case loads =>
    intro i m s t v hplain hform hspace hload
    rw [← hspace] at hload
    exact ⟨congrArg Host.Outcome.next (hplain.tLoad_ok hform true hload),
      congrArg Host.Outcome.next (hplain.tLoad_ok hform false hload)⟩
  case stores =>
    intro i m s t c hplain hform hspace hstore
    obtain rfl := State.coreStore_memory_core hstore
    rw [← hspace] at hstore
    exact hplain.exec_tSt_ok hform hstore rfl rfl
  case atomics =>
    intro i m s s1 old hplain hcore hform hspace c n v hload
    refine ⟨fun x new t hx hstore => ?exchange, fun hstores => ?compare⟩
    case exchange =>
      obtain ⟨rfl, rfl⟩ | ⟨rfl, rfl⟩ | ⟨rfl, rfl⟩ := hx <;>
        exact congrArg Host.Outcome.next (hplain.amo_ok hcore hform hspace hload rfl hstore)
    case compare =>
      obtain ⟨t, ht⟩ := hstores _
      exact ⟨_, congrArg Host.Outcome.next (hplain.amo_ok hcore hform hspace hload rfl ht),
        State.core_setCore_same _ _ _⟩

end Sys2Proof.Machine
end

section
/-! System instructions: what an exception entry saves and sets, and what ERET gives back (R303, R316, R320-R325,
R470). -/

namespace Sys2Proof.Machine

/-! ## The mode of a handler -/

theorem Core.rm_lt (c : Core) : c.rm < 4 := Nat.mod_lt _ (by decide)

section
variable (c : Core) (cause eva : Nat)

/-- The mode an exception enters has PRIV 1, IE 0, EXL 1 and RM as it was (R320). -/
theorem Core.enter_mode_fields : (c.enter cause eva).super = true ∧ (c.enter cause eva).ie = false ∧
    (c.enter cause eva).exl = true ∧ (c.enter cause eva).rm = c.rm := by
  have hmode : (c.enter cause eva).mode = 24 + c.rm := rfl
  have hrm := c.rm_lt
  rw [Core.super, Core.ie, Core.exl, Core.rm, hmode]
  generalize c.rm = r at hrm
  interval_cases r <;> decide

/-! ## What an entry saves -/

theorem Core.enter_epc_of_slot_none (h : c.slot = none) : (c.enter cause eva).epc = c.pc := by
  rw [Core.enter, h]

theorem Core.enter_ebt_of_slot_none (h : c.slot = none) : (c.enter cause eva).ebt = 0 := by
  rw [Core.enter, h]

theorem Core.enter_epmode_of_shadow_none (h : c.shadow = none) : (c.enter cause eva).epmode = c.mode := by
  rw [Core.enter, h]

theorem Core.enter_epmode_of_shadow {n m : Nat} (h : c.shadow = some (n, m)) (hm : m < 16) :
    (c.enter cause eva).epmode % 16 = m := by
  have hepmode : (c.enter cause eva).epmode = c.mode / 16 * 16 + m := by rw [Core.enter, h]
  omega

end

theorem b2n_lt (b : Bool) : b2n b < 2 := by cases b <;> decide

/-- The fields of EFLAGS: the loop-end flag and LACT, the instructions left of a mode change, that one is pending, and
the delay slot (R322-R324). -/
theorem eflags_fields {e l n : Nat} (hn : n < 4) (shadow slot : Bool) :
    let x := e * 256 + l * 16 + n * 4 + b2n shadow * 2 + b2n slot
    x.testBit 0 = slot ∧ x.testBit 1 = shadow ∧ bits x 2 2 = n ∧ (l < 16 → bits x 4 4 = l) := by
  intro x
  have hlt : b2n shadow < 2 ∧ b2n slot < 2 := ⟨b2n_lt _, b2n_lt _⟩
  obtain ⟨hslot, hshadow, hleft, hlact⟩ :
      x % 2 = b2n slot ∧ x / 2 % 2 = b2n shadow ∧ x / 4 % 4 = n ∧ (l < 16 → x / 16 % 16 = l) := by omega
  refine ⟨?_, ?_, hleft, hlact⟩
  · rw [Nat.testBit_zero, hslot]
    cases slot <;> rfl
  · rw [Nat.testBit_eq_decide_div_mod_eq, pow_one, hshadow]
    cases shadow <;> rfl

/-- Instructions left of a pending mode change, as an entry saves them: one more in a delay slot, for the branch runs
again (R324). -/
def Core.left (c : Core) : Nat := ((c.shadow.map fun x => x.1 + b2n c.slot.isSome).getD 0) % 4

theorem Core.enter_eflags (c : Core) (cause eva : Nat) : (c.enter cause eva).eflags =
    b2n (!(cause == 0x80) && c.atLE) * 256 + c.lact * 16 + c.left * 4 + b2n c.shadow.isSome * 2 + b2n c.slot.isSome := by
  unfold Core.enter Core.left
  cases c.shadow <;> rfl

section
variable (c : Core) (cause eva : Nat)

theorem Core.enter_eflags_fields : (c.enter cause eva).eflags.testBit 0 = c.slot.isSome ∧
    (c.enter cause eva).eflags.testBit 1 = c.shadow.isSome ∧ bits (c.enter cause eva).eflags 2 2 = c.left ∧
    (c.lact < 16 → bits (c.enter cause eva).eflags 4 4 = c.lact) := by
  rw [Core.enter_eflags]
  exact eflags_fields (Nat.mod_lt _ (by decide)) _ _

theorem Core.left_of_shadow {n m : Nat} (hshadow : c.shadow = some (n, m)) : c.left = (n + b2n c.slot.isSome) % 4 := by
  rw [Core.left, hshadow]
  rfl

/-- Outside loops, delay slots and mode changes an entry saves nothing in EFLAGS. -/
theorem Core.enter_eflags_of_quiet (hslot : c.slot = none) (hshadow : c.shadow = none) (hlact : c.lact = 0) :
    (c.enter cause eva).eflags = 0 := by
  simp [Core.enter_eflags, Core.left, Core.atLE_of_inactive hlact, hslot, hshadow, hlact, b2n]

end

/-! ## ERET -/

/-- The core ERET leaves (R321). -/
def Core.returned (c : Core) : Core :=
  { c with
    mode := c.emode, lact := bits c.eflags 4 4, slot := none, pc := c.epc
    shadow := if c.eflags.testBit 1 then some (bits c.eflags 2 2, c.epmode % 16) else none }

/-- ERET undoes an entry: a mode change pending with at most two instructions left comes back. -/
theorem Core.returned_enter_shadow {c : Core} (cause eva : Nat) (hslot : c.slot = none)
    (hshadow : c.shadow = none ∨ ∃ n m, c.shadow = some (n, m) ∧ 1 ≤ n ∧ n ≤ 2 ∧ m < 16) :
    (c.enter cause eva).returned.shadow = c.shadow := by
  obtain ⟨-, hpending, hleft, -⟩ := c.enter_eflags_fields cause eva
  rw [Core.returned, hpending, hleft]
  obtain hnone | ⟨n, m, hsome, -, hn, hm⟩ := hshadow
  · rw [hnone]
    rfl
  · have hcount : c.left = n := by
      rw [c.left_of_shadow hsome, hslot]
      exact Nat.mod_eq_of_lt (by simp [b2n]; omega)
    rw [c.enter_epmode_of_shadow _ _ hsome hm, hcount, hsome]
    rfl

theorem State.FetchedAt.exec_tEret {s : State} {i : TI} (h : s.FetchedAt i) (hexl : (s.core i.core).exl = true)
    (hsuper : (s.core i.core).super = true) (hcond : (s.awake i.core).cond i = true) :
    Runs (.tEret i) s fun t => t.core i.core = (s.awake i.core).returned :=
  ⟨_, congrArg Host.Outcome.next (h.tephra_acts (profile_mem _) (by simp [hexl]) (fun _ => hsuper) (.inr hcond)),
    State.core_setCore_same _ _ _⟩

/-! ## The other system instructions at a plain place -/

section
variable {s : State} {i : TI}

theorem State.plainAt.exec_tTrap (h : s.plainAt i) (hcore : i.core < 12) (hexl : (s.core i.core).exl = false)
    (code : Nat) : exec (.tTrap i code) s = .next (s.setCore i.core ((s.awake i.core).enter 0x09 0)) :=
  congrArg Host.Outcome.next
    ((h.tephra_err (profile_mem _) rfl (by simp) rfl).trans (s.raise_fumarole (c := s.awake i.core) hcore hexl))

theorem State.plainAt.mtmode_retires (h : s.plainAt i) {s1 : Nat} (hs1 : s1 < 32)
    (hsuper : (s.core i.core).super = true) (hmode : (s.awake i.core).reg s1 < 16) :
    Retires (.mtmode i s1) s i { s.awake i.core with
      shadow := some (2, if i.core < 12 then (s.awake i.core).reg s1 else clrBit ((s.awake i.core).reg s1) 2) } := by
  obtain ⟨-, -, -, -, -, -, hshadow, -⟩ := h.1
  have hreg : (s.core i.core).reg s1 = (s.awake i.core).reg s1 := rfl
  have hlegal : (!(gOk [s1]) || decide (16 ≤ (s.core i.core).reg s1) || (s.core i.core).shadow.isSome) = false := by
    simp [gOk_iff, hs1, hshadow, hreg, hmode]
  refine congrArg Host.Outcome.next (h.tephra_done (profile_mem _) hlegal (fun _ => hsuper) ?_ rfl rfl)
  simp [profile_eq_two_iff, hreg, Nat.mod_eq_of_lt hmode]

theorem State.plainAt.mfcr_retires (h : s.plainAt i) {r code : Nat} (hr : r < 32)
    (hsuper : (s.core i.core).super = true) (hcode : crKnown code = true) :
    Retires (.mfcr i r code) s i ((s.awake i.core).setReg r ((s.crRead i.core (s.awake i.core) code).getD 0)) :=
  congrArg Host.Outcome.next
    (h.tephra_done (profile_mem _) (by simp [gOk_iff, hr, hcode]) (fun _ => hsuper) rfl
      (Core.setReg_lact _ _ _) (Core.setReg_pc _ _ _))

theorem State.plainAt.exec_mtcr (h : s.plainAt i) {r code : Nat} (hr : r < 32) (hsuper : (s.core i.core).super = true)
    (hcode : crKnown code = true) : exec (.mtcr i r code) s = .next (s.setCore i.core
      ((s.awake i.core).complete ((s.awake i.core).crWrite code ((s.awake i.core).reg r)) none)) :=
  congrArg Host.Outcome.next (h.tephra_acts (profile_mem _) (by simp [gOk_iff, hr, hcode]) fun _ => hsuper)

/-- A write of EPC, EBT or EVA is read back in full. -/
theorem State.crRead_complete_crWrite (s : State) (id : Nat) (old c : Core) {code : Nat}
    (hcode : code = 2 ∨ code = 5 ∨ code = 6) (v : Nat) (hlact : c.lact = 0) (hslot : old.slot = none)
    (hshadow : old.shadow = none) : s.crRead id (old.complete (c.crWrite code v) none) code = some (v % 2 ^ 64) := by
  have hinactive : (c.crWrite code v).lact = 0 := by obtain rfl | rfl | rfl := hcode <;> exact hlact
  rw [Core.complete, Core.loopStep_of_inactive hinactive, hslot, hshadow]
  obtain rfl | rfl | rfl := hcode <;> rfl

theorem State.plainAt.exec_user_privileged (h : s.plainAt i) {r code : Nat} (hr : r < 32) (hcore : i.core < 12)
    (huser : (s.core i.core).super = false) (hexl : (s.core i.core).exl = false) (hcode : crKnown code = true) :
    (crUserRead code = false → exec (.mfcr i r code) s = .next (s.setCore i.core ((s.awake i.core).enter 0x02 0))) ∧
    (crUserWrite code = false → exec (.mtcr i r code) s = .next (s.setCore i.core ((s.awake i.core).enter 0x02 0))) := by
  have hlegal : (!(gOk [r]) || !(crKnown code)) = false := by simp [gOk_iff, hr, hcode]
  have hraise : s.raise i (s.awake i.core) causePrivileged = _ := s.raise_fumarole hcore hexl
  exact ⟨fun hread => congrArg Host.Outcome.next
      ((h.1.fetchedAt.tephra_privileged (profile_mem _) hlegal (by simp [hread]) huser).trans hraise),
    fun hwrite => congrArg Host.Outcome.next
      ((h.1.fetchedAt.tephra_privileged (profile_mem _) hlegal (by simp [hwrite]) huser).trans hraise)⟩

theorem State.plainAt.exec_brk_halts (h : s.plainAt i) (code : Nat) (hdebug : s.rd .SEC_STATUS_DEBUG 0 = 2) :
    exec (.brk i code) s = .next (s.setCore i.core { s.awake i.core with halted := true }) := by
  refine congrArg Host.Outcome.next ((h.tephra_acts (profile_mem _) rfl (by simp)).trans ?_)
  rw [if_pos hdebug, TRes.settle]

theorem State.plainAt.exec_brk_traps (h : s.plainAt i) (code : Nat) (hcore : i.core < 12)
    (hexl : (s.core i.core).exl = false) (hdebug : s.rd .SEC_STATUS_DEBUG 0 ≠ 2) :
    exec (.brk i code) s = .next (s.setCore i.core ((s.awake i.core).enter 0x0A 0)) :=
  congrArg Host.Outcome.next
    ((h.tephra_err (profile_mem _) rfl (by simp) (if_neg hdebug)).trans
      (s.raise_fumarole (c := s.awake i.core) hcore hexl))

end

/-! ## Interrupts -/

/-- A running Fumarole with IE 1 and EXL 0 takes an interrupt outside a delay slot (R470). -/
theorem exec_interruptTake {s : State} {fc : Nat} (ok : Bool) (hcore : fc < 12) (hon : s.coreOn fc = true)
    (hie : (s.core fc).ie = true) (hexl : (s.core fc).exl = false) (hslot : (s.core fc).slot = none) :
    exec (.interruptTake fc ok) s =
      .next ((s.take fc (s.eligibleList fc)).setCore fc ((s.core fc).enter 0x80 0)) := by
  refine congrArg Host.Outcome.next ((if_neg ?_).trans (State.raise_fumarole _ hcore hexl))
  simp [hcore, hon, hie, hslot]

theorem exec_interruptTake_in_slot {s : State} {fc : Nat} (ok : Bool) (hslot : (s.core fc).slot ≠ none) :
    exec (.interruptTake fc ok) s = .next s := by
  refine congrArg Host.Outcome.next (if_pos ?_)
  exact .inr (.inr (.inr (Option.isSome_iff_ne_none.2 hslot)))

end Sys2Proof.Machine
end

section
/-! The claim about system instructions. -/

namespace Sys2Proof.Machine

/-- Settles O38: entries and returns by what each field of EFLAGS holds, the rest by the checks of a plain place. -/
theorem systemInstructions : Obligations.SystemInstructions := by
  unfold Obligations.SystemInstructions
  refine ⟨?trap, ?eret, ?enterInSlot, ?mtmode, ?controlRegisters, ?userMode, ?brk, ?wfi, ?interrupt⟩
  case trap =>
    intro i code s hplain hcore hexl
    refine ⟨_, hplain.exec_tTrap hcore hexl code, ?_⟩
    obtain ⟨-, -, -, -, -, hslot, hshadow, hlact⟩ := hplain.1
    obtain ⟨hsuper, hie, hexl', hrm⟩ := (s.awake i.core).enter_mode_fields 0x09 0
    rw [State.core_setCore_same]
    exact ⟨Core.enter_epc_of_slot_none _ _ _ hslot, rfl, rfl, Core.enter_ebt_of_slot_none _ _ _ hslot, rfl,
      Core.enter_epmode_of_shadow_none _ _ _ hshadow, Core.enter_eflags_of_quiet _ _ _ hslot hshadow hlact, hsuper, hie,
      hexl', hrm, rfl, rfl, rfl, rfl, rfl, fun id hid => State.core_setCore_ne _ _ hid, rfl, rfl⟩
  case eret =>
    intro i c cause eva s _ hlact hslot hshadow hcore hon hfetch hzero hpred hcond
    obtain ⟨hsuper, -, hexl, -⟩ := c.enter_mode_fields cause eva
    obtain ⟨-, -, -, hsaved⟩ := c.enter_eflags_fields cause eva
    have hfetched : s.FetchedAt i := ⟨hon, hfetch, hzero, hpred, congrArg Core.slot hcore, congrArg Core.lact hcore⟩
    obtain ⟨t, ht, hreturned⟩ := hfetched.exec_tEret (hcore ▸ hexl) (hcore ▸ hsuper) hcond
    rw [State.awake, hcore] at hreturned
    refine ⟨t, ht, ?_⟩
    beta_reduce
    rw [hreturned]
    exact ⟨rfl, hsaved hlact, c.enter_epc_of_slot_none cause eva hslot, Core.returned_enter_shadow cause eva hslot hshadow,
      rfl, rfl, rfl⟩
  case enterInSlot =>
    intro c cause eva b nx n m tk _ hslot hshadow hn
    obtain ⟨hds, hpending, hleft, -⟩ := c.enter_eflags_fields cause eva
    refine ⟨by rw [Core.enter, hslot], by rw [Core.enter, hslot], by rw [hds, hslot]; rfl,
      by rw [hpending, hshadow]; rfl, ?_, c.enter_epmode_of_shadow cause eva hshadow⟩
    rw [hleft, c.left_of_shadow hshadow, hslot, hn]
    rfl
  case mtmode => exact fun i s1 s hplain hs1 hsuper hmode => hplain.mtmode_retires hs1 hsuper hmode
  case controlRegisters =>
    intro i r code s hplain hr hsuper hcode
    obtain ⟨-, -, -, -, -, hslot, hshadow, hlact⟩ := hplain.1
    refine ⟨hplain.mfcr_retires hr hsuper hcode, fun v hv hwritable => ⟨_, hplain.exec_mtcr hr hsuper hcode, ?_⟩⟩
    beta_reduce
    rw [State.core_setCore_same, hv]
    exact s.crRead_complete_crWrite i.core _ _ hwritable v hlact hslot hshadow
  case userMode => exact fun i r code s hplain hr hcore huser hexl hcode =>
    hplain.exec_user_privileged hr hcore huser hexl hcode
  case brk => exact fun i code s hplain hcore => ⟨hplain.exec_brk_halts code, fun hdebug hexl =>
    hplain.exec_brk_traps code hcore hexl hdebug⟩
  case wfi =>
    intro i s hplain hcore
    exact congrArg Host.Outcome.next
      (hplain.tephra_done (by simp [profile_fumarole hcore]) rfl (by simp) rfl rfl rfl)
  case interrupt =>
    intro fc ok s hcore hon hie hexl
    refine ⟨fun hslot => ⟨_, exec_interruptTake ok hcore hon hie hexl hslot, ?_⟩, exec_interruptTake_in_slot ok⟩
    obtain ⟨-, hie', hexl', -⟩ := (s.core fc).enter_mode_fields 0x80 0
    rw [State.core_setCore_same]
    exact ⟨rfl, Core.enter_epc_of_slot_none _ _ _ hslot, rfl, hexl', hie', rfl⟩

end Sys2Proof.Machine
end

section
/-! Shader instructions: the lanes they write, and how they retire or raise (R303, R308, R309, R330-R333, R364, R375). -/

namespace Sys2Proof.Machine

/-! ## Lanes -/

theorem mem_bitsOf {x n l : Nat} : l ∈ bitsOf x n ↔ l < n ∧ x.testBit l = true := by simp [bitsOf]

/-- The result `one l` written to each lane `l` of a list in a vector register, with its flags. -/
def Core.writeLanes (c : Core) (r : Nat) (one : Nat → Nat × Nat) (ls : List Nat) : Core :=
  ls.foldl (fun acc l => (acc.setV r l (one l).1).orFlags (one l).2) c

/-- Only the vector registers and FFLAGS change. -/
theorem Core.writeLanes_frame (c : Core) (r : Nat) (one : Nat → Nat × Nat) (ls : List Nat) :
    { c.writeLanes r one ls with v := c.v, fflags := c.fflags } = c := by
  induction ls generalizing c with
  | nil => rfl
  | cons l ls ih =>
    have hrest := ih ((c.setV r l (one l).1).orFlags (one l).2)
    exact congrArg (fun d : Core => { d with v := c.v, fflags := c.fflags }) hrest

/-- Distinct registers and lanes are distinct entries of the vector file. -/
theorem Core.vreg_setV (c : Core) {r r' l l' x : Nat} (hl : l < 64) (hl' : l' < 64) :
    (c.setV r l x).vreg r' l' = if r' = r ∧ l' = l then x % 2 ^ 32 else c.vreg r' l' := by
  have hkey : r' * 64 + l' = r * 64 + l ↔ r' = r ∧ l' = l := by omega
  simp only [Core.vreg, Core.setV, Sparse.get_set, hkey]

theorem Core.vreg_writeLanes (c : Core) {r r' l' : Nat} (one : Nat → Nat × Nat) {ls : List Nat}
    (hls : ∀ l ∈ ls, l < 64) (hl' : l' < 64) :
    (c.writeLanes r one ls).vreg r' l' = if r' = r ∧ l' ∈ ls then (one l').1 % 2 ^ 32 else c.vreg r' l' := by
  induction ls generalizing c with
  | nil => simp [Core.writeLanes]
  | cons l ls ih =>
    obtain ⟨hl, hrest⟩ := List.forall_mem_cons.1 hls
    have hstep : ((c.setV r l (one l).1).orFlags (one l).2).vreg r' l' =
        if r' = r ∧ l' = l then (one l).1 % 2 ^ 32 else c.vreg r' l' := c.vreg_setV hl hl'
    refine (ih _ hrest).trans ?_
    rw [hstep]
    obtain rfl | hne := eq_or_ne l' l
    · by_cases hr : r' = r <;> simp [hr]
    · simp [hne]

/-! ## Vector instructions at a quiet place -/

section
variable {s t : State} {i : TI} {bad : Bool} {body : State → Core → TRes} {c : Core}

/-- A vector instruction with a legal form acts whatever its predicate: its lanes are masked, not gated (R309). -/
theorem State.quietAt.tephra_vec (h : s.quietAt i) (hshader : profile i.core = 1) (hbad : bad = false) :
    s.tephra i (vecChk bad) body = (body s (s.awake i.core)).settle s i (s.awake i.core) :=
  h.tephra_acts (by simp [vecChk, hshader]) hbad (by simp [vecChk]) (.inl rfl)

theorem State.quietAt.tephra_vec_done (h : s.quietAt i) (hshader : profile i.core = 1) (hbad : bad = false)
    (hbody : body s (s.awake i.core) = .done t c none) (hlact : c.lact = (s.core i.core).lact)
    (hpc : c.pc = (s.core i.core).pc) : s.tephra i (vecChk bad) body = t.setCore i.core c.step8 := by
  rw [h.tephra_vec hshader hbad, hbody, TRes.settle, h.complete_none hlact hpc]

end

/-! ## Arithmetic -/

/-- The operation computes each lane from the same lane of its operands: no compare, select, broadcast, swizzle,
conversion or lane number. -/
def Lanewise (op : VecOp) : Prop :=
  (∀ k, op ≠ .cmp k) ∧ op ≠ .sel ∧ op ≠ .bcast ∧ op ≠ .swz ∧ op ≠ .cvt ∧ op ≠ .lane

/-- The result of a lane of a lanewise operation. -/
def Core.laneResult (c : Core) (op : VecOp) (o : TOp) (l : Nat) : Nat × Nat :=
  vecLane op c.rm o.typ (c.vreg o.s1 l) (c.vreg o.s2 l) (c.vreg o.s3 l)

theorem exec_vectorArithmetic_of_lanewise {op : VecOp} (h : Lanewise op) (i : TI) (o : TOp) (s : State) :
    exec (.vectorArithmetic i op o) s =
      .next (s.tephra i (vecChk (!(vOk [o.dst, o.s1, o.s2, o.s3]) || !(vecTypeOk op o.typ o.styp))) fun s c =>
        .done { s with fresh := s.fresh + 1 } (c.writeLanes o.dst (c.laneResult op o) (c.lanes i)) none) := by
  obtain ⟨hcmp, hsel, hbcast, hswz, hcvt, hlane⟩ := h
  cases op
  case cmp k => exact absurd rfl (hcmp k)
  case sel => exact absurd rfl hsel
  case bcast => exact absurd rfl hbcast
  case swz => exact absurd rfl hswz
  case cvt => exact absurd rfl hcvt
  case lane => exact absurd rfl hlane
  all_goals rfl

theorem State.quietAt.exec_vectorArithmetic {s : State} {i : TI} (h : s.quietAt i) (hshader : profile i.core = 1)
    {op : VecOp} {o : TOp} (hop : Lanewise op) (htyp : vecTypeOk op o.typ o.styp = true) (hdst : o.dst < 64)
    (h1 : o.s1 < 64) (h2 : o.s2 < 64) (h3 : o.s3 < 64) :
    exec (.vectorArithmetic i op o) s = .next (({ s with fresh := s.fresh + 1 } : State).setCore i.core
      ((s.awake i.core).writeLanes o.dst ((s.awake i.core).laneResult op o) ((s.awake i.core).lanes i)).step8) := by
  rw [exec_vectorArithmetic_of_lanewise hop]
  have hframe := (s.awake i.core).writeLanes_frame o.dst ((s.awake i.core).laneResult op o) ((s.awake i.core).lanes i)
  exact congrArg Host.Outcome.next (h.tephra_vec_done hshader (by simp [vOk_iff, htyp, hdst, h1, h2, h3]) rfl
    (congrArg Core.lact hframe :) (congrArg Core.pc hframe :))

/-! ## Lane loads and stores, and texture reads -/

section
variable {s t : State} {i : TI} {o : TOp}

theorem State.quietAt.exec_vld (h : s.quietAt i) (hshader : profile i.core = 1) {size : Nat}
    (hform : laneBad o size = false)
    (halign : misLane (s.awake i.core) o (2 ^ size) (s.activeLanes (s.awake i.core) i) = none)
    {c : Core} (hload : s.loadLanes i o (2 ^ size) (s.awake i.core) (s.activeLanes (s.awake i.core) i) (s.awake i.core) =
      (t, .ok c)) : exec (.vld i o size) s = .next (t.setCore i.core ((s.awake i.core).complete c none)) := by
  refine congrArg Host.Outcome.next ((h.tephra_vec hshader hform).trans ?_)
  simp only [halign, hload, TRes.settle]

theorem State.quietAt.exec_vst (h : s.quietAt i) (hshader : profile i.core = 1) {size : Nat}
    (hform : laneBad o size = false)
    (halign : misLane (s.awake i.core) o (2 ^ size) (s.activeLanes (s.awake i.core) i) = none)
    (hfault : s.storeFault i o (s.awake i.core) (s.activeLanes (s.awake i.core) i) = none)
    (hstore : s.storeLanes i o (2 ^ size) (s.awake i.core) (s.activeLanes (s.awake i.core) i) = (t, none)) :
    exec (.vst i o size) s = .next (t.setCore i.core (s.awake i.core).step8) := by
  refine congrArg Host.Outcome.next (h.tephra_vec_done hshader hform ?_ rfl rfl)
  simp only [halign, hfault, hstore, Option.or]

/-- A texture read whose registers overlap or go past v63 is illegal (R331). -/
theorem State.quietAt.texRead_illegal (h : s.quietAt i) {lod : Bool} (hbad : texBad o (if lod then 4 else 3) = true) :
    s.texRead i o lod = s.raise i (s.awake i.core) causeIllegal :=
  h.fetchedAt.tephra_illegal hbad

/-- A sampled read of a texture that is no tile target. -/
theorem State.quietAt.texRead_sampled (h : s.quietAt i) (hshader : profile i.core = 1) {lod : Bool}
    (hform : texBad o (if lod then 4 else 3) = false) {g : EmbGroup} {f : Flight} {d : List Byte} {c : Core}
    (hgroup : s.groupOf i.core = some g) (hflight : s.coreFlight i.core = some f)
    (htex : s.emb.texs[(s.awake i.core).reg o.s2 % 4096]? = some d) (htile : d8 d 4 % 4 ≠ 1)
    (hsample : s.sampleLanes (gqCtx f.gq) d o (s.awake i.core) lod (s.activeLanes (s.awake i.core) i) (s.awake i.core) =
      .ok c) : s.texRead i o lod = s.setCore i.core ((s.awake i.core).complete c none) := by
  refine (h.tephra_vec hshader hform).trans ?_
  simp [hgroup, hflight, htex, h.word, htile, hsample, TRes.settle]

end

/-! ## Fragments -/

/-- A fragment of another primitive, or at no pixel of the lanes, stays as it is. -/
theorem State.mem_frags_onFrags {s : State} {g : EmbGroup} {ls : List Nat} {h : Nat → Frag → Frag} {fr : Frag}
    (hmem : fr ∈ s.emb.frags) (hother : fr.prim ≠ g.prim ∨ ∀ l ∈ ls, g.pix.getD l (0, 0) ≠ (fr.x, fr.y)) :
    fr ∈ (s.onFrags g ls h).emb.frags := by
  refine List.mem_map.2 ⟨fr, hmem, ?_⟩
  by_cases hprim : fr.prim = g.prim
  · have hnone : (ls.find? fun l => g.pix.getD l (0, 0) == (fr.x, fr.y)) = none := by
      rw [List.find?_eq_none]
      exact fun l hl => by simpa using hother.resolve_left (not_not_intro hprim) l hl
    simp only [hprim, hnone, if_true]
  · rw [if_neg hprim]

section
variable {s : State} {i : TI} {g : EmbGroup}

/-- The lanes' fragments meet ILK.ACQ's condition: each holds the interlock, or no earlier fragment stands in its way. -/
def State.ilkFree (s : State) (i : TI) (g : EmbGroup) : Bool :=
  s.lanesOk g (s.activeLanes (s.awake i.core) i) fun fr => fr.ilk == 1 || !(s.blockers fr fun e => e.ilk != 2 && !e.ended)

theorem State.quietAt.exec_ilkAcq (h : s.quietAt i) (hshader : profile i.core = 1) (hfrag : s.inFrag i = true)
    (hgroup : s.groupOf i.core = some g) : exec (.ilkAcq i) s = .next (if s.ilkFree i g then
      (s.onFrags g (s.activeLanes (s.awake i.core) i) fun _ fr => { fr with ilk := 1 }).setCore i.core (s.awake i.core).step8
      else s) := by
  refine congrArg Host.Outcome.next ((h.tephra_vec hshader (by simp [hfrag])).trans ?_)
  simp only [hgroup]
  rw [← State.ilkFree]
  split
  · rw [TRes.settle, h.complete_none (c := s.awake i.core) rfl rfl]
  · rfl

theorem State.quietAt.exec_ilkRel (h : s.quietAt i) (hshader : profile i.core = 1) (hgroup : s.groupOf i.core = some g) :
    exec (.ilkRel i) s = .next ((s.onFrags g (s.activeLanes (s.awake i.core) i) fun _ fr =>
      if fr.ilk = 1 then { fr with ilk := 2 } else fr).setCore i.core (s.awake i.core).step8) := by
  refine congrArg Host.Outcome.next (h.tephra_vec_done hshader rfl ?_ rfl rfl)
  simp only [hgroup]

theorem State.quietAt.exportOp (h : s.quietAt i) (hshader : profile i.core = 1) (hfrag : s.inFrag i = true)
    (hgroup : s.groupOf i.core = some g) {bad : Bool} (hbad : bad = false) (note : Core → Nat → Frag → Frag) :
    s.exportOp i bad note = (s.onFrags g (s.activeLanes (s.awake i.core) i) (note (s.awake i.core))).setCore i.core
      (s.awake i.core).step8 := by
  refine h.tephra_vec_done hshader (by simp [hbad, hfrag]) ?_ rfl rfl
  simp only [hgroup]

/-- The active lanes' fragments end, and those with nothing before them are applied. -/
def State.lanesEnded (s : State) (i : TI) (g : EmbGroup) (f : Flight) (dropped : Bool) : State :=
  (s.onFrags g (s.activeLanes (s.awake i.core) i) fun _ fr =>
    { fr with ended := true, dropped := dropped, ilk := 2 }).applyEnded f

/-- The groups that run, where the group `g` of core `core` has the lanes `live` left. -/
def runsLeft (core : Nat) (g : EmbGroup) (live : Nat) (run : List (Nat × EmbGroup)) : List (Nat × EmbGroup) :=
  run.map fun r => if r.1 = core - 108 then (r.1, { g with live := live }) else r

theorem group_of_mem_runsLeft {core live : Nat} {run : List (Nat × EmbGroup)} {r : Nat × EmbGroup}
    (hmem : r ∈ runsLeft core g live run) (hcore : r.1 = core - 108) : r.2 = { g with live := live } := by
  obtain ⟨r0, -, rfl⟩ := List.mem_map.1 hmem
  by_cases h0 : r0.1 = core - 108
  · rw [if_pos h0]
  · rw [if_neg h0] at hcore
    exact absurd hcore h0

/-- The lanes end, and others of the group still run. -/
theorem State.quietAt.endLanes (h : s.quietAt i) (hshader : profile i.core = 1) (hgroup : s.groupOf i.core = some g)
    {f : Flight} (hflight : s.coreFlight i.core = some f) {live : Nat} (hlive : live ≠ 0)
    (hleft : (s.activeLanes (s.awake i.core) i).foldl clrBit g.live = live) (dropped : Bool) :
    s.endLanes i dropped = ({ s.lanesEnded i g f dropped with emb := { (s.lanesEnded i g f dropped).emb with
      run := runsLeft i.core g live (s.lanesEnded i g f dropped).emb.run } } : State).setCore i.core
        (s.awake i.core).step8 := by
  refine h.tephra_vec_done hshader rfl ?_ rfl rfl
  simp only [hgroup, hflight, h.word, hleft, hlive, if_false]
  rfl

end

theorem exec_interlockTimeout {core : Nat} {s : State} (hshader : profile core = 1) (hon : s.coreOn core = true)
    (hfrag : s.inFrag { core := core } = true) : exec (.interlockTimeout core) s = .next ((s.fire 357).failPass 9 0) := by
  refine congrArg Host.Outcome.next ((if_pos ⟨hshader, hon, hfrag⟩).trans ?_)
  simp [State.raise, hshader, State.fireIf, shaderStatus]

end Sys2Proof.Machine
end

section
/-! The claim about shader instructions. -/

namespace Sys2Proof.Machine

/-- Settles O40: vector arithmetic lane by lane, the other shader instructions by what their bodies leave. -/
theorem shaderInstructions : Obligations.ShaderInstructions := by
  unfold Obligations.ShaderInstructions
  refine ⟨?arithmetic, ?lanes, ?textures, ?fragments, ?others, ?timeout⟩
  case arithmetic =>
    intro i op o s hquiet hshader hcmp hsel hbcast hswz hcvt hlane htyp hdst h1 h2 h3 c
    refine ⟨_, hquiet.exec_vectorArithmetic hshader ⟨hcmp, hsel, hbcast, hswz, hcvt, hlane⟩ htyp hdst h1 h2 h3, ?_⟩
    beta_reduce
    rw [State.core_setCore_same]
    have hlanes : ∀ l ∈ c.lanes i, l < 64 := fun l hl => (mem_bitsOf.1 hl).1
    have hframe := c.writeLanes_frame o.dst (c.laneResult op o) (c.lanes i)
    refine ⟨fun l hl => (c.vreg_writeLanes _ hlanes hl).trans ?_, fun r l hr hl =>
      (c.vreg_writeLanes _ hlanes hl).trans (if_neg (by simp [hr])), (congrArg Core.g hframe :),
      (congrArg Core.p hframe :), (congrArg (fun d : Core => (d.pc + 8) % 2 ^ 64) hframe :), rfl, rfl⟩
    simp only [Core.lanes, mem_bitsOf, hl, true_and]
    rfl
  case lanes =>
    intro i o size s t c' hquiet hshader hform c halign
    exact ⟨fun hload _ => hquiet.exec_vld hshader hform halign hload,
      fun hfault hstore => hquiet.exec_vst hshader hform halign hfault hstore⟩
  case textures =>
    intro i o s hquiet hshader
    exact ⟨fun hbad => congrArg Host.Outcome.next (hquiet.texRead_illegal (lod := false) hbad),
      fun hbad => congrArg Host.Outcome.next (hquiet.texRead_illegal (lod := true) hbad),
      fun g f d c hgroup hflight htex htile => ⟨fun hform hsample => congrArg Host.Outcome.next
        (hquiet.texRead_sampled (lod := false) hshader hform hgroup hflight htex htile hsample),
      fun hform hsample => congrArg Host.Outcome.next
        (hquiet.texRead_sampled (lod := true) hshader hform hgroup hflight htex htile hsample)⟩⟩
  case fragments =>
    intro i g s hquiet hshader hfrag hgroup c ls free
    have hacq := hquiet.exec_ilkAcq hshader hfrag hgroup
    refine ⟨fun hfree => hacq.trans (congrArg _ (if_pos hfree)),
      fun hfree => hacq.trans (congrArg _ (if_neg (Bool.eq_false_iff.1 hfree))), hquiet.exec_ilkRel hshader hgroup,
      fun k vs hk hvs => ?_, fun vs hvs => ?_, fun vs hvs => ?_, fun f hflight hlive x hx => ?ends⟩
    · refine congrArg Host.Outcome.next (hquiet.exportOp hshader hfrag hgroup ?_ _)
      simp [vOk_iff, hk.not_ge, hvs]
    · refine congrArg Host.Outcome.next (hquiet.exportOp hshader hfrag hgroup ?_ _)
      simp [vOk_iff, hvs]
    · refine congrArg Host.Outcome.next (hquiet.exportOp hshader hfrag hgroup ?_ _)
      simp [vOk_iff, hvs]
    case ends =>
      obtain ⟨dropped, hexec⟩ : ∃ dropped, exec x s = .next (s.endLanes i dropped) := by
        simp only [List.mem_cons, List.not_mem_nil, or_false] at hx
        obtain rfl | rfl := hx
        · exact ⟨false, rfl⟩
        · exact ⟨true, rfl⟩
      exact ⟨_, hexec.trans (congrArg _ (hquiet.endLanes hshader hgroup hflight hlive rfl dropped)),
        State.core_setCore_same _ _ _, fun r hr hcore => group_of_mem_runsLeft hr hcore⟩
  case others => exact fun g ls h s fr hmem hother => State.mem_frags_onFrags hmem hother
  case timeout => exact fun core s hshader hon hfrag => exec_interlockTimeout hshader hon hfrag

end Sys2Proof.Machine
end

section
/-! What the units of a vision lane compute: bounds on the samples of a pyramid, the order of the search, and the
search in a still picture (R337, R339, R344, R345). -/

namespace Sys2Proof.Machine

/-! ## Samples -/

theorem Plane.px_mk'_le {w h b : Nat} {g : Nat → Nat → Nat} (hg : ∀ x y, g x y ≤ b) (x y : Nat) :
    (Plane.mk' w h g).px_ x y ≤ b := by
  by_cases hin : y * w + x < w * h
  · simp [Plane.px_, Plane.mk', hin, hg]
  · simp [Plane.px_, Plane.mk', hin]

/-- The mean of four RAW samples, in eight bits, fits eight bits: R337's divisors are four times the range cut away. -/
theorem level0_le {fmt w h : Nat} (rows : Array Nat) (x y : Nat) (hfmt : fmt = 1 ∨ fmt = 2) :
    (level0 fmt w h rows).px_ x y ≤ 255 := by
  have hmod (v n : Nat) : v % 2 ^ n ≤ 2 ^ n - 1 := Nat.le_sub_one_of_lt (Nat.mod_lt v (Nat.two_pow_pos n))
  unfold level0
  dsimp only
  split
  · simp [Plane.px_]
  · refine Plane.px_mk'_le (fun x y => ?_) x y
    obtain rfl | rfl := hfmt <;> simp <;> omega

/-- A filter whose taps sum to 16 keeps a bound, times 16 (R339). -/
theorem taps_sum_le {f : Int → Nat} {b : Nat} (hf : ∀ a, f a ≤ b) :
    (taps.map fun t : Int × Nat => t.2 * f t.1).foldl (· + ·) 0 ≤ 16 * b := by
  have := hf (-2); have := hf (-1); have := hf 0; have := hf 1; have := hf 2
  simp only [taps, List.map_cons, List.map_nil, List.foldl_cons, List.foldl_nil]
  omega

theorem Plane.down_le {p : Plane} (hp : ∀ x y, p.px_ x y ≤ 255) (x y : Nat) : p.down.px_ x y ≤ 255 := by
  refine Plane.px_mk'_le (fun i j => ?_) x y
  have hsum := taps_sum_le (b := 16 * 255) fun b => taps_sum_le (b := 255)
    (f := fun a => p.at_ (2 * (i : Int) + a) (2 * (j : Int) + b)) fun _ => hp _ _
  dsimp only
  omega

/-! ## The order of the search (R344) -/

/-- A candidate's place in R344's order, as a lexicographic tuple: cost, |dx| + |dy|, dy, dx. -/
def hitKey (c : SearchHit) : ℕ ×ₗ ℕ ×ₗ ℤ ×ₗ ℤ :=
  toLex (c.1, toLex (c.2.1.natAbs + c.2.2.natAbs, toLex (c.2.2, c.2.1)))

theorem hitLt_iff (a b : SearchHit) : hitLt a b = true ↔ hitKey a < hitKey b := by
  simp [hitLt, hitKey, Prod.Lex.toLex_lt_toLex]

theorem hitLt_eq_false_iff (a b : SearchHit) : hitLt a b = false ↔ hitKey b ≤ hitKey a := by
  rw [← not_lt, ← hitLt_iff, Bool.not_eq_true]

/-- The fold of `bestHit` from a candidate it holds ends with one no other comes before. -/
theorem foldl_bestHit (l : List SearchHit) (b : SearchHit) :
    (l.foldl (fun b c => if hitLt c b then c else b) b) ∈ b :: l ∧
      ∀ c ∈ b :: l, hitKey (l.foldl (fun b c => if hitLt c b then c else b) b) ≤ hitKey c := by
  induction l generalizing b with
  | nil => simp
  | cons c l ih =>
    obtain ⟨hmem, hleast⟩ := ih (if hitLt c b then c else b)
    have hnext : (if hitLt c b then c else b) ∈ [b, c] := by split <;> simp
    have hle : hitKey (if hitLt c b then c else b) ≤ hitKey b ∧ hitKey (if hitLt c b then c else b) ≤ hitKey c := by
      split
      next h => exact ⟨((hitLt_iff c b).1 h).le, le_rfl⟩
      next h => exact ⟨le_rfl, (hitLt_eq_false_iff c b).1 (Bool.eq_false_iff.2 h)⟩
    refine ⟨?_, ?_⟩
    · simp only [List.foldl_cons, List.mem_cons] at hmem hnext ⊢
      grind
    · have hfirst := hleast _ List.mem_cons_self
      intro d hd
      simp only [List.mem_cons] at hd
      obtain rfl | rfl | hd := hd
      · exact hfirst.trans hle.1
      · exact hfirst.trans hle.2
      · exact hleast d (List.mem_cons_of_mem _ hd)

theorem bestHit_least {l : List SearchHit} (hl : l ≠ []) :
    bestHit l ∈ l ∧ ∀ c ∈ l, hitLt c (bestHit l) = false := by
  obtain ⟨b, rest, rfl⟩ := List.exists_cons_of_ne_nil hl
  obtain ⟨hmem, hleast⟩ := foldl_bestHit (b :: rest) b
  refine ⟨?_, fun c hc => (hitLt_eq_false_iff _ _).2 (hleast c (List.mem_cons_of_mem _ hc))⟩
  obtain h | h := List.mem_cons.1 hmem
  · exact List.mem_cons.2 (.inl h)
  · exact h

theorem zero_mem_square (n : Nat) : ((0, 0) : Int × Int) ∈ square n := by
  have hzero : (0 : Int) ∈ (List.range (2 * n + 1)).map fun i : Nat => (i : Int) - n :=
    List.mem_map.2 ⟨n, List.mem_range.2 (by omega), by omega⟩
  exact List.mem_flatMap.2 ⟨0, hzero, List.mem_map.2 ⟨0, hzero, rfl⟩⟩

/-- No candidate comes before cost 0 at displacement (0, 0), and none ties with it. -/
theorem bestHit_square_of_zero (n : Nat) {cost : Int × Int → Nat} (hcost : cost (0, 0) = 0) :
    bestHit ((square n).map fun d => (cost d, d.1, d.2)) = (0, 0, 0) := by
  have hmem : ((0, 0, 0) : SearchHit) ∈ (square n).map fun d => (cost d, d.1, d.2) :=
    List.mem_map.2 ⟨(0, 0), zero_mem_square n, by rw [hcost]⟩
  have hleast := (bestHit_least (List.ne_nil_of_mem hmem)).2 _ hmem
  generalize bestHit _ = b at hleast ⊢
  obtain ⟨c, dx, dy⟩ := b
  simp only [hitLt, Bool.or_eq_false_iff, Bool.and_eq_false_iff, decide_eq_false_iff_not, beq_eq_false_iff_ne] at hleast
  simp only [Prod.mk.injEq]
  omega

/-! ## A still picture (R342, R343, R345) -/

theorem clamped_of_inside (p : Plane) {x y : Nat} (hx : x < p.w) (hy : y < p.h) : p.clamped x y = p.px_ x y := by
  simp [Plane.clamped, clampTo, Nat.min_eq_left (Nat.le_sub_one_of_lt hx), Nat.min_eq_left (Nat.le_sub_one_of_lt hy)]

theorem foldl_add_zero {α : Type} {l : List α} {f : α → Nat} (h : ∀ a ∈ l, f a = 0) :
    (l.map f).foldl (· + ·) 0 = 0 := by
  rw [List.map_congr_left h]
  simp [← List.sum_eq_foldl]

/-- A reference that shows the same samples and the same census over a block costs nothing. -/
theorem costBy_of_same {cur : Level} {B X Y : Nat} {ref cen : Nat → Nat → Nat} (lambda : Nat)
    (href : ∀ x y, x < cur.p.w → y < cur.p.h → ref x y = cur.p.px_ x y)
    (hcen : ∀ x y, x < cur.p.w → y < cur.p.h → cen x y = cur.c.px_ x y) :
    costBy cur lambda B X Y ref cen = 0 := by
  have hin : ∀ xy ∈ blockPos cur.p B X Y, xy.1 < cur.p.w ∧ xy.2 < cur.p.h := fun xy hxy => by
    simpa using (List.mem_filter.1 hxy).2
  unfold costBy
  dsimp only
  rw [foldl_add_zero fun xy hxy => ?sad, foldl_add_zero fun xy hxy => ?ham]
  · simp
  case sad => simp [href _ _ (hin xy hxy).1 (hin xy hxy).2, absDiff]
  case ham => simp [hcen _ _ (hin xy hxy).1 (hin xy hxy).2, popcount, bitsOf]

theorem costInt_still (p : Plane) (lambda B X Y : Nat) : costInt p.level p.level lambda B X Y 0 0 = 0 := by
  refine costBy_of_same lambda (fun x y hx hy => ?_) fun x y hx hy => ?_
  · simpa using clamped_of_inside p.level.p hx hy
  · simpa using clamped_of_inside p.level.c hx hy

theorem costQuarter_still (p : Plane) (lambda B X Y : Nat) : costQuarter p.level p.level lambda B X Y 0 0 = 0 := by
  unfold costQuarter
  dsimp only
  refine costBy_of_same lambda (fun x y hx hy => ?_) fun x y hx hy => ?_
  · have hround (v : Nat) : (16 * v + 8) / 16 = v := by omega
    simpa [hround] using clamped_of_inside p.level.p hx hy
  · simpa using clamped_of_inside p.level.c hx hy

theorem block0_still (p : Plane) (lambda bias bx by_ : Nat) :
    ∃ conf, block0 p.level p.level lambda bias (0, 0) bx by_ = ⟨0, 0, 0, conf⟩ := by
  have hint := bestHit_square_of_zero 8
    (cost := fun d => costInt p.level p.level lambda 8 (8 * bx) (8 * by_) (0 + d.1) (0 + d.2))
    (by simpa using costInt_still p lambda 8 (8 * bx) (8 * by_))
  have hquarter := bestHit_square_of_zero 3
    (cost := fun d => costQuarter p.level p.level lambda 8 (8 * bx) (8 * by_) (4 * (0 + 0) + d.1) (4 * (0 + 0) + d.2))
    (by simpa using costQuarter_still p lambda 8 (8 * bx) (8 * by_))
  unfold block0
  dsimp only
  rw [hint]
  dsimp only
  rw [hquarter]
  exact ⟨_, rfl⟩

theorem refineBlocks_of_zero (cur ref : Plane) (lambda bias : Nat) (bs : Array BlockVec) :
    refineBlocks cur ref lambda bias 0 bs = (0, []) := by
  simp [refineBlocks]

end Sys2Proof.Machine
end

section
/-! What moves registers: from one state to another only listed fields move besides Geyser's, and no pending source is
cleared (R464). -/

namespace Sys2Proof.Machine

structure State.MovesOnly (F : List Fld) (s t : State) : Prop where
  rd : ∀ f u, f ∉ F → f ∉ irqFields → t.rd f u = s.rd f u
  pend : ∀ n, s.pend n = true → t.pend n = true

namespace State.MovesOnly

variable {F : List Fld} {s t u : State}

theorem refl (s : State) : s.MovesOnly F s := ⟨fun _ _ _ _ => rfl, fun _ h => h⟩

/-- What comes first stands last, in the order the model writes the steps of an operation. -/
theorem after (k : t.MovesOnly F u) (h : s.MovesOnly F t) : s.MovesOnly F u :=
  ⟨fun f n hf hirq => (k.rd f n hf hirq).trans (h.rd f n hf hirq), fun n hn => k.pend n (h.pend n hn)⟩

theorem mono {G : List Fld} (h : s.MovesOnly F t) (hFG : ∀ f ∈ F, f ∈ G) : s.MovesOnly G t :=
  ⟨fun f n hf => h.rd f n fun hF => hf (hFG f hF), h.pend⟩

/-- An update of anything but the register file. -/
theorem of_csr (h : t.csr = s.csr) : s.MovesOnly F t :=
  ⟨fun f n _ _ => State.rd_congr h f n, fun n hn => by rwa [State.pend, State.rd_congr h]⟩

theorem ite {c : Prop} [Decidable c] {a b : State} (ha : s.MovesOnly F a) (hb : s.MovesOnly F b) :
    s.MovesOnly F (if c then a else b) := by split <;> assumption

theorem each {α : Type} {g : State → α → State} {l : List α}
    (hg : ∀ (s : State), ∀ x ∈ l, s.MovesOnly F (g s x)) : s.MovesOnly F (s.each l g) :=
  List.foldlRecOn l g (.refl s) fun _ ht x hx => (hg _ x hx).after ht

theorem wr {f : Fld} {n v : Nat} (hf : f ∈ F) (hpend : f ≠ .GEY_PEND_PEND := by decide) :
    s.MovesOnly F (s.wr f n v) where
  rd g w hg _ := s.rd_wr_ne v fun h => hg (h.1 ▸ hf)
  pend n hn := by rwa [(SamePend.wr s f _ v hpend).pend_eq]

theorem fire {n : Nat} : s.MovesOnly F (s.fire n) :=
  ⟨fun f u _ hirq => fire_rd s n f u hirq, fun _ h => State.pend_fire n h⟩

/-- A source is raised from where the fields that decide it stand (R464, R466). -/
theorem fire_raised (h : s.MovesOnly F t) (n : Nat)
    (hF : Fld.GEY_RET_STATE ∉ F ∧ Fld.GEY_SRC_ENABLE ∉ F ∧ Fld.SYS_ID_PART ∉ F := by decide) :
    Raised s (t.fire n) n := by
  obtain ⟨hret, hen, hpart⟩ := hF
  intro hlive henabled hdead
  refine Machine.fire_raised t n ?_ ?_ ?_
  · rw [h.rd _ _ hret (by decide), hlive]
  · rw [h.rd _ _ hen (by decide), henabled]
  · rw [← hdead, State.srcDead, State.srcDead, State.is6460, State.is6460, h.rd _ _ hpart (by decide)]

theorem raised (k : t.MovesOnly F u) {n : Nat} (h : Raised s t n) : Raised s u n :=
  fun hlive henabled hdead => k.pend n (h hlive henabled hdead)

end State.MovesOnly

end Sys2Proof.Machine
end

section
/-! Detections of memory errors, and accesses by physical address (R73, R353, R520, R522): the registers they move, and
what they leave of memory. -/

namespace Sys2Proof.Machine

/-- The register fields of memory errors and of a retirement they can begin. -/
def errFields : List Fld :=
  [.MEM_UE_ADDR_VALID, .MEM_UE_ADDR_LINE, .MEM_PC_STATUS_UE_COUNT, .MEM_PC_STATUS_STATE, .BRG_PC_CTRL_RESULT,
    .BRG_PC_CTRL_PAGES_LEFT, .BRG_PC_CTRL_PC]

/-- `t` is `s` but for the fields of memory errors, the bridge's record of them, and what raising interrupt sources
moves. -/
structure State.OnlyErrs (s t : State) : Prop where
  same : { t with csr := s.csr, brg := s.brg, sent := s.sent, pba := s.pba, geyLatch := s.geyLatch } = s
  moves : s.MovesOnly errFields t

namespace State.OnlyErrs

variable {s t u : State}

theorem refl (s : State) : s.OnlyErrs s := ⟨rfl, .refl s⟩

theorem after (k : t.OnlyErrs u) (h : s.OnlyErrs t) : s.OnlyErrs u := by
  refine ⟨?_, k.moves.after h.moves⟩
  have hst := h.same
  have htu := k.same
  rw [← hst, ← htu]

theorem ite {c : Prop} [Decidable c] {a b : State} (ha : s.OnlyErrs a) (hb : s.OnlyErrs b) :
    s.OnlyErrs (if c then a else b) := by split <;> assumption

theorem setBrg {b : BringState} : s.OnlyErrs { s with brg := b } := ⟨rfl, .of_csr rfl⟩

theorem wr {f : Fld} {n v : Nat} (hf : f ∈ errFields := by decide) : s.OnlyErrs (s.wr f n v) :=
  ⟨rfl, .wr hf fun h => absurd (h ▸ hf) (by decide)⟩

theorem fire {n : Nat} : s.OnlyErrs (s.fire n) :=
  ⟨(congrArg (fun t : State => { t with brg := s.brg }) (fire_frame s n).1 :), .fire⟩

theorem pcState {pc st : Nat} : s.OnlyErrs (s.pcState pc st) := .ite (.refl _) (.after .fire .wr)

theorem startRetire {pc : Nat} : s.OnlyErrs (s.startRetire pc) :=
  .ite (.after .wr <| .after .wr <| .after .pcState .setBrg) .wr

theorem nextRetire : s.OnlyErrs s.nextRetire := by
  unfold State.nextRetire
  split
  · exact .refl _
  split
  · exact .refl _
  · exact .after .startRetire <| .after .wr .setBrg

theorem wantRetire {pc : Nat} : s.OnlyErrs (s.wantRetire pc) := .ite (.refl _) (.after .nextRetire .setBrg)

theorem noteUE {pc : Nat} : s.OnlyErrs (s.noteUE pc) := .ite (.after .wantRetire .setBrg) .setBrg

end State.OnlyErrs

/-- A first detection poisons its line, and else moves only what reports it. -/
theorem State.firstUE_onlyErrs (s : State) (line : Nat) :
    State.OnlyErrs { s with m := { s.m with poison := s.m.poison.set 0 line 1, latent := s.m.latent.set 0 line 0 } }
      (s.firstUE line) := by
  unfold State.firstUE
  refine .after .fire ?_
  split
  · exact .after .noteUE <| .after .wr <| .after .wr .wr
  · exact .after .wr .wr

theorem State.MovesOnly.firstUE {s : State} {line : Nat} : s.MovesOnly errFields (s.firstUE line) :=
  .after (s.firstUE_onlyErrs line).moves (.of_csr rfl)

@[simp] theorem State.mem_firstUE (s : State) (line : Nat) : (s.firstUE line).mem = s.mem :=
  (congrArg State.mem (s.firstUE_onlyErrs line).same :)

theorem State.poison_firstUE (s : State) (line : Nat) : (s.firstUE line).m.poison = s.m.poison.set 0 line 1 :=
  (congrArg (fun t : State => t.m.poison) (s.firstUE_onlyErrs line).same :)

theorem State.latent_firstUE (s : State) (line : Nat) : (s.firstUE line).m.latent = s.m.latent.set 0 line 0 :=
  (congrArg (fun t : State => t.m.latent) (s.firstUE_onlyErrs line).same :)

/-! ## Ranges of physical addresses -/

@[simp] theorem State.mem_paDetect (s : State) (pa n : Nat) : (s.paDetect pa n).mem = s.mem :=
  s.each_unchanged State.mem fun s line _ => s.mem_firstUE line

theorem State.MovesOnly.paDetect {s : State} {pa n : Nat} : s.MovesOnly errFields (s.paDetect pa n) :=
  .each fun _ _ _ => .firstUE

theorem State.csr_putBytes (s : State) (k : Nat) (l : List Byte) : (s.putBytes k l).csr = s.csr := by
  induction l generalizing s k with
  | nil => rfl
  | cons b l ih => exact ih (s.putByte k b) (k + 1)

theorem State.csr_dropTiles (s : State) (frame : Nat) : (s.dropTiles frame).csr = s.csr := by
  unfold State.dropTiles
  split <;> rfl

theorem State.MovesOnly.paWrite {s : State} {pa : Nat} {bs : List Byte} {fuel : Nat} :
    s.MovesOnly errFields (s.paWrite pa bs fuel) := by
  induction fuel generalizing s pa bs with
  | zero => exact .refl s
  | succ fuel ih =>
    unfold State.paWrite
    split
    · exact .refl s
    · refine .after ih <| .after (.of_csr (State.csr_dropTiles _ _)) ?_
      exact .ite (.of_csr (State.csr_putBytes _ _ _)) <| .ite (.ite .firstUE (.refl s)) <|
        .of_csr (State.csr_putBytes _ _ _)

theorem State.MovesOnly.paChunks {s : State} {cs : List Chunk} : s.MovesOnly errFields (s.paChunks cs) :=
  .each fun _ _ _ => .paWrite

/-! ## What a write by physical address depends on -/

/-- Memory and its bad lines are the same in two states. -/
def State.SameCells (s t : State) : Prop :=
  t.mem = s.mem ∧ t.m.poison = s.m.poison ∧ t.m.latent = s.m.latent

namespace State.SameCells

variable {s t : State}

theorem lineBad_eq (h : s.SameCells t) (pa : Nat) : t.lineBad pa = s.lineBad pa := by
  obtain ⟨-, hpoison, hlatent⟩ := h
  rw [State.lineBad, State.lineBad, hpoison, hlatent]

theorem firstUE (h : s.SameCells t) (line : Nat) : (s.firstUE line).SameCells (t.firstUE line) := by
  obtain ⟨hmem, hpoison, hlatent⟩ := h
  exact ⟨by simp [hmem], by simp [State.poison_firstUE, hpoison], by simp [State.latent_firstUE, hlatent]⟩

theorem putBytes (h : s.SameCells t) (k : Nat) (l : List Byte) : (s.putBytes k l).SameCells (t.putBytes k l) := by
  induction l generalizing s t k with
  | nil => exact h
  | cons b l ih =>
    obtain ⟨hmem, hbad⟩ := h
    have hbyte : (s.putByte k b).SameCells (t.putByte k b) := ⟨congrArg (Sparse.set unwritten · k b) hmem, hbad⟩
    exact ih hbyte (k + 1)

/-- A whole line replaces whatever its line held. -/
theorem clean (h : s.SameCells t) (line : Nat) : State.SameCells
    { s with m := { s.m with poison := s.m.poison.set 0 line 0, latent := s.m.latent.set 0 line 0 } }
    { t with m := { t.m with poison := t.m.poison.set 0 line 0, latent := t.m.latent.set 0 line 0 } } := by
  obtain ⟨hmem, hpoison, hlatent⟩ := h
  exact ⟨hmem, congrArg (Sparse.set 0 · line 0) hpoison, congrArg (Sparse.set 0 · line 0) hlatent⟩

theorem dropTiles (h : s.SameCells t) (frame : Nat) : (s.dropTiles frame).SameCells (t.dropTiles frame) := by
  have hself (u : State) : u.SameCells (u.dropTiles frame) := by
    unfold State.dropTiles
    split <;> exact ⟨rfl, rfl, rfl⟩
  obtain ⟨smem, spoison, slatent⟩ := hself s
  obtain ⟨tmem, tpoison, tlatent⟩ := hself t
  obtain ⟨hmem, hpoison, hlatent⟩ := h
  exact ⟨by rw [tmem, hmem, smem], by rw [tpoison, hpoison, spoison], by rw [tlatent, hlatent, slatent]⟩

theorem paWrite (h : s.SameCells t) (pa : Nat) (bs : List Byte) (fuel : Nat) :
    (s.paWrite pa bs fuel).SameCells (t.paWrite pa bs fuel) := by
  induction fuel generalizing s t pa bs with
  | zero => exact h
  | succ fuel ih =>
    unfold State.paWrite
    split
    · exact h
    · refine ih (.dropTiles ?_ _) _ _
      rw [h.lineBad_eq]
      split
      · exact (h.clean _).putBytes _ _
      split
      · obtain ⟨-, -, hlatent⟩ := id h
        rw [hlatent]
        split
        · exact h.firstUE _
        · exact h
      · exact h.putBytes _ _

end State.SameCells

end Sys2Proof.Machine
end

section
/-! A vision lane: its place in the state, its state register, its counters, and how it settles (R349, R350, R358, R359). -/

namespace Sys2Proof.Machine

/-! ## Lists of register writes -/

theorem State.rd_each_wr (s : State) (fs : List Fld) (l : Nat) (val : Fld → Nat) (f : Fld) (u : Nat) :
    (s.each fs fun s g => s.wr g l (val g)).rd f u =
      if f ∈ fs ∧ u = l then val f % 2 ^ f.info.width else s.rd f u := by
  induction fs using List.reverseRecOn with
  | nil => simp [State.each]
  | append_singleton fs g ih =>
    rw [State.each_concat, State.rd_wr, ih]
    by_cases hg : f = g
    · subst hg
      by_cases hu : u = l <;> simp [hu]
    · simp [hg]

theorem State.rd_each_resetUnit (s : State) (fs : List Fld) (l : Nat) (f : Fld) (u : Nat) :
    (s.each fs fun s g => s.resetUnit g l).rd f u = if f ∈ fs ∧ u = l then f.resetVal l else s.rd f u :=
  (s.rd_each_wr fs l (Fld.resetVal · l) f u).trans <| by rw [Nat.mod_eq_of_lt (f.resetVal_lt l)]

/-! ## A lane of the state -/

@[simp] theorem State.lane_setLane_same (s : State) (l : Nat) (v : VisLane) : (s.setLane l v).lane l = v :=
  Sparse.get_set_same _ _ _ _

@[simp] theorem State.rd_setLane (s : State) (l : Nat) (v : VisLane) (f : Fld) (u : Nat) :
    (s.setLane l v).rd f u = s.rd f u := rfl

@[simp] theorem State.mem_setLane (s : State) (l : Nat) (v : VisLane) : (s.setLane l v).mem = s.mem := rfl

@[simp] theorem State.flights_setLane (s : State) (l : Nat) (v : VisLane) : (s.setLane l v).flights = s.flights := rfl

theorem State.MovesOnly.setLane {F : List Fld} {s : State} {l : Nat} {v : VisLane} : s.MovesOnly F (s.setLane l v) :=
  .of_csr rfl

theorem State.mem_each_wr (s : State) (fs : List Fld) (l : Nat) (val : Fld → Nat) :
    (s.each fs fun s g => s.wr g l (val g)).mem = s.mem := s.each_unchanged State.mem fun _ _ _ => rfl

@[simp] theorem State.mem_fire (s : State) (n : Nat) : (s.fire n).mem = s.mem := (fire_frame s n).mem_eq

@[simp] theorem State.lane_fire (s : State) (n l : Nat) : (s.fire n).lane l = s.lane l :=
  (congrArg (fun t : State => t.lane l) (fire_frame s n).1 :)

/-- The register fields of a lane. -/
def laneFields : List Fld :=
  [.VIS_STATUS_STATE, .VIS_STATUS_PARTITION, .VIS_STATUS_BUSY, .VIS_STATUS_PORT, .VIS_CTRL_ENABLE, .VIS_TRIG_PYR,
    .VIS_TRIG_MOT, .VIS_TRIG_REF, .VIS_TRIG_OVF_PYR, .VIS_TRIG_OVF_MOT, .VIS_TRIG_OVF_REF, .VIS_FRAME_NEXT,
    .VIS_FRAME_DONE, .VIS_ERR_VALID, .VIS_ERR_PA]

theorem State.MovesOnly.visState {s : State} {l st : Nat} : s.MovesOnly [.VIS_STATUS_STATE] (s.visState l st) :=
  .ite (.refl s) (.after .fire (.wr (by decide)))

theorem State.rd_visState {s : State} {l st : Nat} (hst : st < 16) : (s.visState l st).rd .VIS_STATUS_STATE l = st := by
  unfold State.visState
  split
  · assumption
  · rw [fire_rd _ _ _ _ (by decide), State.rd_wr_same]
    exact Nat.mod_eq_of_lt hst

@[simp] theorem State.mem_visState (s : State) (l st : Nat) : (s.visState l st).mem = s.mem := by
  unfold State.visState
  split <;> simp

@[simp] theorem State.lane_visState (s : State) (l st m : Nat) : (s.visState l st).lane m = s.lane m := by
  unfold State.visState
  split
  · rfl
  · exact State.lane_fire _ _ _

/-! ## Settling (R350, R359) -/

/-- The fields that a lane's settling moves. -/
def settleFields : List Fld := [.VIS_STATUS_STATE, .VIS_STATUS_PORT, .VIS_STATUS_PARTITION, .VIS_CTRL_ENABLE]

/-- From `s` to `t` a lane can have become IDLE and taken a binding; memory and the lane's runs are as they were. -/
structure State.Settles (l : Nat) (s t : State) : Prop where
  moves : s.MovesOnly settleFields t
  mem : t.mem = s.mem
  lane : ∃ unbind bind, t.lane l = { s.lane l with unbind := unbind, bind := bind }

namespace State.Settles

variable {l : Nat} {s t u : State}

theorem refl (s : State) : s.Settles l s := ⟨.refl s, rfl, _, _, rfl⟩

theorem after (k : t.Settles l u) (h : s.Settles l t) : s.Settles l u := by
  obtain ⟨a, b, ht⟩ := h.lane
  obtain ⟨c, d, hu⟩ := k.lane
  exact ⟨k.moves.after h.moves, k.mem.trans h.mem, c, d, by rw [hu, ht]⟩

theorem ite {c : Prop} [Decidable c] {a b : State} (ha : s.Settles l a) (hb : s.Settles l b) :
    s.Settles l (if c then a else b) := by split <;> assumption

theorem wr {f : Fld} {n v : Nat} (hf : f ∈ settleFields := by decide) : s.Settles l (s.wr f n v) :=
  ⟨.wr hf fun h => absurd (h ▸ hf) (by decide), rfl, _, _, rfl⟩

theorem fire {n : Nat} : s.Settles l (s.fire n) := ⟨.fire, s.mem_fire n, _, _, s.lane_fire n l⟩

theorem visState {st : Nat} : s.Settles l (s.visState l st) := .ite (.refl s) (.after .fire .wr)

theorem setLane {unbind : Bool} {bind : Option (Nat × Nat)} :
    s.Settles l (s.setLane l { s.lane l with unbind := unbind, bind := bind }) :=
  ⟨.of_csr rfl, rfl, _, _, s.lane_setLane_same l _⟩

end State.Settles

/-- A lane that waits for its runs to end, to be unbound or because it was disabled, is IDLE once they have. -/
def State.laneIdles (s : State) (l : Nat) : State :=
  if (s.lane l).unbind && s.laneEmpty l then
    ((s.wr .VIS_CTRL_ENABLE l 0).setLane l { s.lane l with unbind := false }).visState l 1
  else if s.rd .VIS_STATUS_STATE l = 2 ∧ s.rd .VIS_CTRL_ENABLE l = 0 ∧ s.rd .VIS_STATUS_BUSY l = 0 then s.visState l 1
  else s

/-- A lane that waits for no run takes the binding that waits for it. -/
def State.laneBinds (s : State) (l : Nat) : State :=
  match (s.lane l).bind with
  | some (p, q) =>
    if (s.lane l).unbind then s
    else ((s.wr .VIS_STATUS_PORT l p).wr .VIS_STATUS_PARTITION l q).setLane l { s.lane l with bind := none }
  | none => s

theorem State.laneSettle_eq (s : State) (l : Nat) :
    s.laneSettle l = if (s.lane l).cmd.isSome then s else (s.laneIdles l).laneBinds l := rfl

theorem State.Settles.laneIdles {l : Nat} {s : State} : s.Settles l (s.laneIdles l) :=
  .ite (.after .visState <| .after (.setLane (s := s.wr .VIS_CTRL_ENABLE l 0)) .wr) (.ite .visState (.refl s))

theorem State.Settles.laneBinds {l : Nat} {s : State} : s.Settles l (s.laneBinds l) := by
  unfold State.laneBinds
  split
  · exact .ite (.refl s) <|
      .after (.setLane (s := (s.wr .VIS_STATUS_PORT l _).wr .VIS_STATUS_PARTITION l _)) (.after .wr .wr)
  · exact .refl s

theorem State.Settles.laneSettle {l : Nat} {s : State} : s.Settles l (s.laneSettle l) := by
  rw [State.laneSettle_eq]
  exact .ite (.refl s) (.after .laneBinds .laneIdles)

/-- A disabled lane stays disabled. -/
theorem State.rd_enable_laneSettle {s : State} {l : Nat} (h : s.rd .VIS_CTRL_ENABLE l = 0) :
    (s.laneSettle l).rd .VIS_CTRL_ENABLE l = 0 := by
  have hidles : (s.laneIdles l).rd .VIS_CTRL_ENABLE l = 0 := by
    have hstate (t : State) : (t.visState l 1).rd .VIS_CTRL_ENABLE l = t.rd .VIS_CTRL_ENABLE l :=
      State.MovesOnly.visState.rd _ l (by decide) (by decide)
    unfold State.laneIdles
    split
    · exact (hstate _).trans (by simp)
    split
    · exact (hstate _).trans h
    · exact h
  have hbinds (t : State) : (t.laneBinds l).rd .VIS_CTRL_ENABLE l = t.rd .VIS_CTRL_ENABLE l := by
    unfold State.laneBinds
    split
    · split
      · rfl
      · exact (State.rd_wr_ne _ _ (by simp)).trans (State.rd_wr_ne _ _ (by simp))
    · rfl
  rw [State.laneSettle_eq]
  split
  · exact h
  · exact (hbinds _).trans hidles

/-! ## Counters and run bits (R349, R350) -/

theorem State.visAdd_of_fits {s : State} {l n : Nat} {trg : Fld} (ovf : Fld) (h : s.rd trg l + n ≤ 255) :
    s.visAdd l trg ovf n = s.wr trg l (s.rd trg l + n) := if_neg (Nat.not_lt.2 h)

theorem State.visAdd_of_over {s : State} {l n : Nat} {trg : Fld} (ovf : Fld) (h : 255 < s.rd trg l + n) :
    s.visAdd l trg ovf n = ((s.wr trg l 255).wr ovf l 1).visFire l 3 := if_pos h

theorem State.MovesOnly.visAdd {s : State} {l n : Nat} {trg ovf : Fld} (htrg : trg ∈ laneFields := by decide)
    (hovf : ovf ∈ laneFields := by decide) : s.MovesOnly [trg, ovf] (s.visAdd l trg ovf n) := by
  have hpend : ∀ f ∈ laneFields, f ≠ .GEY_PEND_PEND := by decide
  exact .ite (.after .fire <| .after (.wr (by simp) (hpend _ hovf)) (.wr (by simp) (hpend _ htrg)))
    (.wr (by simp) (hpend _ htrg))

/-- The counters of a lane: eight bits each. -/
theorem State.rd_visAdd {s : State} {l n : Nat} {trg ovf : Fld}
    (htrg : (trg, ovf) ∈ [(Fld.VIS_TRIG_MOT, Fld.VIS_TRIG_OVF_MOT), (.VIS_TRIG_REF, .VIS_TRIG_OVF_REF)] := by decide) :
    (s.visAdd l trg ovf n).rd trg l = min 255 (s.rd trg l + n) := by
  obtain ⟨hwidth, hirq, hne⟩ : trg.info.width = 8 ∧ trg ∉ irqFields ∧ trg ≠ ovf :=
    (by decide : ∀ p ∈ [(Fld.VIS_TRIG_MOT, Fld.VIS_TRIG_OVF_MOT), (.VIS_TRIG_REF, .VIS_TRIG_OVF_REF)],
      p.1.info.width = 8 ∧ p.1 ∉ irqFields ∧ p.1 ≠ p.2) _ htrg
  obtain hfits | hover := Nat.lt_or_ge 255 (s.rd trg l + n) |>.symm
  · rw [State.visAdd_of_fits _ hfits, State.rd_wr_same, hwidth, Nat.mod_eq_of_lt (by omega), Nat.min_eq_right hfits]
  · rw [State.visAdd_of_over _ hover, State.visFire, fire_rd _ _ _ _ hirq, State.rd_wr_ne _ _ (by simp [hne]),
      State.rd_wr_same, hwidth, Nat.min_eq_left hover.le]
    rfl

@[simp] theorem State.mem_visAdd (s : State) (l n : Nat) (trg ovf : Fld) : (s.visAdd l trg ovf n).mem = s.mem := by
  unfold State.visAdd
  dsimp only
  split
  · exact State.mem_fire _ _
  · rfl

@[simp] theorem State.lane_visAdd (s : State) (l n m : Nat) (trg ovf : Fld) :
    (s.visAdd l trg ovf n).lane m = s.lane m := by
  unfold State.visAdd
  dsimp only
  split
  · exact State.lane_fire _ _ _
  · rfl

theorem State.visBusy_visSetBusy (s : State) (l : Nat) {b : Nat} (on : Bool) (hb : b < 3) :
    (s.visSetBusy l b on).visBusy l b = on := by
  unfold State.visBusy State.visSetBusy
  rw [State.rd_wr_same, show Fld.VIS_STATUS_BUSY.info.width = 3 from rfl, Nat.testBit_mod_two_pow, decide_eq_true hb]
  cases on
  · simp [testBit_clrBit]
  · simp [testBit_setBit]

theorem State.MovesOnly.visBusy_eq {F : List Fld} {s t : State} (h : s.MovesOnly F t) (l b : Nat)
    (hF : Fld.VIS_STATUS_BUSY ∉ F := by decide) : t.visBusy l b = s.visBusy l b := by
  rw [State.visBusy, State.visBusy, h.rd _ l hF (by decide)]

/-! ## Where a lane reads and writes (R351, R353) -/

/-- The fields that give a lane its geometry, its rings and its partition, and an interleave set its own. -/
def placeFields : List Fld :=
  [.VIS_PARAM_LEVELS, .VIS_IN_BASE_ADDR, .VIS_IN_BASE_IN_DEPTH, .VIS_IN_GEOM_FORMAT, .VIS_IN_GEOM_W, .VIS_IN_GEOM_H,
    .VIS_IN_GEOM_PITCH, .VIS_IN_GEOM_ENTRY, .VIS_RING_BASE_ADDR, .VIS_RING_BASE_OUT_DEPTH, .VIS_STATUS_PARTITION,
    .MEM_PC_STATUS_ISET, .MEM_PC_STATUS_PARTITION]

theorem Sparse.filter_keys_set {α : Type} [DecidableEq α] (d : α) (m : Sparse α) {k : Nat} (v : α) {p : Nat → Bool}
    (hk : p k = false) : ((m.set d k v).map (·.1)).filter p = (m.map (·.1)).filter p := by
  unfold Sparse.set
  split
  · rw [List.filter_map, List.filter_map, List.filter_filter]
    congr 1
    refine List.filter_congr fun kv _ => ?_
    by_cases h : kv.1 = k
    · simp [h, hk]
    · simp [h]
  · induction m with
    | nil => simp [Sparse.put, hk]
    | cons e m ih =>
      unfold Sparse.put
      split
      · simp [hk]
      split
      next h => simp [← h, hk]
      next => simp only [List.map_cons, List.filter_cons, ih]

theorem State.unitsOf_wr {s : State} {f g : Fld} {u v : Nat} (h : g ≠ f) : (s.wr f u v).unitsOf g = s.unitsOf g := by
  have hother : decide (f.key u % 1024 = g.ctorIdx) = false := by
    have hf := f.ctorIdx_lt
    rw [decide_eq_false_iff_not, Fld.key]
    exact fun he => h (Fld.ctorIdx_inj (by omega))
  exact congrArg (List.map (· / 1024)) (Sparse.filter_keys_set (p := fun k => decide (k % 1024 = g.ctorIdx)) _ _ _ hother)

section
variable {s : State} {f : Fld} {u v : Nat} (hf : f ∉ placeFields)
include hf

theorem State.rd_wr_place {g : Fld} (hg : g ∈ placeFields) (w : Nat) : (s.wr f u v).rd g w = s.rd g w :=
  s.rd_wr_ne v fun h => hf (h.1 ▸ hg)

theorem State.visGeom_wr (l : Nat) : (s.wr f u v).visGeom l = s.visGeom l := by
  have hlevels : (s.wr f u v).visLevels l = s.visLevels l := by
    rw [State.visLevels, State.rd_wr_place hf (g := .VIS_PARAM_LEVELS) (by decide), ← State.visLevels]
  rw [State.visGeom, hlevels, State.rd_wr_place hf (g := .VIS_IN_GEOM_FORMAT) (by decide),
    State.rd_wr_place hf (g := .VIS_IN_GEOM_W) (by decide), State.rd_wr_place hf (g := .VIS_IN_GEOM_H) (by decide),
    State.rd_wr_place hf (g := .VIS_IN_GEOM_PITCH) (by decide), ← State.visGeom]

theorem State.visIn_wr (l k : Nat) : (s.wr f u v).visIn l k = s.visIn l k := by
  simp only [State.visIn, State.rd_wr_place hf (g := .VIS_IN_BASE_ADDR) (by decide),
    State.rd_wr_place hf (g := .VIS_IN_BASE_IN_DEPTH) (by decide), State.rd_wr_place hf (g := .VIS_IN_GEOM_ENTRY) (by decide)]

theorem State.visPyr_wr (l k : Nat) (g : VisGeom) : (s.wr f u v).visPyr l k g = s.visPyr l k g := by
  simp only [State.visPyr, State.rd_wr_place hf (g := .VIS_RING_BASE_ADDR) (by decide)]

theorem State.visOut_wr (l k : Nat) (g : VisGeom) : (s.wr f u v).visOut l k g = s.visOut l k g := by
  simp only [State.visOut, State.rd_wr_place hf (g := .VIS_RING_BASE_ADDR) (by decide),
    State.rd_wr_place hf (g := .VIS_RING_BASE_OUT_DEPTH) (by decide)]

theorem State.members_wr : (s.wr f u v).members = s.members := by
  have hiset : Fld.MEM_PC_STATUS_ISET ≠ f := fun h => hf (h ▸ by decide)
  funext n
  simp only [State.members, State.unitsOf_wr hiset, State.rd_wr_place hf (g := .MEM_PC_STATUS_ISET) (by decide)]

theorem State.strayPa_wr : (s.wr f u v).strayPa = s.strayPa := by
  have hhbm : (s.wr f u v).hbmOk = s.hbmOk := by
    funext pa
    rw [State.hbmOk, State.setFrames, State.members_wr hf, ← State.setFrames, ← State.hbmOk]
  have hpart : (s.wr f u v).setPart = s.setPart := by
    funext n
    simp only [State.setPart, State.members_wr hf, State.rd_wr_place hf (g := .MEM_PC_STATUS_PARTITION) (by decide)]
  funext part pa n
  rw [State.strayPa, hhbm, hpart, ← State.strayPa]

theorem State.visStray_wr (l : Nat) (rs : List (Nat × Nat)) : (s.wr f u v).visStray l rs = s.visStray l rs := by
  rw [State.visStray, State.strayPa_wr hf, State.rd_wr_place hf (g := .VIS_STATUS_PARTITION) (by decide),
    ← State.visStray]

end

end Sys2Proof.Machine
end

section
/-! ENABLE and the host's triggers (R349, R350, R353, R358). -/

namespace Sys2Proof.Machine

/-! ## Enabling -/

/-- The fields an enable puts back at their reset values. -/
def enableFields : List Fld :=
  [.VIS_STATUS_BUSY, .VIS_TRIG_PYR, .VIS_TRIG_MOT, .VIS_TRIG_REF, .VIS_TRIG_OVF_PYR, .VIS_TRIG_OVF_MOT,
    .VIS_TRIG_OVF_REF, .VIS_FRAME_NEXT, .VIS_FRAME_DONE]

/-- An enabled lane before its state changes: its registers are reset and its three units are at frame 0. -/
def State.laneEnabled (s : State) (l : Nat) : State :=
  let t := s.each enableFields fun s f => s.resetUnit f l
  (t.wr .VIS_CTRL_ENABLE l 1).setLane l { t.lane l with kP := 0, kM := 0, kR := 0, frames := [] }

theorem exec_visEnable_of_idle {s : State} {l : Nat} (hl : l < 4) (hserved : s.served .late)
    (hidle : s.rd .VIS_STATUS_STATE l = 1) (hoff : s.rd .VIS_CTRL_ENABLE l = 0) (hgeom : (s.visGeom l).isSome = true)
    (htest : s.testing 3 l = false) (hfailed : s.testFailed 3 l = false) :
    exec (.visEnable l) s = .next ((s.laneEnabled l).visState l 2) := by
  refine congrArg Host.Outcome.next ((hserved.accessed_self _).trans (if_neg ?_))
  simp [hl.not_ge, hidle, hoff, htest, hfailed, Option.isSome_iff_ne_none.1 hgeom]

theorem exec_visEnable_of_badGeometry {s : State} {l : Nat} (hserved : s.served .late) (hgeom : s.visGeom l = none) :
    exec (.visEnable l) s = .next s := by
  refine congrArg Host.Outcome.next ((hserved.accessed_self _).trans (if_pos ?_))
  simp [hgeom]

theorem State.rd_laneEnabled_reset (s : State) {l : Nat} {f : Fld} (hf : f ∈ enableFields) :
    (s.laneEnabled l).rd f l = f.resetVal l := by
  have hne : f ≠ .VIS_CTRL_ENABLE := fun h => absurd (h ▸ hf) (by decide)
  rw [State.laneEnabled, State.rd_setLane, State.rd_wr_ne _ _ (by simp [hne]), State.rd_each_resetUnit, if_pos ⟨hf, rfl⟩]

theorem State.rd_laneEnabled_state (s : State) (l : Nat) :
    (s.laneEnabled l).rd .VIS_STATUS_STATE l = s.rd .VIS_STATUS_STATE l := by
  have hkept : Fld.VIS_STATUS_STATE ∉ enableFields := by decide
  rw [State.laneEnabled, State.rd_setLane, State.rd_wr_ne _ _ (by simp), State.rd_each_resetUnit,
    if_neg fun h => hkept h.1]

theorem State.laneEnabled_moves (s : State) (l : Nat) : s.MovesOnly laneFields (s.laneEnabled l) :=
  .after .setLane <| .after (.wr (by decide)) <| .each fun _ f hf =>
    .wr ((by decide : ∀ f ∈ enableFields, f ∈ laneFields) f hf) fun h => absurd (h ▸ hf) (by decide)

/-- The lane of an enable in ROUTE: its own registers are those of the enable. -/
theorem State.rd_visState_laneEnabled (s : State) {l : Nat} {f : Fld} (hf : f ∈ enableFields) :
    ((s.laneEnabled l).visState l 2).rd f l = f.resetVal l := by
  have hother : f ∉ [Fld.VIS_STATUS_STATE] ∧ f ∉ irqFields :=
    (by decide : ∀ f ∈ enableFields, f ∉ [Fld.VIS_STATUS_STATE] ∧ f ∉ irqFields) f hf
  rw [State.MovesOnly.visState.rd _ _ hother.1 hother.2, s.rd_laneEnabled_reset hf]

theorem State.rd_visState_laneEnabled_enable (s : State) (l : Nat) :
    ((s.laneEnabled l).visState l 2).rd .VIS_CTRL_ENABLE l = 1 := by
  rw [State.MovesOnly.visState.rd _ _ (by decide) (by decide), State.laneEnabled, State.rd_setLane, State.rd_wr_same]
  rfl

/-- The counters and overflow flags of a lane. -/
def counterFields : List Fld :=
  [.VIS_TRIG_PYR, .VIS_TRIG_MOT, .VIS_TRIG_REF, .VIS_TRIG_OVF_PYR, .VIS_TRIG_OVF_MOT, .VIS_TRIG_OVF_REF]

theorem State.rd_visState_laneEnabled_counter (s : State) {l : Nat} {f : Fld} (hf : f ∈ counterFields) :
    ((s.laneEnabled l).visState l 2).rd f l = 0 := by
  rw [s.rd_visState_laneEnabled ((by decide : ∀ f ∈ counterFields, f ∈ enableFields) f hf)]
  simp only [counterFields, List.mem_cons, List.not_mem_nil, or_false] at hf
  obtain rfl | rfl | rfl | rfl | rfl | rfl := hf <;> rfl

/-- Beside its registers, an enable puts a lane's three units at frame 0. -/
theorem State.visState_laneEnabled_leaves (s : State) (l : Nat) :
    (((s.laneEnabled l).visState l 2).lane l).kP = 0 ∧ (((s.laneEnabled l).visState l 2).lane l).kM = 0 ∧
      (((s.laneEnabled l).visState l 2).lane l).kR = 0 ∧ ((s.laneEnabled l).visState l 2).mem = s.mem ∧
      ((s.laneEnabled l).visState l 2).flights = s.flights := by
  have hflights : (s.each enableFields fun s f => s.resetUnit f l).flights = s.flights :=
    s.each_unchanged State.flights fun _ _ _ => rfl
  have hmem : (s.each enableFields fun s f => s.resetUnit f l).mem = s.mem :=
    s.each_unchanged State.mem fun _ _ _ => rfl
  refine ⟨?_, ?_, ?_, ?_, ?_⟩
  · rw [State.lane_visState, State.laneEnabled, State.lane_setLane_same]
  · rw [State.lane_visState, State.laneEnabled, State.lane_setLane_same]
  · rw [State.lane_visState, State.laneEnabled, State.lane_setLane_same]
  · rw [State.mem_visState, State.laneEnabled, State.mem_setLane, State.wr_mem, hmem]
  · rw [State.SameWork.visState.flights, State.laneEnabled, State.flights_setLane, State.wr_flights, hflights]

theorem State.visState_raised {F : List Fld} {s t : State} {l st : Nat} (h : s.MovesOnly F t)
    (hne : t.rd .VIS_STATUS_STATE l ≠ st) (hF : ∀ f ∈ F, f ∈ laneFields) :
    Raised s (t.visState l st) (288 + 16 * l + 6) := by
  rw [State.visState, if_neg hne]
  exact (State.MovesOnly.after (.wr (by decide)) (h.mono hF)).fire_raised _

/-! ## Disabling -/

theorem exec_visDisable_of_command {s : State} {l : Nat} (hserved : s.served .late)
    (hst : s.rd .VIS_STATUS_STATE l = 3) : exec (.visDisable l) s = .next s :=
  congrArg Host.Outcome.next ((hserved.accessed_self _).trans (if_pos (.inr hst)))

theorem visDisable_clears {s : State} {l : Nat} (hl : l < 4) (hserved : s.served .late)
    (hst : s.rd .VIS_STATUS_STATE l ≠ 3) :
    Runs (.visDisable l) s fun t => t.rd .VIS_CTRL_ENABLE l = 0 ∧ t.mem = s.mem := by
  have hoff : (s.wr .VIS_CTRL_ENABLE l 0).rd .VIS_CTRL_ENABLE l = 0 := s.rd_wr_same _ _ _
  refine ⟨_, congrArg Host.Outcome.next ((hserved.accessed_self _).trans
    (if_neg (not_or.2 ⟨hl.not_ge, hst⟩))), ?_⟩
  dsimp only
  split
  · refine ⟨?_, State.mem_visState _ _ _⟩
    rw [State.MovesOnly.visState.rd _ _ (by decide) (by decide), State.rd_wr_ne _ _ (by simp), hoff]
  · exact ⟨State.rd_enable_laneSettle hoff, State.Settles.laneSettle.mem⟩

/-! ## Triggers -/

theorem exec_visTrigAdd_of_route {s : State} {l : Nat} (v : Nat) (hl : l < 4) (hserved : s.served .late)
    (hst : s.rd .VIS_STATUS_STATE l = 2) :
    exec (.visTrigAdd l v) s = .next (s.visAdd l .VIS_TRIG_PYR .VIS_TRIG_OVF_PYR (v % 256)) :=
  congrArg Host.Outcome.next ((hserved.accessed_self _).trans (if_pos ⟨hl, by simp [State.visCounts, hst]⟩))

theorem exec_visTrigAdd_ignored {s : State} {l : Nat} (v : Nat) (hserved : s.served .late)
    (hst : s.rd .VIS_STATUS_STATE l = 1 ∨ s.rd .VIS_STATUS_STATE l = 3) :
    exec (.visTrigAdd l v) s = .next s := by
  refine congrArg Host.Outcome.next ((hserved.accessed_self _).trans (if_neg ?_))
  obtain h | h := hst <;> simp [State.visCounts, h]

theorem visTrigAdd_saturates {s : State} {l v : Nat} (hl : l < 4) (hserved : s.served .late)
    (hst : s.rd .VIS_STATUS_STATE l = 2) (hover : 255 < s.rd .VIS_TRIG_PYR l + v % 256) :
    Runs (.visTrigAdd l v) s fun t => t.rd .VIS_TRIG_PYR l = 255 ∧ t.rd .VIS_TRIG_OVF_PYR l = 1 ∧
      Raised s t (288 + 16 * l + 3) ∧ OnlyRegsIrq s t [(.VIS_TRIG_PYR, l), (.VIS_TRIG_OVF_PYR, l)] := by
  have hregs : OnlyRegs s ((s.wr .VIS_TRIG_PYR l 255).wr .VIS_TRIG_OVF_PYR l 1)
      [(.VIS_TRIG_PYR, l), (.VIS_TRIG_OVF_PYR, l)] := (OnlyRegs.wr _ _ _ _).trans (.wr _ _ _ _)
  refine ⟨_, (exec_visTrigAdd_of_route v hl hserved hst).trans (congrArg _ (State.visAdd_of_over _ hover)), ?_, ?_,
    hregs.fire_raised _ (by simp), hregs.fire _⟩
  · rw [State.visFire, fire_rd _ _ _ _ (by decide), State.rd_wr_ne _ _ (by simp), State.rd_wr_same]
    rfl
  · rw [State.visFire, fire_rd _ _ _ _ (by decide), State.rd_wr_same]
    rfl

end Sys2Proof.Machine
end

section
/-! Route faults, and the start of the three runs (R349, R351, R353). -/

namespace Sys2Proof.Machine

/-! ## A route fault -/

/-- The fields a lane's stop clears. -/
def stopFields : List Fld := [.VIS_STATUS_BUSY, .VIS_TRIG_PYR, .VIS_TRIG_MOT, .VIS_TRIG_REF, .VIS_CTRL_ENABLE]

/-- A stopped lane before it settles. -/
def State.laneStopped (s : State) (l : Nat) : State :=
  let t := s.each stopFields fun s f => s.wr f l 0
  t.setLane l { t.lane l with frames := [], unbind := false }

theorem State.Settles.visStop {s : State} {l : Nat} : (s.laneStopped l).Settles l (s.visStop l) :=
  .ite (.after .laneSettle .visState) .laneSettle

theorem State.rd_visStop {s : State} {l : Nat} {f : Fld} (hf : f ∉ settleFields) (hirq : f ∉ irqFields) :
    (s.visStop l).rd f l = if f ∈ stopFields then 0 else s.rd f l := by
  rw [State.Settles.visStop.moves.rd _ _ hf hirq, State.laneStopped, State.rd_setLane,
    State.rd_each_wr s stopFields l fun _ => 0]
  simp

theorem State.mem_visStop (s : State) (l : Nat) : (s.visStop l).mem = s.mem := by
  rw [State.Settles.visStop.mem, State.laneStopped, State.mem_setLane, State.mem_each_wr s stopFields l fun _ => 0]

theorem State.MovesOnly.visStop {s : State} {l : Nat} : s.MovesOnly laneFields (s.visStop l) :=
  .after (State.Settles.visStop.moves.mono (by decide)) <| .after .setLane <| .each fun _ f hf =>
    .wr ((by decide : ∀ f ∈ stopFields, f ∈ laneFields) f hf) fun h => absurd (h ▸ hf) (by decide)

/-- VIS_ERR shows the first stray address. -/
def State.errShown (s : State) (l pa : Nat) : State := (s.wr .VIS_ERR_VALID l 1).wr .VIS_ERR_PA l pa

/-- A route fault before a lane that waits to be unbound stops. -/
def State.faultShown (s : State) (l pa : Nat) : State := ((s.errShown l pa).visFire l 5).visState l 4

theorem State.visFault_eq (s : State) (l pa : Nat) :
    s.visFault l pa = if (s.lane l).unbind then (s.faultShown l pa).visStop l else s.faultShown l pa := by
  have hlane : (s.faultShown l pa).lane l = s.lane l :=
    (State.lane_visState _ _ _ _).trans (State.lane_fire _ _ _)
  rw [← hlane]
  rfl

theorem State.mem_faultShown (s : State) (l pa : Nat) : (s.faultShown l pa).mem = s.mem :=
  (State.mem_visState _ _ _).trans (State.mem_fire _ _)

theorem State.rd_faultShown {s : State} {l pa : Nat} {f : Fld} (hst : f ≠ .VIS_STATUS_STATE) (hirq : f ∉ irqFields) :
    (s.faultShown l pa).rd f l = (s.errShown l pa).rd f l :=
  (State.MovesOnly.visState.rd f l (by simpa using hst) hirq).trans (fire_rd _ _ _ _ hirq)

/-- What a route fault leaves, from a lane in the state `s` (R353). -/
theorem State.visFault_leaves (s : State) (l pa : Nat) :
    (s.visFault l pa).rd .VIS_TRIG_PYR l = (if (s.lane l).unbind = true then 0 else s.rd .VIS_TRIG_PYR l) ∧
      (s.visFault l pa).rd .VIS_ERR_VALID l = 1 ∧ (s.visFault l pa).rd .VIS_ERR_PA l = pa % 2 ^ 46 ∧
      ((s.lane l).unbind = false → (s.visFault l pa).rd .VIS_STATUS_STATE l = 4) ∧ (s.visFault l pa).mem = s.mem := by
  have hpyr : (s.faultShown l pa).rd .VIS_TRIG_PYR l = s.rd .VIS_TRIG_PYR l :=
    (State.rd_faultShown (by decide) (by decide)).trans (by simp [State.errShown])
  have hvalid : (s.faultShown l pa).rd .VIS_ERR_VALID l = 1 :=
    (State.rd_faultShown (by decide) (by decide)).trans ((State.rd_wr_ne _ _ (by simp)).trans (State.rd_wr_same _ _ _ _))
  have hpa : (s.faultShown l pa).rd .VIS_ERR_PA l = pa % 2 ^ 46 :=
    (State.rd_faultShown (by decide) (by decide)).trans (State.rd_wr_same _ _ _ _)
  rw [State.visFault_eq]
  split
  next hunbind =>
    have hstop {f : Fld} (hf : f ∉ settleFields) (hirq : f ∉ irqFields) :=
      State.rd_visStop (s := s.faultShown l pa) (l := l) hf hirq
    refine ⟨?_, ?_, ?_, fun hbound => by simp [hbound] at hunbind, (State.mem_visStop _ _).trans (s.mem_faultShown l pa)⟩
    · exact hstop (by decide) (by decide)
    · exact (hstop (by decide) (by decide)).trans hvalid
    · exact (hstop (by decide) (by decide)).trans hpa
  next => exact ⟨hpyr, hvalid, hpa, fun _ => State.rd_visState (by decide), s.mem_faultShown l pa⟩

theorem State.visFault_raised {s t : State} (h : s.MovesOnly laneFields t) (l pa : Nat) :
    Raised s (t.visFault l pa) (288 + 16 * l + 5) := by
  have hshown : Raised s (t.faultShown l pa) (288 + 16 * l + 5) :=
    State.MovesOnly.visState.raised <| State.MovesOnly.fire_raised
      (State.MovesOnly.after (.wr (by decide)) <| .after (.wr (by decide)) h) _
  rw [State.visFault_eq]
  split
  · exact State.MovesOnly.visStop.raised hshown
  · exact hshown

/-! ## The start of a run (R351) -/

@[simp] theorem State.lane_visTake (s : State) (l m : Nat) (trg : Fld) : (s.visTake l trg).lane m = s.lane m := rfl

@[simp] theorem State.paBad_visTake (s : State) (l pa n : Nat) (trg : Fld) :
    (s.visTake l trg).paBad pa n = s.paBad pa n := rfl

@[simp] theorem State.paBytes_visTake (s : State) (l pa n : Nat) (trg : Fld) :
    (s.visTake l trg).paBytes pa n = s.paBytes pa n := rfl

section
variable {s : State} {l : Nat} {trg : Fld} (htrg : trg ∈ [Fld.VIS_TRIG_PYR, .VIS_TRIG_MOT, .VIS_TRIG_REF])
include htrg

theorem Fld.trigger_facts : trg ∉ placeFields ∧ trg ∈ laneFields ∧ trg ≠ .GEY_PEND_PEND ∧ trg.info.width = 8 :=
  (by decide : ∀ f ∈ [Fld.VIS_TRIG_PYR, .VIS_TRIG_MOT, .VIS_TRIG_REF],
    f ∉ placeFields ∧ f ∈ laneFields ∧ f ≠ .GEY_PEND_PEND ∧ f.info.width = 8) trg htrg

@[simp] theorem State.visGeom_visTake (m : Nat) : (s.visTake l trg).visGeom m = s.visGeom m :=
  State.visGeom_wr (Fld.trigger_facts htrg).1 m

@[simp] theorem State.visIn_visTake (m k : Nat) : (s.visTake l trg).visIn m k = s.visIn m k :=
  State.visIn_wr (Fld.trigger_facts htrg).1 m k

@[simp] theorem State.visPyr_visTake (m k : Nat) (g : VisGeom) : (s.visTake l trg).visPyr m k g = s.visPyr m k g :=
  State.visPyr_wr (Fld.trigger_facts htrg).1 m k g

@[simp] theorem State.visOut_visTake (m k : Nat) (g : VisGeom) : (s.visTake l trg).visOut m k g = s.visOut m k g :=
  State.visOut_wr (Fld.trigger_facts htrg).1 m k g

@[simp] theorem State.visStray_visTake (m : Nat) (rs : List (Nat × Nat)) :
    (s.visTake l trg).visStray m rs = s.visStray m rs := State.visStray_wr (Fld.trigger_facts htrg).1 m rs

theorem State.MovesOnly.visTake : s.MovesOnly laneFields (s.visTake l trg) := by
  obtain ⟨-, hlane, hpend, -⟩ := Fld.trigger_facts htrg
  exact .wr hlane hpend

theorem State.rd_visTake {n : Nat} (hn : n < 255) (hcount : s.rd trg l = n + 1) : (s.visTake l trg).rd trg l = n := by
  obtain ⟨-, -, -, hwidth⟩ := Fld.trigger_facts htrg
  rw [State.visTake, hcount, State.rd_wr_same, hwidth, Nat.add_sub_cancel]
  omega

end

section
variable {s : State} {l : Nat} (hst : s.rd .VIS_STATUS_STATE l = 2) (hon : s.rd .VIS_CTRL_ENABLE l = 1)
include hst hon

theorem State.visGoes_of_route : s.visGoes l = true := by simp [State.visGoes, hst, hon]

variable (hl : l < 4) {n : Nat} {g : VisGeom}
include hl

/-- An enabled lane with a count starts its pyramid run, unless it waits for motion run k - 2. -/
theorem exec_pyramidRunStart_of_route (hgeom : s.visGeom l = some g) (hfree : s.visBusy l 0 = false)
    (hcount : s.rd .VIS_TRIG_PYR l = n + 1) : exec (.pyramidRunStart l) s =
      .next (if 2 ≤ (s.lane l).kP ∧ (s.lane l).kM < (s.lane l).kP - 1 then s else s.pyrStart l g) := by
  have hgoes := State.visGoes_of_route hst hon
  show execPyramidRunStart l s = _
  simp [execPyramidRunStart, hl.not_ge, hgoes, hfree, hcount, hst, hgeom]

theorem exec_refineRunStart_of_route (hfree : s.visBusy l 2 = false) (hcount : s.rd .VIS_TRIG_REF l = n + 1) :
    exec (.refineRunStart l) s =
      .next ((s.wr .VIS_TRIG_REF l n).wr .VIS_STATUS_BUSY l (setBit (s.rd .VIS_STATUS_BUSY l) 2)) := by
  have hgoes := State.visGoes_of_route hst hon
  show execRefineRunStart l s = _
  simp [execRefineRunStart, hl.not_ge, hgoes, hfree, hcount, State.visTake, State.visSetBusy]

/-- A motion run whose ranges lie in the partition marks its output entry and is busy. -/
theorem exec_motionRunStart_of_route (hgeom : s.visGeom l = some g) (hfree : s.visBusy l 1 = false)
    (hcount : s.rd .VIS_TRIG_MOT l = n + 1)
    (hinside : s.visStray l [(s.visPyr l (s.lane l).kM g, pyrBytes g.sizes),
      (s.visPyr l ((s.lane l).kM + 2) g, pyrBytes g.sizes), (s.visOut l (s.lane l).kM g, g.outBytes)] = none) :
    exec (.motionRunStart l) s = .next (((s.visTake l .VIS_TRIG_MOT).paWrite (s.visOut l (s.lane l).kM g)
      (natLe 8 (2 ^ 64 - 1)) 9).visSetBusy l 1 true) := by
  have hgoes := State.visGoes_of_route hst hon
  have hstate : (s.visTake l .VIS_TRIG_MOT).rd .VIS_STATUS_STATE l = 2 := (State.rd_wr_ne _ _ (by simp)).trans hst
  show execMotionRunStart l s = _
  simp [execMotionRunStart, hl.not_ge, hgoes, hfree, hcount, hstate, hgeom, hinside]

end

theorem State.pyrStart_of_stray {s : State} {l pa : Nat} (g : VisGeom)
    (hstray : s.visStray l [(s.visIn l (s.lane l).kP, 64)] = some pa) :
    s.pyrStart l g = (s.visTake l .VIS_TRIG_PYR).visFault l pa := by
  rw [State.pyrStart]
  simp [hstray]

section
variable {s : State} {l : Nat} {g : VisGeom} (hinside : s.visStray l [(s.visIn l (s.lane l).kP, 64)] = none)
  (hsound : s.paBad (s.visIn l (s.lane l).kP) 16 = false)
include hinside hsound

/-- A header that is not frame k's (R351). -/
theorem State.pyrStart_of_missing (hframe : leNat (s.paBytes (s.visIn l (s.lane l).kP) 8) ≠ (s.lane l).kP) :
    s.pyrStart l g = ((s.visTake l .VIS_TRIG_PYR).visFire l 4).laneSettle l := by
  rw [State.pyrStart]
  simp [hinside, hsound, hframe]

theorem State.pyrStart_of_found (hframe : leNat (s.paBytes (s.visIn l (s.lane l).kP) 8) = (s.lane l).kP)
    (hranges : s.visStray l [(s.visIn l (s.lane l).kP + 64, g.planeBytes),
      (s.visPyr l (s.lane l).kP g, pyrBytes g.sizes)] = none) :
    s.pyrStart l g = (s.visTake l .VIS_TRIG_PYR).visSetBusy l 0 true := by
  rw [State.pyrStart]
  simp [hinside, hsound, hframe, hranges]

end

end Sys2Proof.Machine
end

section
/-! The starts of the runs, as they leave the lane (R349, R351, R353, R358). -/

namespace Sys2Proof.Machine

section
variable {s : State} {l n : Nat} (hn : n < 255) (hcount : s.rd .VIS_TRIG_PYR l = n + 1)
include hn hcount

theorem pyrStart_stray_leaves {pa : Nat} (g : VisGeom)
    (hstray : s.visStray l [(s.visIn l (s.lane l).kP, 64)] = some pa) :
    (s.pyrStart l g).rd .VIS_TRIG_PYR l = (if (s.lane l).unbind = true then 0 else n) ∧
      (s.pyrStart l g).rd .VIS_ERR_VALID l = 1 ∧ (s.pyrStart l g).rd .VIS_ERR_PA l = pa % 2 ^ 46 ∧
      ((s.lane l).unbind = false → (s.pyrStart l g).rd .VIS_STATUS_STATE l = 4) ∧
      Raised s (s.pyrStart l g) (288 + 16 * l + 5) ∧ (s.pyrStart l g).mem = s.mem := by
  have hleft := (s.visTake l .VIS_TRIG_PYR).visFault_leaves l pa
  rw [State.rd_visTake (by decide) hn hcount, State.lane_visTake] at hleft
  obtain ⟨hpyr, hvalid, hpa, hstate, hmem⟩ := hleft
  rw [State.pyrStart_of_stray g hstray]
  exact ⟨hpyr, hvalid, hpa, hstate, State.visFault_raised (.visTake (by decide)) l pa, hmem⟩

theorem pyrStart_missing_leaves {g : VisGeom} (hinside : s.visStray l [(s.visIn l (s.lane l).kP, 64)] = none)
    (hsound : s.paBad (s.visIn l (s.lane l).kP) 16 = false)
    (hframe : leNat (s.paBytes (s.visIn l (s.lane l).kP) 8) ≠ (s.lane l).kP) :
    (s.pyrStart l g).rd .VIS_TRIG_PYR l = n ∧ ((s.pyrStart l g).lane l).kP = (s.lane l).kP ∧
      (s.pyrStart l g).mem = s.mem ∧ (s.pyrStart l g).rd .VIS_STATUS_BUSY l = s.rd .VIS_STATUS_BUSY l ∧
      Raised s (s.pyrStart l g) (288 + 16 * l + 4) := by
  have hsettles : (s.visTake l .VIS_TRIG_PYR).Settles l (s.pyrStart l g) := by
    rw [State.pyrStart_of_missing hinside hsound hframe]
    exact .after .laneSettle .fire
  obtain ⟨unbind, bind, hlane⟩ := hsettles.lane
  refine ⟨?_, ?_, hsettles.mem, ?_, ?_⟩
  · rw [hsettles.moves.rd _ _ (by decide) (by decide), State.rd_visTake (by decide) hn hcount]
  · rw [hlane, State.lane_visTake]
  · rw [hsettles.moves.rd _ _ (by decide) (by decide), State.visTake, State.rd_wr_ne _ _ (by simp)]
  · rw [State.pyrStart_of_missing hinside hsound hframe]
    exact State.Settles.laneSettle.moves.raised <|
      State.MovesOnly.fire_raised (.visTake (by decide) : s.MovesOnly laneFields (s.visTake l .VIS_TRIG_PYR)) _

end

theorem pyrStart_found_eq {s : State} {l n : Nat} {g : VisGeom} (hcount : s.rd .VIS_TRIG_PYR l = n + 1)
    (hinside : s.visStray l [(s.visIn l (s.lane l).kP, 64)] = none)
    (hsound : s.paBad (s.visIn l (s.lane l).kP) 16 = false)
    (hframe : leNat (s.paBytes (s.visIn l (s.lane l).kP) 8) = (s.lane l).kP)
    (hranges : s.visStray l [(s.visIn l (s.lane l).kP + 64, g.planeBytes),
      (s.visPyr l (s.lane l).kP g, pyrBytes g.sizes)] = none) :
    s.pyrStart l g = (s.wr .VIS_TRIG_PYR l n).wr .VIS_STATUS_BUSY l (setBit (s.rd .VIS_STATUS_BUSY l) 0) := by
  rw [State.pyrStart_of_found hinside hsound hframe hranges, State.visTake, hcount, State.visSetBusy,
    State.rd_wr_ne _ _ (by simp)]
  rfl

/-- What a started motion run leaves, from a lane in the state `s` (R349, R352). -/
theorem motionStart_leaves {s : State} {l n out : Nat} {bs : List Byte} {fuel : Nat} (hn : n < 255)
    (hcount : s.rd .VIS_TRIG_MOT l = n + 1) :
    let t := ((s.visTake l .VIS_TRIG_MOT).paWrite out bs fuel).visSetBusy l 1 true
    t.rd .VIS_TRIG_MOT l = n ∧ t.visBusy l 1 = true ∧ t.mem = (s.paWrite out bs fuel).mem := by
  have hcells : s.SameCells (s.visTake l .VIS_TRIG_MOT) := ⟨rfl, rfl, rfl⟩
  obtain ⟨hmem, -⟩ := hcells.paWrite out bs fuel
  refine ⟨?_, State.visBusy_visSetBusy _ _ _ (by decide), hmem⟩
  rw [State.visSetBusy, State.rd_wr_ne _ _ (by simp), State.MovesOnly.paWrite.rd _ _ (by decide) (by decide),
    State.rd_visTake (by decide) hn hcount]

end Sys2Proof.Machine
end

section
/-! The ends of the three runs (R350, R352, R354, R358). -/

namespace Sys2Proof.Machine

/-- A run's end reported: an uncorrectable word, the run's own source, and a lane that can settle. -/
def State.runReported (s : State) (l : Nat) (bad : Bool) (n : Nat) : State :=
  ((if bad then s.visFire l 7 else s).visFire l n).laneSettle l

theorem State.Settles.runReported {s : State} {l n : Nat} {bad : Bool} : s.Settles l (s.runReported l bad n) :=
  .after .laneSettle <| .after .fire <| .ite .fire (.refl s)

section
variable {F : List Fld} {s t : State} (h : s.MovesOnly F t)
  (hF : Fld.GEY_RET_STATE ∉ F ∧ Fld.GEY_SRC_ENABLE ∉ F ∧ Fld.SYS_ID_PART ∉ F)
include h hF

theorem State.runReported_raised (l : Nat) (bad : Bool) (n : Nat) :
    Raised s (t.runReported l bad n) (288 + 16 * l + n) :=
  State.Settles.laneSettle.moves.raised <| State.MovesOnly.fire_raised (.after (.ite .fire (.refl t)) h) _ hF

theorem State.runReported_raised_bad (l n : Nat) : Raised s (t.runReported l true n) (288 + 16 * l + 7) :=
  State.MovesOnly.raised (F := settleFields) (.after State.Settles.laneSettle.moves .fire) (h.fire_raised _ hF)

end

/-- The fields a run's end can move. -/
def runFields : List Fld := laneFields ++ errFields ++ [.EQX_STREAM_TRIG_OVF, .EQX_STREAM_TRIG_COUNT]

theorem runFields_deciding :
    Fld.GEY_RET_STATE ∉ runFields ∧ Fld.GEY_SRC_ENABLE ∉ runFields ∧ Fld.SYS_ID_PART ∉ runFields := by decide

/-! ## The pyramid run -/

/-- A run of frame k read an uncorrectable word. -/
def State.pyrBad (s : State) (l : Nat) (ecc : Bool) (g : VisGeom) : Bool :=
  ecc || s.paBad (s.visIn l (s.lane l).kP) (64 + g.planeBytes)

/-- Pyramid run k's work in memory: it stores its pyramid, or detects the uncorrectable words it read. -/
def State.pyrStored (s : State) (l : Nat) (ecc : Bool) (g : VisGeom) : State :=
  if s.pyrBad l ecc g then s.paDetect (s.visIn l (s.lane l).kP) (64 + g.planeBytes)
  else ({ s with fresh := s.fresh + 1 } : State).paChunks (pyrChunks s.fresh (s.visPyr l (s.lane l).kP g)
    ((level0 g.fmt g.w g.h (s.visRows l (s.lane l).kP g)).pyramid g.sizes.length))

theorem State.MovesOnly.pyrStored {s : State} {l : Nat} {ecc : Bool} {g : VisGeom} :
    s.MovesOnly errFields (s.pyrStored l ecc g) := .ite .paDetect (.after .paChunks (.of_csr rfl))

/-- The lane after pyramid run k: its pyramid unit is at frame k + 1, and the frame waits for its motion run. -/
def State.pyrNext (s : State) (l : Nat) (ecc : Bool) (g : VisGeom) : VisLane :=
  let v := s.lane l
  { v with
    kP := v.kP + 1
    frames := v.frames ++ [⟨v.kP, s.pyrBad l ecc g, leNat (s.paBytes (s.visIn l v.kP + 8) 8), 0, []⟩] }

/-- A pyramid unit passes on with the lane `v`. -/
def State.pyrPassed (s : State) (l : Nat) (v : VisLane) : State :=
  (((s.setLane l v).wr .VIS_FRAME_NEXT l v.kP).visSetBusy l 0 false).visAdd l .VIS_TRIG_MOT .VIS_TRIG_OVF_MOT 1

theorem State.pyrEnd_eq (s : State) (l : Nat) (ecc : Bool) (g : VisGeom) :
    s.pyrEnd l ecc g = ((s.pyrStored l ecc g).pyrPassed l (s.pyrNext l ecc g)).runReported l (s.pyrBad l ecc g) 0 := by
  rw [State.pyrEnd]
  rfl

theorem State.MovesOnly.pyrPassed {s : State} {l : Nat} {v : VisLane} : s.MovesOnly laneFields (s.pyrPassed l v) :=
  .after (.mono .visAdd (by decide)) <| .after (.wr (by decide)) <| .after (.wr (by decide)) .setLane

theorem State.pyrPassed_leaves (s : State) (l : Nat) (v : VisLane) :
    (s.pyrPassed l v).visBusy l 0 = false ∧ (s.pyrPassed l v).lane l = v ∧
      (s.pyrPassed l v).rd .VIS_FRAME_NEXT l = v.kP % 2 ^ 32 ∧
      (s.pyrPassed l v).rd .VIS_TRIG_MOT l = min 255 (s.rd .VIS_TRIG_MOT l + 1) ∧ (s.pyrPassed l v).mem = s.mem := by
  have hadds (t : State) : t.MovesOnly [.VIS_TRIG_MOT, .VIS_TRIG_OVF_MOT]
      (t.visAdd l .VIS_TRIG_MOT .VIS_TRIG_OVF_MOT 1) := .visAdd
  refine ⟨?_, ?_, ?_, ?_, State.mem_visAdd _ _ _ _ _⟩
  · rw [State.pyrPassed, (hadds _).visBusy_eq, State.visBusy_visSetBusy _ _ _ (by decide)]
  · rw [State.pyrPassed, State.lane_visAdd]
    exact s.lane_setLane_same l v
  · rw [State.pyrPassed, (hadds _).rd _ _ (by decide) (by decide), State.visSetBusy, State.rd_wr_ne _ _ (by simp),
      State.rd_wr_same]
    rfl
  · rw [State.pyrPassed, State.rd_visAdd, State.visSetBusy, State.rd_wr_ne _ _ (by simp), State.rd_wr_ne _ _ (by simp),
      State.rd_setLane]

theorem pyrEnd_leaves (s : State) (l : Nat) (ecc : Bool) (g : VisGeom) :
    (s.pyrEnd l ecc g).visBusy l 0 = false ∧ ((s.pyrEnd l ecc g).lane l).kP = (s.lane l).kP + 1 ∧
      (s.pyrEnd l ecc g).rd .VIS_FRAME_NEXT l = ((s.lane l).kP + 1) % 2 ^ 32 ∧
      (s.pyrEnd l ecc g).rd .VIS_TRIG_MOT l = min 255 (s.rd .VIS_TRIG_MOT l + 1) ∧
      Raised s (s.pyrEnd l ecc g) (288 + 16 * l) ∧
      (ecc = true → (s.pyrEnd l ecc g).mem = s.mem ∧ Raised s (s.pyrEnd l ecc g) (288 + 16 * l + 7)) := by
  obtain ⟨hbusy, hlane, hnext, hmot, hmem⟩ := (s.pyrStored l ecc g).pyrPassed_leaves l (s.pyrNext l ecc g)
  have hends : ((s.pyrStored l ecc g).pyrPassed l (s.pyrNext l ecc g)).Settles l (s.pyrEnd l ecc g) := by
    rw [State.pyrEnd_eq]
    exact .runReported
  have hmoves : s.MovesOnly runFields ((s.pyrStored l ecc g).pyrPassed l (s.pyrNext l ecc g)) :=
    .after (.mono .pyrPassed (by decide)) (.mono .pyrStored (by decide))
  obtain ⟨unbind, bind, hlane'⟩ := hends.lane
  refine ⟨?_, ?_, ?_, ?_, ?_, fun hecc => ⟨?_, ?_⟩⟩
  · rw [hends.moves.visBusy_eq, hbusy]
  · rw [hlane', hlane, State.pyrNext]
  · rw [hends.moves.rd _ _ (by decide) (by decide), hnext, State.pyrNext]
  · rw [hends.moves.rd _ _ (by decide) (by decide), hmot, State.MovesOnly.pyrStored.rd _ _ (by decide) (by decide)]
  · rw [State.pyrEnd_eq]
    exact State.runReported_raised hmoves runFields_deciding l _ 0
  · rw [hends.mem, hmem, State.pyrStored, State.pyrBad, hecc, Bool.true_or, if_pos rfl, State.mem_paDetect]
  · have hbad : s.pyrBad l ecc g = true := by rw [State.pyrBad, hecc, Bool.true_or]
    rw [State.pyrEnd_eq, hbad]
    exact State.runReported_raised_bad hmoves runFields_deciding l 0

/-! ## The motion run -/

/-- The frame a lane holds under a number; one it does not hold counts as bad. -/
def VisLane.frame (v : VisLane) (k : Nat) : VisFrame := (v.frames.find? (·.k == k)).getD ⟨k, true, 0, 0, []⟩

def State.motBad (s : State) (l : Nat) (ecc : Bool) (g : VisGeom) : Bool :=
  let k := (s.lane l).kM
  ecc || ((s.lane l).frame k).bad || s.paBad (s.visPyr l k g) (pyrBytes g.sizes) ||
    (k != 0 && s.paBad (s.visPyr l (k - 1) g) (pyrBytes g.sizes))

/-- Motion run k's work in memory: it stores its header and its maps, or detects the uncorrectable words it read. -/
def State.motStored (s : State) (l : Nat) (ecc : Bool) (g : VisGeom) : State :=
  let k := (s.lane l).kM
  let n := pyrBytes g.sizes
  let e := s.visOut l k g
  if s.motBad l ecc g then (s.paDetect (s.visPyr l k g) n).paDetect (s.visPyr l (k - 1) g) n
  else
    (({ s with fresh := s.fresh + 1 } : State).paWrite (e + 8)
      (natLe 8 ((s.lane l).frame k).gcnt ++ natLe 4 (b2n (k == 0)) ++ natLe 44 0) 57).paChunks
        ((List.range 3).flatMap fun m => mapChunks s.fresh (e + g.mapOff m) m g.w0 g.h0 (s.visSearch l k g).1)

theorem State.MovesOnly.motStored {s : State} {l : Nat} {ecc : Bool} {g : VisGeom} :
    s.MovesOnly errFields (s.motStored l ecc g) :=
  .ite (.after .paDetect .paDetect) (.after .paChunks <| .after .paWrite (.of_csr rfl))

/-- The lane after motion run k: its motion unit is at frame k + 1, and the frame waits for its refine run. -/
def State.motNext (s : State) (l : Nat) (ecc : Bool) (g : VisGeom) : VisLane :=
  let v := s.lane l
  let r := s.visSearch l v.kM g
  let fine := (List.range 3).flatMap fun m => fineChunks (s.visOut l v.kM g + g.mapOff m) m g.w0 r.2.2
  { v with
    kM := v.kM + 1
    frames := v.frames.filter (·.k ≠ v.kM) ++
      [{ v.frame v.kM with bad := s.motBad l ecc g, refined := r.2.1, fine := if s.motBad l ecc g then [] else fine }] }

/-- A motion unit passes on with the lane `v`. -/
def State.motPassed (s : State) (l : Nat) (v : VisLane) : State :=
  ((s.setLane l v).visSetBusy l 1 false).visAdd l .VIS_TRIG_REF .VIS_TRIG_OVF_REF 1

theorem State.motEnd_eq (s : State) (l : Nat) (ecc : Bool) (g : VisGeom) :
    s.motEnd l ecc g = ((s.motStored l ecc g).motPassed l (s.motNext l ecc g)).runReported l (s.motBad l ecc g) 1 := by
  rw [State.motEnd]
  rfl

theorem State.MovesOnly.motPassed {s : State} {l : Nat} {v : VisLane} : s.MovesOnly laneFields (s.motPassed l v) :=
  .after (.mono .visAdd (by decide)) <| .after (.wr (by decide)) .setLane

theorem State.motPassed_leaves (s : State) (l : Nat) (v : VisLane) :
    (s.motPassed l v).visBusy l 1 = false ∧ (s.motPassed l v).lane l = v ∧
      (s.motPassed l v).rd .VIS_TRIG_REF l = min 255 (s.rd .VIS_TRIG_REF l + 1) := by
  have hadds (t : State) : t.MovesOnly [.VIS_TRIG_REF, .VIS_TRIG_OVF_REF]
      (t.visAdd l .VIS_TRIG_REF .VIS_TRIG_OVF_REF 1) := .visAdd
  refine ⟨?_, ?_, ?_⟩
  · rw [State.motPassed, (hadds _).visBusy_eq, State.visBusy_visSetBusy _ _ _ (by decide)]
  · rw [State.motPassed, State.lane_visAdd]
    exact s.lane_setLane_same l v
  · rw [State.motPassed, State.rd_visAdd, State.visSetBusy, State.rd_wr_ne _ _ (by simp), State.rd_setLane]

theorem motEnd_leaves (s : State) (l : Nat) (ecc : Bool) (g : VisGeom) :
    (s.motEnd l ecc g).visBusy l 1 = false ∧ ((s.motEnd l ecc g).lane l).kM = (s.lane l).kM + 1 ∧
      (s.motEnd l ecc g).rd .VIS_TRIG_REF l = min 255 (s.rd .VIS_TRIG_REF l + 1) ∧
      Raised s (s.motEnd l ecc g) (288 + 16 * l + 1) := by
  obtain ⟨hbusy, hlane, href⟩ := (s.motStored l ecc g).motPassed_leaves l (s.motNext l ecc g)
  have hends : ((s.motStored l ecc g).motPassed l (s.motNext l ecc g)).Settles l (s.motEnd l ecc g) := by
    rw [State.motEnd_eq]
    exact .runReported
  have hmoves : s.MovesOnly runFields ((s.motStored l ecc g).motPassed l (s.motNext l ecc g)) :=
    .after (.mono .motPassed (by decide)) (.mono .motStored (by decide))
  obtain ⟨unbind, bind, hlane'⟩ := hends.lane
  refine ⟨?_, ?_, ?_, ?_⟩
  · rw [hends.moves.visBusy_eq, hbusy]
  · rw [hlane', hlane, State.motNext]
  · rw [hends.moves.rd _ _ (by decide) (by decide), href, State.MovesOnly.motStored.rd _ _ (by decide) (by decide)]
  · rw [State.motEnd_eq]
    exact State.runReported_raised hmoves runFields_deciding l _ 1

/-! ## The refine run -/

/-- Refine run k's work in memory: it stores the refined entries, how many there are, and FRAME last. -/
def State.refStored (s : State) (l : Nat) (ecc : Bool) (g : VisGeom) : State :=
  let k := (s.lane l).kR
  let fr := (s.lane l).frame k
  let e := s.visOut l k g
  if ecc || fr.bad then s
  else ((s.paChunks fr.fine).paWrite (e + 20) (natLe 4 fr.refined) 5).paWrite e (natLe 8 k) 9

theorem State.MovesOnly.refStored {s : State} {l : Nat} {ecc : Bool} {g : VisGeom} :
    s.MovesOnly errFields (s.refStored l ecc g) := .ite (.refl s) (.after .paWrite <| .after .paWrite .paChunks)

/-- The lane after refine run k: its refine unit is at frame k + 1, and the frame is done. -/
def State.refNext (s : State) (l : Nat) : VisLane :=
  { s.lane l with kR := (s.lane l).kR + 1, frames := (s.lane l).frames.filter (·.k ≠ (s.lane l).kR) }

/-- A refine unit passes on from frame k with the lane `v`. -/
def State.refPassed (s : State) (l k : Nat) (v : VisLane) : State :=
  ((s.setLane l v).wr .VIS_FRAME_DONE l k).visSetBusy l 2 false

/-- The memory streams routed to a lane count a source event (R398). -/
def State.refStreams (s : State) (l : Nat) (src : State → Nat → Option Source) : State :=
  s.each ((s.routedStreams 2 l).filter fun i => (s.stream i).par.srcKind != 0) fun s i => s.eqxTrigger i (src s i)

/-- What a refine run announces to a stream: its frame, or none where an uncorrectable word ended a run of it. -/
def State.refSource (l : Nat) (bad : Bool) (fr : VisFrame) (g : VisGeom) (s : State) (i : Nat) : Option Source :=
  if bad then none else some (s.visSource l i fr g)

theorem State.refEnd_eq (s : State) (l : Nat) (ecc : Bool) (g : VisGeom) :
    s.refEnd l ecc g = (((s.refStored l ecc g).refPassed l (s.lane l).kR (s.refNext l)).refStreams l
      (State.refSource l (ecc || ((s.lane l).frame (s.lane l).kR).bad) ((s.lane l).frame (s.lane l).kR) g)).runReported l
        ecc 2 := by
  rw [State.refEnd]
  rfl

theorem State.MovesOnly.refPassed {s : State} {l k : Nat} {v : VisLane} :
    s.MovesOnly laneFields (s.refPassed l k v) := .after (.wr (by decide)) <| .after (.wr (by decide)) .setLane

theorem State.refPassed_leaves (s : State) (l k : Nat) (v : VisLane) :
    (s.refPassed l k v).visBusy l 2 = false ∧ (s.refPassed l k v).lane l = v ∧
      (s.refPassed l k v).rd .VIS_FRAME_DONE l = k % 2 ^ 32 := by
  refine ⟨State.visBusy_visSetBusy _ _ _ (by decide), s.lane_setLane_same l v, ?_⟩
  rw [State.refPassed, State.visSetBusy, State.rd_wr_ne _ _ (by simp), State.rd_wr_same]
  rfl

/-- A stream takes the source an event announces. -/
def State.takesSource (s : State) (i : Nat) (src : Option Source) : State :=
  if src.isSome then s.setStream i { s.stream i with src := src, lost := false } else s

/-- A stream's trigger counter takes one event. -/
def State.countsTrigger (s : State) (i : Nat) : State :=
  if s.rd .EQX_STREAM_TRIG_COUNT i = 255 then (s.wr .EQX_STREAM_TRIG_OVF i 1).eqxFire 4 i
  else s.wr .EQX_STREAM_TRIG_COUNT i (s.rd .EQX_STREAM_TRIG_COUNT i + 1)

theorem State.eqxTrigger_eq (s : State) (i : Nat) (src : Option Source) :
    s.eqxTrigger i src = if !(s.eqxRuns i) then s else (s.takesSource i src).countsTrigger i := rfl

theorem State.MovesOnly.eqxFire {F : List Fld} {s : State} {k bit : Nat} : s.MovesOnly F (s.eqxFire k bit) :=
  .after .fire (.of_csr rfl)

theorem State.MovesOnly.eqxTrigger {s : State} {i : Nat} {src : Option Source} :
    s.MovesOnly [.EQX_STREAM_TRIG_OVF, .EQX_STREAM_TRIG_COUNT] (s.eqxTrigger i src) := by
  have hovf (t : State) : t.MovesOnly [.EQX_STREAM_TRIG_OVF, .EQX_STREAM_TRIG_COUNT] (t.wr .EQX_STREAM_TRIG_OVF i 1) :=
    .wr (by decide)
  have hcount (t : State) : t.MovesOnly [.EQX_STREAM_TRIG_OVF, .EQX_STREAM_TRIG_COUNT] (t.countsTrigger i) :=
    .ite (.after .eqxFire (hovf t)) (.wr (by decide))
  rw [State.eqxTrigger_eq]
  exact .ite (.refl s) (.after (hcount _) (.ite (.of_csr rfl) (.refl s)))

theorem State.lane_eqxTrigger (s : State) (i l : Nat) (src : Option Source) :
    (s.eqxTrigger i src).lane l = s.lane l := by
  have hsource : (s.takesSource i src).lane l = s.lane l := by unfold State.takesSource; split <;> rfl
  have hcount (t : State) : (t.countsTrigger i).lane l = t.lane l := by
    unfold State.countsTrigger
    split
    · exact State.lane_fire _ _ _
    · rfl
  rw [State.eqxTrigger_eq]
  split
  · rfl
  · exact (hcount _).trans hsource

theorem State.MovesOnly.refStreams {s : State} {l : Nat} {src : State → Nat → Option Source} :
    s.MovesOnly [.EQX_STREAM_TRIG_OVF, .EQX_STREAM_TRIG_COUNT] (s.refStreams l src) := .each fun _ _ _ => .eqxTrigger

theorem State.lane_refStreams (s : State) (l : Nat) (src : State → Nat → Option Source) :
    (s.refStreams l src).lane l = s.lane l :=
  State.each_unchanged (State.lane · l) s fun s i _ => s.lane_eqxTrigger i l _

theorem refEnd_leaves (s : State) (l : Nat) (ecc : Bool) (g : VisGeom) :
    (s.refEnd l ecc g).visBusy l 2 = false ∧ ((s.refEnd l ecc g).lane l).kR = (s.lane l).kR + 1 ∧
      (s.refEnd l ecc g).rd .VIS_FRAME_DONE l = (s.lane l).kR % 2 ^ 32 ∧
      Raised s (s.refEnd l ecc g) (288 + 16 * l + 2) := by
  rw [State.refEnd_eq]
  generalize hsrc : State.refSource l (ecc || ((s.lane l).frame (s.lane l).kR).bad) _ g = src
  obtain ⟨hbusy, hlane, hdone⟩ := (s.refStored l ecc g).refPassed_leaves l (s.lane l).kR (s.refNext l)
  generalize hpassed : (s.refStored l ecc g).refPassed l (s.lane l).kR (s.refNext l) = t at hbusy hlane hdone ⊢
  have hends : (t.refStreams l src).Settles l ((t.refStreams l src).runReported l ecc 2) := .runReported
  have hstreams : t.MovesOnly [.EQX_STREAM_TRIG_OVF, .EQX_STREAM_TRIG_COUNT] (t.refStreams l src) := .refStreams
  have hmoves : s.MovesOnly runFields (t.refStreams l src) := .after (hstreams.mono (by decide)) <| hpassed ▸
    .after (.mono .refPassed (by decide)) (.mono .refStored (by decide))
  obtain ⟨unbind, bind, hlane'⟩ := hends.lane
  refine ⟨?_, ?_, ?_, State.runReported_raised hmoves runFields_deciding l ecc 2⟩
  · rw [hends.moves.visBusy_eq, hstreams.visBusy_eq, hbusy]
  · rw [hlane', t.lane_refStreams, hlane, State.refNext]
  · rw [hends.moves.rd _ _ (by decide) (by decide), hstreams.rd _ _ (by decide) (by decide), hdone]

/-! ## The commands -/

section
variable {s : State} {l : Nat} {g : VisGeom} (hl : l < 4) (hst : s.rd .VIS_STATUS_STATE l = 2)
  (hgeom : s.visGeom l = some g) (ecc : Bool)
include hl hst hgeom

theorem exec_pyrDone_of_route (hbusy : s.visBusy l 0 = true) : exec (.pyrDone l ecc) s = .next (s.pyrEnd l ecc g) := by
  show execPyrDone l ecc s = _
  simp [execPyrDone, hl.not_ge, hbusy, hst, hgeom]

theorem exec_motDone_of_route (hbusy : s.visBusy l 1 = true) : exec (.motDone l ecc) s = .next (s.motEnd l ecc g) := by
  show execMotDone l ecc s = _
  simp [execMotDone, hl.not_ge, hbusy, hst, hgeom]

theorem exec_frameDone_of_route (hbusy : s.visBusy l 2 = true) :
    exec (.frameDone l ecc) s = .next (s.refEnd l ecc g) := by
  show execFrameDone l ecc s = _
  simp [execFrameDone, hl.not_ge, hbusy, hst, hgeom]

end

end Sys2Proof.Machine
end

section
/-! The claim about route mode. -/

namespace Sys2Proof.Machine

/-- Settles O41: the registers of a lane, the start of each run by where its ranges lie, and each run's end as its work
in memory, its unit's passing on and its report. -/
theorem visionRouteMode : Obligations.VisionRouteMode := by
  unfold Obligations.VisionRouteMode
  refine ⟨?control, ?trigger, ?pyramid, ?others, ?ends⟩
  case control =>
    intro l s hl hserved
    refine ⟨fun hidle hoff hgeom htest hfailed => ?enable, exec_visEnable_of_badGeometry hserved,
      visDisable_clears hl hserved, exec_visDisable_of_command hserved⟩
    case enable =>
      have hreset {f : Fld} (hf : f ∈ enableFields) := s.rd_visState_laneEnabled (l := l) hf
      obtain ⟨hkP, hkM, hkR, hmem, hflights⟩ := s.visState_laneEnabled_leaves l
      refine ⟨_, exec_visEnable_of_idle hl hserved hidle hoff hgeom htest hfailed, State.rd_visState (by decide),
        s.rd_visState_laneEnabled_enable l, hreset (by decide), hreset (by decide), hkP, hkM, hkR,
        fun _ hf => s.rd_visState_laneEnabled_counter hf, State.visState_raised (s.laneEnabled_moves l) ?_ fun _ h => h,
        hmem, hflights⟩
      rw [s.rd_laneEnabled_state, hidle]
      decide
  case trigger =>
    intro l v s hl hserved
    refine ⟨fun hst hfits => ?_, fun hst hover => visTrigAdd_saturates hl hserved hst hover,
      exec_visTrigAdd_ignored v hserved⟩
    rw [exec_visTrigAdd_of_route v hl hserved hst, State.visAdd_of_fits _ hfits]
  case pyramid =>
    intro l n g s hl hst hon hgeom hfree hn hcount k e
    have hexec := exec_pyramidRunStart_of_route hst hon hl hgeom hfree hcount
    refine ⟨fun h2 hm => hexec.trans (congrArg _ (if_pos ⟨h2, hm⟩)), fun hgo => ?_⟩
    rw [if_neg hgo] at hexec
    refine ⟨fun pa hstray => ⟨_, hexec, pyrStart_stray_leaves hn hcount g hstray⟩, fun hinside hsound hframe =>
      ⟨_, hexec, pyrStart_missing_leaves hn hcount hinside hsound hframe⟩, fun hinside hsound hframe hranges => ?_⟩
    rw [hexec, pyrStart_found_eq hcount hinside hsound hframe hranges]
  case others =>
    intro l n g s hl hst hon hgeom
    exact ⟨fun hfree hn hcount hinside => ⟨_, exec_motionRunStart_of_route hst hon hl hgeom hfree hcount hinside,
      motionStart_leaves hn hcount⟩, exec_refineRunStart_of_route hst hon hl⟩
  case ends =>
    intro l ecc g s hl hst hgeom
    exact ⟨fun hbusy => ⟨_, exec_pyrDone_of_route hl hst hgeom ecc hbusy, pyrEnd_leaves s l ecc g⟩,
      fun hbusy => ⟨_, exec_motDone_of_route hl hst hgeom ecc hbusy, motEnd_leaves s l ecc g⟩,
      fun hbusy => ⟨_, exec_frameDone_of_route hl hst hgeom ecc hbusy, refEnd_leaves s l ecc g⟩⟩

end Sys2Proof.Machine
end

section
/-! The start of VISION_RUN: what it checks, the lane it takes, and what it will write (R142, R143, R355, R356). -/

namespace Sys2Proof.Machine

/-! ## Starts of a queue -/

section
variable {s : State} {gq op : Nat} {d : List Byte} {act : State → Flight → State}
  {check : State → List Byte → Except (Nat × Nat) Plan} {blocked : State → List Byte → Bool}
  {go : State → Flight → Plan → State × Flight} {fin : State → State} (hstarts : s.starts gq op d)
include hstarts

theorem State.startCmd_of_error {e : Nat × Nat} (hcheck : check s d = .error e) :
    s.startCmd gq op act check blocked go fin =
      (s.entered gq d (s.endedAtOnce gq d e.1 e.2)).tryCommit gq op act := by
  obtain ⟨hcand, hop, hmay, hheader⟩ := hstarts
  have hend : s.endNow gq ⟨(s.queue gq).sqStart, d, none⟩ e.1 e.2 act =
      (s.entered gq d (s.endedAtOnce gq d e.1 e.2)).tryCommit gq (dOp d) act := rfl
  rw [hop] at hend
  simp [State.startCmd, hcand, hop, hmay, hheader, hcheck, hend, Cand.placed]

/-- The attempt of a command that names tensors, in the cycle it starts in. -/
def State.startedWith (s : State) (gq : Nat) (d : List Byte) (p : Plan) : Flight :=
  { s.started gq d with binds := p.ins.map (s.bindOf (gqCtx gq)), outs := p.outs }

/-- An attempt leaves its ring, asks for the inputs that lie in host memory, and marks the pages of its inputs. -/
def State.launched (t : State) (c : Cand) (f : Flight) : State := ((t.enter f.gq c f).issueReads f).touchBinds f

/-- A command whose tensors are free and whose unit can take it acquires its outputs and starts. -/
theorem State.startCmd_of_acquired {p : Plan} {t : State} {f : Flight} (hcheck : check s d = .ok p)
    (hconflict : s.conflict gq (dInPlace d) p = none) (hacquire : s.canAcquire gq (dInPlace d) p = true)
    (hfree : blocked s d = false) (hgq : f.gq = gq)
    (hgo : go (s.acquire gq (s.queue gq).sqStart (dInPlace d) p.outs) (s.startedWith gq d p) p = (t, f)) :
    s.startCmd gq op act check blocked go fin = fin (t.launched ⟨(s.queue gq).sqStart, d, none⟩ f) := by
  obtain ⟨hcand, hop, hmay, hheader⟩ := hstarts
  have hattempt : { candFlight s gq ⟨(s.queue gq).sqStart, d, none⟩ with
      phase := .running, binds := p.ins.map (s.bindOf (gqCtx gq)), outs := p.outs } = s.startedWith gq d p := rfl
  simp [State.startCmd, hcand, hop, hmay, hheader, hcheck, hconflict, hacquire, hfree, hattempt, hgo, Cand.placed,
    State.launched, hgq]

end

/-- A queue whose one attempt runs has none to commit. -/
theorem State.tryCommit_of_running {s : State} {gq op : Nat} {act : State → Flight → State} {f : Flight}
    (hone : s.flightsOf gq = [f]) (hrunning : f.phase = .running) : s.tryCommit gq op act = s := by
  have hnone : s.commitNext gq = none := by simp [State.commitNext, hone, hrunning]
  simp [State.tryCommit, hnone]

theorem State.acquire_eq (s : State) (gq k : Nat) (ip : Bool) (outs : List Nat) :
    ∃ table, s.acquire gq k ip outs = { s with tensors := table } := by
  unfold State.acquire
  split
  · exact ⟨s.tensors, rfl⟩
  · refine List.foldlRecOn (motive := fun t : State => ∃ table : Sparse Tensor, t = { s with tensors := table })
      outs _ ⟨s.tensors, rfl⟩ ?_
    rintro _ ⟨table, rfl⟩ h -
    exact ⟨_, rfl⟩

/-! ## What a start leaves of lanes and attempts -/

/-- From `s` to `t` no lane and no attempt changes, and no register field but those of memory errors and Geyser's. -/
structure State.SparesLanes (s t : State) : Prop where
  rd : ∀ f u, f ∉ errFields → f ∉ irqFields → t.rd f u = s.rd f u
  vis : t.vis = s.vis
  flights : t.flights = s.flights

namespace State.SparesLanes

variable {s t u : State}

theorem refl (s : State) : s.SparesLanes s := ⟨fun _ _ _ _ => rfl, rfl, rfl⟩

theorem after (k : t.SparesLanes u) (h : s.SparesLanes t) : s.SparesLanes u :=
  ⟨fun f n hf hirq => (k.rd f n hf hirq).trans (h.rd f n hf hirq), k.vis.trans h.vis, k.flights.trans h.flights⟩

theorem ite {c : Prop} [Decidable c] {a b : State} (ha : s.SparesLanes a) (hb : s.SparesLanes b) :
    s.SparesLanes (if c then a else b) := by split <;> assumption

theorem each {α : Type} {g : State → α → State} {l : List α} (hg : ∀ (s : State) (x : α), s.SparesLanes (g s x)) :
    s.SparesLanes (s.each l g) := List.foldlRecOn l g (.refl s) fun _ ht x _ => (hg _ x).after ht

theorem of_eq (hcsr : t.csr = s.csr) (hvis : t.vis = s.vis) (hflights : t.flights = s.flights) : s.SparesLanes t :=
  ⟨fun f n _ _ => State.rd_congr hcsr f n, hvis, hflights⟩

theorem firstUE {line : Nat} : s.SparesLanes (s.firstUE line) where
  rd := State.MovesOnly.firstUE.rd
  vis := (congrArg State.vis (s.firstUE_onlyErrs line).same :)
  flights := (congrArg State.flights (s.firstUE_onlyErrs line).same :)

theorem detect {ctx va : Nat} : s.SparesLanes (s.detect ctx va) := by
  unfold State.detect
  split
  · exact .ite .firstUE (.refl s)
  · exact .refl s

theorem touch {ctx va : Nat} {write : Bool} : s.SparesLanes (s.touch ctx va write) := by
  unfold State.touch
  split
  · exact .refl s
  · exact .of_eq rfl rfl rfl

theorem touchRows {ctx n : Nat} {vas : List Nat} : s.SparesLanes (s.touchRows ctx n vas) :=
  .each fun _ _ => .each fun _ _ => .touch

theorem issueReads {f : Flight} : s.SparesLanes (s.issueReads f) := by
  refine .each fun s b => ?_
  split
  · exact .ite (.of_eq rfl rfl rfl) (.refl s)
  · exact .refl s

theorem touchBinds {f : Flight} : s.SparesLanes (s.touchBinds f) := .each fun _ _ => .touch

/-- Beside its own attempt, a start spares lanes and attempts. -/
theorem launched {s : State} (k : Nat) (d : List Byte) (f : Flight) :
    State.SparesLanes { s with flights := s.flights ++ [f] } (s.launched ⟨k, d, none⟩ f) :=
  .after .touchBinds <| .after .issueReads <| .of_eq rfl rfl rfl

end State.SparesLanes

/-! ## The lane a command takes (R356) -/

/-- A command takes its lane: TRG_PYR at 1, the other counters at 0. -/
def State.laneTaken (s : State) (l : Nat) (f : Flight) : State :=
  ((((s.wr .VIS_STATUS_STATE l 3).wr .VIS_TRIG_PYR l 1).wr .VIS_TRIG_MOT l 0).wr .VIS_TRIG_REF l 0).setLane l
    { s.lane l with cmd := some (f.gq, f.slot), done := false }

theorem State.visBegin_of_free {s : State} {l : Nat} (hfree : s.freeVisLane = some l) (f : Flight) (p : Plan) :
    s.visBegin f p = visGo (s.laneTaken l f) { f with unit := l + 1 } p := by
  rw [State.visBegin, hfree]
  rfl

theorem State.laneTaken_shows (s : State) (l : Nat) (f : Flight) :
    (s.laneTaken l f).rd .VIS_STATUS_STATE l = 3 ∧ (s.laneTaken l f).rd .VIS_TRIG_PYR l = 1 ∧
      (s.laneTaken l f).rd .VIS_TRIG_MOT l = 0 ∧ (s.laneTaken l f).rd .VIS_TRIG_REF l = 0 ∧
      ((s.laneTaken l f).lane l).cmd = some (f.gq, f.slot) := by
  have hstate : 3 % 2 ^ Fld.VIS_STATUS_STATE.info.width = 3 := rfl
  have hpyr : 1 % 2 ^ Fld.VIS_TRIG_PYR.info.width = 1 := rfl
  refine ⟨?_, ?_, ?_, ?_, ?_⟩
  · simp [State.laneTaken, hstate]
  · simp [State.laneTaken, hpyr]
  · simp [State.laneTaken]
  · simp [State.laneTaken]
  · rw [State.laneTaken, State.lane_setLane_same]

/-- A VISION_RUN computes its result and leaves the lanes and the attempts alone. -/
theorem visGo_sparesLanes (s : State) (f : Flight) (p : Plan) :
    s.SparesLanes (visGo s f p).1 ∧ ∃ res, (visGo s f p).2 = { f with res := res } := by
  unfold visGo
  dsimp only
  split
  · exact ⟨.detect, _, rfl⟩
  split
  · exact ⟨.detect, _, rfl⟩
  · refine ⟨?_, _, rfl⟩
    have hread (t : State) (n : Nat) : t.SparesLanes { t with fresh := n } := .of_eq rfl rfl rfl
    exact .ite (.after .touchRows (hread s _)) (.after .touchRows (.after .touchRows (hread s _)))

/-! ## What it checks (R355) -/

theorem visCheck_of_badBody {gq : Nat} {s : State} {d : List Byte}
    (h : (visBody d).levels = 0 ∨ 8 < (visBody d).levels ∨ (visBody d).fmt = 3) : visCheck gq s d = .error (6, 0) := by
  have hsize (w h : Nat) : (level0Size 3 w h).isNone = true := rfl
  refine if_pos ?_
  obtain h | h | h := h
  · simp [h]
  · simp [h]
  · simp [h, hsize]

theorem ok_of_ite_error {ε α : Type} {c : Prop} [Decidable c] {e : ε} {x : Except ε α} {a : α}
    (h : (if c then .error e else x) = .ok a) : x = .ok a := by
  split at h
  · cases h
  · exact h

theorem conflict_of_visCheck_ok {gq : Nat} {s : State} {d : List Byte} {p : Plan} (h : visCheck gq s d = .ok p) :
    s.conflict gq false p = none := by
  have h := ok_of_ite_error h
  dsimp only at h
  generalize Plan.mk (List.eraseDups _) (List.eraseDups _) [] = plan at h
  split at h
  · cases h
  next hnone =>
    cases ok_of_ite_error (ok_of_ite_error (ok_of_ite_error h))
    exact hnone

/-- A VISION_RUN is never in place (R139). -/
theorem dInPlace_of_visionHeader {gq : Nat} {d : List Byte} (hop : dOp d = 0x28) (hheader : headerOk gq d = true) :
    dInPlace d = false := by
  simp only [headerOk, hop, opInfo] at hheader
  cases h : dInPlace d
  · rfl
  · simp [h] at hheader

/-! ## The command -/

theorem exec_visionRun_of_error {ctx q : Nat} {s : State} {d : List Byte} {e : Nat × Nat}
    (hstarts : s.starts (qKey ctx q) 0x28 d) (hcheck : visCheck (qKey ctx q) s d = .error e) :
    exec (.visionRun ctx q) s = .next ((s.entered (qKey ctx q) d
      (s.endedAtOnce (qKey ctx q) d e.1 e.2)).tryCommit (qKey ctx q) 0x28 noAct) :=
  congrArg Host.Outcome.next (State.startCmd_of_error hstarts hcheck)

/-- What the attempt `f` leaves that has taken lane `l` and started. -/
theorem visLaunched_leaves (s : State) (l k : Nat) (d : List Byte) (f : Flight) (p : Plan) :
    let r := visGo (s.laneTaken l f) { f with unit := l + 1 } p
    let t := r.1.launched ⟨k, d, none⟩ r.2
    t.rd .VIS_STATUS_STATE l = 3 ∧ t.rd .VIS_TRIG_PYR l = 1 ∧ t.rd .VIS_TRIG_MOT l = 0 ∧ t.rd .VIS_TRIG_REF l = 0 ∧
      (t.lane l).cmd = some (f.gq, f.slot) ∧
      ∃ res, t.flights = s.flights ++ [{ f with unit := l + 1, res := res }] := by
  intro r t
  obtain ⟨hstate, hpyr, hmot, href, hcmd⟩ := s.laneTaken_shows l f
  obtain ⟨hgo, res, hres⟩ := visGo_sparesLanes (s.laneTaken l f) { f with unit := l + 1 } p
  have hlaunch := State.SparesLanes.launched (s := r.1) k d r.2
  have hrd {g : Fld} (hg : g ∉ errFields) (hirq : g ∉ irqFields) : t.rd g l = (s.laneTaken l f).rd g l :=
    (hlaunch.rd g l hg hirq).trans (hgo.rd g l hg hirq)
  have hvis : t.vis = (s.laneTaken l f).vis := hlaunch.vis.trans hgo.vis
  refine ⟨(hrd (by decide) (by decide)).trans hstate, (hrd (by decide) (by decide)).trans hpyr,
    (hrd (by decide) (by decide)).trans hmot, (hrd (by decide) (by decide)).trans href, ?_, res, ?_⟩
  · rw [State.lane, hvis]
    exact hcmd
  · rw [hlaunch.flights]
    exact congr (congrArg _ hgo.flights) (congrArg (fun g => [g]) hres)

/-- A VISION_RUN that may start, with its tensors free, takes the first free lane. -/
theorem State.startCmd_visionRun {s : State} {gq l : Nat} {d : List Byte} {p : Plan} {fin : State → State}
    (hstarts : s.starts gq 0x28 d) (hcheck : visCheck gq s d = .ok p) (hfree : s.freeVisLane = some l)
    (hacquire : s.canAcquire gq (dInPlace d) p = true) : ∃ table : Sparse Tensor,
      let r := visGo (State.laneTaken { s with tensors := table } l (s.startedWith gq d p))
        { s.startedWith gq d p with unit := l + 1 } p
      s.startCmd gq 0x28 noAct (visCheck gq)
        (fun t _ => t.freeVisLane.isNone && (t.unitVictim 0x28 (s.queue gq).cls).isNone)
        (fun t f p => (t.visClear (s.queue gq).cls).visBegin f p) fin =
          fin (r.1.launched ⟨(s.queue gq).sqStart, d, none⟩ r.2) := by
  obtain ⟨-, hop, -, hheader⟩ := id hstarts
  have hconflict : s.conflict gq (dInPlace d) p = none := by
    rw [dInPlace_of_visionHeader hop hheader]
    exact conflict_of_visCheck_ok hcheck
  obtain ⟨table, hacquired⟩ := s.acquire_eq gq (s.queue gq).sqStart (dInPlace d) p.outs
  have hstill : State.freeVisLane { s with tensors := table } = some l := hfree
  obtain ⟨-, res, hres⟩ := visGo_sparesLanes (State.laneTaken { s with tensors := table } l (s.startedWith gq d p))
    { s.startedWith gq d p with unit := l + 1 } p
  refine ⟨table, State.startCmd_of_acquired hstarts hcheck hconflict hacquire (by simp [hfree]) (by rw [hres]; rfl) ?_⟩
  rw [hacquired, State.visClear, hstill]
  exact State.visBegin_of_free hstill _ p

/-- What a VISION_RUN leaves that takes lane `l` with the plan `p`. -/
theorem visionRun_takesLane {ctx q l : Nat} {s : State} {d : List Byte} {p : Plan}
    (hstarts : s.starts (qKey ctx q) 0x28 d) (hcheck : visCheck (qKey ctx q) s d = .ok p)
    (hfree : s.freeVisLane = some l) (hacquire : s.canAcquire (qKey ctx q) (dInPlace d) p = true)
    (hempty : s.flightsOf (qKey ctx q) = []) :
    Runs (.visionRun ctx q) s fun t => t.rd .VIS_STATUS_STATE l = 3 ∧ t.rd .VIS_TRIG_PYR l = 1 ∧
      t.rd .VIS_TRIG_MOT l = 0 ∧ t.rd .VIS_TRIG_REF l = 0 ∧
      (t.lane l).cmd = some (qKey ctx q, (s.queue (qKey ctx q)).sqStart) ∧
      ∃ f ∈ t.flights, f.gq = qKey ctx q ∧ f.slot = (s.queue (qKey ctx q)).sqStart ∧ f.desc = d ∧ f.unit = l + 1 ∧
        f.phase = .running ∧ f.outs = p.outs := by
  obtain ⟨table, hstart⟩ := State.startCmd_visionRun (fin := fun s => s.tryCommit (qKey ctx q) 0x28 noAct) hstarts hcheck
    hfree hacquire
  obtain ⟨hstate, hpyr, hmot, href, hcmd, res, hflights⟩ := visLaunched_leaves { s with tensors := table } l
    (s.queue (qKey ctx q)).sqStart d (s.startedWith (qKey ctx q) d p) p
  refine ⟨_, (congrArg Host.Outcome.next hstart :), ?_⟩
  rw [State.tryCommit_of_running (f := { s.startedWith (qKey ctx q) d p with unit := l + 1, res := res }) ?_ rfl]
  · exact ⟨hstate, hpyr, hmot, href, hcmd, { s.startedWith (qKey ctx q) d p with unit := l + 1, res := res },
      hflights ▸ List.mem_append_right _ (List.mem_singleton.2 rfl), rfl, rfl, rfl, rfl, rfl, rfl⟩
  · have hone : List.filter (fun f : Flight => decide (f.gq = qKey ctx q)) s.flights = [] := hempty
    rw [State.flightsOf, hflights, List.filter_append, hone]
    simp [State.startedWith, State.started]

/-- With PYR_ONLY a VISION_RUN whose input can be read writes the pyramid of its input. -/
theorem visGo_writes_of_pyrOnly {s : State} {f : Flight} {rows : List Nat} (p : Plan)
    (hpyr : (visBody f.desc).pyrOnly = true)
    (hread : s.loadRows (gqCtx f.gq) (visRow (visBody f.desc).fmt (visBody f.desc).w)
      ((List.range (visBody f.desc).h).map fun y =>
        (s.tensor (gqCtx f.gq) (visBody f.desc).cur).curBuf + y * (visBody f.desc).pitch) = .ok rows) :
    (visGo s f p).2.res.writes = pyrChunks s.fresh (s.outVA (gqCtx f.gq) (visBody f.desc).pyr false)
      ((level0 (visBody f.desc).fmt (visBody f.desc).w (visBody f.desc).h rows.toArray).pyramid (visBody f.desc).levels) := by
  simp only [visGo, hread, hpyr, if_true, List.append_nil]
  rfl

end Sys2Proof.Machine
end

section
/-! The claim about commands and the search. -/

namespace Sys2Proof.Machine

/-- Settles O42: bounds on samples, the order of the search, and the start of VISION_RUN by what its check answers. -/
theorem visionCommandsAndSearch : Obligations.VisionCommandsAndSearch := by
  unfold Obligations.VisionCommandsAndSearch
  refine ⟨fun fmt w h rows x y hfmt => level0_le rows x y hfmt, fun p hp => ⟨rfl, rfl, Plane.down_le hp⟩,
    fun l hl => bestHit_least hl, fun p lambda bias bx by_ => ?still, refineBlocks_of_zero, fun ctx q s d hstarts =>
      ⟨fun e hcheck => exec_visionRun_of_error hstarts hcheck, fun p l hcheck hfree hacquire hempty =>
        visionRun_takesLane hstarts hcheck hfree hacquire hempty⟩,
    fun s f p rows => visGo_writes_of_pyrOnly p, fun gq s d => visCheck_of_badBody⟩
  case still =>
    obtain ⟨conf, hblock⟩ := block0_still p lambda bias bx by_
    rw [hblock]
    exact ⟨rfl, rfl, rfl⟩

end Sys2Proof.Machine
end
